-- ==== Sys2Proof/Word.lean ====
section
/-! DEFINITION. The word types of the YN8140 and their plainest arithmetic (00_scope: R7, R8, R9). -/
namespace Sys2Proof

/-- One byte: the unit of every layout (00_scope, R9). -/
abbrev Byte := BitVec 8
/-- A register: every register is 32 bits wide (00_scope, Registers). -/
abbrev Word := BitVec 32
/-- A Meridian count: 64 bits of 10 ns ticks (00_scope, R6). -/
abbrev Count := BitVec 64
/-- A run of bytes in increasing offset order (R9, R10). -/
abbrev Bytes := List Byte
/-- A host partition, 0 to 3. -/
abbrev Part := BitVec 2

end Sys2Proof
end

