-- ==== Sys2Proof/Machine/Operands.lean ====
section
/-! DEFINITION. The operand forms of the commands: which die, a command's header, a Transit message's header, readings,
and the operands of the larger descriptors (14_transit, 16_rings_doorbells_descriptors). -/
namespace Sys2Proof.Machine

/-- One of the two dies (01_architecture). -/
inductive Die where
  | field | host
  deriving DecidableEq, Repr

/-- The two register windows (22_register_map), and BAR2 with the MSI-X table (15, R374). -/
inductive Window where
  | host | field | bar2
  deriving DecidableEq, Repr

/-- The form of an access: one aligned-size 32-bit word with all byte enables set, one 64-bit word, or any other (R373, R374). -/
inductive Access where
  | dword | qword | other
  deriving DecidableEq, Repr

/-- A character of a lane: a byte, or where k is set the control character of that byte value (10, R255). -/
structure LChar where
  k : Bool
  b : Byte
  deriving DecidableEq, Repr

/-- A lane end: A or B (09). -/
inductive End where
  | a | b
  deriving DecidableEq, Repr

/-- What a command descriptor carries beside its operands (16, descriptor header), and its place in its ring. -/
structure CmdHdr where
  part : Part
  ring : BitVec 4
  sqPos : BitVec 16
  quiet : Bool
  tag : BitVec 64
  handle : Word
  deriving DecidableEq, Repr

/-- What an arriving Transit message carries besides its payload (14, message layout), and how its blocks decoded. -/
structure LinkHdr where
  type : Byte
  mflags : Byte
  part : Byte
  nblk : Byte
  seq : BitVec 16
  ack : BitVec 16
  tag : BitVec 32
  /-- Blocks that decoded CORRECTED (R339). -/
  corrected : Nat
  /-- Every block decoded CLEAN or CORRECTED and the CRC passes. -/
  good : Bool
  /-- Every reserved byte of the payload is 0 (R359). -/
  resv : Bool
  deriving DecidableEq, Repr

/-- A LINK_NAK: the message and the expected SEQ in its payload (14, message types). -/
structure NakMsg where
  hdr : LinkHdr
  seq : BitVec 16
  deriving DecidableEq, Repr

/-- What a TRAIN says besides FRESH: lane masks and behaviour level (14, message types). -/
structure TrainBody where
  masks : BitVec 12
  level : Byte
  deriving DecidableEq, Repr

/-- A port as it has trained: SPEED and WIDTH of HOST_PORT_STATUS (15). -/
structure PortLink where
  speed : BitVec 2
  width : BitVec 2
  deriving DecidableEq, Repr
/-- Why a port does not serve: D3hot, else Bus Master Enable 0 (R388). -/
structure PortHold where
  d3 : Bool
  link : PortLink
  deriving DecidableEq, Repr

/-- The times of R137 in ticks: from the decision point to the end of the resolve, and from there to the presentation. -/
structure Delay where
  lat : Nat
  pres : Nat
  deriving DecidableEq, Repr
/-- A comparator's output asserted at run consecutive samples, and the times of its report (R290). -/
structure Crossing where
  run : Nat
  delay : Delay
  deriving DecidableEq, Repr
/-- A level at a pin, and the consecutive samples that have shown it (R294). -/
structure PinRun where
  pin : Bool
  run : Nat
  deriving DecidableEq, Repr

/-- CREATE's operands (16, operand layouts). -/
structure CreateOps where
  kind : BitVec 2
  root : Bool
  adopt : Bool
  reqIndex : Bool
  profile : BitVec 12
  parent : Word
  index : BitVec 17
  bind : Word
  igain : BitVec 24
  vgain : BitVec 16
  elsb : Word
  mirror : Word
  deriving DecidableEq, Repr

/-- RECONFIGURE's operands (16, operand layouts). -/
structure ReconfOps where
  profileSel : Bool
  parentSel : Bool
  gainsSel : Bool
  mirrorSel : Bool
  root : Bool
  profile : BitVec 12
  parent : Word
  igain : BitVec 24
  vgain : BitVec 16
  mirror : Word
  deriving DecidableEq, Repr

/-- A RECONFIGURE selects something (R72). -/
def ReconfOps.selects (o : ReconfOps) : Bool := o.profileSel || o.parentSel || o.gainsSel || o.mirrorSel

/-- BUF and LEN of a read (16, operand layouts). -/
structure ReadOps where
  buf : BitVec 64
  len : Word
  deriving DecidableEq, Repr

/-- A command the field die runs, with its operands decoded (16, operand layouts). -/
inductive FCmd where
  | nop
  | create (o : CreateOps)
  | destroy
  | reconfigure (o : ReconfOps)
  | closeCh (soft : Bool)
  | openCh
  | release
  | grant (grantee : Part) (mask : BitVec 3) (subtree : Bool)
  | readChannel (o : ReadOps)
  | readSubtree (o : ReadOps) (first : BitVec 17)
  | readProfile (o : ReadOps) (p : BitVec 16)
  | readContext (o : ReadOps)
  | readEnergy (o : ReadOps) (final : Bool)
  | readHistory (o : ReadOps) (start count : BitVec 16)
  | readCapture (o : ReadOps) (slot : BitVec 16) (off : Word)
  | readLoopset (o : ReadOps) (n : Byte)
  | writeProfile (p : BitVec 16) (data : Bytes)
  | writeLoopset (n : Byte) (data : Bytes)
  | bankWrite (data : Bytes)
  | ctxSwap
  | energySet (imp exp : BitVec 64)
  | demandReset
  | capture (pre post : BitVec 16)
  | captureFree (slot : BitVec 16)
  deriving DecidableEq, Repr

/-- One gate of a thermometry site: the counts N1 and N2 (17, R407). -/
structure Gate where
  n1 : Nat
  n2 : Nat
  deriving DecidableEq, Repr

/-- The 64-bit registers read through a LO register that latches (12, R313). -/
inductive WideReg where
  | cnt | stn | pps
  deriving DecidableEq, Repr

/-- A timer that can be owned: a compare channel or a down-counter (12, R328). -/
inductive Timer where
  | cmp (n : BitVec 5)
  | dct (n : BitVec 4)
  deriving DecidableEq, Repr

/-- A pin whose level the safety block reads back (18, R434). -/
inductive OutPin where
  | dg (n : BitVec 4)
  | safeout (n : BitVec 2)
  deriving DecidableEq, Repr

/-- FSTATE's state-change codes (14; the numbers are log entry 23). -/
inductive FCode where
  | power | safe | resetEntry | partDone | trained
  deriving DecidableEq, Repr

/-- Instructions of a test access port (21, R483, R484). -/
inductive TapOp where
  | idcode | bypass | sample
  | read (offset : Word)
  | write (offset : Word) (value : Word)
  | halt | resume | extest
  deriving DecidableEq, Repr

/-- The descriptors a submission ring answers with, from its SQ_HEAD on; a fetch beyond the list completes with an
error status (16, R395). -/
structure RingRead where
  ring : BitVec 4
  descs : List Bytes
  deriving DecidableEq, Repr

end Sys2Proof.Machine
end

