-- ==== Sys2Proof/Syntax.lean ====
section
/-! DEFINITION. The commands of the block: one constructor per row of the opcode table, with the row's operands. -/
namespace Sys2Proof
open Sys2Proof.Machine

/-- A command that reaches the block: a command descriptor, a register access, a message of Transit or of a lane, a pin, or an
event that falls due (spec/opcode_table.json). -/
inductive Instr where
  /-- NOP (R405). -/
  | nop (c : CmdHdr)
  /-- FENCE (R403). -/
  | fence (c : CmdHdr) (mask : BitVec 16) (timeout : Word)
  /-- FENCE_COMPLETE (R403). -/
  | fenceComplete (p : Part) (ring : BitVec 4)
  /-- FENCE_TIMEOUT (R403). -/
  | fenceTimeout (p : Part) (ring : BitVec 4)
  /-- CREATE (R515). -/
  | create (c : CmdHdr) (o : CreateOps)
  /-- DESTROY (R58). -/
  | destroy (c : CmdHdr)
  /-- RECONFIGURE (R72). -/
  | reconfigure (c : CmdHdr) (o : ReconfOps)
  /-- CLOSE (R70). -/
  | closeCh (c : CmdHdr) (soft : Bool)
  /-- OPEN (R70). -/
  | openCh (c : CmdHdr)
  /-- RELEASE (R159). -/
  | release (c : CmdHdr)
  /-- GRANT (R379). -/
  | grant (c : CmdHdr) (grantee : Part) (mask : BitVec 3) (subtree : Bool)
  /-- READ_CHANNEL (R86). -/
  | readChannel (c : CmdHdr) (o : ReadOps)
  /-- READ_SUBTREE (R404). -/
  | readSubtree (c : CmdHdr) (o : ReadOps) (first : BitVec 17)
  /-- READ_PROFILE (R88). -/
  | readProfile (c : CmdHdr) (o : ReadOps) (profile : BitVec 16)
  /-- READ_CONTEXT (R215). -/
  | readContext (c : CmdHdr) (o : ReadOps)
  /-- READ_ENERGY (R226). -/
  | readEnergy (c : CmdHdr) (o : ReadOps) (final : Bool)
  /-- READ_HISTORY (R229). -/
  | readHistory (c : CmdHdr) (o : ReadOps) (start : BitVec 16) (count : BitVec 16)
  /-- READ_CAPTURE (R233). -/
  | readCapture (c : CmdHdr) (o : ReadOps) (slot : BitVec 16) (off : Word)
  /-- READ_LOOPSET (R189). -/
  | readLoopset (c : CmdHdr) (o : ReadOps) (n : Byte)
  /-- WRITE_PROFILE (R514). -/
  | writeProfile (c : CmdHdr) (profile : BitVec 16) (data : Bytes)
  /-- WRITE_LOOPSET (R191). -/
  | writeLoopset (c : CmdHdr) (n : Byte) (data : Bytes)
  /-- CTX_BANK_WRITE (R200). -/
  | ctxBankWrite (c : CmdHdr) (data : Bytes)
  /-- CTX_SWAP (R200). -/
  | ctxSwap (c : CmdHdr)
  /-- ENERGY_SET (R222). -/
  | energySet (c : CmdHdr) (imp : BitVec 64) (exp : BitVec 64)
  /-- DEMAND_RESET (R225). -/
  | demandReset (c : CmdHdr)
  /-- CAPTURE (R232). -/
  | capture (c : CmdHdr) (pre : BitVec 16) (post : BitVec 16)
  /-- CAPTURE_FREE (R233). -/
  | captureFree (c : CmdHdr) (slot : BitVec 16)
  /-- SET_OWNER (R478). -/
  | setOwner (p : Part)
  /-- COMMISSION (R480). -/
  | commission (p : Part)
  /-- COMM_EXIT (R481). -/
  | commExit (p : Part)
  /-- DEBUG (R483). -/
  | debug (p : Part)
  /-- DEBUG_END (R483). -/
  | debugEnd (p : Part)
  /-- FIELD (R478). -/
  | toFielded (p : Part)
  /-- SEAL (R478). -/
  | toSealed (p : Part)
  /-- RETURN (R479). -/
  | returnPart (p : Part)
  /-- SET_BL (R487). -/
  | setBl (p : Part) (level : BitVec 4)
  /-- ATTEST (R490). -/
  | attest (p : Part)
  /-- COMMISSIONING_EXPIRY (R481). -/
  | commissioningExpiry
  /-- DEBUG_EXPIRY (R483). -/
  | debugExpiry
  /-- CHALLENGE_EXPIRY (R475). -/
  | challengeExpiry
  /-- LOCKOUT_END (R476). -/
  | lockoutEnd
  /-- REGISTER_WRITE (R15). v: the bytes written, as many of them as the access has. -/
  | registerWrite (p : Part) (w : Window) (off : Word) (v : BitVec 64) (acc : Access)
  /-- WIDE_LO_READ (R313). -/
  | wideLoRead (p : Part) (r : WideReg)
  /-- HI_WRITE_COMMIT (R315). -/
  | hiWriteCommit (p : Part) (off : Word) (v : Word)
  /-- MER_SLEW (R321). -/
  | merSlew (p : Part) (v : Word)
  /-- SLEW_STEP (R321). -/
  | slewStep
  /-- TIMER_CLAIM (R328). -/
  | timerClaim (p : Part) (t : Timer)
  /-- TIMER_RELEASE (R328). -/
  | timerRelease (p : Part) (t : Timer)
  /-- LOAD (R334). -/
  | load (p : Part) (k : BitVec 4) (ctl : Word)
  /-- COLD_ACK_WRITE (R75). -/
  | coldAckWrite (p : Part) (v : Word)
  /-- LANE_ENABLE (R242). -/
  | laneEnable (p : Part) (l : BitVec 5) (en : Bool)
  /-- REENUM (R249). -/
  | reenum (p : Part) (l : BitVec 5)
  /-- HEAL (R247). -/
  | heal (p : Part) (l : BitVec 5)
  /-- HOLD_ALL (R155). -/
  | holdAll (p : Part) (v : Bool)
  /-- HIST_CFG_WRITE (R229). -/
  | histCfgWrite (p : Part) (v : Word)
  /-- ADC_INJ_SWTRIG (R306). -/
  | adcInjSwtrig (p : Part) (mask : BitVec 4)
  /-- REFBUF_EN (R302). -/
  | refbufEn (p : Part) (b : Bool)
  /-- LOG_SELECT (R472). -/
  | logSelect (p : Part) (seq : Word)
  /-- REQ_RUN_QUIET (R448). -/
  | reqRunQuiet (p : Part) (quiet : Bool)
  /-- REQ_STANDBY (R449). -/
  | reqStandby (p : Part)
  /-- STANDBY_ENTRY (R450). -/
  | standbyEntry
  /-- SOFT (R454). -/
  | soft (p : Part) (key : BitVec 16)
  /-- WAKE_FIELD (R367). -/
  | wakeField (p : Part)
  /-- ENTER (R444). -/
  | enterSafe (p : Part) (v : Bool)
  /-- SAF_CONFIRM (R440). -/
  | safConfirm (p : Part) (v : Word)
  /-- PART_SETUP_WRITE (R376). -/
  | partSetupWrite (p : Part) (n : Part) (v : Word)
  /-- RING_CFG_WRITE (R397). -/
  | ringCfgWrite (p : Part) (isCq : Bool) (n : BitVec 4) (v : Word)
  /-- CMD (R362). -/
  | cmd (x : LinkHdr) (ring : BitVec 4) (desc : Bytes)
  /-- BULK (R362). -/
  | bulk (x : LinkHdr) (off : Word) (data : Bytes)
  /-- BULK_TIMEOUT (R362). -/
  | bulkTimeout (tag : BitVec 32)
  /-- TUN_RD (R368). -/
  | tunRd (x : LinkHdr) (off : Word)
  /-- TUN_WR (R368). -/
  | tunWr (x : LinkHdr) (off : Word) (v : Word)
  /-- TUN_CPL (R370). -/
  | tunCpl (x : LinkHdr) (v : Word)
  /-- TUNNEL_TIMEOUT (R370). -/
  | tunnelTimeout (p : Part)
  /-- PART_RST (R386). -/
  | partRst (x : LinkHdr)
  /-- KEEPALIVE (R364). -/
  | keepalive (d : Die) (x : LinkHdr)
  /-- KEEPALIVE_LOSS (R364). -/
  | keepaliveLoss (d : Die)
  /-- TRAIN (R365). -/
  | trainLink (d : Die) (x : LinkHdr) (fresh : Bool) (b : TrainBody)
  /-- LINK_ACK (R363). -/
  | linkAck (d : Die) (cls : Bool) (x : LinkHdr)
  /-- LINK_NAK (R360). -/
  | linkNak (d : Die) (cls : Bool) (x : NakMsg)
  /-- RESEND_TIMEOUT (R361). -/
  | resendTimeout (d : Die) (cls : Bool)
  /-- FSTATE (R366). -/
  | fstate (x : LinkHdr) (code : FCode) (kind : Byte) (power : Byte) (safe : Bool)
  /-- CPL (R398). -/
  | cpl (x : LinkHdr) (ring : BitVec 4) (b : Bytes)
  /-- EVT (R398). -/
  | evt (x : LinkHdr) (recs : List Bytes)
  /-- HWRITE (R398). -/
  | hwrite (x : LinkHdr) (addr : BitVec 64) (data : Bytes)
  /-- WAKE_LINK (R452). -/
  | wakeLink
  /-- DOORBELL_POLL (R392). -/
  | doorbellPoll (p : Part)
  /-- DESCRIPTOR_FETCH (R393). -/
  | descriptorFetch (p : Part) (db : List Word) (reads : List RingRead)
  /-- PAYLOAD_READ_DONE (R362). -/
  | payloadReadDone (p : Part) (ring : BitVec 4) (pos : BitVec 16) (ok : Bool) (data : Bytes)
  /-- MSIX_TIMER_EXPIRY (R401). -/
  | msixTimerExpiry (p : Part) (ring : BitVec 4)
  /-- LINK_DOWN (R385). -/
  | linkDown (p : Part)
  /-- HOT_RESET (R385). -/
  | hotReset (p : Part)
  /-- FUNCTION_LEVEL_RESET (R385). -/
  | functionLevelReset (p : Part)
  /-- DELIVERY_HOLD (R388). -/
  | deliveryHold (p : Part) (x : PortHold)
  /-- DELIVERY_RESUME (R388). -/
  | deliveryResume (p : Part) (link : PortLink) (msix : BitVec 2)
  /-- HOST_STANDBY_ENTRY (R454). -/
  | hostStandbyEntry
  /-- HOST_STANDBY_EXIT (R454). -/
  | hostStandbyExit
  /-- SUPERFRAME_MARK (R261). -/
  | superframeMark
  /-- STREAM_CYCLE (R262). -/
  | streamCycle (l : BitVec 5)
  /-- TELEMETRY_FRAME (R82). -/
  | telemetryFrame (l : BitVec 5) (e : End) (cs : List LChar)
  /-- TELEMETRY_MISSING (R82). -/
  | telemetryMissing (l : BitVec 5) (pos : BitVec 6)
  /-- INGEST_UPDATE (R96). -/
  | ingestUpdate (x : BitVec 17)
  /-- MIRROR_UPDATE (R105). -/
  | mirrorUpdate (x : BitVec 17)
  /-- RETRY_POLICY (R148). -/
  | retryPolicy (x : BitVec 17)
  /-- FALLBACK_UNSYNCED (R111). -/
  | fallbackUnsynced (x : BitVec 17)
  /-- FAULT_SEEN (R123). -/
  | faultSeen (l : BitVec 5) (pos : BitVec 6) (pt : BitVec 6) (fnum : Byte) (opened : Bool) (crcOk : Bool) (delay : Delay)
  /-- CLEARED (R128). -/
  | cleared (l : BitVec 5) (pos : BitVec 6) (pt : BitVec 6) (fnum : Byte) (crcOk : Bool)
  /-- GATHER_DEADLINE (R124). -/
  | gatherDeadline (n : BitVec 16)
  /-- BREAKER_FAILURE_EXPIRY (R129). -/
  | breakerFailureExpiry (n : BitVec 16)
  /-- STORM_QUIET_EXPIRY (R142). -/
  | stormQuietExpiry (node : BitVec 17) (code : Byte) (p : Part)
  /-- DEPTH_REWRITE (R114). -/
  | depthRewrite (x : BitVec 17)
  /-- RETRY_DUE (R153). -/
  | retryDue (x : BitVec 17) (lag : Nat)
  /-- STABLE_DUE (R151). -/
  | stableDue (x : BitVec 17) (lag : Nat)
  /-- CONTEXT_CLAIM (R170). -/
  | contextClaim
  /-- QUEUE_TIMEOUT (R171). -/
  | queueTimeout (x : BitVec 17)
  /-- STREAM_FAIL (R175). -/
  | streamFail (x : BitVec 17)
  /-- RAMP_TIMEOUT (R176). -/
  | rampTimeout (x : BitVec 17)
  /-- SETTLE_FAIL (R180). -/
  | settleFail (x : BitVec 17)
  /-- LOOP_SAMPLE (R194). -/
  | loopSample (n : BitVec 8) (rawI : BitVec 16) (rawV : BitVec 16) (lat : Nat)
  /-- MISSING_PERIOD (R209). -/
  | missingPeriod (n : BitVec 8)
  /-- RAMP_OFF_STEP (R212). -/
  | rampOffStep (n : BitVec 8)
  /-- CAPTURE_WAIT_EXPIRY (R232). -/
  | captureWaitExpiry
  /-- PRETRIGGER_RELEASE (R300). -/
  | pretriggerRelease (n : BitVec 4)
  /-- STREAM_SAMPLE (R193). -/
  | streamSample (l : BitVec 5) (slot : BitVec 3) (pre : Bool) (seq : BitVec 4) (w : Word) (crcOk : Bool)
  /-- WRAP (R246). -/
  | wrap (l : BitVec 5) (pos : BitVec 6) (west : Bool) (crcOk : Bool)
  /-- RESTORED (R247). -/
  | restored (l : BitVec 5) (pos : BitVec 6) (west : Bool) (crcOk : Bool)
  /-- LOSS_OF_SIGNAL (R244). -/
  | lossOfSignal (l : BitVec 5) (e : End)
  /-- RECEIVER_LOCK (R242). -/
  | receiverLock (l : BitVec 5) (e : End)
  /-- LANE_TRAIN_TIMEOUT (R242). -/
  | laneTrainTimeout (l : BitVec 5)
  /-- MARK_LOOP_FAIL (R246). -/
  | markLoopFail (l : BitVec 5)
  /-- OUTSTATION_MISSING (R250). -/
  | outstationMissing (l : BitVec 5) (pos : BitVec 6)
  /-- HEALTH_POLL (R254). -/
  | healthPoll
  /-- HEALTH_ANSWER (R251): characters at an end of the lane. -/
  | healthAnswer (l : BitVec 5) (e : End) (cs : List LChar)
  /-- HEALTH_POLL_TIMEOUT (R254). -/
  | healthPollTimeout (l : BitVec 5) (pos : BitVec 6)
  /-- ENERGY_ANSWER (R219): characters at an end of the lane. -/
  | energyAnswer (l : BitVec 5) (e : End) (cs : List LChar)
  /-- COMMAND_RESEND (R277). -/
  | commandResend (l : BitVec 5) (pos : BitVec 6)
  /-- LANE_DEGRADED (R253). -/
  | laneDegraded (l : BitVec 5) (cvA : Nat) (cvB : Nat)
  /-- COMPARATOR_CROSSING (R290). -/
  | comparatorCrossing (n : BitVec 4) (x : Crossing)
  /-- HOLDOFF_EXPIRY (R291). -/
  | holdoffExpiry (n : BitVec 4) (asserted : Bool)
  /-- HOLD_LIMIT_EXPIRY (R291). -/
  | holdLimitExpiry (n : BitVec 4) (asserted : Bool)
  /-- CLEAR_TIME_EXPIRY (R291). -/
  | clearTimeExpiry (n : BitVec 4)
  /-- DFB_LEVEL (R294): pin DFBn. -/
  | dfbLevel (n : BitVec 4) (x : PinRun)
  /-- REF_READY (R302). -/
  | refReady
  /-- ADC_CROSS_CHECK (R303). t: the start of its slot. -/
  | adcCrossCheck (t : Count) (rawA : BitVec 16) (rawB : BitVec 16)
  /-- ADC_CALIBRATION_STEP (R304). t: the start of its slot. -/
  | adcCalibrationStep (t : Count)
  /-- ADC_REG_CONVERSION (R305). -/
  | adcRegConversion (e : End) (raw : BitVec 16)
  /-- ADC_INJ_TRIGGER (R306). -/
  | adcInjTrigger (m : BitVec 2)
  /-- ADC_INJ_DONE (R308). t: the start count of the run's entry 0. -/
  | adcInjDone (m : BitVec 2) (t : Count) (rawA : List (BitVec 16)) (rawB : List (BitVec 16))
  /-- COMPARE_FIRE (R324). -/
  | compareFire (n : BitVec 5)
  /-- PCMP_FIRE (R330). -/
  | pcmpFire (m : BitVec 3)
  /-- DCT_ZERO (R333). -/
  | dctZero (k : BitVec 4)
  /-- REFCLK_LOST (R316). -/
  | refclkLost
  /-- REFCLK_RESTORED (R318). -/
  | refclkRestored
  /-- PPS_EDGE (R319). -/
  | ppsEdge
  /-- PPS_LOST (R320). -/
  | ppsLost
  /-- TELEMETRY_PUBLICATION (R234). -/
  | telemetryPublication
  /-- DEMAND_INTERVAL_END (R224). -/
  | demandIntervalEnd
  /-- THROTTLE_STEP2 (R38). -/
  | throttleStep2
  /-- DEFER_SPAN_CLOSE (R41). -/
  | deferSpanClose
  /-- THERMOMETRY_DEMAND (R407). -/
  | thermometryDemand (d : Die)
  /-- THERMOMETRY_READING (R414). -/
  | thermometryReading (d : Die) (gates : List Gate)
  /-- CONFIRMING_READING (R416). -/
  | confirmingReading (d : Die) (k : BitVec 4) (g : Gate)
  /-- THERMAL_OFF_MEASUREMENT (R417). -/
  | thermalOffMeasurement (gates : List Gate) (supplyOk : Bool)
  /-- EPO_LEVEL (R424). -/
  | epoLevel (k : BitVec 2) (side : End) (lvl : Bool)
  /-- DISCREPANCY_EXPIRY (R429). -/
  | discrepancyExpiry (k : BitVec 2)
  /-- EPO_TEST_SCHEDULE (R431). -/
  | epoTestSchedule (logicOk : Bool)
  /-- TEST_PULSE_START (R431). -/
  | testPulseStart (ch : BitVec 3)
  /-- TEST_PULSE_END (R432). -/
  | testPulseEnd (ch : BitVec 3)
  /-- MASK_END (R432). -/
  | maskEnd (ch : BitVec 3)
  /-- OUTPUT_MISMATCH (R434). -/
  | outputMismatch (pin : OutPin)
  /-- OUTPUT_MATCH (R434). -/
  | outputMatch (pin : OutPin)
  /-- PARAM_CHECK (R441). -/
  | paramCheck (flips : List (BitVec 9 × Byte)) (badA : Bool) (badB : Bool)
  /-- REARM_PRESS (R435). -/
  | rearmPress
  /-- REARM_RELEASE (R436). -/
  | rearmRelease
  /-- STUCK_REARM (R435). -/
  | stuckRearm
  /-- REARM_STUCK_CLEAR (R437). -/
  | rearmStuckClear
  /-- POR (R446). -/
  | por (d : Die)
  /-- BOR (R447). -/
  | bor (d : Die)
  /-- PIN (R455). -/
  | pin (d : Die)
  /-- WDT (R455). -/
  | wdt (d : Die)
  /-- WARM_RESET_END (R182). -/
  | warmResetEnd
  /-- WAKE_PIN (R452). -/
  | wakePin
  /-- WAKE_TIME (R452). -/
  | wakeTime
  /-- FIRN_READY (R343). -/
  | firnReady
  /-- FILL_DONE (R342). -/
  | fillDone
  /-- CA_PARITY_ALERT (R344). -/
  | caParityAlert (wcrc : Bool) (first : Bool)
  /-- PLOUGH_BLOCK (R356). -/
  | ploughBlock (pats : List (BitVec 31 × Bytes))
  /-- NEVE_SCRUB (R43). -/
  | neveScrub (pats : List (BitVec 18 × Bytes))
  /-- NEVE_RECOVERY_DONE (R351). -/
  | neveRecoveryDone (x : BitVec 17)
  /-- LOG_WRITE (R469). -/
  | logWrite (bad : Bool)
  /-- SECTOR_ERASE_DONE (R469). -/
  | sectorEraseDone (bad : Bool)
  /-- IMAGE_UPDATE (R462). -/
  | imageUpdate (d : Die) (item : BitVec 2) (bad : Bool)
  /-- LOG_SCAN (R471). -/
  | logScan
  /-- TOKEN_REFILL (R468). -/
  | tokenRefill
  /-- REGISTER_READ (R15). -/
  | registerRead (p : Part) (w : Window) (off : Word) (acc : Access)
  /-- HOST_WARM_RESET_END (R455). -/
  | hostWarmResetEnd
  /-- FIRN_DOWN_TIMEOUT (R343). -/
  | firnDownTimeout
  /-- MARK_REACHES_END_B (R242). -/
  | markReachesEndB (l : BitVec 5) (ticks : BitVec 16)
  /-- SCAN_SLOT_CONVERSION (R299). -/
  | scanSlotConversion (n : BitVec 4) (rawI : BitVec 16) (rawV : BitVec 16)
  /-- DRIVER_STUCK (R294). -/
  | driverStuck (n : BitVec 4)
  /-- HOST_THERMAL_OFF_MEASUREMENT (R418). -/
  | hostThermalOffMeasurement (gates : List Gate) (supplyOk : Bool)
  /-- TRAINING_REPEAT (R459). -/
  | trainingRepeat (d : Die)
  /-- TAP_INSTRUCTION (R484). -/
  | tapInstruction (d : Die) (op : TapOp)
  deriving DecidableEq, Repr

end Sys2Proof
end

