-- ==== Sys2Proof/Decode.lean ====
section
/-! DEFINITION. The opcode table gives no row an encoding, so no word spells a command. -/
namespace Sys2Proof

/-- The command that a word of the opcode table spells: the table's rows have no bits, so none. -/
def decodeTableWord (_nbits _w : Nat) : Option Instr := none

end Sys2Proof
end

