-- ==== Sys2Proof/Machine/Base.lean ====
section
/-! DEFINITION. The helpers every chapter uses: tables with one canonical form, little-endian fields in byte runs (R9),
rounding and saturation (R8), the check codes of R283 and the Yelnan symbol code of R337 to R339. -/
namespace Sys2Proof.Machine

/-! ### Tables: (key, value) pairs with strictly rising keys -/

/-- A table from a number to a value; the keys rise strictly, and an unlisted key stands for the default. -/
abbrev Tab (α : Type) := List (Nat × α)

/-- The value listed at key i. -/
def tabLook {α : Type} : Tab α → Nat → Option α
  | [], _ => none
  | (k, v) :: r, i => if k = i then some v else tabLook r i

/-- List v at key i, keeping the keys strictly rising. -/
def tabPut {α : Type} : Tab α → Nat → α → Tab α
  | [], i, v => [(i, v)]
  | (k, w) :: r, i, v =>
    if i < k then (i, v) :: (k, w) :: r
    else if k = i then (i, v) :: r
    else (k, w) :: tabPut r i v

/-- Unlist key i. -/
def tabDel {α : Type} : Tab α → Nat → Tab α
  | [], _ => []
  | (k, w) :: r, i => if k = i then tabDel r i else (k, w) :: tabDel r i

/-- The value at key i, d where none is listed. -/
def tabGet {α : Type} (d : α) (t : Tab α) (i : Nat) : α := (tabLook t i).getD d

/-- Write v at key i; the default d is never listed, so equal tables are equal lists. -/
def tabSet {α : Type} [DecidableEq α] (d : α) (t : Tab α) (i : Nat) (v : α) : Tab α :=
  if v = d then tabDel t i else tabPut t i v

/-- Change every listed value; a value that becomes the default is no longer listed. -/
def tabMap {α : Type} [DecidableEq α] (d : α) (t : Tab α) (g : Nat → α → α) : Tab α :=
  (t.map (fun e => (e.1, g e.1 e.2))).filter (fun e => decide (e.2 ≠ d))

/-- The keys rise strictly from above b. -/
def tabRises {α : Type} : Option Nat → Tab α → Bool
  | _, [] => true
  | none, (k, _) :: r => tabRises (some k) r
  | some b, (k, _) :: r => decide (b < k) && tabRises (some k) r

/-- The canonical form of a table with default d. -/
def tabWf {α : Type} [DecidableEq α] (d : α) (t : Tab α) : Bool :=
  tabRises none t && t.all (fun e => decide (e.2 ≠ d))

/-- The first number from lo on, among n numbers, that p holds for. -/
def firstNat (p : Nat → Bool) : (lo n : Nat) → Option Nat
  | _, 0 => none
  | lo, n + 1 => if p lo then some lo else firstNat p (lo + 1) n

/-- Replace the element at position i. -/
def listSet {α : Type} : List α → Nat → α → List α
  | [], _, _ => []
  | _ :: r, 0, v => v :: r
  | a :: r, i + 1, v => a :: listSet r i v

/-! ### Numbers (R8) -/

/-- round(a / b) of R8: add one half, then truncate towards minus infinity; b above 0. -/
def rdiv (a b : Int) : Int := (2 * a + b) / (2 * b)
/-- Saturation to lo .. hi. -/
def sat (x lo hi : Int) : Int := if x < lo then lo else if hi < x then hi else x
/-- Saturation of a count that cannot be negative. -/
def satN (x hi : Nat) : Nat := min x hi
/-- A counter that saturates at its largest value. -/
def satAdd {w : Nat} (c : BitVec w) (n : Nat) : BitVec w := BitVec.ofNat w (min (c.toNat + n) (2 ^ w - 1))
/-- A peak register: the larger of the old value and x, saturated. -/
def satMax {w : Nat} (c : BitVec w) (x : Nat) : BitVec w := BitVec.ofNat w (max c.toNat (min x (2 ^ w - 1)))
/-- ceil(a / b). -/
def cdiv (a b : Nat) : Nat := (a + b - 1) / b
/-- The two's-complement value in w bits. -/
def ofInt (w : Nat) (x : Int) : BitVec w := BitVec.ofInt w x
/-- Bit i of a word as a flag. -/
def bit {w : Nat} (x : BitVec w) (i : Nat) : Bool := x.getLsbD i
/-- Bits [lo+n-1:lo] of a word. -/
def bits {w : Nat} (x : BitVec w) (lo n : Nat) : BitVec n := x.extractLsb' lo n
/-- A flag as one bit at position i of a 32-bit register. -/
def flag (b : Bool) (i : Nat) : Word := if b then BitVec.ofNat 32 (2 ^ i) else 0
/-- A field of a register: the value at position i. -/
def fld {w : Nat} (x : BitVec w) (i : Nat) : Word := BitVec.ofNat 32 (x.toNat * 2 ^ i)
/-- A number as a field of a register. -/
def fldN (n i : Nat) : Word := BitVec.ofNat 32 (n * 2 ^ i)

/-! ### Byte runs (R9) -/

/-- The byte at an offset; 0 past the end. -/
def u8 (b : Bytes) (o : Nat) : Byte := b.getD o 0
/-- The n bytes at an offset, read little-endian as a number. -/
def leNat (b : Bytes) (o : Nat) : Nat → Nat
  | 0 => 0
  | n + 1 => leNat b o n + (u8 b (o + n)).toNat * 256 ^ n
/-- A 16-bit little-endian field. -/
def u16 (b : Bytes) (o : Nat) : BitVec 16 := BitVec.ofNat 16 (leNat b o 2)
/-- A 32-bit little-endian field. -/
def u32 (b : Bytes) (o : Nat) : BitVec 32 := BitVec.ofNat 32 (leNat b o 4)
/-- A 64-bit little-endian field. -/
def u64 (b : Bytes) (o : Nat) : BitVec 64 := BitVec.ofNat 64 (leNat b o 8)
/-- n bytes of a number, little-endian. -/
def toLe (x : Nat) : Nat → Bytes
  | 0 => []
  | n + 1 => BitVec.ofNat 8 x :: toLe (x / 256) n
/-- The bytes of a bit vector, little-endian, n of them. -/
def le {w : Nat} (n : Nat) (x : BitVec w) : Bytes := toLe x.toNat n
/-- n zero bytes. -/
def zeros (n : Nat) : Bytes := List.replicate n 0
/-- Pad with zero bytes, or cut, to length n. -/
def pad (n : Nat) (b : Bytes) : Bytes := (b ++ zeros (n - b.length)).take n
/-- The n bytes at an offset, zeros past the end. -/
def slice (b : Bytes) (o n : Nat) : Bytes := pad n (b.drop o)
/-- Two byte runs XORed, to the length of the shorter. -/
def xorBytes (a b : Bytes) : Bytes := List.zipWith (· ^^^ ·) a b
/-- Overwrite the bytes at an offset. -/
def splice (b : Bytes) (o : Nat) (x : Bytes) : Bytes := b.take o ++ x ++ b.drop (o + x.length)
/-- The first offset of o .. o+n-1 whose byte is not 0. -/
def firstNonzero (b : Bytes) (o n : Nat) : Option Nat := firstNat (fun i => u8 b i != 0) o n

/-! ### Check codes (R283) -/

/-- A fold over bytes whose number is worked out before each step, so that long runs stay cheap to evaluate. -/
def foldNow (g : Nat → Byte → Nat) : Bytes → Nat → Nat
  | [], c => c
  | b :: r, 0 => foldNow g r (g 0 b)
  | b :: r, c + 1 => foldNow g r (g (c + 1) b)
/-- One bit of a reflected 32-bit CRC with polynomial poly. -/
def crc32Bit (poly : Nat) : Nat → Nat
  | 0 => 0
  | c + 1 => (c + 1) / 2 ^^^ poly * ((c + 1) % 2)
/-- One byte of a reflected 32-bit CRC. -/
def crc32Byte (poly c : Nat) (b : Byte) : Nat :=
  let s := crc32Bit poly
  s (s (s (s (s (s (s (s (c ^^^ b.toNat))))))))
/-- CRC-32C over a byte run: 0x1EDC_6F41 reflected (R283). -/
def crc32c (b : Bytes) : BitVec 32 :=
  BitVec.ofNat 32 (foldNow (crc32Byte 0x82F63B78) b 0xFFFFFFFF) ^^^ 0xFFFFFFFF
/-- One bit of CRC-16/CCITT. -/
def crc16Bit : Nat → Nat
  | 0 => 0
  | c + 1 => 2 * (c + 1) % 65536 ^^^ 0x1021 * ((c + 1) / 32768)
/-- One byte of CRC-16/CCITT. -/
def crc16Byte (c : Nat) (b : Byte) : Nat :=
  let s := crc16Bit
  s (s (s (s (s (s (s (s (c ^^^ b.toNat * 256))))))))
/-- CRC-16/CCITT over a byte run (R283). -/
def crc16 (b : Bytes) : BitVec 16 := BitVec.ofNat 16 (foldNow crc16Byte b 0xFFFF)
/-- One bit of CRC-8. -/
def crc8Bit (c : BitVec 8) : BitVec 8 := if c.getLsbD 7 then (c <<< 1) ^^^ 0x07 else c <<< 1
/-- One byte of CRC-8. -/
def crc8Byte (c : BitVec 8) (b : Byte) : BitVec 8 :=
  let s := crc8Bit
  s (s (s (s (s (s (s (s (c ^^^ b))))))))
/-- CRC-8 over a byte run (R283). -/
def crc8 (b : Bytes) : BitVec 8 := b.foldl crc8Byte 0

/-! ### The Yelnan symbol code RS(36,32) (R337 to R339) -/

/-- Multiplication by x in GF(2^8) with 0x11D (R337). -/
def gfX (a : Byte) : Byte := if a.getLsbD 7 then (a <<< 1) ^^^ 0x1D else a <<< 1
/-- Multiplication in GF(2^8): the product of a and the low n bits of b. -/
def gfMulBits (a b : Byte) : Nat → Byte
  | 0 => 0
  | n + 1 => gfX (gfMulBits a b n) ^^^ (if b.getLsbD (7 - n) then a else 0)
/-- Multiplication in GF(2^8). -/
def gfMul (a b : Byte) : Byte := gfMulBits a b 8
/-- a to the power n in GF(2^8). -/
def gfPow (a : Byte) : Nat → Byte
  | 0 => 1
  | n + 1 => gfMul a (gfPow a n)
/-- The inverse in GF(2^8), a to the power 254; 0 for 0. -/
def gfInv (a : Byte) : Byte :=
  let a2 := gfMul a a
  let a4 := gfMul a2 a2
  let a8 := gfMul a4 a4
  let a16 := gfMul a8 a8
  let a32 := gfMul a16 a16
  let a64 := gfMul a32 a32
  let a128 := gfMul a64 a64
  gfMul a128 (gfMul a64 (gfMul a32 (gfMul a16 (gfMul a8 (gfMul a4 a2)))))
/-- One step of the encoder's division by g(x) = x^4 + 0x0F x^3 + 0x36 x^2 + 0x78 x + 0x40 (R337). -/
def rsStep (r : Byte × Byte × Byte × Byte) (d : Byte) : Byte × Byte × Byte × Byte :=
  let k := d ^^^ r.1
  (r.2.1 ^^^ gfMul k 0x0F, r.2.2.1 ^^^ gfMul k 0x36, r.2.2.2 ^^^ gfMul k 0x78, gfMul k 0x40)
/-- The four check bytes of 32 data bytes (R338). -/
def rsCheck (d : Bytes) : Bytes :=
  let r := d.foldl rsStep (0, 0, 0, 0)
  [r.1, r.2.1, r.2.2.1, r.2.2.2]
/-- The syndrome S_j of a received word (R339): its value at alpha^j, by Horner's rule. -/
def rsSyn (c : Bytes) (j : Nat) : Byte := c.foldl (fun a s => gfMul a (gfPow 2 j) ^^^ s) 0
/-- The four syndromes. -/
def rsSyns (c : Bytes) : Bytes := [rsSyn c 0, rsSyn c 1, rsSyn c 2, rsSyn c 3]
/-- The poison codeword: 32 zero data bytes and the check bytes 0x5A (R345). -/
def rsPoison : Bytes := zeros 32 ++ [0x5A, 0x5A, 0x5A, 0x5A]

/-- What the decoder reports of a received word (R339). -/
inductive RsOut where
  | clean
  | poisoned
  | corrected (symbols : List (Nat × Byte))
  | uncorrectable
  deriving DecidableEq, Repr

/-- The contribution of error value v at symbol i to syndrome j: v times alpha^(j(35-i)). -/
def rsTerm (i : Nat) (v : Byte) (j : Nat) : Byte := gfMul v (gfPow (gfPow 2 (35 - i)) j)
/-- Two symbol errors at i and k with syndromes s: the values, from S0 and S1. -/
def rsPair (s : Bytes) (i k : Nat) : Byte × Byte :=
  let xi := gfPow 2 (35 - i)
  let xk := gfPow 2 (35 - k)
  let ek := gfMul (gfMul xi (u8 s 0) ^^^ u8 s 1) (gfInv (xi ^^^ xk))
  (u8 s 0 ^^^ ek, ek)
/-- Do the errors give the syndromes s? -/
def rsFits (s : Bytes) (es : List (Nat × Byte)) : Bool :=
  (List.range 4).all (fun j => es.foldl (fun a e => a ^^^ rsTerm e.1 e.2 j) 0 == u8 s j)
/-- One symbol error that gives the syndromes, searched at n symbols from symbol i on. -/
def rsOne (s : Bytes) : Nat → Nat → Option (List (Nat × Byte))
  | _, 0 => none
  | i, n + 1 => if rsFits s [(i, u8 s 0)] then some [(i, u8 s 0)] else rsOne s (i + 1) n
/-- Two symbol errors with the first at i, searched at n symbols from k on. -/
def rsTwoAt (s : Bytes) (i : Nat) : Nat → Nat → Option (List (Nat × Byte))
  | _, 0 => none
  | k, n + 1 =>
    let e := rsPair s i k
    if rsFits s [(i, e.1), (k, e.2)] then some [(i, e.1), (k, e.2)] else rsTwoAt s i (k + 1) n
/-- Two symbol errors, the first searched at n symbols from i on. -/
def rsTwo (s : Bytes) : Nat → Nat → Option (List (Nat × Byte))
  | _, 0 => none
  | i, n + 1 => match rsTwoAt s i (i + 1) (35 - i) with
    | some es => some es
    | none => rsTwo s (i + 1) n
/-- The decoder without erasures (R339). -/
def rsDecode (c : Bytes) : RsOut :=
  let s := rsSyns c
  if s = [0, 0, 0, 0] then .clean
  else if s = rsSyns rsPoison then .poisoned
  else match rsOne s 0 36 with
    | some es => .corrected es
    | none => match rsTwo s 0 36 with
      | some es => .corrected es
      | none => .uncorrectable
/-- Erased symbols 2d and 2d+1 and one further error at symbol k: the three values from S0, S1, S2. -/
def rsTriple (s : Bytes) (d k : Nat) : Byte × Byte × Byte :=
  let a := gfPow 2 (35 - 2 * d)
  let b := gfPow 2 (34 - 2 * d)
  let x := gfPow 2 (35 - k)
  -- eliminate a and b: S2 + (a+b) S1 + ab S0 = ek (x+a)(x+b)
  let t := u8 s 2 ^^^ gfMul (a ^^^ b) (u8 s 1) ^^^ gfMul (gfMul a b) (u8 s 0)
  let ek := gfMul t (gfInv (gfMul (x ^^^ a) (x ^^^ b)))
  let s0 := u8 s 0 ^^^ ek
  let s1 := u8 s 1 ^^^ gfMul x ek
  let eb := gfMul (gfMul a s0 ^^^ s1) (gfInv (a ^^^ b))
  (s0 ^^^ eb, eb, ek)
/-- One further error beside the erased device d, searched at n symbols from k on. -/
def rsEraseOne (s : Bytes) (d : Nat) : Nat → Nat → Option (List (Nat × Byte))
  | _, 0 => none
  | k, n + 1 =>
    if k / 2 = d then rsEraseOne s d (k + 1) n
    else
      let e := rsTriple s d k
      let es := [(2 * d, e.1), (2 * d + 1, e.2.1), (k, e.2.2)]
      if rsFits s es then some es else rsEraseOne s d (k + 1) n
/-- The decoder of a rank whose device d is declared failed (R347). -/
def rsDecodeErased (d : Nat) (c : Bytes) : RsOut :=
  let s := rsSyns c
  if s = [0, 0, 0, 0] then .clean
  else if s = rsSyns rsPoison then .poisoned
  else
    let e := rsPair s (2 * d) (2 * d + 1)
    if rsFits s [(2 * d, e.1), (2 * d + 1, e.2)] then .corrected [(2 * d, e.1), (2 * d + 1, e.2)]
    else match rsEraseOne s d 0 36 with
      | some es => .corrected es
      | none => .uncorrectable

end Sys2Proof.Machine
end

