-- ==== Sys2Proof/Machine/Crypto.lean ====
section
/-! DEFINITION. What the security block computes over tokens and statements (21, R474, R478, R490): SHA-256, the curve P-256, and ECDSA
verification. The spec names the algorithms; their constants are of FIPS 180-4 and FIPS 186-4 (log entry 56). -/
namespace Sys2Proof.Machine

/-- A big-endian number. -/
def beNat (b : Bytes) : Nat := b.foldl (fun n x => n * 256 + x.toNat) 0

/-! ### SHA-256 -/

/-- The largest number below 2 to the n whose power e is at most x: one bit of it a step, the top bit first. -/
def rootBits (e x : Nat) : (n : Nat) → Nat → Nat
  | 0, r => r
  | n + 1, r => rootBits e x n (if (r + 2 ^ n) ^ e ≤ x then r + 2 ^ n else r)
/-- The first 32 fraction bits of the root e of p. -/
def rootFraction (e p : Nat) : Word := BitVec.ofNat 32 (rootBits e (p * 2 ^ (32 * e)) 40 0)
/-- The primes below a bound, by trial division. -/
def primesBelow (n : Nat) : List Nat :=
  (List.range n).filter (fun p => decide (2 ≤ p) && (List.range p).all (fun d => decide (d < 2) || p % d != 0))
/-- What the digest carries along: the last four words of each of its two chains, the newest first. Chain x gets the
full sum of a round, chain y the sum without the majority half. -/
structure Chains where
  x : List Word
  y : List Word
  deriving DecidableEq, Repr
/-- Where the chains begin: square roots of the first eight primes. -/
def chainsBegin : Chains :=
  let r := (primesBelow 20).map (rootFraction 2)
  { x := r.take 4, y := r.drop 4 }
/-- The exclusive or of a word's rotations. -/
def turns (w : Word) (amounts : List Nat) : Word := (amounts.map w.rotateRight).foldl (· ^^^ ·) 0
/-- The word that leaves the 16-word window next but 15: of the words 16, 15, 7 and 2 rounds back. -/
def windowNext (w : List Word) : Word :=
  let near := w.getD 14 0
  let far := w.getD 1 0
  w.getD 0 0 + w.getD 9 0 + (turns far [7, 18] ^^^ far >>> 3) + (turns near [17, 19] ^^^ near >>> 10)
/-- One round under constant k: the window's oldest word enters both chains, and the window moves on. -/
def digestRound (v : Chains × List Word) (k : Word) : Chains × List Word :=
  let w := v.2
  let x := fun i => v.1.x.getD i 0
  let y := fun i => v.1.y.getD i 0
  let pick := y 2 ^^^ (y 0 &&& (y 1 ^^^ y 2))
  let most := (x 0 &&& x 1) ||| (x 2 &&& (x 0 ||| x 1))
  let half := k + w.getD 0 0 + y 3 + pick + turns (y 0) [6, 11, 25]
  ({ x := (half + most + turns (x 0) [2, 13, 22]) :: v.1.x.take 3, y := (x 3 + half) :: v.1.y.take 3 }, w.drop 1 ++ [windowNext w])
/-- One block of 64 bytes: 64 rounds whose constants are cube roots of primes, added to what came in. -/
def digestBlock (c : Chains) (block : Bytes) : Chains :=
  let w := (List.range 16).map (fun i => BitVec.ofNat 32 (beNat (slice block (4 * i) 4)))
  let r := (((primesBelow 312).map (rootFraction 3)).foldl digestRound (c, w)).1
  { x := List.zipWith (· + ·) c.x r.x, y := List.zipWith (· + ·) c.y r.y }
/-- The message closed off: 0x80, zeros to the last 8 bytes of a block, the length in bits big-endian. -/
def digestPad (m : Bytes) : Bytes := m ++ [0x80] ++ zeros ((119 - m.length % 64) % 64) ++ (toLe (8 * m.length) 8).reverse
/-- SHA-256, 32 bytes. -/
def sha256 (m : Bytes) : Bytes :=
  let p := digestPad m
  let c := (List.range (p.length / 64)).foldl (fun c i => digestBlock c (slice p (64 * i) 64)) chainsBegin
  ((c.x ++ c.y).map (fun w => (le 4 w).reverse)).flatten

/-! ### P-256 -/

/-- The prime of P-256. -/
def p256p : Nat := 0xFFFFFFFF00000001000000000000000000000000FFFFFFFFFFFFFFFFFFFFFFFF
/-- The constant b of P-256. -/
def p256b : Nat := 0x5AC635D8AA3A93E7B3EBBD55769886BC651D06B0CC53B0F63BCE3C3E27D2604B
/-- The order of its base point. -/
def p256n : Nat := 0xFFFFFFFF00000000FFFFFFFFFFFFFFFFBCE6FAADA7179E84F3B9CAC2FC632551
/-- A point in Jacobian coordinates; z 0: the point at infinity. -/
structure Pt where
  x : Nat
  y : Nat
  z : Nat
  deriving DecidableEq, Repr
/-- The base point. -/
def p256G : Pt :=
  { x := 0x6B17D1F2E12C4247F8BCE6E563A440F277037D812DEB33A0F4A13945D898C296,
    y := 0x4FE342E2FE1A7F9B8EE7EB4A7C0F9E162BCE33576B315ECECBB6406837BF51F5, z := 1 }
/-- a minus b modulo p. -/
def subP (a b : Nat) : Nat := (a + (p256p - b % p256p)) % p256p
/-- Twice a point. -/
def Pt.twice (q : Pt) : Pt :=
  let yy := q.y * q.y % p256p
  let s := 4 * q.x * yy % p256p
  let zz := q.z * q.z % p256p
  let m := 3 * (subP q.x zz * ((q.x + zz) % p256p)) % p256p
  let x := subP (m * m) (2 * s)
  { x := x, y := subP (m * subP s x) (8 * yy * yy), z := 2 * q.y * q.z % p256p }
/-- The sum of two points. -/
def Pt.plus (q r : Pt) : Pt :=
  if q.z = 0 then r
  else if r.z = 0 then q
  else
    let zq := q.z * q.z % p256p
    let zr := r.z * r.z % p256p
    let u1 := q.x * zr % p256p
    let u2 := r.x * zq % p256p
    let s1 := q.y * zr * r.z % p256p
    let s2 := r.y * zq * q.z % p256p
    let h := subP u2 u1
    let w := subP s2 s1
    if h = 0 then (if w = 0 then q.twice else { x := 1, y := 1, z := 0 })
    else
      let hh := h * h % p256p
      let hhh := h * hh % p256p
      let v := u1 * hh % p256p
      let x := subP (w * w) (hhh + 2 * v)
      { x := x, y := subP (w * subP v x) (s1 * hhh), z := h * q.z * r.z % p256p }
/-- k times a point, from the top of n bits. -/
def Pt.times (k : Nat) (q : Pt) : Nat → Pt
  | 0 => { x := 1, y := 1, z := 0 }
  | n + 1 =>
    let r := (Pt.times (k / 2) q n).twice
    if k % 2 = 1 then r.plus q else r
/-- b to the power e modulo m, for e of n bits. -/
def powMod (b m : Nat) : (e n : Nat) → Nat
  | _, 0 => 1
  | e, n + 1 =>
    let r := powMod b m (e / 2) n
    if e % 2 = 1 then r * r * b % m else r * r % m
/-- A 64-byte key is a point of P-256: x then y (R478). -/
def keyValid (k : Bytes) : Bool :=
  let x := beNat (slice k 0 32)
  let y := beNat (slice k 32 32)
  decide (x < p256p) && decide (y < p256p) && decide (y * y % p256p = (x * x * x + (p256p - 3) * x + p256b) % p256p)
/-- ECDSA verification of a message under a 64-byte key: r then s, each 32 bytes big-endian (21, token layout). -/
def ecdsaVerify (key msg sig : Bytes) : Bool :=
  let r := beNat (slice sig 0 32)
  let s := beNat (slice sig 32 32)
  let w := powMod s p256n (p256n - 2) 256
  let q : Pt := { x := beNat (slice key 0 32), y := beNat (slice key 32 32), z := 1 }
  let t := (Pt.times (beNat (sha256 msg) * w % p256n) p256G 256).plus (Pt.times (r * w % p256n) q 256)
  let zi := powMod t.z p256p (p256p - 2) 256
  keyValid key && decide (0 < r) && decide (r < p256n) && decide (0 < s) && decide (s < p256n) && decide (t.z ≠ 0) &&
    decide (t.x * (zi * zi % p256p) % p256p % p256n = r)

end Sys2Proof.Machine
end

