-- ==== Sys2Proof/Config.lean ====
section
/-! DEFINITION. What a part fixes and the spec does not give: constants without a body. No proof can see a value of one;
a statement that mentions one holds whatever the value is. Assumption log entries 2, 4 and 5 say where each is used. -/
namespace Sys2Proof.Config

/-- The unstated value number n of the run: State.free counts them (log entry 2). -/
opaque freeValue : Nat → BitVec 64
/-- The number the security block draws for a challenge, four 32-bit words, by draw number (21_security, R475). -/
opaque challenge : Nat → List Word
/-- Verluith's manufacturer code, as IDCODE carries it (21_security, debug). -/
opaque makerCode : BitVec 11
/-- ECDSA signature the device key makes over a message, 64 bytes (21_security, R490). -/
opaque ecdsaSign : (msg : Bytes) → Bytes
/-- The device's serial number, written at manufacture (21_security, SEC_SERIAL). -/
opaque serial : BitVec 64
/-- The public half of the device key, 64 bytes (21_security, SEC_DEVKEY). -/
opaque devKey : Bytes
/-- Verluith's public key (21_security). -/
opaque verluithKey : Bytes

end Sys2Proof.Config
end

