-- ==== Sys2Proof/Machine/StateNev.lean ====
section
/-! DEFINITION. The field die's protection state: channels (Névé entry, Firn record, energy, history), the profile and
loop-set tables, ingest, selectivity, storms, the timing wheel, the insertion queue, hot contexts and captures
(02 to 08, 13). -/
namespace Sys2Proof.Machine

/-- The eight channel states, in code order (02_channels_and_handles, channel state encoding). -/
inductive ChState where
  | free | opened | inserting | closed | tripped | retryWait | lockedOut | fallback
  deriving DecidableEq, Repr

/-- The four channel kinds, in code order (02, channel kinds). -/
inductive Kind where
  | switched | sense | direct | virt
  deriving DecidableEq, Repr

/-- The arrival classes of R82. -/
inductive ArrClass where
  | duplicate | missing | outseq | flagged | fresh
  deriving DecidableEq, Repr

/-- A Névé entry (03_protection_evaluation, R86). -/
structure Nev where
  /-- ID.GEN: the index's generation (R49). -/
  gen : BitVec 13
  kind : Kind
  state : ChState
  owner : BitVec 2
  profile : BitVec 12
  /-- TREE (R86, R109 of the tree chapter: 04_selectivity). -/
  parent : BitVec 17
  parentValid : Bool
  depth : BitVec 4
  fbSync : Bool
  prior : ChState
  /-- One PICKUP bit per element: INST, ST, LT, LT_ALARM, OV, UV from bit 0. -/
  pickup : BitVec 6
  igain : BitVec 24
  instCnt : BitVec 3
  dir : Bool
  disPend : Bool
  disRaised : Bool
  satRaised : Bool
  staleRaised : Bool
  vgain : BitVec 16
  iLast : BitVec 16
  vLast : BitVec 12
  status : BitVec 4
  miss : BitVec 4
  tok : BitVec 4
  rcnt : BitVec 8
  therm : BitVec 48
  stCnt : BitVec 16
  ovCnt : BitVec 12
  uvCnt : BitVec 12
  sfnLow : BitVec 8
  deriving DecidableEq, Repr

/-- What a channel is bound to (13_firn, R349 BIND and OSID): a point of an identity, a direct channel, or nothing. -/
inductive Bind where
  | none
  | point (lane : BitVec 5) (posAt : BitVec 6) (point : BitVec 6) (osid : BitVec 64)
  | direct (n : BitVec 4)
  deriving DecidableEq, Repr

/-- A timing-wheel entry (05, R150, R151): its kind and due count. -/
inductive Wheel where
  | none
  | retry (due : Count)
  | stable (due : Count)
  deriving DecidableEq, Repr

/-- Codewords 0 and 1 of a channel record (13_firn, R349). -/
structure ChRec where
  bind : Bind
  mirror : Option (BitVec 17)
  elsb : BitVec 32
  cause : BitVec 8
  lockReason : BitVec 3
  lockPrior : BitVec 3
  rcount : BitVec 4
  wheel : Wheel
  tState : Count
  thermSnap : BitVec 48
  hseq : BitVec 16
  deriving DecidableEq, Repr

/-- Where a channel's energy images stand (08_metering, R218, R219). -/
inductive MeterSync where
  /-- The next report takes a baseline. -/
  | first
  /-- A baseline read is out. -/
  | baseWait
  /-- The next report starts a resynchronisation. -/
  | resyncDue
  /-- A resynchronisation read is out. -/
  | resyncWait
  | ok
  deriving DecidableEq, Repr

/-- Codewords 2 to 4 of a channel record: energy and demand (13_firn, R349; 08, R218, R224, R226). -/
structure Meter where
  imp : BitVec 64
  exp : BitVec 64
  imgImp : BitVec 48
  imgExp : BitVec 48
  elsb2 : BitVec 32
  demImp : BitVec 32
  demExp : BitVec 32
  demPeak : BitVec 32
  runImp : BitVec 32
  runExp : BitVec 32
  tPeak : Count
  tApplied : Count
  tDemEnd : Count
  partialLast : Bool
  setByHost : Bool
  sync : MeterSync
  /-- The superframe of the last applied report (rotations_since_last of R218). -/
  lastSf : Nat
  /-- The running interval is short for this channel: it was created, or the part restarted, within it (R225). -/
  short : Bool
  /-- Codeword 2 was lost and no energy set has followed (R352). -/
  recordLost : Bool
  /-- Direct-channel counts held while Firn is not READY (R343). -/
  heldImp : Nat
  heldExp : Nat
  deriving DecidableEq, Repr

/-- A history record (08, R227). -/
structure HistRec where
  tEnd : Count
  iMin : BitVec 16
  iMax : BitVec 16
  iMean : BitVec 16
  vMin : BitVec 12
  vMax : BitVec 12
  vMean : BitVec 12
  fresh : BitVec 32
  span : BitVec 32
  state : ChState
  hflags : BitVec 8
  seq : BitVec 16
  deriving DecidableEq, Repr

/-- The history accumulators of a channel and its ring of records, oldest first (08, R227, R229). -/
structure Hist where
  iMin : BitVec 16
  iMax : BitVec 16
  iSum : Nat
  vMin : BitVec 12
  vMax : BitVec 12
  vSum : Nat
  fresh : Nat
  gap : Bool
  exportSeen : Bool
  satSeen : Bool
  stateChanged : Bool
  restart : Bool
  ring : List HistRec
  deriving DecidableEq, Repr

/-- What else the part holds for a channel between its steps. -/
structure Aux where
  /-- R148 has been applied since the entry into TRIPPED. -/
  policyApplied : Bool
  /-- The switch of the TRIPPED channel is confirmed open and R148 is due (R65). -/
  confirmed : Bool
  /-- No arrival yet since creation (R83). -/
  firstArrival : Bool
  /-- The channel entered FALLBACK because its record was lost, and no reconfigure has rewritten it (R353). -/
  recLost : Bool
  /-- The channel's outstation was declared missing while it was in FALLBACK (R67). -/
  osMissing : Bool
  /-- The health answer of R251 has been taken since. -/
  healthTaken : Bool
  /-- That answer's FB_OPENED bit of the point (R280). -/
  fbOpened : Bool
  /-- The count at which the present fallback configuration was queued, while it is not acknowledged (R111). -/
  fbQueued : Option Count
  /-- FALLBACK_UNSYNCED has been raised for it. -/
  fbRaised : Bool
  /-- The last element code raised (R404 ELEM). -/
  lastElem : BitVec 8
  /-- A TREE.DEPTH rewrite of the channel is pending (R114). -/
  depthPend : Bool
  /-- LOCAL_TRIP of the channel's next direct word (R292). -/
  localTrip : Bool
  deriving DecidableEq, Repr

/-- A channel: everything the part keeps at one index. -/
structure Chan where
  nev : Nev
  /-- Codewords 0 and 1 of the Firn record. -/
  fr : ChRec
  met : Meter
  hist : Hist
  aux : Aux
  deriving DecidableEq, Repr

/-- The Névé entry of a FREE index with generation g: every other field 0 (R86). -/
def Nev.free (g : BitVec 13) : Nev :=
  { gen := g, kind := .switched, state := .free, owner := 0, profile := 0, parent := 0, parentValid := false, depth := 0,
    fbSync := false, prior := .free, pickup := 0, igain := 0, instCnt := 0, dir := false, disPend := false, disRaised := false,
    satRaised := false, staleRaised := false, vgain := 0, iLast := 0, vLast := 0, status := 0, miss := 0, tok := 0, rcnt := 0,
    therm := 0, stCnt := 0, ovCnt := 0, uvCnt := 0, sfnLow := 0 }
/-- Codewords 0 and 1 with nothing in them. -/
def ChRec.empty : ChRec :=
  { bind := .none, mirror := none, elsb := 0, cause := 0, lockReason := 0, lockPrior := 0, rcount := 0, wheel := .none,
    tState := 0, thermSnap := 0, hseq := 0 }
/-- Codewords 2 to 4 cleared (R349). -/
def Meter.empty : Meter :=
  { imp := 0, exp := 0, imgImp := 0, imgExp := 0, elsb2 := 0, demImp := 0, demExp := 0, demPeak := 0, runImp := 0, runExp := 0,
    tPeak := 0, tApplied := 0, tDemEnd := 0, partialLast := false, setByHost := false, sync := .first, lastSf := 0,
    short := false, recordLost := false, heldImp := 0, heldExp := 0 }
/-- No history. -/
def Hist.empty : Hist :=
  { iMin := 0, iMax := 0, iSum := 0, vMin := 0, vMax := 0, vSum := 0, fresh := 0, gap := false, exportSeen := false,
    satSeen := false, stateChanged := false, restart := false, ring := [] }
/-- Nothing held. -/
def Aux.empty : Aux :=
  { policyApplied := false, confirmed := false, firstArrival := false, recLost := false, osMissing := false,
    healthTaken := false, fbOpened := false, fbQueued := none, fbRaised := false, lastElem := 0,
    depthPend := false, localTrip := false }
/-- A FREE index after a field-die cold start (R51). -/
def Chan.free : Chan :=
  { nev := Nev.free 0, fr := ChRec.empty, met := Meter.empty, hist := Hist.empty, aux := Aux.empty }

/-- One classed arrival waiting for an ingest pipe (R82), or one mirror update (R105). -/
structure Arrival where
  cls : ArrClass
  word : Word
  /-- The frame's superframe number byte. -/
  sfn : Byte
  deriving DecidableEq, Repr

/-- An arrival for a channel. -/
structure Waiting where
  ch : BitVec 17
  arr : Arrival
  deriving DecidableEq, Repr

/-- A range of free indices in the FIFO of R51: count indices from lo. -/
structure Span where
  lo : Nat
  count : Nat
  deriving DecidableEq, Repr

/-- Channels, tables and ingest (02, 03). -/
structure Nevs where
  /-- The channels; an unlisted index is FREE with generation 0. -/
  ch : Tab Chan
  /-- The free list, head first (R51). -/
  freeList : List Span
  /-- NEV_CNT_SWITCHED to NEV_CNT_VIRTUAL (R77). -/
  cntSwitched : BitVec 18
  cntSense : BitVec 18
  cntDirect : BitVec 5
  cntVirtual : BitVec 18
  /-- NEV_COLD_ACK.PENDING (R75). -/
  coldAck : BitVec 4
  /-- The profile table (R88): 256 bytes each; unlisted: all 0. -/
  prof : Tab Bytes
  /-- The loop-set table (R189): 128 bytes each. -/
  loops : Tab Bytes
  /-- NEV_SFN. -/
  sfn : BitVec 32
  /-- Superframes since the last field-die reset is SFN; all superframes of the run, for rotations and intervals. -/
  sfCount : Nat
  missed : BitVec 32
  outseq : BitVec 32
  flagged : BitVec 32
  dup : BitVec 32
  unbound : BitVec 32
  backlogPeak : BitVec 13
  mirrorPeak : BitVec 17
  /-- Arrivals waiting for a pipe, in arrival order (R106). -/
  arrivals : List Waiting
  /-- Mirror updates waiting (R107). -/
  mirrorQ : List Waiting
  /-- CMP0 marks until the end of the first superframe after a reset or STANDBY, in which no arrival is classed duplicate
  (R83). -/
  noDup : BitVec 2
  /-- The last word's status bits per point place, by identity and point: the word's [31:28] and the superframe (R56). -/
  lastWord : Tab (BitVec 4 × Nat)
  /-- NEV_ECC, NEV_PROF_ECC (13_firn). -/
  eccCorr : BitVec 16
  eccRecov : BitVec 8
  eccLost : BitVec 8
  pEccCorr : BitVec 16
  pEccRecov : BitVec 8
  pEccLost : BitVec 8
  /-- Entries whose recovery of R350 is running. -/
  recovering : List (BitVec 17)
  /-- The next Névé entry or profile the scrub reads (13). -/
  scrubPos : Nat
  /-- When the scrub's present pass began (R43). -/
  scrubFrom : Count
  /-- What the symbols of an on-chip codeword differ by from what was written: entry x at x, codeword k of profile p at
  131,072 + 8 p + k and of loop set s at 163,840 + 4 s + k; unlisted: by nothing (13). -/
  errs : Tab Bytes
  deriving DecidableEq, Repr

/-! ### Selectivity (04) -/

/-- The states of an open selectivity event (04, selectivity event states). -/
inductive SelState where
  | gather (due : Count)
  | committed (bfDue : Count)
  deriving DecidableEq, Repr

/-- A held member of an event. -/
structure Held where
  ch : BitVec 17
  released : Bool
  cleared : Bool
  deriving DecidableEq, Repr

/-- An open selectivity event (04, R123). -/
structure SelEv where
  num : BitVec 16
  cand : BitVec 17
  /-- The candidate of the COMMITTED state before any release (R128). -/
  origCand : BitVec 17
  path : List (BitVec 17)
  st : SelState
  held : List Held
  /-- Earlier candidates that became held or keep their TRIP. -/
  reports : Nat
  late : Bool
  nonsel : Bool
  deriving DecidableEq, Repr

/-- A remembered report, for the duplicate rule of R122. -/
structure Report where
  lane : BitVec 5
  pos : BitVec 6
  point : BitVec 6
  fnum : Byte
  cleared : Bool
  t : Count
  deriving DecidableEq, Repr

/-- An open storm, or the count of one superframe, of a (node, code, partition) triple (R140 to R142). -/
structure Storm where
  node : BitVec 17
  code : Byte
  part : Part
  /-- Events of this superframe. -/
  inSf : Nat
  opened : Bool
  suppressed : Nat
  tFirst : Count
  tLast : Count
  quiet : Nat
  /-- Channels with a suppressed event (R404 SUPPRESSED). -/
  chans : List (BitVec 17)
  deriving DecidableEq, Repr

/-- The selectivity engine, storms and the wheel's registers (04, 05). -/
structure Sel where
  enable : Bool
  stormN : BitVec 8
  stormQuiet : BitVec 4
  events : List SelEv
  nextNum : BitVec 16
  seen : List Report
  storms : List Storm
  reports : BitVec 32
  openedCnt : BitVec 32
  rBackup : BitVec 8
  rNoBackup : BitVec 8
  rNonsel : BitVec 8
  rLate : BitVec 8
  overflow : BitVec 16
  ignored : BitVec 16
  decPeak : BitVec 12
  retries : BitVec 32
  lForbidden : BitVec 8
  lExhausted : BitVec 8
  lRate : BitVec 8
  lPrior : BitVec 8
  qfull : BitVec 16
  lagPeak : BitVec 16
  holdAll : Bool
  deriving DecidableEq, Repr

/-! ### Insertion and Heliostat (06, 07) -/

/-- The insertion origins (06), with CAPTURE for a context that only captures (R215). -/
inductive Origin where
  | close | retry | soft | capture
  deriving DecidableEq, Repr

/-- The phases of a claimed context (R215). -/
inductive Phase where
  | prepare | ramp | settle | handover | rampOff | capture
  deriving DecidableEq, Repr

/-- An entry of the insertion queue (R169). -/
structure InsEnt where
  ch : BitVec 17
  origin : Origin
  tJoin : Count
  deriving DecidableEq, Repr

/-- One stage of a running chain (R183, R187): four states, exponent, LOWCNT and the last output mantissa. -/
structure Stage where
  s0 : Int
  s1 : Int
  s2 : Int
  s3 : Int
  e : Int
  low : Nat
  deriving DecidableEq, Repr

/-- A command a completion is owed to: the ring place and the header fields a completion repeats. -/
structure CmdRef where
  part : Part
  ring : BitVec 4
  sqPos : BitVec 16
  opcode : Byte
  quiet : Bool
  tag : BitVec 64
  handle : Word
  deriving DecidableEq, Repr

/-- The capture kinds (08). -/
inductive CapKind where
  | trip | request | fail | loop
  deriving DecidableEq, Repr

/-- A capture sample entry (08, capture sample entry). -/
structure CapEnt where
  ref : BitVec 16
  v : BitVec 12
  i : BitVec 16
  g : BitVec 12
  missing : Bool
  pre : Bool
  satd : Bool
  inval : Bool
  deriving DecidableEq, Repr

/-- A claimed hot context (07, R215 and R168). -/
structure Ctx where
  handle : Word
  ch : BitVec 17
  origin : Origin
  phase : Phase
  core : BitVec 2
  claimT : Count
  /-- The profile's insertion block as copied at the claim: bytes 176 to 239 (R168). -/
  ins : Bytes
  /-- The context's sample rate in S/s: 50,000, 100,000 or 200,000. -/
  rate : Nat
  /-- The lane's stream slot, for a remote point. -/
  slot : Option (BitVec 5 × BitVec 3)
  /-- The loop slots granted to a direct channel's context: 0 none, else the code of DCH_STATUS.GRANT, with class and half (R296). -/
  grant : BitVec 2
  grantClass : Nat
  grantHalf : Nat
  /-- The start of the pattern slot of the last loop sample (R296), and the cycle of the superframe of the first good stream sample
  (R193). -/
  lastSlot : Option Count
  cyc0 : Nat
  periods : BitVec 32
  /-- The count of the first good sample (R193). -/
  firstGood : Option Count
  gOut : BitVec 12
  /-- The bumpless fade: offset at the swap and samples since (R201). -/
  delta : Int
  bumpJ : Nat
  ref : BitVec 16
  v : BitVec 12
  i : BitVec 16
  iexp : BitVec 16
  viol : BitVec 8
  missCnt : BitVec 8
  frz : BitVec 8
  goodRun : BitVec 8
  sxy : Int
  sxx : Int
  bankA : Bytes
  bankB : Bytes
  activeB : Bool
  stages : List Stage
  satHi : Bool
  satLo : Bool
  holding : Bool
  injActive : Bool
  /-- Swap pending, with the command it completes (R201). -/
  swap : Option CmdRef
  /-- A swap has been taken since the last bank write (R200). -/
  swapTaken : Bool
  /-- The last good v values, newest first, at most 17 (R207). -/
  vHist : List (BitVec 12)
  /-- The raw I and V of the previous good sample (R210). -/
  lastRaw : Option (BitVec 16 × BitVec 12)
  /-- The over-limit count of R177. -/
  overN : Nat
  /-- KC of R207. -/
  kc : Nat
  /-- Loop samples since the end of PREPARE (R176). -/
  k : Nat
  /-- V0 (R175). -/
  v0 : BitVec 12
  /-- The count at which the present phase began; in a ramp-off, the period point of its last step (R212). -/
  tPhase : Count
  /-- Consecutive loop periods with the load voltage settled (SETTLE). -/
  tSettled : Option Count
  /-- Injection samples done (R213). -/
  injK : Nat
  /-- FEEDBACK_LOST is declared and the ramp-off starts at the next period (R209). -/
  lostPend : Bool
  /-- The failure that began the ramp-off; none for an open command. -/
  failCode : Option Byte
  /-- The LOOP capture running in this context, by slot (R214). -/
  loopSlot : Option Nat
  /-- The TRIP, REQUEST or FAIL capture running in this context, by slot (R181, R232). -/
  capSlot : Option Nat
  /-- The insertion's samples so far, newest first, while CAPTURE_FAIL is set (R181). -/
  log : List CapEnt
  /-- A stream sample waiting for its core: its word (R193, R198), and the count of its arrival. -/
  sample : Option (Word × Count)
  /-- SAT and INVALID of the running period's sample, where it was not good. -/
  pSat : Bool
  pInval : Bool
  deriving DecidableEq, Repr

/-- A capture slot in use (08, R233). -/
structure Slot where
  handle : Word
  kind : CapKind
  trunc : Bool
  aborted : Bool
  preShort : Bool
  cause : BitVec 8
  tTrigger : Count
  rate : Nat
  npre : Nat
  ents : List CapEnt
  /-- The partition to which CAPTURE_DONE is or was raised (R233). -/
  dest : Part
  running : Bool
  /-- Live samples still to take. -/
  left : Nat
  /-- Pre-trigger samples still wanted. -/
  preWant : Nat
  deriving DecidableEq, Repr

/-- A capture in the wait list (R232). -/
structure CapWait where
  ch : BitVec 17
  kind : CapKind
  cause : BitVec 8
  t : Count
  pre : Nat
  post : Nat
  ref : Option CmdRef
  deriving DecidableEq, Repr

/-- Insertion queue, contexts and their registers (06, 07). -/
structure Hel where
  queue : List InsEnt
  ctx : Tab Ctx
  pause : Bool
  capMax : BitVec 8
  done : BitVec 32
  /-- Failure counts of the codes 0x18 to 0x1F, in code order. -/
  fails : List (BitVec 8)
  waitPeak : BitVec 16
  lateDirect : BitVec 16
  lateRemote : BitVec 16
  renormUp : BitVec 16
  renormDown : BitVec 16
  satMant : BitVec 16
  satClamp : BitVec 16
  dropLate : BitVec 16
  dropNotGood : BitVec 16
  swapDone : BitVec 16
  swapDisc : BitVec 16
  viol : BitVec 32
  deriving DecidableEq, Repr

/-! ### Firn (13) and the metering registers (08) -/

/-- FIRN_STATUS.STATE (13). -/
inductive FirnState where
  | train | fill | ready | selfRefresh | failed
  deriving DecidableEq, Repr

/-- A command that waits for Firn (R343). -/
structure FirnWait where
  ref : CmdRef
  cmd : FCmd
  t : Count
  /-- The roles its partition had when it passed its checks (R378). -/
  roles : BitVec 3
  deriving DecidableEq, Repr

/-- The Firn controller, Plough, history set-up and capture slots (08, 13). -/
structure Firn where
  speed : BitVec 2
  ranks : Bool
  density : BitVec 2
  caPar : Bool
  wrCrc : Bool
  /-- The configuration in force since the last POR: capacity in GiB. -/
  capGib : BitVec 7
  st : FirnState
  filled : Bool
  devFailed : Bool
  dev : BitVec 5
  rank : Bool
  /-- A device declared failed per rank (R346): rank number to device. -/
  failedDev : Tab Nat
  period : BitVec 11
  passes : BitVec 16
  block : BitVec 24
  ce : BitVec 32
  uncorr : BitVec 16
  poison : BitVec 16
  ueAddr : BitVec 31
  ueValid : Bool
  caRetry : BitVec 16
  wcRetry : BitVec 16
  devCe : Tab (BitVec 16)
  /-- Corrections attributed in the running pass, per device and rank. -/
  passCe : Tab Nat
  devThresh : BitVec 16
  oneCopy : BitVec 16
  rebuilt : BitVec 8
  lost : BitVec 8
  /-- RANKS, CA_PAR and WR_CRC in force since the last POR (R340). -/
  ranksNow : Bool
  caParNow : Bool
  wrCrcNow : Bool
  /-- Codewords that hold poison: address / 32. -/
  poisoned : List Nat
  /-- What the symbols of a codeword's place differ by from what was written there, 36 bytes; unlisted: by nothing. -/
  errs : Tab Bytes
  /-- Codewords that a correction has put where poison was (R356): the 36 bytes that stand there. -/
  alien : Tab Bytes
  /-- Failed codewords not yet told in a FIRN_UE event, and the count of that event's last raise (R354). -/
  ueSince : BitVec 32
  ueLast : Option Count
  /-- Failed issues of the present access and failed retrainings in a row (R344). -/
  accFails : Nat
  trainFails : Nat
  waiting : List FirnWait
  depth : BitVec 5
  fitErr : Bool
  histWritten : BitVec 32
  /-- The running demand interval: the quotient of station time by 900 s at its start (R224). -/
  demIdx : Nat
  /-- Superframes of the running history interval. -/
  histSf : Nat
  slots : Tab Slot
  capWait : List CapWait
  dropNoSlot : BitVec 16
  dropNoCtx : BitVec 16
  resync : BitVec 16
  suspect : BitVec 16
  deriving DecidableEq, Repr

end Sys2Proof.Machine
end

