-- ==== Sys2Proof/Machine/StateLane.lean ====
section
/-! DEFINITION. The field die's lane, direct-channel and ADC state (09, 10, 11). -/
namespace Sys2Proof.Machine

/-- The lane states, in code order (09, lane state encoding). -/
inductive LaneState where
  | disabled | train | ring | split | isolated
  deriving DecidableEq, Repr

/-- The numbered commands of the command set (10). -/
inductive LCmd where
  | openPoint (point : BitVec 6)
  | ackTrip (point : BitVec 6)
  | fbConfig (ch : BitVec 17) (payload : Bytes)
  | streamStart (point : BitVec 6) (slot : BitVec 3) (pretrig capture : Bool)
  | streamStop (slot : BitVec 3) (action : BitVec 2)
  deriving DecidableEq, Repr

/-- A numbered command not yet acknowledged, with its number and the superframe of its last sending (R277). -/
structure Sent where
  cnum : Byte
  cmd : LCmd
  sf : Nat
  /-- It is to be sent again (R277, R518). -/
  due : Bool
  /-- The superframe in which it was last sent or repeated (R111). -/
  rep : Nat
  deriving DecidableEq, Repr

/-- A command not yet sent, with the open command its first sending completes (R70). -/
structure Unsent where
  cmd : LCmd
  ref : Option CmdRef
  deriving DecidableEq, Repr

/-- The numbered-command link to one outstation identity (R276, R277, R518). -/
structure OsLink where
  /-- The last acknowledged CNUM; none until a first telemetry frame gives the base (R518). -/
  base : Option Byte
  /-- After a warm reset: the next telemetry frame gives the base anew (R518). -/
  anew : Bool
  sent : List Sent
  wait : List Unsent
  /-- DEFAULTS of the previous good frame, once there is one (R278). -/
  defaults : Option Bool
  deriving DecidableEq, Repr

/-- No numbering is held. -/
def OsLink.empty : OsLink := { base := none, anew := false, sent := [], wait := [], defaults := none }

/-- An enumerated outstation of a lane (09, R248 to R251). -/
structure Outst where
  id : BitVec 64
  npts : BitVec 7
  missing : Bool
  missCnt : Nat
  /-- A frame with this POS has arrived in the running superframe at end A, at end B (R271). -/
  seenA : Bool
  seenB : Bool
  /-- Its place has ended without a good frame in the running superframe. -/
  judged : Bool
  /-- PRESENT and SWITCHED of its last health answer. -/
  present : BitVec 64
  switched : BitVec 64
  /-- The identity has answered a health poll. -/
  healthy : Bool
  /-- A poll of R251 is to be sent again at the next superframe (R277). -/
  pollDue : Bool
  deriving DecidableEq, Repr

/-- An enumeration answer (R270). -/
structure EnumAns where
  id : BitVec 64
  newPos : Byte
  npts : BitVec 7
  /-- The end whose ENUMERATE it answers. -/
  fromB : Bool
  deriving DecidableEq, Repr

/-- The course of an enumeration (R248). -/
inductive EnumPhase where
  | idle
  /-- ENUMERATE goes with the next MARK; after TRAIN without a loop from each locked end (R242). -/
  | pending (locked : Bool)
  /-- ENUMERATE is out: CMP0 marks since. -/
  | out (marks : Nat)
  deriving DecidableEq, Repr

/-- A stream slot of a lane (R173, R274). -/
inductive StreamSlot where
  | idle
  | active
  /-- Abandoned: cycles still to send with VALID clear. -/
  | gap (cycles : Nat)
  deriving DecidableEq, Repr

/-- TRIP, HOLD, RELEASE or CANCEL for a point, that waits for its lane end (R126). -/
structure ExWait where
  type : Byte
  pos : BitVec 6
  pt : BitVec 6
  deriving DecidableEq, Repr

/-- One lane engine (09, 10). -/
structure Lane where
  en : Bool
  osMiss : BitVec 4
  healDelay : BitVec 8
  cvLimit : BitVec 16
  st : LaneState
  lockA : Bool
  lockB : Bool
  /-- A mark from end A has reached end B in the running superframe, and in the last ones (R242, R247). -/
  loopSeen : Bool
  loopRun : Nat
  overcount : Bool
  dupId : Bool
  degraded : Bool
  eastPos : BitVec 6
  eastValid : Bool
  westPos : BitVec 6
  westValid : Bool
  restEast : Bool
  restWest : Bool
  healAsked : Bool
  /-- The count at the entry into TRAIN, SPLIT or ISOLATED. -/
  tState : Count
  cvA : BitVec 16
  cvB : BitVec 16
  crcOrd : BitVec 16
  crcExp : BitVec 16
  splits : BitVec 8
  heals : BitVec 8
  enums : BitVec 8
  pollsLost : BitVec 8
  loopTicks : BitVec 16
  idSel : BitVec 6
  idSnap : BitVec 64
  sfPeak : BitVec 15
  sfOverrun : BitVec 16
  resent : BitVec 16
  spare : BitVec 9
  os : Tab Outst
  enumPh : EnumPhase
  enumAns : List EnumAns
  /-- A trigger that arrived while enumeration ran (09, enumeration triggers). -/
  enumHeld : Bool
  /-- The last position of the health rotation, and the polls out: position, whether of R251, and the count of sending. -/
  pollPos : Option (BitVec 6)
  polls : List (BitVec 6 × Bool × Count)
  /-- Polls that wait for characters: position, and whether of R251 (R264). -/
  pollQ : List (BitVec 6 × Bool)
  /-- Energy reads out: position, point, superframe of the sending; and those that wait for characters. -/
  eReads : List (BitVec 6 × BitVec 6 × Nat)
  eHeld : List (BitVec 6 × BitVec 6)
  slots : List StreamSlot
  /-- Cycles sent since the last mark (R262). -/
  cyc : Nat
  /-- Non-idle characters each end has sent since the last mark (LANE_SF_USE). -/
  useA : Nat
  useB : Nat
  /-- Characters from the last mark to the end of the level-0 content each end has begun, and of its telemetry reserve (R261, R264). -/
  occA : Nat
  occB : Nat
  resA : Nat
  resB : Nat
  /-- The count until which an express or ALL-OPEN pair is on the wire of each end, and the selectivity frames that wait (R126). -/
  exBusyA : Count
  exBusyB : Count
  exq : List ExWait
  /-- Violations of each end in the running Meridian second (R253). -/
  secA : Nat
  secB : Nat
  /-- COUNT, CHAIN_A and LANE_PRESENT show the map: a warm reset clears them until the next COMMIT (R20). -/
  shown : Bool
  deriving DecidableEq, Repr

/-- A lane after a field-die cold start: DISABLED, every register at its Reset column. -/
def Lane.reset : Lane :=
  { en := false, osMiss := 6, healDelay := 10, cvLimit := 100, st := .disabled, lockA := false, lockB := false,
    loopSeen := false, loopRun := 0, overcount := false, dupId := false, degraded := false, eastPos := 0, eastValid := false,
    westPos := 0, westValid := false, restEast := false, restWest := false, healAsked := false, tState := 0, cvA := 0, cvB := 0,
    crcOrd := 0, crcExp := 0, splits := 0, heals := 0, enums := 0, pollsLost := 0, loopTicks := 0, idSel := 0, idSnap := 0,
    sfPeak := 0, sfOverrun := 0, resent := 0, spare := 96, os := [], enumPh := .idle, enumAns := [], enumHeld := false,
    pollPos := none, polls := [], pollQ := [], eReads := [], eHeld := [],
    slots := [.idle, .idle, .idle, .idle, .idle, .idle], cyc := 0, useA := 0, useB := 0,
    occA := 0, occB := 0, resA := 0, resB := 0, exBusyA := 0, exBusyB := 0, exq := [], secA := 0, secB := 0, shown := true }

/-- The lanes and the links to the outstations. -/
structure Lans where
  lane : Tab Lane
  /-- The numbered-command links, by identity. -/
  link : Tab OsLink
  /-- Identities declared missing that no lane has enumerated since (R249, R251). -/
  gone : List (BitVec 64)
  /-- The count of the last CMP0 mark. -/
  tMark : Count
  deriving DecidableEq, Repr

/-! ### Direct channels and the ADC (11) -/

/-- The gate output modes, in code order of DCH_STATUS (11, R286). -/
inductive DgMode where
  | off | on | linear
  deriving DecidableEq, Repr

/-- The comparator timer of a direct channel (R291). -/
inductive DTimer where
  | idle
  | holdoff (due : Count)
  | hold (due : Count)
  deriving DecidableEq, Repr

/-- One scan-slot sample of the pre-trigger buffer (R300). -/
structure PreSample where
  v : BitVec 16
  i : BitVec 16
  ovr : Bool
  inval : Bool
  deriving DecidableEq, Repr

/-- One direct channel (11). -/
structure Dch where
  /-- The DIRECT channel bound to it. -/
  bound : Option (BitVec 17)
  mode : DgMode
  /-- The delta-sigma accumulator and the output (R287). -/
  acc : BitVec 13
  dg : Bool
  /-- G_OUT in LINEAR. -/
  gOut : BitVec 12
  /-- The count of the next step of a fall that a warm reset began in LINEAR (R309). -/
  fall : Option Count
  dfb : Bool
  cmp : Bool
  timer : DTimer
  /-- The comparator has been deasserted for the clear time (R291), and so since the last report of the channel. -/
  clear : Bool
  mayReport : Bool
  /-- The last tick at which the comparator is known asserted. -/
  tAssert : Count
  /-- CLEARED has been sent since the last action that took DGn to OFF (R291, step 9). -/
  clearedSent : Bool
  thresh : BitVec 10
  /-- The block's own copy of the effective timing values and IMMEDIATE (R293). -/
  holdoffUs : Nat
  holdLimUs : Nat
  clearUs : Nat
  immediate : Bool
  /-- DRIVER_STUCK raised in this OFF period, and the count at which DGn went OFF. -/
  stuck : Bool
  tOff : Count
  cmpFilt : BitVec 3
  dfbFilt : BitVec 8
  dfbT : BitVec 8
  dfbPol : Bool
  escale : BitVec 32
  cmpOpen : BitVec 8
  drvFault : BitVec 8
  reports : BitVec 16
  /-- The start of the last scan slot converted (R295). -/
  tScan : Option Count
  /-- Scan sums of the running superframe (R298). -/
  sumI : Int
  sumV : Int
  n : Nat
  ovr : Bool
  inval : Bool
  accImp : BitVec 48
  accExp : BitVec 48
  pre : List PreSample
  preFrozen : Option Count
  deriving DecidableEq, Repr

/-- A direct channel after a field-die cold start. -/
def Dch.reset : Dch :=
  { bound := none, mode := .off, acc := 0, dg := false, gOut := 0, fall := none, dfb := false, cmp := false, timer := .idle,
    clear := true, mayReport := true, tAssert := 0, clearedSent := false, thresh := 0, holdoffUs := 40, holdLimUs := 1000, clearUs := 10,
    immediate := false, stuck := false, tOff := 0, cmpFilt := 2, dfbFilt := 100,
    dfbT := 5, dfbPol := false, escale := 0, cmpOpen := 0, drvFault := 0, reports := 0, tScan := none, sumI := 0, sumV := 0, n := 0,
    ovr := false, inval := false, accImp := 0, accExp := 0, pre := [], preFrozen := none }

/-- A conversion result register (11, ADC_REG_RES, ADC_INJ_RES). -/
structure AdcRes where
  result : BitVec 16
  ovr : Bool
  valid : Bool
  xfail : Bool
  deriving DecidableEq, Repr

/-- The result register after reset. -/
def AdcRes.reset : AdcRes := { result := 0, ovr := false, valid := false, xfail := false }

/-- One injected sequence (R306, R308). -/
structure AdcInj where
  src : BitVec 6
  grid : Bool
  part : Part
  evtEn : Bool
  lenA : BitVec 3
  lenB : BitVec 3
  entA : List (BitVec 6)
  entB : List (BitVec 6)
  /-- The tick at which the named compare has fired, or down-counter has reached 0, while the trigger waits (R306). -/
  trig : Option Count
  busy : Bool
  done : Bool
  overrun : BitVec 8
  empty : BitVec 8
  t : BitVec 32
  res : Tab AdcRes
  /-- The tick at which the busy run's trigger was recognised, the start of its entry 0, and for every entry converted whether REF_READY
  and XCHK_FAIL stood at its slot (R306, R308). -/
  tRecog : Count
  tStart : Count
  conv : List (Bool × Bool)
  /-- The configuration the busy run uses (R308). -/
  runGrid : Bool
  runPart : Part
  runEvtEn : Bool
  runLenA : BitVec 3
  runLenB : BitVec 3
  runEntA : List (BitVec 6)
  runEntB : List (BitVec 6)
  deriving DecidableEq, Repr

/-- An injected sequence after reset. -/
def AdcInj.reset : AdcInj :=
  { src := 0, grid := false, part := 0, evtEn := false, lenA := 0, lenB := 0, entA := [0, 0, 0, 0], entB := [0, 0, 0, 0],
    trig := none, busy := false, done := false, overrun := 0, empty := 0, t := 0, res := [], tRecog := 0, tStart := 0, conv := [],
    runGrid := false, runPart := 0, runEvtEn := false, runLenA := 0, runLenB := 0, runEntA := [],
    runEntB := [] }

/-- The ADC subsystem (11). -/
structure Adc where
  refEn : Bool
  refReady : Bool
  /-- The count at which REFBUF was enabled. -/
  tRef : Count
  xchkFail : Bool
  xchkBad : BitVec 8
  yields : BitVec 16
  /-- Consecutive yields of slot 39 (R304), failures and passes of the cross-check (R303). -/
  yieldRun : Nat
  failRun : Nat
  passRun : Nat
  tol : BitVec 8
  period : BitVec 8
  lastDiff : BitVec 16
  /-- The conversion cycle of the last cross-check (R303). -/
  xchkAt : Nat
  /-- The starts of the last slot 39 used (R304), and of the last host slots taken by an injected entry, by a regular entry of ADC-A and
  of ADC-B (R305). -/
  slot39 : Option Count
  injSlot : Option Count
  regSlotA : Option Count
  regSlotB : Option Count
  /-- Background-calibration steps done. -/
  calSteps : Nat
  lenA : BitVec 5
  lenB : BitVec 5
  passesA : BitVec 16
  passesB : BitVec 16
  /-- The next regular entry of each converter. -/
  nextA : Nat
  nextB : Nat
  /-- Entries as used by the running pass: a write acts at the next pass (R305). -/
  entNow : Tab (BitVec 6)
  lenNowA : BitVec 5
  lenNowB : BitVec 5
  /-- ADC_CORR: OFS and GAIN per input. -/
  corr : Tab (BitVec 16 × BitVec 16)
  ent : Tab (BitVec 6)
  res : Tab AdcRes
  inj : Tab AdcInj
  deriving DecidableEq, Repr

/-- The ADC subsystem after a field-die POR. -/
def Adc.reset : Adc :=
  { refEn := true, refReady := false, tRef := 0, xchkFail := false, xchkBad := 0, yields := 0, yieldRun := 0, failRun := 0,
    passRun := 0, tol := 16, period := 8, lastDiff := 0, xchkAt := 0, slot39 := none, injSlot := none,
    regSlotA := none, regSlotB := none, calSteps := 0, lenA := 0, lenB := 0, passesA := 0,
    passesB := 0, nextA := 0, nextB := 0, entNow := [], lenNowA := 0, lenNowB := 0, corr := [], ent := [], res := [], inj := [] }

end Sys2Proof.Machine
end

