-- ==== Sys2Proof/Machine/StateLink.lean ====
section
/-! DEFINITION. Meridian (12), Transit (14), partitions, event queues and outputs of the field die (15, 16), and what a die
puts on its pins and links. -/
namespace Sys2Proof.Machine

/-- What a step sends out of a die. Pins are levels in the state; everything that leaves as a unit is appended here. -/
inductive Out where
  /-- A frame pair or unit that leaves a lane end, as its bytes in sending order (10). -/
  | lane (lane : BitVec 5) (endB : Bool) (bytes : Bytes)
  /-- A Transit message of a class, as its codewords in sending order: each block of 32 bytes with its four check bytes
  (14, message layout). -/
  | msg (cls : Bool) (codewords : Bytes)
  /-- The value a register read returns, with the partition that reads. -/
  | read (part : Part) (value : Word)
  /-- The value a 64-bit read of BAR2 returns (R374). -/
  | readWide (part : Part) (value : BitVec 64)
  /-- Unsupported Request (R373). -/
  | unsupported (part : Part)
  /-- A posted write to host memory of a partition (16, R398). -/
  | hostWrite (part : Part) (addr : BitVec 64) (bytes : Bytes)
  /-- A memory read the host die issues: doorbell page, descriptors or a payload. -/
  | hostRead (part : Part) (addr : BitVec 64) (len : Nat)
  /-- An MSI-X message of a vector: the write its table entry gives (R401). -/
  | msix (part : Part) (vec : BitVec 6) (addr : BitVec 64) (data : Word)
  /-- The wake signal begins (R367). -/
  | wake
  /-- What a test access port returns (21). -/
  | tap (value : Word)
  deriving DecidableEq, Repr

/-! ### Meridian (12) -/

/-- A data-class compare channel. -/
structure Cmp where
  v : Count
  itv : BitVec 32
  en : Bool
  evtEn : Bool
  fired : Bool
  missed : BitVec 8
  owner : Option Part
  deriving DecidableEq, Repr
/-- An unowned compare channel after reset. -/
def Cmp.reset : Cmp := { v := 0, itv := 0, en := false, evtEn := false, fired := false, missed := 0, owner := none }

/-- A pin compare. -/
structure Pcmp where
  v : Count
  itv : BitVec 32
  en : Bool
  action : BitVec 2
  init : Bool
  level : Bool
  fired : Bool
  missed : BitVec 8
  deriving DecidableEq, Repr
/-- A pin compare after POR. -/
def Pcmp.reset : Pcmp :=
  { v := 0, itv := 0, en := false, action := 2, init := false, level := false, fired := false, missed := 0 }

/-- A down-counter. -/
structure Dct where
  count : BitVec 32
  reload : BitVec 32
  run : Bool
  auto : Bool
  evtEn : Bool
  prescale : BitVec 4
  mode : BitVec 2
  msel : BitVec 6
  zero : Bool
  owner : Option Part
  /-- START mode: the first master event has come (R332). -/
  started : Bool
  /-- COUNT has become 0 by a decrement and the fire has not run yet (R333). -/
  fireDue : Bool
  /-- COUNT is 0 by a LOAD: the next decrement opportunity fires (R334). -/
  loaded0 : Bool
  /-- Its master has fired: the event acts at the next tick (R332). -/
  masterEv : Bool
  /-- At the last tick a reload fell due, or AUTO 0 stopped it (R335). -/
  reloaded : Bool
  stopped : Bool
  deriving DecidableEq, Repr
/-- A down-counter after reset. -/
def Dct.reset : Dct :=
  { count := 0, reload := 0, run := false, auto := false, evtEn := false, prescale := 0, mode := 0, msel := 0, zero := false,
    owner := none, started := false, fireDue := false, loaded0 := false, masterEv := false, reloaded := false,
    stopped := false }

/-- What Meridian keeps per partition: the HI latches and the staged LO values (R313, R315). -/
structure MerPart where
  cntHi : BitVec 32
  stnHi : BitVec 32
  ppsHi : BitVec 32
  stoLo : Option (BitVec 32)
  cmpLo : Tab (BitVec 32)
  pcmpLo : Tab (BitVec 32)
  deriving DecidableEq, Repr
/-- Nothing latched, nothing staged. -/
def MerPart.reset : MerPart := { cntHi := 0, stnHi := 0, ppsHi := 0, stoLo := none, cmpLo := [], pcmpLo := [] }

/-- Meridian (12). -/
structure Mer where
  count : Count
  holdover : Bool
  /-- HOLDOVER events owed once Transit is up: the entry counts (R317); and the count at which
REFCLK was lost last, at the entry or since (R318). -/
  holdOwed : List Count
  holdAt : Count
  ppsOk : Bool
  holdEntries : BitVec 8
  ppsBad : BitVec 8
  sto : BitVec 64
  slew : BitVec 32
  /-- The count of the last slew step (R321). -/
  slewAt : Option Count
  pps : Count
  /-- Accepted edges since EN, saturating at 2 (R320). -/
  ppsEdges : Nat
  /-- The last accepted edge, or the write of EN before the first: where the window of R320 starts. -/
  ppsFrom : Count
  /-- The PPS_LOST event of this loss is raised. -/
  ppsLost : Bool
  ppsEn : Bool
  ppsTol : BitVec 16
  part : Tab MerPart
  cmp : Tab Cmp
  pcmp : Tab Pcmp
  dct : Tab Dct
  /-- System compares that have fired and whose activity has not run yet, by number (R326). -/
  sysDue : BitVec 8
  deriving DecidableEq, Repr

/-- Meridian after a field-die POR: count 0, the system compares at their default intervals (R326). -/
def Mer.reset : Mer :=
  { count := 0, holdover := false, holdOwed := [], holdAt := 0, ppsOk := false, holdEntries := 0, ppsBad := 0, sto := 0,
    slew := 0, slewAt := none, pps := 0, ppsEdges := 0, ppsFrom := 0, ppsLost := false, ppsEn := false, ppsTol := 10000, part := [],
    cmp := [(0, { Cmp.reset with itv := 50000, en := true }), (1, { Cmp.reset with itv := 400, en := true }),
      (2, { Cmp.reset with itv := 100000, en := true }), (3, { Cmp.reset with en := true }),
      (4, { Cmp.reset with itv := 10000000, en := true }), (5, { Cmp.reset with itv := 10000000, en := true }),
      (6, { Cmp.reset with itv := 50000, en := true }), (7, { Cmp.reset with itv := 1000, en := true })],
    pcmp := [], dct := [], sysDue := 0 }

/-! ### Transit (14) -/

/-- A message as its sender keeps it (R361). -/
structure Msg where
  type : Byte
  /-- The PART byte: [1:0] partition, [7] DEVICE. -/
  part : Byte
  tag : BitVec 32
  payload : Bytes
  deriving DecidableEq, Repr

/-- One class of one half of the link: what it sends and what it expects (R360, R361). -/
structure Half where
  sendSeq : BitVec 16
  /-- Messages no ACK covers yet, oldest first, with their SEQ. -/
  kept : List (BitVec 16 × Msg)
  /-- The count from which the 2 µs of the oldest kept message run: its last sending, or the ACK that made it the oldest;
  and its consecutive resends (R361; log entry 117). -/
  tSent : Count
  resends : Nat
  expect : BitVec 16
  deriving DecidableEq, Repr
/-- A class with SEQ restarted (R365). -/
def Half.reset : Half := { sendSeq := 0, kept := [], tSent := 0, resends := 0, expect := 0 }

/-- The link as a die sees it. -/
inductive LinkState where
  | down | train | up
  deriving DecidableEq, Repr

/-- A command accepted by the field die and not completed. -/
structure Busy where
  ref : CmdRef
  /-- The descriptor, its Transit TAG and the payload bytes it waits for (R362). -/
  ops : Bytes
  linkTag : BitVec 32
  need : Nat
  t : Count
  started : Bool
  deriving DecidableEq, Repr

/-- A tunnelled access that waits while the sequencer is halted (R484): none reads. -/
structure TunWait where
  part : Part
  tag : BitVec 32
  off : Word
  value : Option Word
  deriving DecidableEq, Repr

/-- Transit, field half (14). -/
structure FTrn where
  ctl : Half
  dat : Half
  st : LinkState
  /-- The field die has been reset since its last completed training (R365). -/
  fresh : Bool
  losses : BitVec 8
  badMsg : BitVec 8
  /-- The count of the last accepted message (R364). -/
  tLast : Count
  /-- BULK messages held: TAG, byte offset and bytes. -/
  bulk : List (BitVec 32 × Nat × Bytes)
  tunWait : List TunWait
  /-- The data and control lanes trained. -/
  dataLanes : BitVec 10
  ctrlLanes : BitVec 2
  /-- TRAIN has gone out in the running training (R365). -/
  trainSent : Bool
  deriving DecidableEq, Repr
/-- Transit after a field-die POR: down, to train (R365). -/
def FTrn.reset : FTrn :=
  { ctl := Half.reset, dat := Half.reset, st := .down, fresh := true, losses := 0, badMsg := 0, tLast := 0, bulk := [], tunWait := [],
    dataLanes := 0, ctrlLanes := 0, trainSent := false }

/-! ### Records, queues, grants (15, 16) -/

/-- An event record before PHASE is written: 32 bytes by R520. -/
structure Evt where
  rtype : Byte
  seq : BitVec 16
  handle : Word
  t : Count
  body : Bytes
  deriving DecidableEq, Repr

/-- A completion record before PHASE is written. -/
structure Cpl where
  ref : CmdRef
  status : BitVec 16
  detail : Word
  noChange : Bool
  /-- The handle it carries: the created one for CREATE. -/
  handle : Word
  tDone : Count
  deriving DecidableEq, Repr

/-- A record in the event queue. -/
inductive Rec where
  | cpl (c : Cpl)
  | evt (e : Evt)
  deriving DecidableEq, Repr

/-- A record with the data-class SEQ of the message that carried it. -/
structure QRec where
  r : Rec
  sent : Option (BitVec 16)
  deriving DecidableEq, Repr

/-- A partition's share of the event queue (R400, R520). -/
structure EvQ where
  q : List QRec
  /-- SEQ of the next event (R520). -/
  seq : BitVec 16
  /-- Events discarded since the last OVERFLOW, and the time of the first (R400). -/
  dropped : Nat
  tDrop : Count
  /-- CAPTURE_DONE records held with their slot (R400). -/
  heldDone : List Evt
  deriving DecidableEq, Repr
/-- An empty share. -/
def EvQ.reset : EvQ := { q := [], seq := 0, dropped := 0, tDrop := 0, heldDone := [] }

/-- A grant entry (R379). -/
structure Grant where
  ch : BitVec 17
  grantee : Part
  mask : BitVec 3
  subtree : Bool
  deriving DecidableEq, Repr

/-- The telemetry table of a partition as the host die has told it: PART_TLM_BASE, FIRST and COUNT (08; log entry 52). -/
structure Tlm where
  base : BitVec 64
  first : BitVec 17
  count : BitVec 18
  deriving DecidableEq, Repr
/-- No table. -/
def Tlm.none : Tlm := { base := 0, first := 0, count := 0 }

/-- The field die's partition state (15, 16). -/
structure FPart where
  /-- PART_F_SETUP of the four partitions. -/
  setup : Tab Word
  hold : BitVec 4
  /-- Event classes [7:0] and completion rings [31:16] of a partition whose records the host die cannot place now; they
  wait in the event queue (R393, R395; log entry 54). -/
  block : Tab Word
  grants : List Grant
  evq : Tab EvQ
  /-- Commands accepted and not completed, oldest first. -/
  busy : List Busy
  /-- SEQ of the last telemetry table written to a partition, and the data-class SEQ of its last message: while that one
  is kept, the publication has not finished and the next one is skipped (R234, R235). -/
  pubSeq : Tab (BitVec 32)
  pubLast : Tab (BitVec 16)
  /-- Where the telemetry tables of the partitions lie, as last told by the host die. -/
  tlm : Tab Tlm
  /-- NVM_LOG_SEL of each partition (20). -/
  logSel : Tab Word
  /-- PART resets whose PART_RST has arrived and which wait for R386: first for the partition's started commands, then
  for its kept messages. -/
  rstA : BitVec 4
  rstB : BitVec 4
  deriving DecidableEq, Repr
/-- No partition set up. -/
def FPart.reset : FPart :=
  { setup := [], hold := 0, block := [], grants := [], evq := [], busy := [], pubSeq := [], pubLast := [], tlm := [], logSel := [], rstA := 0, rstB := 0 }

end Sys2Proof.Machine
end

