-- ==== Sys2Proof/Machine/StateSys.lean ====
section
/-! DEFINITION. Thermometry (17), the safety function (18), power (19, 01), NVM and the observing log (20) and security
(21) as state; and the field die, which holds all of its blocks. -/
namespace Sys2Proof.Machine

/-! ### Thermometry (17) -/

/-- The trim values of a site (R407, R408): T0, R0, S, and N1 and N2 at the upper trim point. -/
structure Trim where
  t0 : Int
  r0 : Int
  s : Int
  n1Up : Nat
  n2Up : Nat
  deriving DecidableEq, Repr
/-- The trim values the model gives every site (log entry 20). -/
def Trim.reset : Trim := { t0 := 100, r0 := 1048576, s := 400, n1Up := 1000, n2Up := 1000 }

/-- A thermometry site (R410, R412). -/
structure Site where
  broken : Bool
  /-- Consecutive invalid readings (R410). -/
  badRun : Nat
  /-- Consecutive demands at which it disagreed with its neighbours (R410). -/
  disRun : Nat
  /-- A THM_SITE_BROKEN record has been raised for it. -/
  reported : Bool
  /-- T, VALID and SUBST of THM_READ. -/
  t : BitVec 16
  valid : Bool
  subst : Bool
  /-- The last valid reading, 0x8000 if none (R421). -/
  last : BitVec 16
  deriving DecidableEq, Repr
/-- A healthy site with no reading yet. -/
def Site.reset : Site :=
  { broken := false, badRun := 0, disRun := 0, reported := false, t := 0, valid := false, subst := false, last := 0x8000 }

/-- A confirming demand in progress (R416). -/
structure Confirm where
  site : Nat
  first : BitVec 16
  /-- Invalid confirming readings so far. -/
  tries : Nat
  /-- The tick before which its gate does not end. -/
  due : Count
  deriving DecidableEq, Repr

/-- Thermometry of one die (17). -/
structure Thm where
  trim : Tab Trim
  site : Tab Site
  /-- A gate of every site runs: the count at which it ends, and the sites a confirming gate holds (R407, R409). -/
  gate : Option (Count × List Nat)
  confirm : List Confirm
  warn : Bool
  throttle : Bool
  /-- Throttle by decision readings holds (R414): what is left when SENSOR throttle ends at a reset. -/
  hot : Bool
  /-- SENSOR throttle (R412), and its record raised (R413). -/
  sensor : Bool
  sensorRaised : Bool
  noDecision : Bool
  hotSite : BitVec 4
  decision : BitVec 16
  /-- The entry and exit counts of warning and throttle (R414). -/
  warnIn : Nat
  warnOut : Nat
  thrIn : Nat
  thrOut : Nat
  /-- Consecutive demands with no valid reading from any site (R413). -/
  blindRun : Nat
  /-- THM_LIMIT. -/
  limit : Word
  /-- THM_XCHK.TOL. -/
  tol : BitVec 8
  invalid : BitVec 16
  unconfirmed : BitVec 8
  warnEntries : BitVec 8
  shutCount : BitVec 16
  /-- THM_H_STATE and THM_HEALTH.HOST as last written under R418 (field die). -/
  hState : Word
  hBroken : BitVec 4
  /-- The readings the corrections of R420 refer to: oscillator, reference, regulators. -/
  compOsc : BitVec 16
  compRef : BitVec 16
  compReg : BitVec 16
  /-- The count of the SENSOR throttle entry (R413). -/
  tSensor : Count
  /-- THERMAL-OFF: measurements since entry, one every 10 ms, and the good ones in a row (R417). -/
  offN : Nat
  offRun : Nat
  /-- THERMAL-OFF: the ticks since its entry, counted by the keep-alive domain. -/
  offT : Nat
  deriving DecidableEq, Repr
/-- THM_LIMIT at its Reset column: 135, 142, 150 degrees. -/
def thmLimitReset : Word := 0x00968E87
/-- Thermometry after a POR. -/
def Thm.reset : Thm :=
  { trim := [], site := [], gate := none, confirm := [], warn := false, throttle := false, hot := false, sensor := false,
    sensorRaised := false, noDecision := false, hotSite := 0, decision := 0, warnIn := 0, warnOut := 0, thrIn := 0, thrOut := 0,
    blindRun := 0, limit := thmLimitReset, tol := 0x30, invalid := 0, unconfirmed := 0, warnEntries := 0, shutCount := 0,
    hState := 0, hBroken := 0, compOsc := 0, compRef := 0, compReg := 0, tSensor := 0, offN := 0, offRun := 0, offT := 0 }

/-! ### Safety (18) -/

/-- Where a pair's clean cycle after a DISCREPANCY stands (R430). -/
inductive Cycle where
  /-- No fault. -/
  | none
  /-- Waiting for both channels at run after the fault. -/
  | waitRun
  /-- Waiting for both channels at demand. -/
  | toDemand
  /-- Both have been at demand; waiting for both at run. -/
  | toRun
  deriving DecidableEq, Repr

/-- The safety block (18). Bit 2k+s of an 8-bit set is channel s (A 0, B 1) of pair k. -/
structure Saf where
  safe : Bool
  confirmed : Bool
  reason : Byte
  aoSeq : Byte
  /-- SAF_FAULT: DISC, TEST, CROSS, PARAM, LOGIC, STUCK_REARM; OUTPUT is set while a pin is latched. -/
  fDisc : BitVec 4
  fTest : BitVec 8
  fCross : Bool
  fParam : Bool
  fLogic : Bool
  fStuck : Bool
  /-- Pins latched under R434, and pins whose read-back differs from the command. -/
  outPins : List OutPin
  /-- Recognised pin levels of the EPO inputs (R422), and the levels before the mask of masked channels (R431). -/
  epo : BitVec 8
  masked : BitVec 8
  held : BitVec 8
  /-- The EPOT outputs (R423). -/
  epot : BitVec 8
  /-- The recognised level of REARM, whether one has been recognised since POR, and the count of the last change. -/
  rearm : Bool
  rearmSeen : Bool
  tRearm : Count
  /-- The count of the next parameter check (R441). -/
  paramDue : Count
  /-- A press has latched STUCK_REARM: its release is not judged (R435). -/
  pressStuck : Bool
  /-- Discrepancy timers: the count at which the pair first disagreed (R429). -/
  disc : Tab Count
  cycle : Tab Cycle
  /-- The starts of pulses to come in this round, by channel (R431). -/
  pulseDue : Tab Count
  /-- The start of the pulse or mask of a channel. -/
  pulseAt : Tab Count
  /-- Channels whose level reached demand within the window of R432. -/
  dipped : BitVec 8
  /-- CROSS was seen in the running round, and the running round is complete in its channels (R433). -/
  roundCross : Bool
  roundLeft : BitVec 8
  /-- SAFEOUT as commanded. -/
  safeout : BitVec 4
  active : Bytes
  staging : Bytes
  activeCrc : Word
  /-- SAF_RESULT. -/
  last : BitVec 3
  offset : BitVec 9
  /-- A block on its way to the active block and NVM (R440). -/
  commit : Option Bytes
  entries : BitVec 16
  refused : BitVec 8
  short : BitVec 8
  /-- The last reason of R425 and its count (R436, condition 4). -/
  lastReason : Byte
  tReason : Count
  /-- An entry the core has not applied yet, and records not raised yet, while the core stands still (R428, R451). -/
  coreOwed : Bool
  recsOwed : List (Byte × Count × Bytes)
  /-- A block has been confirmed since the last POR, BOR or THERMAL: the 250 us pace holds (R442). -/
  pace : Bool
  deriving DecidableEq, Repr

/-- The default safety parameter block (R439). -/
def safDefault : Bytes :=
  [0x01, 0x00, 0x0F, 0x0F] ++ (List.replicate 4 ([0, 3, 0, 0, 0, 0, 0, 0] : Bytes)).flatten ++ zeros 476

/-! ### Power (19) and shedding (01) -/

/-- Field power states (19), with the warm reset; STANDBY entry in progress is RUN with `entry` set. -/
inductive PwrState where
  | run | trim | quiet | standby | thermalOff | reset
  deriving DecidableEq, Repr
/-- Reset kinds, in the code order of PWR_RST_CAUSE.LAST. -/
inductive RstKind where
  | por | bor | pin | wdt | soft | thermal
  deriving DecidableEq, Repr

/-- Power, resets and shedding of the field die (19; 01, R36 to R41). -/
structure FPwr where
  st : PwrState
  req : BitVec 2
  wakePin : Bool
  wakeTime : Bool
  wakeLink : Bool
  refuse : BitVec 3
  wake : BitVec 3
  stbyEntries : BitVec 8
  wakeAt : Count
  /-- Staged PWR_WAKE_LO values, by partition (R315). -/
  wakeLo : Tab Word
  /-- STANDBY entry runs since a count (R450), and a wake source recognised during it. -/
  entry : Option Count
  wakeHeld : BitVec 3
  /-- The count of the last STANDBY entry check that passed: WAKE_TIME wakes where the count reaches PWR_WAKE after it (R449, R452). -/
  tCheck : Count
  rstLast : BitVec 3
  rstWarm : BitVec 8
  rstWdt : BitVec 8
  /-- A warm reset: its kind and the earliest count at which it ends (R455). -/
  warm : Option (RstKind × Count)
  /-- Contexts of the insertions a warm reset has ended, for their INS_END (R182, R519). -/
  insLost : List (Nat × Ctx)
  step1 : Bool
  step2 : Bool
  shedEntries : BitVec 8
  /-- The count of the throttle entry (R38), and of step 2 or the last span's close (R41). -/
  tThrottle : Count
  tSpan : Count
  deriving DecidableEq, Repr
/-- Power after a POR. -/
def FPwr.reset : FPwr :=
  { st := .run, req := 0, wakePin := true, wakeTime := false, wakeLink := true, refuse := 0, wake := 0, stbyEntries := 0,
    wakeAt := 0, wakeLo := [], entry := none, wakeHeld := 0, tCheck := 0, rstLast := 0, rstWarm := 0, rstWdt := 0, warm := none,
    insLost := [],
    step1 := false, step2 := false, shedEntries := 0, tThrottle := 0, tSpan := 0 }

/-! ### NVM and the observing log (20) -/

/-- One copy of an image: the bytes of its sector from offset 0, header and payload (20, image header). -/
structure ImgCopy where
  bytes : Bytes
  deriving DecidableEq, Repr
/-- The header of a copy before its CRC: MAGIC, ITEM, COPY, GEN and LEN (20, image header). -/
def imgHead (item copy : Nat) (gen : BitVec 32) (p : Bytes) : Bytes :=
  toLe 0x4E56 2 ++ [BitVec.ofNat 8 item, BitVec.ofNat 8 copy] ++ le 4 gen ++ toLe p.length 4
/-- A copy as it is programmed: copy 0 is A, copy 1 is B (20, image header). -/
def ImgCopy.of (item copy : Nat) (gen : BitVec 32) (p : Bytes) : ImgCopy :=
  { bytes := imgHead item copy gen p ++ le 4 (crc32c (imgHead item copy gen p ++ p)) ++ p }
/-- GEN of a copy. -/
def ImgCopy.gen (c : ImgCopy) : BitVec 32 := u32 c.bytes 4
/-- PAYLOAD of a copy: LEN bytes. -/
def ImgCopy.payload (c : ImgCopy) : Bytes := slice c.bytes 16 (leNat c.bytes 8 4)
/-- A copy is valid when its MAGIC is correct, its ITEM and COPY match its sector, and its CRC passes (20). -/
def ImgCopy.valid (item copy : Nat) (c : ImgCopy) : Bool :=
  u16 c.bytes 0 = 0x4E56 && u8 c.bytes 2 = BitVec.ofNat 8 item && u8 c.bytes 3 = BitVec.ofNat 8 copy &&
    decide (1 ≤ leNat c.bytes 8 4 ∧ leNat c.bytes 8 4 ≤ 4080) && u32 c.bytes 12 = crc32c (c.bytes.take 12 ++ c.payload)
/-- An image in its A and B copies. -/
structure Img where
  a : ImgCopy
  b : ImgCopy
  deriving DecidableEq, Repr
/-- An image whose two copies agree, of generation 1. -/
def Img.both (item : Nat) (p : Bytes) : Img := { a := ImgCopy.of item 0 1 p, b := ImgCopy.of item 1 1 p }
/-- An image update that waits or runs (R462): the item and its payload. -/
structure ImgUpd where
  item : Nat
  payload : Bytes
  deriving DecidableEq, Repr
/-- A record that waits to be written (R469): TYPE, T, BODY and the bodies of its continuations. -/
structure LogRec where
  type : Byte
  t : Count
  body : Bytes
  conts : List Bytes
  deriving DecidableEq, Repr

/-- The observing log (20, R466 to R472). Place 127 s + k is record place k of log sector s. -/
structure Log where
  /-- Programmed places, 32 bytes each; an unlisted place is erased. -/
  place : Tab Bytes
  /-- Erase counts of the log sectors; unlisted: 0. -/
  erases : Tab Nat
  /-- Log sectors whose header is invalid. -/
  badHdr : List Nat
  /-- Retired log sectors (R465). -/
  retired : List Nat
  next : Nat
  /-- SEQ of the next place. -/
  seq : BitVec 32
  ready : Bool
  emerg : List LogRec
  ord : List LogRec
  tokens : Nat
  /-- The count at which the next token falls due. -/
  tToken : Count
  /-- Records dropped since the last LOST entry, and the TYPE of the first. -/
  lostN : Nat
  lostType : Byte
  /-- The log sector being erased, and the count of the last start (R43). -/
  erasing : Option Nat
  tErase : Option Count
  deriving DecidableEq, Repr

/-- A microcode image of the field die, as manufacture leaves it (R22, R486): the behaviour level it is of, the lifecycle states it is
signed for, and whether Verluith's signature over it verifies. -/
structure Ucode where
  level : BitVec 4
  lives : BitVec 5
  signed : Bool
  deriving DecidableEq, Repr
/-- Some image of a level verifies and is signed for a lifecycle state (R22, R486). -/
def ucodeOk (imgs : List Ucode) (level : BitVec 4) (life : BitVec 3) : Bool :=
  imgs.any (fun u => u.signed && u.level = level && bit u.lives life.toNat)

/-- The field NVM (20). -/
structure FNvm where
  calib : Img
  lock : Img
  safety : Img
  cregs : Img
  upd : List ImgUpd
  lost : BitVec 4
  dropped : BitVec 16
  torn : BitVec 8
  retired : BitVec 8
  /-- Spare sectors mapped: the sector they stand for (R465). -/
  spares : List Nat
  maxErases : BitVec 24
  /-- Erase counts of the image and counter sectors, by sector number; unlisted: 0. -/
  erases : Tab Nat
  /-- The counter sector in use and its places used (the counter area). -/
  ctrSector : Nat
  ctrUsed : Nat
  boot : BitVec 32
  /-- The microcode images; no command changes one (R486). -/
  ucode : List Ucode
  log : Log
  deriving DecidableEq, Repr

/-- An empty log with every sector erased and headed; the bucket is full (R467, R468). -/
def Log.reset : Log :=
  { place := [], erases := [], badHdr := [], retired := [], next := 0, seq := 1, ready := false, emerg := [], ord := [],
    tokens := 256, tToken := 50000000, lostN := 0, lostType := 0, erasing := none, tErase := none }
/-- The payload of the safety image of a part on which no block has been confirmed (log entry 22). -/
def safNone : Bytes := [0]
/-- The field NVM of a part as shipped: BL1 in the lock, and its image, signed for every lifecycle state (21; log entry 80). -/
def FNvm.reset : FNvm :=
  { calib := Img.both 0 [0], lock := Img.both 1 [1], safety := Img.both 2 safNone,
    cregs := Img.both 3 (toLe 0x60 4 ++ le 4 thmLimitReset ++ (List.replicate 33 ([0, 0, 0, 0x40] : Bytes)).flatten), upd := [], lost := 0, dropped := 0, torn := 0, retired := 0,
    spares := [], maxErases := 0, erases := [], ctrSector := 8, ctrUsed := 0, boot := 0,
    ucode := [{ level := 1, lives := 0x1F, signed := true }], log := Log.reset }

/-! ### Security as the field die sees it (21) -/

/-- The field die's copies of the security block's decisions (R482, R483, R486). -/
structure FSec where
  life : BitVec 3
  comm : Bool
  ucodeFail : Bool
  /-- The level in the behaviour lock, and the level in force since the last start (R486, R487). -/
  bl : BitVec 4
  blForce : BitVec 4
  /-- SCOPE of the authorised field TAP; 0 none (R483). -/
  dbg : BitVec 4
  halted : Bool
  extest : Bool
  /-- Words of a host log record on its way (R491). -/
  recLo : Word
  recHi : Word
  deriving DecidableEq, Repr
/-- A part as shipped. -/
def FSec.reset : FSec :=
  { life := 0, comm := false, ucodeFail := false, bl := 1, blForce := 1, dbg := 0, halted := false, extest := false, recLo := 0,
    recHi := 0 }

/-! ### The field die -/

/-- The field die. -/
structure Field where
  mer : Mer
  nev : Nevs
  sel : Sel
  hel : Hel
  firn : Firn
  lan : Lans
  dch : Tab Dch
  adc : Adc
  trn : FTrn
  prt : FPart
  thm : Thm
  saf : Saf
  pwr : FPwr
  nvm : FNvm
  sec : FSec
  /-- The free values taken so far (log entry 2). -/
  freeN : Nat
  /-- What the die has put on its lanes, its half of Transit, its TAP and register reads, in order. -/
  out : List Out
  deriving DecidableEq, Repr
end Sys2Proof.Machine
end

