-- ==== Sys2Proof/Machine/Ops.lean ====
section
/-! DEFINITION. The named operations over the field die: reading and writing a channel, records and the event queue
(R400, R520), Transit sending (R360), lane frames (10), numbered commands (R276), outputs. -/
namespace Sys2Proof.Machine

/-! ### Status codes (16, status codes) -/

/-- The completion statuses. -/
inductive Status where
  | ok | badOpcode | badDesc | badParam | epoch | badHandle | stale | role | notOwner | kind | state | indexBusy | noPoint
  | busyPoint | full | quota | badParent | cycle | tooDeep | hasChildren | selBusy | badProfile | noProfile | inUse
  | mirrorBusy | queueFull | rate | noSoft | safeState | badBank | noContext | swapPending | noSlot | grantFull | firnDown
  | recordLost | poisoned | linkErr | fieldReset | fenceTimeout | bufErr
  deriving DecidableEq, Repr

/-- The code of a status. -/
def Status.code (s : Status) : BitVec 16 := BitVec.ofNat 16 s.ctorIdx

/-- One check of an ordered table: whether it passes, the status and DETAIL on failure. -/
abbrev Check := Bool × Status × Nat
/-- The first check that fails (R53, R71, R405, R515). -/
def firstFail : List Check → Option (Status × Nat)
  | [] => none
  | (ok, s, d) :: r => if ok then firstFail r else some (s, d)

/-! ### Codes -/

/-- The code of a channel state. -/
def ChState.code (s : ChState) : Nat := s.ctorIdx
/-- The code of a kind. -/
def Kind.code (k : Kind) : Nat := k.ctorIdx
/-- The kind of a code. -/
def Kind.ofCode (n : Nat) : Kind :=
  if n = 0 then .switched else if n = 1 then .sense else if n = 2 then .direct else .virt
/-- The code of an origin. -/
def Origin.code (o : Origin) : Nat := o.ctorIdx
/-- The code of a phase (R215): PREPARE is 1. -/
def Phase.code (p : Phase) : Nat := p.ctorIdx + 1
/-- The code of a capture kind. -/
def CapKind.code (k : CapKind) : Nat := k.ctorIdx + 1
/-- The code of a lane state. -/
def LaneState.code (s : LaneState) : Nat := s.ctorIdx
/-- A kind with a switch: SWITCHED or DIRECT. -/
def Kind.switches (k : Kind) : Bool := k = .switched || k = .direct
/-- A kind bound to a point of an outstation. -/
def Kind.remote (k : Kind) : Bool := k = .switched || k = .sense

/-! ### Transit messages as bytes (14, message layout) -/

/-- Blocks of a message: 16 bytes of header and CRC, and its payload. -/
def msgBlocks (m : Msg) : Nat := max 1 (cdiv (16 + m.payload.length) 32)
/-- A message of a class with its SEQ and ACK, in offset order: header, payload padded with 0, CRC-32C. -/
def msgBytes (cls : Bool) (seq ack : BitVec 16) (m : Msg) : Bytes :=
  let b := [m.type, if cls then 1 else 0, m.part, BitVec.ofNat 8 (msgBlocks m)] ++ le 2 seq ++ le 2 ack ++ le 4 m.tag
    ++ pad (32 * msgBlocks m - 16) m.payload
  b ++ le 4 (crc32c b)
/-- n blocks of 32 bytes, each as a codeword of the symbol code (R338). -/
def codewords : Nat → Bytes → Bytes
  | 0, _ => []
  | n + 1, b => b.take 32 ++ rsCheck (b.take 32) ++ codewords n (b.drop 32)
/-- A message as it leaves: of a class, with the last SEQ received in order as its ACK. -/
def msgOut (cls : Bool) (ack : BitVec 16) (k : BitVec 16 × Msg) : Out := .msg cls (codewords (msgBlocks k.2) (msgBytes cls k.1 ack k.2))
/-- LINK_ACK and LINK_NAK: no SEQ of their own, DEVICE set (log entry 117). -/
def linkAckOut (cls : Bool) (ack : BitVec 16) : Out := msgOut cls ack (0, { type := 0x07, part := 0x80, tag := 0, payload := [] })
/-- LINK_NAK carries the expected SEQ. -/
def linkNakOut (cls : Bool) (expected : BitVec 16) : Out :=
  msgOut cls (expected - 1) (0, { type := 0x08, part := 0x80, tag := 0, payload := le 2 expected })

/-! ### Channels -/

namespace Field

/-- The channel at an index. -/
def chan (f : Field) (x : BitVec 17) : Chan := tabGet Chan.free f.nev.ch x.toNat
/-- Write the channel at an index. -/
def setChan (f : Field) (x : BitVec 17) (c : Chan) : Field :=
  { f with nev := { f.nev with ch := tabSet Chan.free f.nev.ch x.toNat c } }
/-- Change the channel at an index. -/
def modChan (f : Field) (x : BitVec 17) (g : Chan → Chan) : Field := f.setChan x (g (f.chan x))
/-- Change the Névé entry at an index. -/
def modNev (f : Field) (x : BitVec 17) (g : Nev → Nev) : Field := f.modChan x (fun c => { c with nev := g c.nev })
/-- Change codewords 0 and 1 of the record at an index. -/
def modRec (f : Field) (x : BitVec 17) (g : ChRec → ChRec) : Field := f.modChan x (fun c => { c with fr := g c.fr })
/-- Change the energy of a channel. -/
def modMet (f : Field) (x : BitVec 17) (g : Meter → Meter) : Field := f.modChan x (fun c => { c with met := g c.met })
/-- Change the history of a channel. -/
def modHist (f : Field) (x : BitVec 17) (g : Hist → Hist) : Field := f.modChan x (fun c => { c with hist := g c.hist })
/-- Change what else is held for a channel. -/
def modAux (f : Field) (x : BitVec 17) (g : Aux → Aux) : Field := f.modChan x (fun c => { c with aux := g c.aux })
/-- The handle of the channel at an index: [31:30] = 0b01, generation, index (02, Handles). -/
def handle (f : Field) (x : BitVec 17) : Word :=
  BitVec.ofNat 32 (0x40000000 + (f.chan x).nev.gen.toNat * 131072 + x.toNat)
/-- The profile bytes bound at an index of the table. -/
def prof (f : Field) (p : BitVec 12) : Bytes := tabGet [] f.nev.prof p.toNat
/-- The profile of a channel. -/
def profOf (f : Field) (x : BitVec 17) : Bytes := f.prof (f.chan x).nev.profile
/-- The loop set of a number. -/
def loopSet (f : Field) (n : Byte) : Bytes := tabGet [] f.nev.loops n.toNat
/-- The existing channels: index and channel, in rising index order. -/
def existing (f : Field) : List (BitVec 17 × Chan) :=
  (f.nev.ch.filter (fun e => e.2.nev.state != .free)).map (fun e => (BitVec.ofNat 17 e.1, e.2))
/-- The indices of the existing channels that p holds for. -/
def select (f : Field) (p : Chan → Bool) : List (BitVec 17) := (f.existing.filter (fun e => p e.2)).map (·.1)
/-- The core runs: RUN, TRIM or QUIET (19, field power states). -/
def coreOn (f : Field) : Bool := f.pwr.st = .run || f.pwr.st = .trim || f.pwr.st = .quiet
/-- The field die's link works: training has completed, and REFCLK runs (R317). -/
def linkUp (f : Field) : Bool := f.trn.st = .up && !f.mer.holdover && f.coreOn
/-- Firn is available: READY, and with its clock (R317, R343). -/
def firnOn (f : Field) : Bool := f.firn.st = .ready && !f.mer.holdover
/-- The present Meridian count. -/
def now (f : Field) : Count := f.mer.count
/-- The codeword at an address is written whole (R345): it holds what was written. -/
def heal1 (f : Field) (cw : Nat) : Field :=
  { f with firn := { f.firn with poisoned := f.firn.poisoned.filter (· ≠ cw), errs := tabDel f.firn.errs cw,
                                 alien := tabDel f.firn.alien cw } }
/-- Codeword k of record x in copy A, or in copy B (R348, R349): a codeword's address is its data address divided by 32. -/
def recCw (x : BitVec 17) (k : Nat) (b : Bool) : Nat := (if b then 1048576 else 0) + 5 * x.toNat + k
/-- Both copies of codeword k of record x are written (R349). -/
def heal2 (f : Field) (x : BitVec 17) (k : Nat) : Field := (f.heal1 (recCw x k false)).heal1 (recCw x k true)
/-- A lane. -/
def lane (f : Field) (l : BitVec 5) : Lane := tabGet Lane.reset f.lan.lane l.toNat
/-- Write a lane. -/
def setLane (f : Field) (l : BitVec 5) (v : Lane) : Field :=
  { f with lan := { f.lan with lane := tabSet Lane.reset f.lan.lane l.toNat v } }
/-- Change a lane. -/
def modLane (f : Field) (l : BitVec 5) (g : Lane → Lane) : Field := f.setLane l (g (f.lane l))
/-- Characters sent since the last mark: 400 MBd are two characters in five ticks (R236, R261). -/
def charNow (f : Field) : Nat := (f.now.toNat - f.lan.tMark.toNat) * 2 / 5
/-- What one end of a lane has on the wire. -/
structure Wire where
  used : Nat
  occ : Nat
  res : Nat
  busy : Count
/-- The wire of an end. -/
def wireOf (v : Lane) (endB : Bool) : Wire :=
  if endB then { used := v.useB, occ := v.occB, res := v.resB, busy := v.exBusyB }
  else { used := v.useA, occ := v.occA, res := v.resA, busy := v.exBusyA }
/-- Write the wire of an end. -/
def setWire (v : Lane) (endB : Bool) (w : Wire) : Lane :=
  if endB then { v with useB := w.used, occB := w.occ, resB := w.res, exBusyB := w.busy }
  else { v with useA := w.used, occA := w.occ, resA := w.res, exBusyA := w.busy }
/-- A unit leaves an end, off characters after the mark and at count t (R258, R261, R517). An ordinary frame follows what is on the
wire, and so does a reserve block, which the telemetry reserve is where it leaves by itself. A unit of a higher level, and a stream
command inside the telemetry reserve, puts off what it interrupts. -/
def Wire.send (w : Wire) (off : Nat) (t : Count) (b : Bytes) : Wire :=
  let n := b.length
  let sof := u8 b 0
  let own : Wire := { w with used := w.used + n }
  if sof = 0x1C then { own with occ := max w.occ off + n, res := max w.occ off + n }
  else if sof = 0xFB && !((u8 b 1 = 0x20 || u8 b 1 = 0x21) && off < w.res) then { own with occ := max w.occ off + n }
  else
    let express := sof = 0x3C || sof = 0x7C
    { own with occ := if off < w.occ then w.occ + n else w.occ, res := if off < w.res then w.res + n else w.res,
               busy := if express then (if w.busy < t then t else w.busy) + BitVec.ofNat 64 (n * 5 / 2) else w.busy }
/-- Count a unit's characters at a lane end. -/
def countChars (f : Field) (l : BitVec 5) (endB : Bool) (b : Bytes) : Field :=
  f.modLane l (fun v => setWire v endB ((wireOf v endB).send f.charNow f.now b))
/-- Append to what leaves the die; a unit that leaves a lane end is counted there. The lanes and Transit send nothing while
they have no clock (R317). -/
def emit (f : Field) (o : Out) : Field :=
  match o with
  | .lane l e b =>
    if f.mer.holdover then f
    else
      let f1 := f.countChars l e b
      { f1 with out := f1.out ++ [o] }
  | .msg _ _ => if f.mer.holdover then f else { f with out := f.out ++ [o] }
  | _ => { f with out := f.out ++ [o] }
/-- Apply a step to each index of a list, in order. -/
def each (f : Field) (xs : List (BitVec 17)) (g : Field → BitVec 17 → Field) : Field := xs.foldl g f
/-- Take a free value (log entry 2). -/
def free (f : Field) : BitVec 64 × Field := (Config.freeValue f.freeN, { f with freeN := f.freeN + 1 })

/-! ### Tree walks (04) -/

/-- The parent of a channel, where PARENT_VALID is 1. -/
def parentOf (f : Field) (x : BitVec 17) : Option (BitVec 17) :=
  if (f.chan x).nev.parentValid then some (f.chan x).nev.parent else none
/-- The path from a channel up, at most n channels (R123). -/
def pathFrom (f : Field) : Nat → BitVec 17 → List (BitVec 17)
  | 0, _ => []
  | n + 1, x => x :: (match f.parentOf x with | some p => pathFrom f n p | none => [])
/-- The path of a report: the channel and its ancestors, at most 16 levels (R123). -/
def path (f : Field) (x : BitVec 17) : List (BitVec 17) := f.pathFrom 16 x
/-- The ancestors of a channel, nearest first. -/
def ancestors (f : Field) (x : BitVec 17) : List (BitVec 17) := (f.path x).drop 1
/-- Does a channel lie below another? -/
def below (f : Field) (x a : BitVec 17) : Bool := (f.ancestors x).contains a
/-- The children of a channel. -/
def children (f : Field) (x : BitVec 17) : List (BitVec 17) :=
  f.select (fun c => c.nev.parentValid && c.nev.parent = x)
/-- The descendants of a channel, in rising index order. -/
def descendants (f : Field) (x : BitVec 17) : List (BitVec 17) := (f.select (fun _ => true)).filter (fun y => f.below y x)
/-- SWITCHED and DIRECT channels below a channel (R115). -/
def switchingBelow (f : Field) (x : BitVec 17) : Nat :=
  (f.descendants x).countP (fun y => (f.chan y).nev.kind.switches)
/-- The level distance of a descendant. -/
def levelsAbove (f : Field) (y x : BitVec 17) : Nat := (f.path y).findIdx (· = x)
/-- The height of a channel's subtree. -/
def height (f : Field) (x : BitVec 17) : Nat := (f.descendants x).foldl (fun h y => max h (f.levelsAbove y x)) 0

/-! ### Transit, field half (14) -/

/-- Number a message and keep it; the first one kept starts the 2 µs of R361. -/
def sendHalf (h : Half) (m : Msg) (t : Count) : Half × BitVec 16 :=
  ({ h with sendSeq := h.sendSeq + 1, kept := h.kept ++ [(h.sendSeq, m)], tSent := if h.kept = [] then t else h.tSent }, h.sendSeq)
/-- Send a data-class message; it is kept until an ACK covers it (R361), and leaves at once where the link is up. Answers
its SEQ. -/
def sendData (f : Field) (m : Msg) : Field × BitVec 16 :=
  let r := sendHalf f.trn.dat m f.now
  let f1 := { f with trn := { f.trn with dat := r.1 } }
  (if f.trn.st = .up then f1.emit (msgOut false (r.1.expect - 1) (r.2, m)) else f1, r.2)
/-- Send a control-class message. -/
def sendCtl (f : Field) (m : Msg) : Field :=
  let r := sendHalf f.trn.ctl m f.now
  let f1 := { f with trn := { f.trn with ctl := r.1 } }
  if f.trn.st = .up then f1.emit (msgOut true (r.1.expect - 1) (r.2, m)) else f1

/-! ### Records (16) -/

/-- The 32 bytes of an event record, PHASE 0: the host die writes PHASE (R397). -/
def evtBytes (e : Evt) : Bytes :=
  [e.rtype, 0] ++ le 2 e.seq ++ le 4 e.handle ++ le 8 e.t ++ pad 16 e.body
/-- The 32 bytes of a completion record, PHASE 0. -/
def cplBytes (c : Cpl) : Bytes :=
  [0x01, (if c.noChange then 2 else 0)] ++ le 2 c.ref.sqPos ++ [c.ref.ring.setWidth 8, c.ref.opcode] ++ le 2 c.status
    ++ le 8 c.ref.tag ++ le 4 c.handle ++ le 4 c.detail ++ le 8 c.tDone
/-- The message that carries a record: CPL or EVT with one record (log entry 14). -/
def recMsg (p : Part) : Rec → Msg
  | .cpl c => { type := 0x81, part := p.setWidth 8, tag := 0, payload := [c.ref.ring.setWidth 8, 0, 0, 0] ++ cplBytes c }
  | .evt e => { type := 0x82, part := p.setWidth 8, tag := 0, payload := [0, 1, 0, 0] ++ evtBytes e }

/-- A partition's share of the event queue. -/
def evq (f : Field) (p : Part) : EvQ := tabGet EvQ.reset f.prt.evq p.toNat
/-- Write a partition's share. -/
def setEvq (f : Field) (p : Part) (q : EvQ) : Field :=
  { f with prt := { f.prt with evq := tabSet EvQ.reset f.prt.evq p.toNat q } }
/-- Entries of the share that no record and no command in flight takes (R400). -/
def unreserved (f : Field) (p : Part) : Nat :=
  16384 - 2 * (f.evq p).q.length - 2 * (f.prt.busy.countP (fun b => b.ref.part = p))
/-- May records of the partition be sent now: the link is up and delivery is not held (R363, R388)? -/
def delivers (f : Field) (p : Part) : Bool := f.trn.st = .up && !bit f.prt.hold p.toNat
/-- The class of an event type (16, event types). -/
def evtClass (t : Byte) : Nat :=
  if t.toNat < 0x18 then 0 else if t.toNat < 0x20 then 1 else if t.toNat < 0x28 then 2 else if t.toNat < 0x30 then 3
  else if t.toNat < 0x38 then 4 else if t.toNat < 0x40 then 5 else if t.toNat < 0x50 then 6 else 7
/-- The completion ring or class of a record has no place at the host die (R393, R395). -/
def blocked (f : Field) (p : Part) (r : Rec) : Bool :=
  let b := tabGet 0 f.prt.block p.toNat
  match r with
  | .cpl c => bit b (16 + c.ref.ring.toNat)
  | .evt e => bit b (evtClass e.rtype)
/-- Send the records of a list that no message carries yet and that have a place, in order. -/
def sendRecs (f : Field) (p : Part) : List QRec → Field × List QRec
  | [] => (f, [])
  | r :: rs => match r.sent with
    | some _ =>
      let (f', rs') := sendRecs f p rs
      (f', r :: rs')
    | none =>
      if f.blocked p r.r then
        let (f', rs') := sendRecs f p rs
        (f', r :: rs')
      else
      let (f1, seq) := f.sendData (recMsg p r.r)
      let (f', rs') := sendRecs f1 p rs
      (f', { r with sent := some seq } :: rs')
/-- Send what a partition's queue holds unsent, where it may be sent. -/
def pump (f : Field) (p : Part) : Field :=
  if f.delivers p then
    let (f', rs) := f.sendRecs p (f.evq p).q
    f'.setEvq p { f'.evq p with q := rs }
  else f
/-- Put a record at the tail of a partition's queue, and send it where it may be sent. -/
def enqueue (f : Field) (p : Part) (r : Rec) : Field :=
  (f.setEvq p { f.evq p with q := (f.evq p).q ++ [{ r := r, sent := none }] }).pump p

/-- Records that R400 keeps while 256 or fewer entries are free: those of R132, safety and thermal records. -/
def rtypeKept (t : Byte) : Bool := (0x18 ≤ t && t ≤ 0x1A) || (0x40 ≤ t && t ≤ 0x5F)
/-- Give an event its SEQ (R520) and put it in the queue, discard it or hold it (R400). -/
def raiseCore (f : Field) (p : Part) (rtype : Byte) (h : Word) (t : Count) (body : Bytes) : Field :=
  let q := f.evq p
  let e : Evt := { rtype := rtype, seq := q.seq, handle := h, t := t, body := pad 16 body }
  let free := f.unreserved p
  let f1 := f.setEvq p { q with seq := q.seq + 1 }
  if rtype = 0x21 then
    if 2 ≤ free then f1.enqueue p (.evt e) else f1.setEvq p { f1.evq p with heldDone := (f1.evq p).heldDone ++ [e] }
  else if (if rtypeKept rtype then 2 ≤ free else 256 < free) then f1.enqueue p (.evt e)
  else f1.setEvq p { f1.evq p with dropped := q.dropped + 1, tDrop := if q.dropped = 0 then f.now else q.tDrop }
/-- Once more than 256 entries are free again: held CAPTURE_DONE records enter, and one OVERFLOW event tells the
discards (R400). -/
def overflow (f : Field) (p : Part) : Field :=
  let q := f.evq p
  let f1 := if q.heldDone = [] then f else
    let n := min q.heldDone.length (f.unreserved p / 2)
    (q.heldDone.take n).foldl (fun g e => g.enqueue p (.evt e)) (f.setEvq p { q with heldDone := q.heldDone.drop n })
  let q1 := f1.evq p
  if q1.dropped ≠ 0 && 256 < f1.unreserved p then
    (f1.setEvq p { q1 with dropped := 0 }).raiseCore p 0x3D 0 f1.now
      (toLe q1.dropped 4 ++ zeros 4 ++ le 8 q1.tDrop)
  else f1
/-- Raise an event for a partition, at a time of recognition (R32). -/
def raiseAt (f : Field) (p : Part) (rtype : Byte) (h : Word) (t : Count) (body : Bytes) : Field :=
  (f.overflow p).raiseCore p rtype h t body
/-- Raise an event for a partition now. -/
def raise (f : Field) (p : Part) (rtype : Byte) (h : Word) (body : Bytes) : Field := f.raiseAt p rtype h f.now body
/-- Raise an event for every partition. -/
def raiseAll (f : Field) (rtype : Byte) (body : Bytes) : Field :=
  ([0, 1, 2, 3] : List Part).foldl (fun g p => g.raise p rtype 0 body) f

/-- Write a completion (R405): the record enters the queue, and the command is no longer in flight. -/
def completeH (f : Field) (r : CmdRef) (s : Status) (detail : Nat) (noChange : Bool) (h : Word) : Field :=
  let c : Cpl := { ref := r, status := s.code, detail := BitVec.ofNat 32 detail, noChange := noChange, handle := h,
                   tDone := f.now }
  { f with prt := { f.prt with busy := f.prt.busy.filter (fun b => b.ref ≠ r) } }.enqueue r.part (.cpl c)
/-- A completion that carries the descriptor's handle. -/
def complete (f : Field) (r : CmdRef) (s : Status) (detail : Nat) : Field := f.completeH r s detail false r.handle
/-- Completion OK. -/
def done (f : Field) (r : CmdRef) : Field := f.complete r .ok 0
/-- Run a command's ordered checks: complete with the first failure, else go on. -/
def guard (f : Field) (r : CmdRef) (cs : List Check) (go : Field → Field) : Field :=
  match firstFail cs with
  | some (s, d) => f.complete r s d
  | none => go f
/-- The data of a read command, as HWRITE messages of at most 468 bytes (14; R398). n bounds the messages. -/
def hwrites (p : Part) (addr : Nat) : Nat → Bytes → Field → Field
  | 0, _, f => f
  | n + 1, b, f =>
    if b = [] then f
    else
      let now := b.take 468
      let m : Msg := { type := 0x83, part := p.setWidth 8, tag := 0,
                       payload := toLe addr 8 ++ toLe now.length 2 ++ zeros 2 ++ now }
      hwrites p (addr + now.length) n (b.drop 468) (f.sendData m).1
/-- Write the result of a read to host memory, then complete with a count or status (R398). -/
def answer (f : Field) (r : CmdRef) (buf : BitVec 64) (b : Bytes) (s : Status) (detail : Nat) : Field :=
  (hwrites r.part buf.toNat (b.length / 468 + 1) b f).complete r s detail

/-! ### Roles and handles (02, 15) -/

/-- The ROLES of a partition in the field die's copy (R378): [0] OPERATOR, [1] OBSERVER, [2] COMMISSIONER. -/
def roles (f : Field) (p : Part) : BitVec 3 := bits (tabGet 0 f.prt.setup p.toNat) 0 3
/-- The QUOTA of a partition in the field die's copy. -/
def quota (f : Field) (p : Part) : Nat := (bits (tabGet 0 f.prt.setup p.toNat) 8 18).toNat
/-- OPERATOR. -/
def operator (f : Field) (p : Part) : Bool := bit (f.roles p) 0
/-- COMMISSIONER. -/
def commissioner (f : Field) (p : Part) : Bool := bit (f.roles p) 2
/-- Any role. -/
def anyRole (f : Field) (p : Part) : Bool := f.roles p ≠ 0
/-- The index a handle names. -/
def idx (h : Word) : BitVec 17 := bits h 0 17
/-- Checks 2 and 3 of the handle and authority checks: the handle's form, and its generation (R53). -/
def handleForm (h : Word) : Bool := bits h 30 2 = 1
/-- The index is not FREE and the generation agrees. -/
def handleLive (f : Field) (h : Word) : Bool :=
  (f.chan (idx h)).nev.state ≠ .free && (f.chan (idx h)).nev.gen = bits h 17 13
/-- Does a partition hold a grant for bit b (0 CLOSE, 1 OPEN, 2 RELEASE) on a channel (R380)? -/
def granted (f : Field) (p : Part) (x : BitVec 17) (b : Nat) : Bool :=
  f.prt.grants.any (fun g => g.grantee = p && bit g.mask b && (g.ch = x ||
    (g.subtree && f.below x g.ch && (f.chan g.ch).nev.owner = (f.chan x).nev.owner)))
/-- Checks 1 to 3 of R53. -/
def checks123 (f : Field) (p : Part) (h : Word) : List Check :=
  [(!bit f.nev.coldAck p.toNat, .epoch, 0), (handleForm h, .badHandle, 0), (f.handleLive h, .stale, 0)]

/-! ### Lanes (09, 10) -/

/-- The link to an identity. -/
def link (f : Field) (id : BitVec 64) : OsLink := tabGet OsLink.empty f.lan.link id.toNat
/-- Write the link to an identity. -/
def setLink (f : Field) (id : BitVec 64) (v : OsLink) : Field :=
  { f with lan := { f.lan with link := tabSet OsLink.empty f.lan.link id.toNat v } }
/-- The position at which a lane has an identity enumerated. -/
def posOf (v : Lane) (id : BitVec 64) : Option (BitVec 6) :=
  (v.os.find? (fun e => e.2.id = id)).map (fun e => BitVec.ofNat 6 e.1)
/-- The end that serves a position: false is A; none where no end serves it (R240). -/
def endOf (v : Lane) (pos : BitVec 6) : Option Bool :=
  match v.st with
  | .ring => some false
  | .split => some (v.westValid && v.westPos ≤ pos)
  | _ => none
/-- The lane and position of the point a channel is bound to, with the point, where its identity is enumerated. -/
def pointOf (f : Field) (x : BitVec 17) : Option (BitVec 5 × BitVec 6 × BitVec 6 × BitVec 64) :=
  match (f.chan x).fr.bind with
  | .point l _ pt id => (posOf (f.lane l) id).map (fun pos => (l, pos, pt, id))
  | _ => none
/-- One copy of an express or ALL-OPEN frame (10, express frame layout). -/
def expressBytes (sof type b0 b1 b2 b3 : Byte) : Bytes :=
  let body := [type, b0, b1, b2, b3, 0, 0, 0]
  [sof] ++ body ++ le 2 (crc16 body) ++ [0xF7]
/-- An express pair that leaves one end (R266). -/
def expressPair (f : Field) (l : BitVec 5) (endB : Bool) (type b0 b1 b2 b3 : Byte) : Field :=
  let c := expressBytes 0x3C type b0 b1 b2 b3
  f.emit (.lane l endB (c ++ c))
/-- The selectivity frame that an end sends next: the first TRIP or RELEASE it serves, else the first of the others (R126). -/
def exNext (v : Lane) (e : Bool) : Option ExWait :=
  let mine := v.exq.filter (fun w => endOf v w.pos = some e)
  match mine.find? (fun w => w.type = 0x02 || w.type = 0x04) with
  | some w => some w
  | none => mine.head?
/-- An end whose wire is free of express frames sends the next one that waits (R126). -/
def exServe (f : Field) (l : BitVec 5) (e : Bool) : Field :=
  let v := f.lane l
  if f.now < (wireOf v e).busy then f
  else match exNext v e with
    | some w => (f.setLane l { v with exq := v.exq.erase w }).expressPair l e w.type (w.pos.setWidth 8) (w.pt.setWidth 8) 0 0
    | none => f
/-- Present TRIP, HOLD, RELEASE or CANCEL for the point of a channel: it leaves at once, or waits while an express pair is on the wire.
Answers whether an end serves it (R125, R126, R240); none does while the lanes have no clock (R317). -/
def expressTo (f : Field) (x : BitVec 17) (type : Byte) : Field × Bool :=
  match f.pointOf x with
  | some (l, pos, pt, _) => match endOf (f.lane l) pos with
    | some e =>
      if f.mer.holdover then (f, false)
      else ((f.modLane l (fun v => { v with exq := v.exq ++ [{ type := type, pos := pos, pt := pt }] })).exServe l e, true)
    | none => (f, false)
  | none => (f, false)
/-- An ordinary frame other than telemetry (10). -/
def ordinaryBytes (type pos cnum : Byte) (payload : Bytes) : Bytes :=
  let body := [type, pos, cnum, BitVec.ofNat 8 payload.length] ++ payload
  [0xFB] ++ body ++ le 4 (crc32c body) ++ [0xFD]
/-- TYPE and payload of a numbered command (10, command set). -/
def lcmdBytes : LCmd → Byte × Bytes
  | .openPoint p => (0x10, [p.setWidth 8])
  | .ackTrip p => (0x11, [p.setWidth 8])
  | .fbConfig _ b => (0x18, b)
  | .streamStart p s pre cap =>
    (0x20, [p.setWidth 8, s.setWidth 8, (if pre then 1 else 0) + (if cap then 2 else 0)])
  | .streamStop s a => (0x21, [s.setWidth 8, a.setWidth 8])
/-- The command number after n: 255 is followed by 1 (R276). -/
def cnumNext (n : Byte) : Byte := if n = 255 then 1 else n + 1
/-- The end and position at which an identity is served, on the lane it is enumerated on. -/
def served (f : Field) (id : BitVec 64) : Option (BitVec 5 × BitVec 6 × Bool) :=
  match f.lan.lane.find? (fun e => (posOf e.2 id).isSome) with
  | none => none
  | some (l, v) => match posOf v id with
    | none => none
    | some pos => (endOf v pos).map (fun e => (BitVec.ofNat 5 l, pos, e))
/-- Commands that open or end streams. -/
def LCmd.streams : LCmd → Bool
  | .streamStart _ _ _ _ => true
  | .streamStop _ _ => true
  | _ => false
/-- The command that a link sends next: a stream command (R517), then one to be sent again, then the first that waits; none waits for
more than 16 outstanding ones to be acknowledged, nor before a base is known (R277, R518). -/
def OsLink.next (k : OsLink) : Option (LCmd × Bool) :=
  let fresh := if k.anew || k.base.isNone || 16 ≤ k.sent.length then none else k.wait.head?
  match fresh with
  | some u => if LCmd.streams u.cmd then some (u.cmd, false) else match k.sent.find? (·.due) with
    | some s => some (s.cmd, true)
    | none => some (u.cmd, false)
  | none => if k.anew then none else (k.sent.find? (·.due)).map (fun s => (s.cmd, true))
/-- The slots of a lane that stream on the chain of an end, with their gate references (R262). -/
def cycleRefs (f : Field) (l : BitVec 5) (e : Bool) : List (Nat × BitVec 12) :=
  (List.range 6).filterMap (fun s =>
    if (f.lane l).slots[s]? ≠ some .active then none
    else match f.hel.ctx.find? (fun c => c.2.slot = some (l, BitVec.ofNat 3 s)) with
      | some (_, c) =>
        match f.pointOf c.ch with
        | some (_, pos, _, _) => if endOf (f.lane l) pos = some e then
            some (s, if c.origin = .capture || c.phase = .capture then 0 else c.gOut) else none
        | none => none
      | none => none)
/-- Characters that the rest of a superframe's stream cycles take at an end. -/
def cyclesLeft (f : Field) (l : BitVec 5) (e : Bool) : Nat :=
  let n := (f.cycleRefs l e).length
  if n = 0 then 0 else (25 - (f.lane l).cyc) * (13 + 7 * n)
/-- No level-0 content is on the wire of an end. -/
def wireFree (f : Field) (l : BitVec 5) (e : Bool) : Bool := (wireOf (f.lane l) e).occ ≤ f.charNow
/-- n more characters of level 0 leave the tail guard of 16 characters, with the cycles still to come and room left aside (R264). -/
def fits (f : Field) (l : BitVec 5) (e : Bool) (n room : Nat) : Bool :=
  max (wireOf (f.lane l) e).occ f.charNow + n + f.cyclesLeft l e + room ≤ 19984
/-- Room for the polls that wait at an end, which are held back after the commands (R264). -/
def pollRoom (v : Lane) (e : Bool) : Nat := 96 * (v.pollQ.filter (fun q => endOf v q.1 = some e)).length
/-- May a command leave an end now? A stream command always may (R517); any other once the ordinary frame on the wire is over, where it
fits (R261, R264). -/
def mayLeaveEnd (f : Field) (l : BitVec 5) (e : Bool) (c : LCmd) : Bool :=
  LCmd.streams c || (f.wireFree l e && f.fits l e (10 + (lcmdBytes c).2.length) (pollRoom (f.lane l) e))
/-- The frame of a numbered command. -/
def cmdFrame (pos : BitVec 6) (cnum : Byte) (c : LCmd) : Bytes := ordinaryBytes (lcmdBytes c).1 (pos.setWidth 8) cnum (lcmdBytes c).2
/-- A link's next command leaves: one sent again keeps its number, a new one takes the next (R276). The first sending of an OPEN
completes its command (R70). -/
def sendNext (f : Field) (id : BitVec 64) (l : BitVec 5) (pos : BitVec 6) (e again : Bool) : Field :=
  let k := f.link id
  if again then match k.sent.find? (·.due) with
    | some s =>
      let f1 := f.setLink id { k with sent := k.sent.map (fun t =>
        if t.cnum = s.cnum then { t with due := false, sf := f.nev.sfCount, rep := f.nev.sfCount } else t) }
      (f1.modLane l (fun v => { v with resent := satAdd v.resent 1 })).emit (.lane l e (cmdFrame pos s.cnum s.cmd))
    | none => f
  else match k.wait, k.base with
    | u :: us, some b =>
      let c := cnumNext (match k.sent.getLast? with | some s => s.cnum | none => b)
      let s : Sent := { cnum := c, cmd := u.cmd, sf := f.nev.sfCount, due := false, rep := f.nev.sfCount }
      let f1 := f.setLink id { k with wait := us, sent := k.sent ++ [s] }
      let f2 := f1.emit (.lane l e (cmdFrame pos c u.cmd))
      match u.ref with | some r => f2.done r | none => f2
    | _, _ => f
/-- Send numbered commands of an identity, n at most, while an end serves it and its wire takes them (R277). Nothing leaves while the
lanes have no clock (R317). -/
def pumpLink (id : BitVec 64) : Nat → Field → Field
  | 0, f => f
  | n + 1, f =>
    match f.served id, OsLink.next (f.link id) with
    | some (l, pos, e), some (c, again) =>
      if !f.mer.holdover && f.mayLeaveEnd l e c then pumpLink id n (f.sendNext id l pos e again) else f
    | _, _ => f
/-- Queue a numbered command for an identity, a stream command ahead of every other (R517), and send what may be sent. -/
def sendCmd (f : Field) (id : BitVec 64) (c : LCmd) (ref : Option CmdRef) : Field :=
  let k := f.link id
  let u : Unsent := { cmd := c, ref := ref }
  let first := k.wait.takeWhile (fun u => LCmd.streams u.cmd)
  let wait := if LCmd.streams c then first ++ [u] ++ k.wait.drop first.length else k.wait ++ [u]
  pumpLink id 16 (f.setLink id { k with wait := wait })
/-- Queue a numbered command for the point of a channel. -/
def cmdTo (f : Field) (x : BitVec 17) (c : BitVec 6 → LCmd) (ref : Option CmdRef) : Field :=
  match (f.chan x).fr.bind with
  | .point _ _ pt id => f.sendCmd id (c pt) ref
  | _ => match ref with | some r => f.done r | none => f

/-! ### Profiles: the effective values of a block (03 to 08) -/

/-- Effective hold-off in µs (R117). -/
def holdoffUs (p : Bytes) : Nat := if leNat p 106 2 = 0 then 40 else leNat p 106 2
/-- Effective breaker-failure time in µs. -/
def bfUs (p : Bytes) : Nat := if leNat p 108 2 = 0 then 200 else leNat p 108 2
/-- Effective hold limit in µs. -/
def holdLimitUs (p : Bytes) : Nat := if leNat p 110 2 = 0 then 1000 else leNat p 110 2
/-- Effective clear time in µs. -/
def clearUs (p : Bytes) : Nat := if leNat p 112 2 = 0 then 10 else leNat p 112 2
/-- Gather time in µs. -/
def gatherUs (p : Bytes) : Nat := (u8 p 105).toNat
/-- IMMEDIATE of the selectivity block. -/
def immediate (p : Bytes) : Bool := bit (u8 p 104) 0
/-- COALESCE of the selectivity block. -/
def coalesce (p : Bytes) : Bool := bit (u8 p 104) 1
/-- A threshold in the point's raw current code: ceil(M 2^16 / IGAIN), saturated (R110); 0 where M is 0. -/
def rawThreshold (m igain : Nat) : Nat := if igain = 0 then 0 else min (cdiv (m * 65536) igain) 32767
/-- Enabled fallback stages of a profile: M not 0. -/
def fbStages (p : Bytes) : Nat := (List.range 8).countP (fun i => leNat p (68 + 4 * i) 2 ≠ 0)
/-- The fallback configuration payload for a point (10, fallback configuration payload; R110). -/
def fbPayload (p : Bytes) (igain : BitVec 24) (pt : BitVec 6) : Bytes :=
  let g := igain.toNat
  [pt.setWidth 8, (if immediate p then 1 else 0)] ++ toLe (rawThreshold (leNat p 64 2) g) 2 ++ toLe (holdoffUs p) 2
    ++ toLe (holdLimitUs p) 2 ++ toLe (clearUs p) 1 ++ toLe (fbStages p) 1 ++ zeros 2
    ++ ((List.range 8).map (fun i =>
      if leNat p (68 + 4 * i) 2 = 0 then zeros 4
      else toLe (rawThreshold (leNat p (68 + 4 * i) 2) g) 2 ++ le 2 (u16 p (70 + 4 * i)))).flatten
/-- Is a command a fallback configuration of a channel? -/
def LCmd.isFbOf (x : BitVec 17) : LCmd → Bool
  | .fbConfig y _ => x = y
  | _ => false
/-- FB_SYNC := 0 and a fallback configuration queued, for a SWITCHED channel (R111, R119). -/
def queueFb (f : Field) (x : BitVec 17) : Field :=
  let c := f.chan x
  match c.nev.kind, c.fr.bind with
  | .switched, .point _ _ pt id =>
    let f1 := f.modChan x (fun c => { c with nev := { c.nev with fbSync := false },
                                             aux := { c.aux with fbQueued := some f.now, fbRaised := false } })
    let k := f1.link id
    (f1.setLink id { k with wait := k.wait.filter (fun u => !LCmd.isFbOf x u.cmd) }).sendCmd id
      (.fbConfig x (fbPayload (f1.profOf x) c.nev.igain pt)) none
  | _, _ => f

end Field

end Sys2Proof.Machine
end

