-- ==== Sys2Proof/Machine/Flow.lean ====
section
/-! DEFINITION. What many steps share about a channel: events and storms (R68, R140 to R143), the state transition
(R64), a direct channel's gate (R288), endings of insertions (R180, R519), captures (R230 to R233), trips (R98, R125)
and entry into FALLBACK (R66). -/
namespace Sys2Proof.Machine
namespace Field

/-! ### Events of a channel and storms (04) -/

/-- The element codes of R99, by which an event or a cause counts for storms. -/
def elementCode (c : Byte) : Bool := 1 ≤ c && c ≤ 0x0E
/-- The coalescing node of a channel (R140). -/
def coalNode (f : Field) (x : BitVec 17) : BitVec 17 :=
  match (f.ancestors x).find? (fun a => coalesce (f.profOf a)) with
  | some a => a
  | none => (f.path x).getLast?.getD x
/-- The storm of a triple. -/
def stormOf (f : Field) (n : BitVec 17) (c : Byte) (p : Part) : Option Storm :=
  f.sel.storms.find? (fun s => s.node = n && s.code = c && s.part = p)
/-- Write the storm of its triple. -/
def setStorm (f : Field) (s : Storm) : Field :=
  let others := f.sel.storms.filter (fun t => !(t.node = s.node && t.code = s.code && t.part = s.part))
  { f with sel := { f.sel with storms := others ++ [s] } }
/-- Open storms. -/
def stormsOpen (f : Field) : Nat := f.sel.storms.countP (·.opened)
/-- Deliver an event that counts under an element code, or coalesce it (R141 to R143). -/
def coalesced (f : Field) (x : BitVec 17) (code : Byte) (rtype : Byte) (body : Bytes) : Field :=
  let p := (f.chan x).nev.owner
  let node := f.coalNode x
  if f.sel.stormN = 0 then f.raise p rtype (f.handle x) body
  else
    let s := (f.stormOf node code p).getD
      { node := node, code := code, part := p, inSf := 0, opened := false, suppressed := 0, tFirst := 0, tLast := 0,
        quiet := 0, chans := [] }
    let s1 := { s with inSf := s.inSf + 1 }
    if s.opened then
      f.setStorm { s1 with suppressed := s.suppressed + 1, tLast := f.now, quiet := 0,
                           chans := if s.chans.contains x then s.chans else s.chans ++ [x] }
    else if s1.inSf < f.sel.stormN.toNat || 1024 ≤ f.stormsOpen then
      (f.setStorm s1).raise p rtype (f.handle x) body
    else
      (f.setStorm { s1 with opened := true, suppressed := 1, tFirst := f.now, tLast := f.now, quiet := 0, chans := [x] }).raise
        p 0x1B (f.handle node) [code]
/-- An element event (16, ELEMENT) for the owner. -/
def element (f : Field) (x : BitVec 17) (code : Byte) : Field :=
  let e := (f.chan x).nev
  let body := [code, e.pickup.setWidth 8] ++ le 2 e.iLast ++ le 2 e.vLast ++ zeros 2 ++ le 4 (u32 (f.prof e.profile) 4)
    ++ le 2 e.profile
  (f.modAux x (fun a => { a with lastElem := code })).coalesced x code 0x11 body
/-- The state-change event of R68: old and new state, cause, detail and issuer. -/
def stateChange (f : Field) (x : BitVec 17) (old new : ChState) (cause detail : Byte) (issuer : Option Part) : Field :=
  let iss : Byte := match issuer with | some p => 0x80 + p.setWidth 8 | none => 0
  let body := [BitVec.ofNat 8 old.code, BitVec.ofNat 8 new.code, cause, detail, iss]
  if elementCode cause then f.coalesced x cause 0x10 body
  else f.raise (f.chan x).nev.owner 0x10 (f.handle x) body

/-! ### The timing wheel (05) -/

/-- The due count of an entry placed at t with delay d steps: the first slot boundary at or after t + 10,000 d (R150). -/
def dueAt (t : Count) (d : Nat) : Count := BitVec.ofNat 64 (cdiv (t.toNat + 10000 * d) 10000 * 10000)
/-- STABLE of a profile (R146). -/
def stableSteps (p : Bytes) : Nat := leNat p 168 4

/-! ### The transition (R64) -/

/-- The write of a transition: state, T_STATE, what leaving and entering a state does to the wheel (R151), and the record
of a new trip (R145); it goes to codeword 1 of the record (R349). -/
def transit (f : Field) (x : BitVec 17) (new : ChState) (cause : Byte) : Field :=
  let p := f.profOf x
  (f.modChan x (fun c =>
    { c with
      nev := { c.nev with state := new, prior := if new = .fallback then c.nev.state else c.nev.prior },
      fr := { c.fr with tState := f.now,
                        cause := if new = .tripped then cause else c.fr.cause,
                        wheel := if new = .closed && stableSteps p ≠ 0 && c.nev.kind.switches
                          then .stable (dueAt f.now (stableSteps p)) else .none },
      hist := { c.hist with stateChanged := true },
      aux := { c.aux with policyApplied := false, confirmed := false } })).heal2 x 1
/-- A transition and its event. -/
def enter (f : Field) (x : BitVec 17) (new : ChState) (cause detail : Byte) (issuer : Option Part) : Field :=
  let old := (f.chan x).nev.state
  (f.transit x new cause).stateChange x old new cause detail issuer

/-! ### A direct channel's gate (11) -/

/-- A direct channel. -/
def dchan (f : Field) (n : BitVec 4) : Dch := tabGet Dch.reset f.dch n.toNat
/-- Write a direct channel. -/
def setDch (f : Field) (n : BitVec 4) (d : Dch) : Field := { f with dch := tabSet Dch.reset f.dch n.toNat d }
/-- Change a direct channel. -/
def modDch (f : Field) (n : BitVec 4) (g : Dch → Dch) : Field := f.setDch n (g (f.dchan n))
/-- The direct channel a channel is bound to. -/
def directOf (f : Field) (x : BitVec 17) : Option (BitVec 4) :=
  match (f.chan x).fr.bind with | .direct n => some n | _ => none
/-! ### Contexts (06) -/

/-- The contexts that hold a channel, by number. -/
def ctxsOf (f : Field) (x : BitVec 17) : List (Nat × Ctx) := f.hel.ctx.filter (fun e => e.2.ch = x)
/-- The phases of an insertion in progress: not a ramp-off, nor a capture of its failure (R180). -/
def inserts (c : Ctx) : Bool :=
  c.origin ≠ .capture && (c.phase = .prepare || c.phase = .ramp || c.phase = .settle || c.phase = .handover)
/-- The context of a channel's insertion in progress, by number. A context that an earlier insertion still holds in its ramp-off or in
the capture of its failure is not it. -/
def insCtx (f : Field) (x : BitVec 17) : Option (Nat × Ctx) := f.hel.ctx.find? (fun e => e.2.ch = x && inserts e.2)
/-- Write a context. -/
def setCtx (f : Field) (n : Nat) (c : Ctx) : Field := { f with hel := { f.hel with ctx := tabPut f.hel.ctx n c } }
/-- Change a context, where it is claimed. -/
def modCtx (f : Field) (n : Nat) (g : Ctx → Ctx) : Field :=
  match tabLook f.hel.ctx n with | some c => f.setCtx n (g c) | none => f
/-- CN_EST of R208. -/
def cnEst (c : Ctx) : BitVec 32 :=
  let d := if u8 c.ins 30 = 0 then 4 else (u8 c.ins 30).toNat
  if c.sxx = 0 || c.sxy ≤ 0 then 0
  else BitVec.ofNat 32 (sat (rdiv (c.sxy * d * 1000000) (c.sxx * c.rate)) 0 4294967295).toNat
/-- The INS_END event of an insertion that has claimed a context (R519). -/
def insEnd (f : Field) (n : Nat) (c : Ctx) (result : Byte) : Field :=
  f.raise (f.chan c.ch).nev.owner 0x12 c.handle
    ([result, BitVec.ofNat 8 c.origin.code, BitVec.ofNat 8 n, 0] ++ le 4 c.periods ++ le 4 (cnEst c))
/-- A pending swap is discarded when the context ends or passes beyond SETTLE (R204). -/
def dropSwap (f : Field) (n : Nat) : Field :=
  match tabLook f.hel.ctx n with
  | some c => match c.swap with
    | some r => ({ f with hel := { f.hel with swapDisc := satAdd f.hel.swapDisc 1 } }.setCtx n { c with swap := none }).complete
        r .noContext 0
    | none => f
  | none => f

/-! ### Captures (08) -/

/-- A capture slot. -/
def slot? (f : Field) (n : Nat) : Option Slot := tabLook f.firn.slots n
/-- Write a capture slot. -/
def setSlot (f : Field) (n : Nat) (s : Slot) : Field := { f with firn := { f.firn with slots := tabPut f.firn.slots n s } }
/-- The codeword k of a capture slot (R348). -/
def slotCw (n k : Nat) : Nat := 4194304 + 2048 * n + k
/-- The header of a slot is written, codewords 0 and 1, and the codewords of its entries from entry i on (R233, R345). -/
def writeSlot (f : Field) (n : Nat) (s : Slot) (i : Nat) : Field :=
  ((List.range (cdiv s.ents.length 4)).filter (fun k => i / 4 ≤ k)).foldl (fun (g : Field) k => g.heal1 (slotCw n (2 + k)))
    (((f.setSlot n s).heal1 (slotCw n 0)).heal1 (slotCw n 1))
/-- The first free capture slot. -/
def freeSlot (f : Field) : Option Nat := firstNat (fun i => (tabLook f.firn.slots i).isNone) 0 1024
/-- A capture ends: its slot stays in use, and CAPTURE_DONE is raised (R233). -/
def capEnd (f : Field) (n : Nat) (aborted : Bool) : Field :=
  match f.slot? n with
  | some s => if s.running then
      let s1 := { s with running := false, aborted := aborted || s.aborted }
      let flags : Byte := (if s1.trunc then 1 else 0) + (if s1.aborted then 2 else 0) + (if s1.preShort then 4 else 0)
      (f.writeSlot n s1 s1.ents.length).raise s.dest 0x21 s.handle
        (toLe n 2 ++ [BitVec.ofNat 8 s.kind.code, flags] ++ toLe s1.ents.length 4 ++ le 2 (s.cause.setWidth 16))
    else f
  | none => f
/-- Contexts that a capture holds under CAP_MAX: TRIP, REQUEST and FAIL captures (R174, R181). -/
def capCount (f : Field) : Nat := f.hel.ctx.countP (fun e => e.2.origin = .capture || e.2.phase = .capture || e.2.capSlot.isSome)
/-- The first free context number. -/
def freeCtx (f : Field) : Option Nat := firstNat (fun i => (tabLook f.hel.ctx i).isNone) 0 256
/-- The first free stream slot of a lane (R173, R274). -/
def freeStream (v : Lane) : Option Nat := firstNat (fun i => v.slots[i]? = some .idle) 0 6
/-- The lane of a channel's point. -/
def laneOf (f : Field) (x : BitVec 17) : Option (BitVec 5) :=
  match (f.chan x).fr.bind with | .point l _ _ _ => some l | _ => none
/-- Is a stream slot free for the channel, or none needed? -/
def streamFree (f : Field) (x : BitVec 17) : Bool :=
  match f.laneOf x with | some l => (freeStream (f.lane l)).isSome | none => true
/-- Is a queue entry eligible (R169)? -/
def eligible (f : Field) (e : InsEnt) : Bool :=
  f.freeCtx.isSome && !f.hel.pause && f.streamFree e.ch && (f.ctxsOf e.ch).isEmpty &&
    (f.ancestors e.ch).all (fun a => !((f.chan a).nev.state = .inserting && (f.insCtx a).isSome))
/-- The entry that would be eligible if a context were free: for R174 and R181. -/
def eligibleBut (f : Field) (e : InsEnt) : Bool :=
  !f.hel.pause && f.streamFree e.ch && (f.ctxsOf e.ch).isEmpty &&
    (f.ancestors e.ch).all (fun a => !((f.chan a).nev.state = .inserting && (f.insCtx a).isSome))
/-- Captures that may hold contexts at once. -/
def capMax (f : Field) : Nat := min f.hel.capMax.toNat 64
/-- The core of a new context (R198): fewest DIRECT contexts first for a DIRECT channel, then fewest contexts. -/
def coreFor (f : Field) (direct : Bool) : BitVec 2 :=
  let cnt (k : Nat) := f.hel.ctx.countP (fun e => e.2.core.toNat = k)
  let dcnt (k : Nat) := f.hel.ctx.countP (fun e => e.2.core.toNat = k && (f.chan e.2.ch).nev.kind = .direct)
  let key (k : Nat) := (if direct then dcnt k * 1000 else 0) + cnt k
  BitVec.ofNat 2 (([1, 2, 3].foldl (fun b k => if key k < key b then k else b) 0))
/-- The rate code of a grant: 1 for 50 kS/s, 2 for 100 kS/s, 3 for 200 kS/s (DCH_STATUS.GRANT). -/
def grantRate (g : BitVec 2) : Nat := if g = 3 then 200000 else if g = 2 then 100000 else 50000
/-- Is half h of loop class c granted to no context (R296)? -/
def halfFree (f : Field) (c h : Nat) : Bool :=
  f.hel.ctx.all (fun e => !(e.2.grantClass = c && (e.2.grant = 3 || (e.2.grant = 2 && e.2.grantHalf = h))))
/-- The grant that DCH_STATUS shows of a direct channel: that of its context of the lowest number. -/
def grantShown (f : Field) (x : BitVec 17) : BitVec 2 := match f.ctxsOf x with | e :: _ => e.2.grant | [] => 0
/-- The highest rate not above the requested one for which a pattern is free, with class and half (R296). -/
def grantFor (f : Field) (rate : Nat) : BitVec 2 × Nat × Nat :=
  let whole := if rate ≥ 2 then firstNat (fun c => f.halfFree c 0 && f.halfFree c 1) 4 5 else none
  match whole with
  | some c => (3, c, 0)
  | none =>
    let half := if rate ≥ 1 then firstNat (fun c => f.halfFree c 0 || f.halfFree c 1) 4 5 else none
    match half with
    | some c => (2, c, if f.halfFree c 0 then 0 else 1)
    | none => (1, 0, 0)
/-- A pre-trigger sample as a capture entry, normalised with the channel's gains (R84, R297, R300). -/
def preEnt (e : Nev) (s : PreSample) : CapEnt :=
  { ref := 0,
    v := BitVec.ofNat 12 (sat (rdiv ((sat (rdiv s.v.toInt 8) 0 4095) * e.vgain.toNat) 65536) 0 4095).toNat,
    i := ofInt 16 (sat (rdiv (s.i.toInt * e.igain.toNat) 65536) (-32768) 32767),
    g := 0, missing := false, pre := true, satd := s.ovr, inval := s.inval }
/-- The last pre-trigger samples of a direct channel as capture entries, oldest first, each entered rate / 50,000 times
(R300). -/
def preEnts (f : Field) (x : BitVec 17) (n : BitVec 4) (want rate : Nat) : List CapEnt :=
  let e := (f.chan x).nev
  let rep := rate / 50000
  let src := ((f.dchan n).pre.drop ((f.dchan n).pre.length - cdiv want rep)).map (fun s =>
    List.replicate rep (preEnt e s))
  let all := src.flatten
  all.drop (all.length - want)

/-- What a claim takes for its samples: a lane's stream slot, or a direct channel's grant with class and half (R296), and the rate. -/
structure Stream where
  slot : Option (BitVec 5 × BitVec 3)
  grant : BitVec 2 × Nat × Nat
  rate : Nat
  deriving DecidableEq, Repr
/-- A context record as a claim leaves it (R192, R215). -/
def newCtx (f : Field) (x : BitVec 17) (o : Origin) (ph : Phase) (st : Stream) (ins bank : Bytes) (stages : List Stage) : Ctx :=
  { handle := f.handle x, ch := x, origin := o, phase := ph, core := f.coreFor ((f.chan x).nev.kind = .direct), claimT := f.now,
    ins := ins, rate := st.rate, slot := st.slot, grant := st.grant.1, grantClass := st.grant.2.1, grantHalf := st.grant.2.2,
    lastSlot := none, cyc0 := 0, periods := 0, firstGood := none, gOut := 0, delta := 0, bumpJ := 0, ref := 0,
    v := 0, i := 0, iexp := 0, viol := 0, missCnt := 0, frz := 0, goodRun := 0, sxy := 0, sxx := 0, bankA := bank, bankB := bank,
    activeB := false, stages := stages, satHi := false, satLo := false, holding := false, injActive := false, swap := none,
    swapTaken := false, vHist := [], lastRaw := none, overN := 0, kc := 0, k := 0, v0 := 0,
    tPhase := f.now, tSettled := none, injK := 0, lostPend := false, failCode := none, loopSlot := none, capSlot := none,
    log := [], sample := none, pSat := false, pInval := false }
/-- Take the lane's stream slot and present STREAM_START, or the free loop slots that suit a direct channel (R175, R296). -/
def startStream (f : Field) (x : BitVec 17) (rateWant : Nat) (pretrig capture : Bool) : Field × Stream :=
  match f.directOf x with
  | some _ => (f, { slot := none, grant := f.grantFor rateWant, rate := grantRate (f.grantFor rateWant).1 })
  | none => match f.laneOf x with
    | some l => match freeStream (f.lane l) with
      | some s =>
        let f1 := f.modLane l (fun v => { v with slots := listSet v.slots s .active })
        (f1.cmdTo x (fun pt => .streamStart pt (BitVec.ofNat 3 s) pretrig capture) none,
         { slot := some (l, BitVec.ofNat 3 s), grant := (0, 0, 0), rate := 50000 })
      | none => (f, { slot := none, grant := (0, 0, 0), rate := 50000 })
    | none => (f, { slot := none, grant := (0, 0, 0), rate := 50000 })
/-- Stop a context's stream with a STREAM_STOP of an action, and free its slot; a direct channel's grant lasts as long as its context
(R296). -/
def stopStream (f : Field) (c : Ctx) (action : BitVec 2) : Field :=
  match c.slot with
  | some (l, s) => (f.cmdTo c.ch (fun _ => .streamStop s action) none).modLane l
      (fun v => { v with slots := listSet v.slots s.toNat .idle })
  | none => f
/-- Abandon a context's stream: nothing is sent; the slot is free after 3 cycles with VALID clear (R274). -/
def abandonStream (f : Field) (c : Ctx) : Field :=
  match c.slot with
  | some (l, s) => f.modLane l (fun v => { v with slots := listSet v.slots s.toNat (.gap 3) })
  | none => f
/-- Free a context's place; its captures end, and with it its grant (R296). -/
def dropCtx (f : Field) (n : Nat) (aborted : Bool) : Field :=
  match tabLook f.hel.ctx n with
  | some c =>
    let f1 := f.dropSwap n
    let f2 := match c.loopSlot with | some s => f1.capEnd s aborted | none => f1
    let f3 := match c.capSlot with | some s => f2.capEnd s aborted | none => f2
    { f3 with hel := { f3.hel with ctx := tabDel f3.hel.ctx n } }
  | none => f

/-! ### The gate of a switch (11, 06) -/

/-- A ramp-off is over, its gate off: the context goes on in its capture, or is released with its stream stopped (R180, R212). -/
def rampOver (f : Field) (n : Nat) : Field :=
  match tabLook f.hel.ctx n with
  | none => f
  | some c => if c.capSlot.isSome then f.modCtx n (fun k => { k with phase := .capture }) else (f.stopStream c 0).dropCtx n false
/-- A trip, EPO or other gate-off action ends the ramp-off of a channel at once (R212, R288). -/
def rampsEnd (f : Field) (x : BitVec 17) : Field :=
  (f.ctxsOf x).foldl (fun (g : Field) e => if e.2.phase = Phase.rampOff then g.rampOver e.1 else g) f
/-- DGn goes OFF (R288): low, the comparator timers end, a ramp-off ends; the pre-trigger buffer freezes where the action is one of
R288 other than an open command (R300). A TRIPPED channel's switch is then confirmed open (R65). -/
def gateOff (f : Field) (n : BitVec 4) (freeze : Bool) : Field :=
  let d := f.dchan n
  let f1 := f.modDch n (fun d => { d with
    mode := .off, dg := false, acc := 0, gOut := 0, fall := none, timer := .idle, clearedSent := false,
    stuck := if d.mode = .off then d.stuck else false, tOff := if d.mode = .off then d.tOff else f.now,
    preFrozen := if freeze && d.mode ≠ .off && d.preFrozen.isNone then some f.now else d.preFrozen })
  match d.bound with
  | some x =>
    let f2 := f1.rampsEnd x
    if (f2.chan x).nev.state = .tripped then f2.modAux x (fun a => { a with confirmed := true }) else f2
  | none => f1
/-- DGn goes to ON, or to LINEAR at a gate reference. -/
def gateTo (f : Field) (n : BitVec 4) (m : DgMode) (g : BitVec 12) : Field :=
  f.modDch n (fun d => { d with mode := m, gOut := g, fall := none, dg := if m = .on then true else d.dg,
                                acc := if d.mode = .linear then d.acc else 0 })
/-- Open the switch of a channel at once: DG low, or an express frame of a type (TRIP 0x02, RELEASE 0x04). Answers
whether it was presented (R125). -/
def openSwitch (f : Field) (x : BitVec 17) (type : Byte) : Field × Bool :=
  match f.directOf x with
  | some n => (f.gateOff n true, true)
  | none => (f.rampsEnd x).expressTo x type

/-- CAP_PRE and CAP_POST of a profile (R230). -/
def capPre (p : Bytes) : Nat := leNat p 242 2
/-- CAP_POST of a profile. -/
def capPost (p : Bytes) : Nat := leNat p 244 2
/-- RATE of a profile (R166). -/
def insRate (p : Bytes) : Nat := (u8 p 177).toNat
/-- Start a capture that R174 admits, in a free context and slot. -/
def capStart (f : Field) (w : CapWait) (n sl : Nat) : Field :=
  let c := f.chan w.ch
  let pre := w.pre
  let st := f.startStream w.ch (insRate (f.profOf w.ch)) (w.pre ≠ 0) true
  let f1 := st.1
  let rate := st.2.rate
  let ents := match f1.directOf w.ch with | some d => f1.preEnts w.ch d pre rate | none => []
  let direct := (f1.directOf w.ch).isSome
  let dest := match w.ref with | some r => r.part | none => c.nev.owner
  let s : Slot :=
    { handle := f.handle w.ch, kind := w.kind, trunc := false, aborted := false,
      preShort := direct && ents.length < pre, cause := w.cause, tTrigger := w.t, rate := rate, npre := ents.length, ents := ents,
      dest := dest, running := true, left := w.post, preWant := if direct then 0 else pre }
  let ctx := { f1.newCtx w.ch .capture .capture st.2 [] [] [] with capSlot := some sl }
  let f2 := (f1.setCtx n ctx).writeSlot sl s 0
  let f3 := match f1.directOf w.ch with | some d => f2.modDch d (fun v => { v with preFrozen := none }) | none => f2
  match w.ref with | some r => f3.done r | none => f3
/-- Does R174 admit a capture of a channel now? -/
def capAdmits (f : Field) (x : BitVec 17) : Bool :=
  f.capCount < f.capMax && f.freeCtx.isSome && !f.hel.queue.any (f.eligible ·) && f.streamFree x
/-- Drop a capture for lack of a context (R232). -/
def capNoCtx (f : Field) (w : CapWait) : Field :=
  match w.ref with
  | some r => f.complete r .noContext 0
  | none => { f with firn := { f.firn with dropNoCtx := satAdd f.firn.dropNoCtx 1 } }
/-- Drop a capture for lack of a slot (R232). -/
def capNoSlot (f : Field) (w : CapWait) : Field :=
  match w.ref with
  | some r => f.complete r .noSlot 0
  | none => { f with firn := { f.firn with dropNoSlot := satAdd f.firn.dropNoSlot 1 } }
/-- A TRIP or REQUEST capture: it starts, waits, or is dropped; one that waits already and that R174 admits goes first (R232). -/
def capAsk (f : Field) (w : CapWait) : Field :=
  match f.freeSlot with
  | none => f.capNoSlot w
  | some sl =>
    if f.capAdmits w.ch && !f.firn.capWait.any (fun v => f.capAdmits v.ch) then
      match f.freeCtx with | some n => f.capStart w n sl | none => f.capNoCtx w
    else if f.firn.capWait.length < 64 then { f with firn := { f.firn with capWait := f.firn.capWait ++ [w] } }
    else f.capNoCtx w
/-- Captures in the wait list that R174 now admits start, in order of arrival; n bounds the passes. -/
def capRetry : Nat → Field → Field
  | 0, f => f
  | n + 1, f => match f.firn.capWait.find? (fun w => f.capAdmits w.ch) with
    | none => f
    | some w =>
      let f1 := { f with firn := { f.firn with capWait := f.firn.capWait.erase w } }
      match f1.freeCtx, f1.freeSlot with
      | some c, some sl => capRetry n (f1.capStart w c sl)
      | _, none => capRetry n (f1.capNoSlot w)
      | none, _ => f1.capNoCtx w
/-- The TRIP capture that entry into TRIPPED asks for, with CAP_TRIP set, for any cause except EPO (08, capture kinds). -/
def tripCapture (f : Field) (x : BitVec 17) (cause : Byte) : Field :=
  let p := f.profOf x
  if bit (u8 p 240) 1 && cause ≠ 0x13 then
    f.capAsk { ch := x, kind := .trip, cause := cause, t := f.now, pre := capPre p, post := capPost p, ref := none }
  else f

/-! ### Endings of an insertion (R180, R519) and trips -/

/-- Remove a channel's entry from the insertion queue (R172). -/
def unqueue (f : Field) (x : BitVec 17) : Field :=
  { f with hel := { f.hel with queue := f.hel.queue.filter (fun e => e.ch ≠ x) } }
/-- Entry of a CLOSED, INSERTING or RETRY_WAIT channel into TRIPPED: an insertion in progress ends and its context is
released (R180), the state changes, INS_END follows, and a TRIP capture is asked for. The switch itself is the caller's. -/
def tripChan (f : Field) (x : BitVec 17) (cause : Byte) : Field :=
  let ctx := if (f.chan x).nev.state = .inserting then f.insCtx x else none
  let f1 := f.unqueue x
  let f2 := match ctx with
    | some (n, c) => (f1.stopStream c 0).dropCtx n false
    | none => f1
  let f3 := f2.enter x .tripped cause 0 none
  let f4 := match ctx with | some (n, c) => f3.insEnd n c cause | none => f3
  let f5 := match f4.directOf x with
    | some n => if (f4.dchan n).mode = DgMode.off then f4.modAux x (fun a => { a with confirmed := true }) else f4
    | none => f4
  f5.tripCapture x cause
/-- A trip decided against a channel in CLOSED or INSERTING: TRIPPED, with DG low first, so that the capture takes the frozen buffer
(R300), or with express TRIP to the point (R98, R108). Answers whether it was presented. -/
def tripWith (f : Field) (x : BitVec 17) (cause type : Byte) : Field × Bool :=
  match f.directOf x with
  | some n => ((f.gateOff n true).tripChan x cause, true)
  | none => (f.tripChan x cause).openSwitch x type
/-- A trip that ingest decides (R98, R108). -/
def tripNow (f : Field) (x : BitVec 17) (cause : Byte) : Field := (f.tripWith x cause 0x02).1
/-- A driver fault (R294): the recognised level of DFBn is low while its channel is CLOSED and the field die runs. -/
def driverFault (f : Field) (n : BitVec 4) : Field :=
  match (f.dchan n).bound with
  | some x =>
    if f.coreOn && !(f.dchan n).dfb && (f.chan x).nev.state = .closed then
      ((f.gateOff n true).modDch n (fun d => { d with drvFault := satAdd d.drvFault 1 })).tripChan x 0x14
    else f
  | none => f

/-- Entry of a channel into FALLBACK (R66): wheel entries and insertions are cancelled, the prior state is recorded, and a
remote point is left to its outstation. A DIRECT channel's DG holds its level. -/
def toFallback (f : Field) (x : BitVec 17) : Field :=
  let c := f.chan x
  if c.nev.state = .free || c.nev.state = .fallback then f
  else
    let ctx := if c.nev.state = .inserting then f.insCtx x else none
    let f1 := f.unqueue x
    let f2 := match ctx with
      | some (n, k) => (f1.abandonStream k).dropCtx n true
      | none => f1
    -- a ramp-off or capture of the channel is abandoned as well, with ABORTED (R233)
    let f3 := (f2.ctxsOf x).foldl (fun (g : Field) e => (g.abandonStream e.2).dropCtx e.1 true) f2
    let f4 := f3.enter x .fallback 0 0 none
    match ctx with | some (n, k) => f4.insEnd n k 0x21 | none => f4
/-- A channel has lost its record (R66, R93, R350). -/
def loseRecord (f : Field) (x : BitVec 17) : Field :=
  (f.toFallback x).modAux x (fun a => { a with recLost := true })

/-- Ticks of a sample period. -/
def periodTicks (c : Ctx) : Nat := 100000000 / c.rate
/-- The last period point of a context at or before a count (R193); the count itself before its first good sample. -/
def periodPoint (c : Ctx) (t : Count) : Count :=
  match c.firstGood with
  | some g => t - BitVec.ofNat 64 ((t.toNat - g.toNat) % periodTicks c)
  | none => t
/-- The gate leaves a failed or opened insertion by ramp-off, on the context's period schedule (R212). -/
def toRampOff (f : Field) (n : Nat) (code : Option Byte) : Field :=
  (f.dropSwap n).modCtx n (fun c =>
    { c with phase := .rampOff, tPhase := periodPoint c f.now, failCode := code, injActive := false })
/-- Failures counted by code (HEL_INS_FAIL_A, HEL_INS_FAIL_B). -/
def countFail (f : Field) (code : Byte) : Field :=
  let i := code.toNat - 0x18
  { f with hel := { f.hel with fails := listSet f.hel.fails i (satAdd (f.hel.fails.getD i 0) 1) } }
/-- A failure's capture, where CAPTURE_FAIL is 1 and R174 would admit one with the context counted as free (R181); with CAP_POST 0 it
is complete at once. -/
def failCapture (f : Field) (n : Nat) (c : Ctx) (code : Byte) : Field :=
  if bit (u8 c.ins 3) 0 && f.capCount < f.capMax && !f.hel.queue.any (f.eligibleBut ·) then
    match f.freeSlot with
    | none => f
    | some sl =>
      let ents := c.log.reverse
      let post := capPost (f.profOf c.ch)
      let s : Slot :=
        { handle := c.handle, kind := .fail, trunc := c.log.length ≥ 8184, aborted := false, preShort := false,
          cause := code, tTrigger := f.now, rate := c.rate, npre := 0, ents := ents, dest := (f.chan c.ch).nev.owner,
          running := true, left := min post (8184 - ents.length), preWant := 0 }
      if s.left = 0 then (f.writeSlot sl s 0).capEnd sl false
      else (f.writeSlot sl s 0).modCtx n (fun c => { c with capSlot := some sl })
  else f
/-- An insertion that holds context n fails with a code (R177, R180, R181). -/
def failIns (f : Field) (n : Nat) (code : Byte) : Field :=
  match tabLook f.hel.ctx n with
  | none => f
  | some c =>
    let f1 := f.countFail code
    let f2 := match c.loopSlot with | some s => (f1.capEnd s false).modCtx n (fun k => { k with loopSlot := none }) | none => f1
    if c.phase = .handover then
      let f3 := f2.dropCtx n false
      let f4 := (f3.enter c.ch .tripped code 0 none).insEnd n c code
      ((f4.openSwitch c.ch 0x02).1).tripCapture c.ch code
    else
      let f3 := (f2.enter c.ch .tripped code 0 none).insEnd n c code
      let f4 := (f3.failCapture n c code).toRampOff n (some code)
      let f5 := match f4.directOf c.ch with
        | some d => if (f4.dchan d).mode = DgMode.off then f4.modAux c.ch (fun a => { a with confirmed := true }) else f4
        | none => f4
      f5.tripCapture c.ch code
/-- The insertion of context n completes: CLOSED, INS_END with RESULT 0, the context is free (R178). -/
def completeIns (f : Field) (n : Nat) : Field :=
  match tabLook f.hel.ctx n with
  | none => f
  | some c =>
    let f1 := (f.dropCtx n false).enter c.ch .closed 0 0 none
    ({ f1 with hel := { f1.hel with done := satAdd f1.hel.done 1 } }).insEnd n c 0

/-! ### Lockout (05) -/

/-- Entry into LOCKED_OUT with a reason (R158). -/
def lockOut (f : Field) (x : BitVec 17) (reason : BitVec 3) : Field :=
  let c := f.chan x
  let f1 := (f.modRec x (fun r => { r with lockReason := reason, lockPrior := if reason = 4 then r.lockReason else 0 })).enter
    x .lockedOut c.fr.cause (reason.setWidth 8) none
  let s := f1.sel
  { f1 with sel := { s with
      lForbidden := if reason = 1 then satAdd s.lForbidden 1 else s.lForbidden,
      lExhausted := if reason = 2 then satAdd s.lExhausted 1 else s.lExhausted,
      lRate := if reason = 3 then satAdd s.lRate 1 else s.lRate,
      lPrior := if reason = 4 then satAdd s.lPrior 1 else s.lPrior } }
/-- The cause class of a trip cause (R144). -/
def causeClass (c : Byte) : Nat :=
  if c = 0x02 then 1 else if c = 0x03 then 2 else if c = 0x05 || c = 0x06 then 3
  else if 0x18 ≤ c && c ≤ 0x1F then 4 else if c = 0x12 then 5 else if c = 0x13 then 6 else if c = 0x14 then 7 else 0

end Field
end Sys2Proof.Machine
end

