-- ==== Sys2Proof/Machine/Codewords.lean ====
section
/-! DEFINITION. Reading the codewords that Firn and the on-chip stores hold (13): the outcomes of R339 over what stands at a place,
the attribution of corrections (R346), poison (R345), FIRN_UE (R354), and the recovery of lost codewords (R350 to R352). The tables
of the state hold what was written; an error stands beside them, as what the symbols of a place differ by, and since the code is
linear the outcome of a read is that of the difference (log entry 113). -/
namespace Sys2Proof.Machine
namespace Field

/-! ### What stands at a place -/

/-- Blocks of 4 KiB in the store. -/
def firnBlocks (f : Field) : Nat := f.firn.capGib.toNat * 262144
/-- Codewords in the store. -/
def firnCws (f : Field) : Nat := f.firnBlocks * 128
/-- The rank of a codeword: the upper half is rank 1 of two (log entry 40). -/
def rankOf (f : Field) (cw : Nat) : Nat := if f.firn.ranksNow && f.firnCws / 2 ≤ cw then 1 else 0
/-- A codeword holds poison. -/
def isPoison (f : Field) (cw : Nat) : Bool := f.firn.poisoned.contains cw
/-- A place stands as it was written. -/
def sound (f : Field) (cw : Nat) : Bool := !f.isPoison cw && (tabLook f.firn.errs cw).isNone
/-- What a place differs by from a codeword of the code. -/
def differs (f : Field) (cw : Nat) : Bytes :=
  let e := pad 36 (tabGet [] f.firn.errs cw)
  if f.isPoison cw then xorBytes e rsPoison else e
/-- The data of a place where b was written: as a correction left it (R356), and with what the place differs by. -/
def standing (f : Field) (cw : Nat) (b : Bytes) : Bytes :=
  let d := match tabLook f.firn.alien cw with
    | some a => a.take b.length
    | none => if f.isPoison cw then rsPoison.take b.length else b
  match tabLook f.firn.errs cw with | some e => xorBytes d (pad 36 e) | none => d
/-- Errors appear at a place. -/
def damage (f : Field) (cw : Nat) (e : Bytes) : Field :=
  let d := xorBytes (pad 36 (tabGet [] f.firn.errs cw)) (pad 36 e)
  { f with firn := { f.firn with errs := if d = zeros 36 then tabDel f.firn.errs cw else tabPut f.firn.errs cw d } }
/-- The poison codeword is written to a place (R345). -/
def poison (f : Field) (cw : Nat) : Field :=
  let f1 := f.heal1 cw
  { f1 with firn := { f1.firn with poisoned := f1.firn.poisoned ++ [cw] } }
/-- A word with a correction's symbols changed. -/
def changed (w : Bytes) (es : List (Nat × Byte)) : Bytes := es.foldl (fun b e => listSet b e.1 (u8 b e.1 ^^^ e.2)) w
/-- A CORRECTED codeword is written back, where w is what it differs by once corrected (R356). -/
def writeBack (f : Field) (cw : Nat) (w : Bytes) : Field :=
  if f.isPoison cw then
    let f1 := f.heal1 cw
    { f1 with firn := { f1.firn with alien := tabPut f1.firn.alien cw w } }
  else { f with firn := { f.firn with errs := if w = zeros 36 then tabDel f.firn.errs cw else tabPut f.firn.errs cw w } }

/-! ### One read (R339, R345, R346, R354) -/

/-- The device that every corrected symbol belongs to (R346). -/
def devOf (es : List (Nat × Byte)) : Option Nat :=
  match es.filter (fun e => e.2 ≠ 0) with
  | [] => none
  | e :: r => if r.all (fun g => g.1 / 2 = e.1 / 2) then some (e.1 / 2) else none
/-- A codeword read CORRECTED (R346): it is counted, attributed, and may declare its device failed. -/
def corrected (f : Field) (cw : Nat) (es : List (Nat × Byte)) : Field :=
  let f1 := { f with firn := { f.firn with ce := satAdd f.firn.ce 1 } }
  match devOf es with
  | none => f1
  | some d =>
    let rk := f1.rankOf cw
    let key := 18 * rk + d
    let n := tabGet 0 f1.firn.passCe key + 1
    let f2 := { f1 with firn := { f1.firn with
      devCe := tabSet 0 f1.firn.devCe key (satAdd (tabGet 0 f1.firn.devCe key) 1), passCe := tabSet 0 f1.firn.passCe key n } }
    if f2.firn.devThresh ≠ 0 && f2.firn.devThresh.toNat ≤ n && (tabLook f2.firn.failedDev rk).isNone then
      ({ f2 with firn := { f2.firn with
          devFailed := true, dev := BitVec.ofNat 5 d, rank := rk = 1, failedDev := tabPut f2.firn.failedDev rk d } }).raiseAll 0x3A
        [BitVec.ofNat 8 d, BitVec.ofNat 8 rk]
    else f2
/-- FIRN_UE for the codewords since the last one, at most once a millisecond (R354). -/
def tellUe (f : Field) : Field :=
  let late := match f.firn.ueLast with | some t => t.toNat + 100000 ≤ f.now.toNat | none => true
  if f.firn.ueSince ≠ 0 && late then
    ({ f with firn := { f.firn with ueSince := 0, ueLast := some f.now } }).raiseAll 0x3B
      (le 4 f.firn.ueSince ++ zeros 4 ++ toLe (f.firn.ueAddr.toNat * 32) 8)
  else f
/-- A codeword read UNCORRECTABLE is counted and told, and poison is written to its place (R345, R354). -/
def uncorrectable (f : Field) (cw : Nat) : Field :=
  (({ f with firn := { f.firn with uncorr := satAdd f.firn.uncorr 1, ueAddr := BitVec.ofNat 31 cw, ueValid := true,
                                   ueSince := satAdd f.firn.ueSince 1 } }).poison cw).tellUe
/-- One codeword is read, before any recovery: does the read give data? -/
def readRaw (f : Field) (cw : Nat) : Field × Bool :=
  if f.sound cw then (f, true)
  else
    let w := f.differs cw
    let out := match tabLook f.firn.failedDev (f.rankOf cw) with
      | some d => rsDecodeErased d w
      | none => rsDecode w
    match out with
    | .clean => (f, true)
    | .poisoned => (({ f with firn := { f.firn with poison := satAdd f.firn.poison 1 } }).poison cw, false)
    | .corrected es => ((f.corrected cw es).writeBack cw (changed w es), true)
    | .uncorrectable => (f.uncorrectable cw, false)
/-- Codeword k of a record is read from copy A, else from copy B, which then rewrites copy A (R350). -/
def readEither (f : Field) (x : BitVec 17) (k : Nat) : Field × Bool :=
  let a := f.readRaw (recCw x k false)
  if a.2 then a
  else
    let b := a.1.readRaw (recCw x k true)
    if b.2 then
      let g := b.1.heal1 (recCw x k false)
      ({ g with firn := { g.firn with oneCopy := satAdd g.firn.oneCopy 1 } }, true)
    else b

/-! ### The on-chip stores: Névé, the profile table and the loop sets -/

/-- Errors appear in an on-chip codeword. -/
def damageChip (f : Field) (k : Nat) (e : Bytes) : Field :=
  let d := xorBytes (pad 36 (tabGet [] f.nev.errs k)) (pad 36 e)
  { f with nev := { f.nev with errs := if d = zeros 36 then tabDel f.nev.errs k else tabPut f.nev.errs k d } }
/-- An on-chip codeword is written whole. -/
def healChip (f : Field) (k : Nat) : Field := { f with nev := { f.nev with errs := tabDel f.nev.errs k } }
/-- The on-chip codeword k of profile p. -/
def profCw (p : BitVec 12) (k : Nat) : Nat := 131072 + 8 * p.toNat + k
/-- The on-chip codeword k of loop set s. -/
def loopCw (s : Byte) (k : Nat) : Nat := 163840 + 4 * s.toNat + k
/-- One on-chip codeword is read, before any recovery: does the read give data? A CORRECTED one is counted and written back. -/
def readChip (f : Field) (k : Nat) : Field × Bool :=
  match tabLook f.nev.errs k with
  | none => (f, true)
  | some e => match rsDecode (pad 36 e) with
    | .clean => (f, true)
    | .corrected es =>
      let w := changed (pad 36 e) es
      let n := f.nev
      ({ f with nev := { n with errs := if w = zeros 36 then tabDel n.errs k else tabPut n.errs k w,
                                eccCorr := if k < 131072 then satAdd n.eccCorr 1 else n.eccCorr,
                                pEccCorr := if k < 131072 then n.pEccCorr else satAdd n.pEccCorr 1 } }, true)
    | .poisoned | .uncorrectable => (f, false)

/-! ### Recovery (R350 to R352) -/

/-- Codeword 2 of a record is lost in both copies (R352). -/
def loseTotals (f : Field) (x : BitVec 17) : Field :=
  let f1 := (f.modMet x (fun m => { m with imp := 0, exp := 0, sync := .first, recordLost := true })).heal2 x 2
  let f2 := { f1 with firn := { f1.firn with lost := satAdd f1.firn.lost 1 } }
  if (f2.chan x).nev.state = .free then f2 else f2.raise (f2.chan x).nev.owner 0x22 (f2.handle x) []
/-- Codeword 1 of a record is lost in both copies, or codeword 0 with ELSB2: the channel has lost its record. -/
def loseCw1 (f : Field) (x : BitVec 17) : Field :=
  let f1 := { f with firn := { f.firn with lost := satAdd f.firn.lost 1 } }
  if (f1.chan x).nev.state = .free then f1 else f1.loseRecord x
/-- Codeword k of record x is lost in both copies (R350). Codeword 0 takes ELSB from ELSB2. -/
def loseBoth (f : Field) (x : BitVec 17) (k : Nat) : Field :=
  if k = 0 then
    let e := f.readEither x 2
    if e.2 then
      let f1 := e.1.heal2 x 0
      { f1 with firn := { f1.firn with rebuilt := satAdd f1.firn.rebuilt 1 } }
    else (e.1.loseTotals x).loseCw1 x
  else if k = 1 then f.loseCw1 x
  else if k = 2 then f.loseTotals x
  else if k = 3 then
    (f.modMet x (fun m => { m with demImp := 0, demExp := 0, demPeak := 0, runImp := 0, runExp := 0, tPeak := 0,
                                   setByHost := false, partialLast := true })).heal2 x 3
  else (f.modMet x (fun m => { m with tApplied := 0, partialLast := true })).heal2 x 4
/-- Channels bound to a profile lose it, and its VALID is cleared (R93). -/
def loseProfile (f : Field) (p : BitVec 12) : Field :=
  let n := f.nev
  let b := f.prof p
  let f1 := { f with nev := { n with pEccLost := satAdd n.pEccLost 1,
                                     prof := tabSet [] n.prof p.toNat (if b = [] then [] else [u8 b 0 &&& 0xFE] ++ b.drop 1) } }
  f1.each (f1.select (fun c => c.nev.profile = p)) (fun g x => g.loseRecord x)
/-- The record, the codeword and the copy that a codeword of the record regions belongs to. -/
def recOf (cw : Nat) : Option (BitVec 17 × Nat × Bool) :=
  if cw < 655360 then some (BitVec.ofNat 17 (cw / 5), cw % 5, false)
  else if 1048576 ≤ cw && cw < 1703936 then some (BitVec.ofNat 17 ((cw - 1048576) / 5), (cw - 1048576) % 5, true)
  else none
/-- The shadow of codeword k of a profile, and that of a loop set (R348). -/
def profShadow (p : BitVec 12) (k : Nat) : Nat := 2097152 + 8 * p.toNat + k
/-- The shadow of codeword k of a loop set. -/
def loopShadow (s : Byte) (k : Nat) : Nat := 2129920 + 4 * s.toNat + k
/-- What R350 recovers of a codeword whose read failed: a record's codeword from the other copy, a profile's shadow from the table;
for the shadow of a loop set it has no row, and the poison stays. -/
def recoverCw (f : Field) (cw : Nat) : Field :=
  match recOf cw with
  | some (x, k, b) =>
    let o := f.readRaw (recCw x k (!b))
    if o.2 then
      let g := o.1.heal1 cw
      { g with firn := { g.firn with oneCopy := satAdd g.firn.oneCopy 1 } }
    else o.1.loseBoth x k
  | none =>
    if 2097152 ≤ cw && cw < 2129920 then
      let c := f.readChip (cw - 2097152 + 131072)
      if c.2 then c.1.heal1 cw else (c.1.healChip (cw - 2097152 + 131072)).loseProfile (BitVec.ofNat 12 ((cw - 2097152) / 8))
    else f
/-- One codeword of the store is read, and recovered where R350 can: does the read itself give data? -/
def readCw (f : Field) (cw : Nat) : Field × Bool :=
  let r := f.readRaw cw
  if r.2 then r else (r.1.recoverCw cw, false)
/-- Some codewords of the store are read, for the recovery they may need. -/
def readCws (f : Field) (cws : List Nat) : Field := cws.foldl (fun (g : Field) c => (g.readCw c).1) f
/-- The energy codewords of a record are read, before they are used or changed. -/
def readMeter (f : Field) (x : BitVec 17) : Field :=
  if f.firnOn then f.readCws [recCw x 2 false, recCw x 3 false, recCw x 4 false] else f
/-- The energy codewords of a record are written (R349). -/
def writeMeter (f : Field) (x : BitVec 17) : Field := ((f.heal2 x 2).heal2 x 3).heal2 x 4
/-- Is the Névé entry of a channel being recovered? -/
def recovering (f : Field) (x : BitVec 17) : Bool := f.nev.recovering.contains x
/-- The Névé entry of a channel is read: one that fails is recovered from its record (R350); that of no channel is written anew. -/
def readEntry (f : Field) (x : BitVec 17) : Field :=
  let r := f.readChip x.toNat
  if r.2 then r.1
  else if (f.chan x).nev.state = .free then r.1.healChip x.toNat
  else if f.recovering x then r.1
  else { r.1 with nev := { r.1.nev with recovering := r.1.nev.recovering ++ [x] } }
/-- A codeword of a profile is read: one that fails comes from its shadow, or the profile is lost (R350, R93). While Firn is not
READY the recovery waits (log entry 113). -/
def readProfCw (f : Field) (p : BitVec 12) (k : Nat) : Field :=
  let r := f.readChip (profCw p k)
  if r.2 || !f.firnOn then r.1
  else
    let s := r.1.readRaw (profShadow p k)
    let g := s.1.healChip (profCw p k)
    if s.2 then { g with nev := { g.nev with pEccRecov := satAdd g.nev.pEccRecov 1 } } else g.loseProfile p
/-- A profile is read. -/
def readProf (f : Field) (p : BitVec 12) : Field := (List.range 8).foldl (fun (g : Field) k => g.readProfCw p k) f
/-- A codeword of a loop set is read: one that fails comes from its shadow, or VALID is cleared (R350). -/
def readLoopCw (f : Field) (s : Byte) (k : Nat) : Field :=
  let r := f.readChip (loopCw s k)
  if r.2 || !f.firnOn then r.1
  else
    let t := r.1.readRaw (loopShadow s k)
    let g := t.1.healChip (loopCw s k)
    if t.2 then { g with nev := { g.nev with pEccRecov := satAdd g.nev.pEccRecov 1 } }
    else
      let b := pad 128 (g.loopSet s)
      { g with nev := { g.nev with pEccLost := satAdd g.nev.pEccLost 1,
                                   loops := tabSet [] g.nev.loops s.toNat (listSet b 1 (u8 b 1 &&& 0xFE)) } }
/-- A loop set is read (R357). -/
def readLoop (f : Field) (s : Byte) : Field := (List.range 4).foldl (fun (g : Field) k => g.readLoopCw s k) f

end Field
end Sys2Proof.Machine
end

