-- ==== Sys2Proof/Machine/Select.lean ====
section
/-! DEFINITION. The selectivity engine (04_selectivity): reports, the resolve of R123, gather and breaker-failure deadlines,
CLEARED, slow faults, storms' quiet end and the depth rewrite. -/
namespace Sys2Proof.Machine
namespace Field

/-- The channel bound to a point of an identity (03, the point map). -/
def chanAt (f : Field) (id : BitVec 64) (pt : BitVec 6) : Option (BitVec 17) :=
  (f.existing.find? (fun e => match e.2.fr.bind with | .point _ _ q o => o = id && q = pt | _ => false)).map (·.1)
/-- The identity enumerated at a position of a lane. -/
def osAt (f : Field) (l : BitVec 5) (pos : BitVec 6) : Option Outst := tabLook (f.lane l).os pos.toNat

/-- The members of an event: its candidate and the held channels. A candidate that R129 has replaced is a member no more (log entry
120). -/
def members (e : SelEv) : List (BitVec 17) := (e.cand :: e.held.map (·.ch)).eraseDups
/-- Raise a record for every partition that owns a member (R132). -/
def raiseMembers (f : Field) (e : SelEv) (rtype : Byte) (h : Word) (body : Bytes) : Field :=
  (((members e).map (fun x => (f.chan x).nev.owner)).eraseDups).foldl (fun g p => g.raise p rtype h body) f
/-- Write an open event over the one of its number. -/
def setEv (f : Field) (e : SelEv) : Field :=
  { f with sel := { f.sel with events := f.sel.events.map (fun d => if d.num = e.num then e else d) } }
/-- Add an open event. -/
def addEv (f : Field) (e : SelEv) : Field :=
  { f with sel := { f.sel with events := f.sel.events ++ [e], nextNum := f.sel.nextNum + 1,
                               openedCnt := satAdd f.sel.openedCnt 1 } }
/-- The open event of a number. -/
def ev? (f : Field) (n : BitVec 16) : Option SelEv := f.sel.events.find? (fun e => e.num = n)
/-- Count a report that has no effect (R123, R136). -/
def ignored (f : Field) : Field := { f with sel := { f.sel with ignored := satAdd f.sel.ignored 1 } }
/-- Is a channel a held member of an open event other than one? -/
def heldElse (f : Field) (n : BitVec 16) (x : BitVec 17) : Bool :=
  f.sel.events.any (fun e => e.num ≠ n && e.held.any (fun h => h.ch = x))
/-- Is a channel the candidate or a held member of an open event (R130)? -/
def selMember (f : Field) (x : BitVec 17) : Bool := f.sel.events.any (fun e => (members e).contains x)

/-- trip(c) of R125: nothing is sent in FALLBACK (R134); else DG low or TRIP (RELEASE under R129), and a CLOSED or
INSERTING channel enters TRIPPED with the cause. Answers whether it was presented. -/
def selTrip (f : Field) (x : BitVec 17) (cause type : Byte) : Field × Bool :=
  let st := (f.chan x).nev.state
  if st = .fallback then (f, false)
  else
    if st = .closed || st = .inserting then f.tripWith x cause type else f.openSwitch x type
/-- Raise a record with a time of its own for every partition that owns a member (R132). -/
def raiseMembersAt (f : Field) (e : SelEv) (rtype : Byte) (h : Word) (t : Count) (body : Bytes) : Field :=
  (((members e).map (fun x => (f.chan x).nev.owner)).eraseDups).foldl (fun g p => g.raiseAt p rtype h t body) f
/-- The times of one decision (R122, R125, R132): its decision point, the end of its resolve, and the presentation of its frames. -/
structure Times where
  point : Count
  resolved : Count
  presented : Count
  deriving DecidableEq, Repr
/-- A decision whose times all lie at one count. -/
def Times.at (t : Count) : Times := { point := t, resolved := t, presented := t }
/-- The times of a report: lat ticks to the end of its resolve, pres more to the presentation; 360 at most in all (R137, R138). -/
def reportTimes (f : Field) (lat pres : Nat) : Times :=
  { point := f.now, resolved := f.now + BitVec.ofNat 64 (min lat 360), presented := f.now + BitVec.ofNat 64 (min (lat + pres) 360) }
/-- Entry into COMMITTED: the breaker-failure timer counts from the presentation of the TRIP, or from the end of the resolve where none
is presented, and the SEL_COMMIT record carries both times (R124, R125, R132). -/
def commit (f : Field) (e : SelEv) (t : Times) (sent : Bool) : Field :=
  let from' := if sent then t.presented else t.resolved
  let e1 := { e with st := .committed (from' + BitVec.ofNat 64 (100 * bfUs (f.profOf e.cand))), origCand := e.cand }
  (f.setEv e1).raiseMembersAt e1 0x18 (f.handle e1.cand) t.point
    (le 2 e1.num ++ [BitVec.ofNat 8 (min e1.reports 255)] ++ zeros 5 ++ le 8 from')
/-- trip(c) of a candidate, and its commitment. Answers whether a TRIP was presented. -/
def tripCommit (f : Field) (e : SelEv) (t : Times) : Field × Bool :=
  let r := f.selTrip e.cand 0x10 0x02
  (r.1.commit e t r.2, r.2)
/-- decide(E, opened) of R123. Answers whether a TRIP was presented. -/
def decideEv (f : Field) (e : SelEv) (opened : Bool) (t : Times) : Field × Bool :=
  let p := f.profOf e.cand
  if opened || immediate p then (f.commit e t false, false)
  else if gatherUs p = 0 || f.switchingBelow e.cand = 0 then f.tripCommit e t
  else (f.setEv { e with st := .gather (t.resolved + BitVec.ofNat 64 (100 * gatherUs p)) }, false)
/-- Send HOLD to a channel: an express frame, or the hold of a direct channel's timers (R291 step 4). Answers whether it was
presented. -/
def sendHold (f : Field) (x : BitVec 17) : Field × Bool :=
  if (f.chan x).nev.state = .fallback then (f, false)
  else match f.directOf x with
    | some n => (f.modDch n (fun d => match d.timer with
      | .holdoff _ => { d with timer := .hold (BitVec.ofNat 64 (f.now.toNat + 100 * d.holdLimUs)) }
      | _ => d), true)
    | none => f.expressTo x 0x03
/-- An event with a held member added. -/
def addHeld (e : SelEv) (x : BitVec 17) : SelEv :=
  { e with held := if e.held.any (fun h => h.ch = x) then e.held else e.held ++ [{ ch := x, released := false, cleared := false }] }
/-- The HOLD of hold(E, m) of R123: it is sent unless another open event holds the member. -/
def holdOnce (f : Field) (n : BitVec 16) (x : BitVec 17) : Field × Bool := if f.heldElse n x then (f, false) else f.sendHold x

/-- The open event whose candidate lies in a path, nearest to its start. -/
def evAbove (f : Field) (path : List (BitVec 17)) : Option SelEv :=
  path.findSome? (fun a => f.sel.events.find? (fun e => e.cand = a))
/-- Does an event's path hold a channel above its candidate? -/
def pathAbove (e : SelEv) (x : BitVec 17) : Bool := (e.path.drop 1).contains x
/-- The resolve of R123. A TRIP goes before the HOLD of the same resolve (R126). Answers whether a TRIP or HOLD was presented. -/
def resolve (f : Field) (n : BitVec 17) (opened : Bool) (t : Times) : Field × Bool :=
  let path := f.path n
  let c := f.chan n
  if !f.sel.enable || !c.nev.kind.switches || c.nev.state = .free || c.nev.state = .fallback then (f.ignored, false)
  else match f.evAbove path with
    | some e =>
      if e.cand = n then (f, false)
      else match e.st with
        | .gather _ =>
          let e1 := addHeld { e with cand := n, path := path, reports := e.reports + 1 } e.cand
          let d := (f.setEv e1).decideEv e1 opened t
          let h := d.1.holdOnce e.num e.cand
          (h.1, d.2 || h.2)
        | .committed _ =>
          let d := f.selTrip n 0x10 0x02
          (d.1.setEv { e with late := true, reports := e.reports + 1 }, d.2)
    | none =>
      let fs := f.sel.events.filter (fun e => pathAbove e n)
      if fs ≠ [] then
        fs.foldl (fun g e =>
          let h := g.1.holdOnce e.num n
          (h.1.setEv (addHeld { e with reports := e.reports + 1, nonsel := e.nonsel || opened } n), g.2 || h.2)) (f, false)
      else if 256 ≤ f.sel.events.length then ({ f with sel := { f.sel with overflow := satAdd f.sel.overflow 1 } }, false)
      else
        let e : SelEv := { num := f.sel.nextNum, cand := n, origCand := n, path := path, st := .gather 0, held := [], reports := 1,
                           late := false, nonsel := false }
        (f.addEv e).decideEv e opened t
/-- SEL_DEC_PEAK after a decision that has presented a frame ticks after its decision point, at most 360 (R138). -/
def noteDec (f : Field) (ticks : Nat) : Field := { f with sel := { f.sel with decPeak := satMax f.sel.decPeak (min ticks 360) } }
/-- A report reaches the engine (R122): it is counted, then resolved, or ignored while ENABLE is 0 (R136). -/
def report (f : Field) (n : BitVec 17) (opened : Bool) (lat pres : Nat) : Field :=
  let f1 := { f with sel := { f.sel with reports := satAdd f.sel.reports 1 } }
  if f.sel.enable then
    let r := f1.resolve n opened (f.reportTimes lat pres)
    if r.2 then r.1.noteDec (lat + pres) else r.1
  else f1.ignored

/-- Result codes of SEL_CLOSE (16). -/
inductive SelResult where
  | none | selective | backup | nonselective | noBackup | epo
  deriving DecidableEq, Repr
/-- Send CANCEL to a channel: an express frame, or the end of a direct channel's hold-off or hold (R291 step 6). -/
def sendCancel (f : Field) (x : BitVec 17) : Field :=
  match f.directOf x with
  | some n => f.modDch n (fun d => { d with timer := .idle })
  | none => (f.expressTo x 0x05).1
/-- Has a held member opened: it has sent CLEARED, or is out of CLOSED, INSERTING and FALLBACK? -/
def hasOpened (f : Field) (h : Held) : Bool :=
  let s := (f.chan h.ch).nev.state
  h.cleared || !(s = .closed || s = .inserting || s = .fallback)
/-- An event closes with a result: counts, CANCEL to the members due one (R127, R128; none at EPO, R131) and SEL_CLOSE. -/
def closeEv (f : Field) (e : SelEv) (r : SelResult) (h : Word) : Field :=
  let s := f.sel
  let f1 := { f with sel := { s with
    events := s.events.filter (fun d => d.num ≠ e.num),
    rBackup := if r = SelResult.backup then satAdd s.rBackup 1 else s.rBackup,
    rNoBackup := if r = SelResult.noBackup then satAdd s.rNoBackup 1 else s.rNoBackup,
    rNonsel := if r = SelResult.nonselective || e.nonsel then satAdd s.rNonsel 1 else s.rNonsel,
    rLate := if e.late then satAdd s.rLate 1 else s.rLate } }
  let due := e.held.filter (fun m => !m.released && !f.heldElse e.num m.ch && !f.hasOpened m)
  let f2 := if r = SelResult.epo then f1 else due.foldl (fun g m => g.sendCancel m.ch) f1
  f2.raiseMembers e 0x1A h (le 2 e.num ++ [BitVec.ofNat 8 r.ctorIdx, (if e.late then 1 else 0) + (if e.nonsel then 2 else 0),
    BitVec.ofNat 8 (min (members e).length 255)])
/-- CLEARED of a channel for one open event (R128). One of a channel that is neither the candidate nor a held member closes nothing: so
of a lower switch that never reported, where the table of lost frames has the event close NONSELECTIVE at it, and of the original
candidate once R129 has released a member (log entry 120). -/
def clearedFor (f : Field) (e : SelEv) (x : BitVec 17) : Field :=
  let committed := match e.st with | .committed _ => true | _ => false
  if e.cand = x || e.held.any (fun h => h.ch = x) then
    let released := e.held.any (fun h => h.ch = x && h.released)
    let r := if committed && e.cand = x && e.origCand = x && !released then SelResult.selective
             else if released then .backup else .nonselective
    f.closeEv { e with held := e.held.map (fun h => if h.ch = x then { h with cleared := true } else h) } r (f.handle x)
  else f
/-- CLEARED of a channel reaches the engine (R128); it acts on no report from a channel in FALLBACK (R134). -/
def cleared (f : Field) (x : BitVec 17) : Field :=
  if (f.chan x).nev.state = .fallback then f else f.sel.events.foldl (fun g e => g.clearedFor e x) f
/-- Every open event closes with result EPO (R131). -/
def closeAllEpo (f : Field) : Field := f.sel.events.foldl (fun g e => g.closeEv e .epo 0) f

/-- The lowest held member above the candidate that has sent no CLEARED and is not in FALLBACK (R129, R134). -/
def backupOf (f : Field) (e : SelEv) : Option (BitVec 17) :=
  ((f.path e.cand).drop 1).find? (fun a => e.held.any (fun h => h.ch = a && !h.cleared && !h.released)
    && (f.chan a).nev.state ≠ .fallback)
/-- The breaker-failure timer of an event expires (R129). -/
def bfExpire (f : Field) (e : SelEv) : Field :=
  match f.backupOf e with
  | none => f.closeEv e .noBackup 0
  | some m =>
    let f1 := (f.selTrip m 0x11 0x04).1
    let e1 := { e with cand := m, held := e.held.map (fun h => if h.ch = m then { h with released := true } else h),
                       st := .committed (BitVec.ofNat 64 (f.now.toNat + 100 * bfUs (f.profOf m))) }
    (f1.setEv e1).raiseMembers e1 0x19 (f.handle m) (le 2 e1.num ++ zeros 2 ++ le 4 (f.handle e.cand))
/-- A TRIP element has operated on a SENSE or VIRTUAL channel (R133). -/
def slowFault (f : Field) (x : BitVec 17) : Field :=
  if !f.sel.enable then f.ignored
  else if f.sel.events.any (fun e => e.path.contains x || f.below x e.cand) then f
  else match (f.ancestors x).find? (fun a => (f.chan a).nev.kind.switches
      && ((f.chan a).nev.state = .closed || (f.chan a).nev.state = .inserting)) with
    | none => f
    | some a =>
      if 256 ≤ f.sel.events.length then { f with sel := { f.sel with overflow := satAdd f.sel.overflow 1 } }
      else
        let e : SelEv := { num := f.sel.nextNum, cand := a, origCand := a, path := f.path a, st := .gather 0, held := [],
                           reports := 1, late := false, nonsel := false }
        ((f.addEv e).tripCommit e (Times.at f.now)).1

/-! ### Reports from the lanes (R121, R122) -/

/-- Has a copy with the same point and fault number arrived within 100 µs? One at exactly 10,000 ticks is a new report (log entry
120). Older reports are forgotten. -/
def seenBefore (f : Field) (l : BitVec 5) (pos pt : BitVec 6) (fnum : Byte) (cl : Bool) : Bool :=
  f.sel.seen.any (fun r => r.lane = l && r.pos = pos && r.point = pt && r.fnum = fnum && r.cleared = cl
    && f.now.toNat - r.t.toNat < 10000)
/-- Remember a report. -/
def remember (f : Field) (l : BitVec 5) (pos pt : BitVec 6) (fnum : Byte) (cl : Bool) : Field :=
  let keep := f.sel.seen.filter (fun r => f.now.toNat - r.t.toNat < 10000)
  { f with sel := { f.sel with seen := keep ++ [{ lane := l, pos := pos, point := pt, fnum := fnum, cleared := cl, t := f.now }] } }
/-- The channel a report from a lane names. -/
def reporter (f : Field) (l : BitVec 5) (pos pt : BitVec 6) : Option (BitVec 17) :=
  match f.osAt l pos with | some o => f.chanAt o.id pt | none => none
/-- Does the lane deliver frames: RING or SPLIT? -/
def laneUp (v : Lane) : Bool := v.st = .ring || v.st = .split
/-- Does a lane take in frames: in RING or SPLIT, with its clock (R317)? -/
def laneHears (f : Field) (l : BitVec 5) : Bool := laneUp (f.lane l) && !f.mer.holdover
/-- One more express copy failed its CRC (R253, R257). -/
def crcExpress (f : Field) (l : BitVec 5) : Field := f.modLane l (fun v => { v with crcExp := satAdd v.crcExp 1 })

/-- FAULT_SEEN copy from a lane (R121 to R123, R136, R266). One of a point with no channel counts in SEL_REPORTS and as ignored, a
CLEARED of one in SEL_REPORTS only (log entry 120). -/
def faultSeen (f : Field) (l : BitVec 5) (pos pt : BitVec 6) (fnum : Byte) (opened crcOk : Bool) (lat pres : Nat) : Field :=
  if !f.laneHears l then f
  else if !crcOk then f.crcExpress l
  else if f.seenBefore l pos pt fnum false then f
  else
    let f1 := f.remember l pos pt fnum false
    match f.reporter l pos pt with
    | some n => f1.report n opened lat pres
    | none => { f1 with sel := { f1.sel with reports := satAdd f1.sel.reports 1 } }.ignored
/-- CLEARED copy from a lane (R122, R128). -/
def clearedSeen (f : Field) (l : BitVec 5) (pos pt : BitVec 6) (fnum : Byte) (crcOk : Bool) : Field :=
  if !f.laneHears l then f
  else if !crcOk then f.crcExpress l
  else if f.seenBefore l pos pt fnum true then f
  else
    let f1 := { f.remember l pos pt fnum true with sel := { (f.remember l pos pt fnum true).sel with
      reports := satAdd f.sel.reports 1 } }
    match f.reporter l pos pt with | some n => f1.cleared n | none => f1

/-! ### Timed steps of the engine -/

/-- A count has reached a due count. -/
def due (f : Field) (d : Count) : Bool := d ≤ f.now
/-- GATHER_DEADLINE (R124): the deadline is the decision point. -/
def gatherDeadline (f : Field) (n : BitVec 16) : Field :=
  match f.ev? n with
  | some e => match e.st with
    | .gather d =>
      if f.due d then
        let r := f.tripCommit e { point := d, resolved := d, presented := f.now }
        if r.2 then r.1.noteDec (f.now - d).toNat else r.1
      else f
    | _ => f
  | none => f
/-- BREAKER_FAILURE_EXPIRY (R129). -/
def breakerFailure (f : Field) (n : BitVec 16) : Field :=
  match f.ev? n with
  | some e => match e.st with
    | .committed d => if f.due d then f.bfExpire e else f
    | _ => f
  | none => f
/-- STORM_QUIET_EXPIRY (R142): an open storm quiet for STORM_QUIET superframes closes. -/
def stormQuiet (f : Field) (node : BitVec 17) (code : Byte) (p : Part) : Field :=
  match f.stormOf node code p with
  | some s =>
    let need := if f.sel.stormQuiet = 0 then 1 else f.sel.stormQuiet.toNat
    if s.opened && need ≤ s.quiet then
      ({ f with sel := { f.sel with storms := f.sel.storms.erase s } }).raiseAt p 0x1C (f.handle node) s.tLast
        ([code, 0, 0, 0] ++ toLe s.suppressed 4 ++ le 8 s.tFirst)
    else f
  | none => f
/-- DEPTH_REWRITE of one entry of a moved subtree (R114). -/
def depthRewrite (f : Field) (x : BitVec 17) : Field :=
  if (f.chan x).aux.depthPend then
    f.modChan x (fun c => { c with nev := { c.nev with depth := BitVec.ofNat 4 ((f.path x).length - 1) },
                                   aux := { c.aux with depthPend := false } })
  else f
/-- At a CMP0 mark: storms count their quiet superframes, and the counts of a superframe start again (R141, R142). -/
def stormMark (f : Field) : Field :=
  { f with sel := { f.sel with storms := (f.sel.storms.map (fun s =>
      { s with inSf := 0, quiet := if s.inSf = 0 then s.quiet + 1 else 0 })).filter (fun s => s.opened) } }

end Field
end Sys2Proof.Machine
end

