-- ==== Sys2Proof/Machine/Ingest.lean ====
section
/-! DEFINITION. The ingest pipes (03_protection_evaluation): normalisation, thermal memory, the elements of R96 and their
outcomes, switch status, gaps, saturation, the rate limit, mirrors, leaving FALLBACK, retry policy and the wheel (05). -/
namespace Sys2Proof.Machine
namespace Field

/-! ### Flags of a sample word (R78) -/

/-- I as a signed number. -/
def wordI (w : Word) : Int := (bits w 0 16).toInt
/-- V. -/
def wordV (w : Word) : Nat := (bits w 16 12).toNat
/-- SW. -/
def wordSw (w : Word) : Bool := bit w 28
/-- LOCAL_TRIP. -/
def wordLocal (w : Word) : Bool := bit w 29
/-- SAT. -/
def wordSat (w : Word) : Bool := bit w 30
/-- INVALID. -/
def wordInv (w : Word) : Bool := bit w 31

/-- I_LAST of R84. -/
def normI (w : Word) (igain : BitVec 24) : BitVec 16 :=
  let m := min (wordI w).natAbs 32767
  BitVec.ofNat 16 (sat (rdiv (m * igain.toNat) 65536) 0 65535).toNat
/-- V_LAST of R84. -/
def normV (w : Word) (vgain : BitVec 16) : BitVec 12 :=
  BitVec.ofNat 12 (sat (rdiv (wordV w * vgain.toNat) 65536) 0 4095).toNat

/-! ### Elements (R94 to R97) -/

/-- The six elements, in the order of R97. -/
inductive Elem where
  | inst | st | lt | lta | ov | uv
  deriving DecidableEq, Repr
/-- The elements in order. -/
def elems : List Elem := [.inst, .st, .lt, .lta, .ov, .uv]
/-- The element code of R99. -/
def Elem.code (e : Elem) : Byte := BitVec.ofNat 8 (e.ctorIdx + 1)
/-- The PICKUP bit. -/
def Elem.bitNo (e : Elem) : Nat := e.ctorIdx
/-- The action byte of an element: 0 DISABLED, 1 EVENT, 2 TRIP; LT_ALARM is an EVENT wherever LT acts. -/
def Elem.act (e : Elem) (p : Bytes) : Nat :=
  match e with
  | .inst => (u8 p 8).toNat
  | .st => (u8 p 12).toNat
  | .lt => (u8 p 18).toNat
  | .lta => if u8 p 18 = 0 then 0 else 1
  | .ov => (u8 p 36).toNat
  | .uv => (u8 p 37).toNat
/-- Element arming by state (R94). -/
def armed (s : ChState) : Elem → Bool
  | .inst | .lt | .lta | .ov => s = .closed || s = .inserting
  | .st | .uv => s = .closed
/-- Thermal memory after an update (R95). -/
def thermNext (p : Bytes) (e : Nev) : BitVec 48 :=
  if u8 p 18 = 0 then 0
  else
    let s : Int := (e.iLast.toNat * e.iLast.toNat * 65536 : Nat)
    let d := s - e.therm.toNat
    let k : Int := if 0 < d then leNat p 28 4 else leNat p 32 4
    BitVec.ofNat 48 (sat (e.therm.toNat + rdiv (d * k) 268435456) 0 281474976710655).toNat
/-- The counters after R96. -/
def countNext (p : Bytes) (s : ChState) (e : Nev) : Nev :=
  let i := e.iLast.toNat
  let v := e.vLast.toNat
  { e with
    instCnt := if armed s .inst && u8 p 8 ≠ 0 && leNat p 10 2 ≤ i
      then BitVec.ofNat 3 (min (e.instCnt.toNat + 1) (u8 p 9).toNat) else 0,
    stCnt := if armed s .st && u8 p 12 ≠ 0 then
        (if leNat p 14 2 ≤ i then BitVec.ofNat 16 (min (e.stCnt.toNat + 1) (leNat p 16 2))
         else if bit (u8 p 13) 0 then BitVec.ofNat 16 (e.stCnt.toNat - 1) else 0) else 0,
    ovCnt := if armed s .ov && u8 p 36 ≠ 0 && leNat p 38 2 ≤ v
      then BitVec.ofNat 12 (min (e.ovCnt.toNat + 1) (leNat p 40 2)) else 0,
    uvCnt := if armed s .uv && u8 p 37 ≠ 0 && v ≤ leNat p 42 2
      then BitVec.ofNat 12 (min (e.uvCnt.toNat + 1) (leNat p 44 2)) else 0 }
/-- Does an element operate (R96)? -/
def operates (p : Bytes) (s : ChState) (e : Nev) : Elem → Bool
  | .inst => u8 p 8 ≠ 0 && e.instCnt.toNat = (u8 p 9).toNat
  | .st => u8 p 12 ≠ 0 && e.stCnt.toNat = leNat p 16 2 && leNat p 14 2 ≤ e.iLast.toNat
  | .lt => armed s .lt && u8 p 18 ≠ 0 && leNat p 20 4 * 65536 ≤ e.therm.toNat
  | .lta => armed s .lta && u8 p 18 ≠ 0 && leNat p 24 4 ≠ 0 && leNat p 24 4 * 65536 ≤ e.therm.toNat
  | .ov => u8 p 36 ≠ 0 && e.ovCnt.toNat = leNat p 40 2
  | .uv => u8 p 37 ≠ 0 && e.uvCnt.toNat = leNat p 44 2
/-- Does an element that does not operate clear its PICKUP (R94, R97)? -/
def dropsPickup (p : Bytes) (s : ChState) (e : Nev) : Elem → Bool
  | .inst => e.instCnt = 0
  | .st => e.stCnt = 0
  | .lt => !armed s .lt || e.therm.toNat * 16 < leNat p 20 4 * 65536 * 15
  | .lta => u8 p 18 = 0 || leNat p 24 4 = 0 || e.therm.toNat * 16 < leNat p 24 4 * 65536 * 15
  | .ov => e.ovCnt = 0
  | .uv => e.uvCnt = 0
/-- An element that is not armed holds its counter and its PICKUP at 0; LT_ALARM's PICKUP stays (R94). -/
def disarm (s : ChState) (e : Nev) : Nev :=
  { e with instCnt := if armed s .inst then e.instCnt else 0, stCnt := if armed s .st then e.stCnt else 0,
           ovCnt := if armed s .ov then e.ovCnt else 0, uvCnt := if armed s .uv then e.uvCnt else 0,
           pickup := elems.foldl (fun (b : BitVec 6) k =>
             if armed s k || k = .lta then b else b &&& ~~~((1 : BitVec 6) <<< k.bitNo)) e.pickup }
/-- The outcomes of an update: the elements that operate with PICKUP 0, in order (R97). -/
def outcomes (p : Bytes) (s : ChState) (e : Nev) : List Elem :=
  elems.filter (fun k => operates p s e k && !bit e.pickup k.bitNo)
/-- PICKUP after R97. -/
def pickupNext (p : Bytes) (s : ChState) (e : Nev) : BitVec 6 :=
  elems.foldl (fun (b : BitVec 6) k =>
    if operates p s e k then b ||| ((1 : BitVec 6) <<< k.bitNo)
    else if dropsPickup p s e k then b &&& ~~~((1 : BitVec 6) <<< k.bitNo) else b) e.pickup
/-- The outcomes take effect: the first TRIP outcome trips the channel (R98), every other raises its element event. -/
def applyOutcomes (f : Field) (x : BitVec 17) (p : Bytes) (os : List Elem) : Field :=
  let c := f.chan x
  let canTrip := c.nev.kind.switches && (c.nev.state = .closed || c.nev.state = .inserting)
  let first := if canTrip || !c.nev.kind.switches then os.find? (fun k => Elem.act k p = 2) else none
  let f1 := os.foldl (fun (g : Field) k =>
    if canTrip && first = some k then g.tripNow x k.code else g.element x k.code) f
  if !c.nev.kind.switches && first.isSome then f1.slowFault x else f1

/-! ### The rate limit (R103) -/

/-- RATE_MAX and RATE_REFILL. -/
def rateMax (p : Bytes) : Nat := (u8 p 47).toNat
/-- RATE_REFILL. -/
def rateRefill (p : Bytes) : Byte := u8 p 48
/-- The refill countdown of an update in a superframe whose number is a multiple of 200; TOK never exceeds RATE_MAX (R92). -/
def refill (p : Bytes) (sfn : BitVec 32) (e : Nev) : Nev :=
  let e1 := { e with tok := BitVec.ofNat 4 (min e.tok.toNat (rateMax p)) }
  if rateMax p = 0 || sfn.toNat % 200 ≠ 0 then e1
  else
    let r := if e1.rcnt = 0 then rateRefill p else e1.rcnt
    let r1 := r - 1
    if r1 = 0 then { e1 with tok := BitVec.ofNat 4 (min (e1.tok.toNat + 1) (rateMax p)), rcnt := rateRefill p }
    else { e1 with rcnt := r1 }
/-- One token is used at an entry into INSERTING. -/
def useToken (f : Field) (x : BitVec 17) : Field :=
  if rateMax (f.profOf x) = 0 then f
  else f.modNev x (fun e => { e with tok := BitVec.ofNat 4 (e.tok.toNat - 1) })

/-! ### Leaving FALLBACK (R67) -/

/-- May a channel in FALLBACK leave it at an arrival of a class? -/
def mayLeave (c : Chan) (cls : ArrClass) : Bool :=
  !c.aux.recLost && (!c.aux.osMissing || c.aux.healthTaken) &&
    (c.nev.kind = .direct || cls = .fresh || cls = .flagged)
/-- A direct channel that is CLOSED has its gate ON, and a low level of DFBn is then a driver fault (R286, R294). -/
def closedDirect (f : Field) (x : BitVec 17) : Field :=
  match f.directOf x with
  | some n => (f.gateTo n .on 0).driverFault n
  | none => f
/-- A channel leaves FALLBACK at an arrival (R67, R280). -/
def leaveFallback (f : Field) (x : BitVec 17) (w : Word) : Field :=
  let c := f.chan x
  let f1 := f.modAux x (fun a => { a with osMissing := false, healthTaken := false, fbOpened := false })
  if c.nev.kind = .sense || c.nev.kind = .virt then f1.enter x .closed 0 0 none
  else
    let sw : Bool := match c.fr.bind with | .direct n => decide ((f.dchan n).mode ≠ DgMode.off) | _ => wordSw w
    if c.aux.osMissing && c.aux.fbOpened then
      ((f1.enter x .tripped 0x12 0 none).tripCapture x 0x12).cmdTo x .ackTrip none
    else if c.nev.prior = .lockedOut then f1.lockOut x 4
    else if sw then (f1.enter x .closed 0 0 none).closedDirect x
    else f1.enter x .opened 0 0 none

/-! ### Switch status (R100) -/

/-- Step 1: LOCAL_TRIP in CLOSED or INSERTING. -/
def localTrip (f : Field) (x : BitVec 17) (w : Word) : Field :=
  let s := (f.chan x).nev.state
  if wordLocal w && (s = .closed || s = .inserting) then
    match f.directOf x with
    | some n => (f.gateOff n true).tripChan x 0x07
    | none => (f.tripChan x 0x07).cmdTo x .ackTrip none
  else f
/-- Step 2: the switch is confirmed open. -/
def confirmOpen (f : Field) (x : BitVec 17) (w : Word) : Field :=
  if (f.chan x).nev.state = .tripped && !wordSw w then f.modAux x (fun a => { a with confirmed := true }) else f
/-- Is there a mismatch of step 3? -/
def mismatch (e : Nev) (w : Word) (fresh : Bool) : Bool :=
  (e.state = .closed && !wordSw w && !wordLocal w) ||
  ((e.state = .opened || e.state = .retryWait || e.state = .lockedOut) && (wordSw w || (fresh && 0x40 ≤ e.iLast.toNat)))
/-- Step 3: SWITCH_DISAGREE. -/
def disagree (f : Field) (x : BitVec 17) (w : Word) (fresh : Bool) : Field :=
  let e := (f.chan x).nev
  if mismatch e w fresh then
    if !e.disPend then f.modNev x (fun e => { e with disPend := true })
    else if !e.disRaised then
      let f1 := (f.modNev x (fun e => { e with disRaised := true })).element x 0x0B
      if e.state = .closed then f1 else f1.cmdTo x .openPoint none
    else f
  else f.modNev x (fun e => { e with disPend := false, disRaised := false })
/-- The status bits of a fresh or flagged update (R100); an out-of-sequence arrival applies step 1 alone. -/
def statusBits (f : Field) (x : BitVec 17) (a : Arrival) : Field :=
  let k := (f.chan x).nev.kind
  match a.cls with
  | .fresh | .flagged =>
    if k = .switched then ((f.localTrip x a.word).confirmOpen x a.word).disagree x a.word (a.cls = .fresh)
    else if k = .direct then (f.localTrip x a.word).confirmOpen x a.word
    else f
  | .outseq => if k = .switched then f.localTrip x a.word else f
  | _ => f

/-! ### One update (R84 to R106) -/

/-- The entry's measurements, status and superframe byte as an arrival gives them (R84, R86, R87). -/
def measure (e : Nev) (a : Arrival) : Nev :=
  let e1 := { e with sfnLow := a.sfn }
  match a.cls with
  | .fresh => { e1 with iLast := normI a.word e.igain, vLast := normV a.word e.vgain, dir := wordI a.word < 0,
                        status := bits a.word 28 4 }
  | .flagged => { e1 with status := bits a.word 28 4 }
  | .outseq => { e1 with status := if wordLocal a.word then e.status ||| 2 else e.status &&& ~~~(2 : BitVec 4) }
  | _ => e1
/-- MISS, STALE_DATA and FRESH_DATA (R101). STALE_DATA is raised where MISS comes to equal MISS_MAX; one that stands above a MISS_MAX
lowered meanwhile raises none until it has started again (log entry 120). -/
def gaps (f : Field) (x : BitVec 17) (p : Bytes) (fresh : Bool) : Field :=
  let e := (f.chan x).nev
  if fresh then
    let f1 := f.modNev x (fun e => { e with miss := 0, staleRaised := false })
    if e.staleRaised then f1.element x 0x09 else f1
  else
    let m := satAdd e.miss 1
    let f1 := f.modNev x (fun e => { e with miss := m })
    if m.toNat = (u8 p 46).toNat && !e.staleRaised then
      (f1.modNev x (fun e => { e with staleRaised := true })).element x 0x08
    else f1
/-- SAT_RAISED and SATURATED (R102), on a fresh update. -/
def saturation (f : Field) (x : BitVec 17) (w : Word) : Field :=
  let e := (f.chan x).nev
  if wordSat w then
    if e.satRaised then f else (f.modNev x (fun e => { e with satRaised := true })).element x 0x0A
  else f.modNev x (fun e => { e with satRaised := false })
/-- A history accumulator takes an update (R227). -/
def histTake (p : Bytes) (e : Nev) (fresh sat : Bool) (h : Hist) : Hist :=
  if !bit (u8 p 240) 0 then h
  else if !fresh then { h with gap := true }
  else
    { h with
      iMin := if h.fresh = 0 || e.iLast < h.iMin then e.iLast else h.iMin,
      iMax := if h.fresh = 0 || h.iMax < e.iLast then e.iLast else h.iMax,
      iSum := h.iSum + e.iLast.toNat,
      vMin := if h.fresh = 0 || e.vLast < h.vMin then e.vLast else h.vMin,
      vMax := if h.fresh = 0 || h.vMax < e.vLast then e.vLast else h.vMax,
      vSum := h.vSum + e.vLast.toNat,
      fresh := h.fresh + 1, exportSeen := h.exportSeen || e.dir, satSeen := h.satSeen || sat }
/-- Load THRESH and the block's copy of the timing values of a direct channel (R289, R293). -/
def loadThresh (f : Field) (x : BitVec 17) : Field :=
  match f.directOf x with
  | none => f
  | some n =>
    let p := f.profOf x
    let raw := rawThreshold (leNat p 64 2) (f.chan x).nev.igain.toNat
    f.modDch n (fun d => { d with thresh := BitVec.ofNat 10 (min (cdiv raw 32) 1023), holdoffUs := holdoffUs p,
                                  holdLimUs := holdLimitUs p, clearUs := clearUs p, immediate := immediate p })
/-- The mirror of a channel (R104). -/
def mirrorOf (f : Field) (x : BitVec 17) : Option (BitVec 17) :=
  (f.existing.find? (fun e => e.2.fr.mirror = some x)).map (·.1)
/-- Queue one mirror update of a class (R105, R107). -/
def queueMirror (f : Field) (x : BitVec 17) (a : Arrival) : Field :=
  match f.mirrorOf x with
  | some m =>
    let q := f.nev.mirrorQ ++ [{ ch := m, arr := a }]
    { f with nev := { f.nev with mirrorQ := q, mirrorPeak := satMax f.nev.mirrorPeak q.length } }
  | none => f
/-- One ingest update of a channel that is not FREE and not in FALLBACK (R27, R28, R87). -/
def update (f : Field) (x : BitVec 17) (a : Arrival) : Field :=
  let c := f.chan x
  let s := c.nev.state
  let p := f.prof c.nev.profile
  let fresh := a.cls = .fresh
  let f1 := f.modChan x (fun c => { c with nev := refill p f.nev.sfn (measure c.nev a),
                                           aux := { c.aux with firstArrival := false } })
  let f2 := f1.loadThresh x
  let f3 := f2.statusBits x a
  let f4 := f3.gaps x p fresh
  let f5 := f4.modNev x (fun e => { e with therm := thermNext p e })
  let f6 := f5.modChan x (fun c => { c with hist := histTake p c.nev fresh (wordSat a.word) c.hist })
  if fresh then
    let f7 := f6.saturation x a.word
    let e := countNext p s (f7.chan x).nev
    let os := outcomes p s e
    let f8 := (f7.modNev x (fun _ => { e with pickup := pickupNext p s e })).applyOutcomes x p os
    -- completion of an insertion in HANDOVER (R178)
    let f9 := if c.nev.kind = .switched && wordSw a.word && (f8.chan x).nev.state = .inserting then
        match f8.insCtx x with
        | some (n, k) => if k.phase = Phase.handover then f8.completeIns n else f8
        | none => f8
      else f8
    f9.queueMirror x a
  else (f6.modNev x (disarm s)).queueMirror x a
/-- The entry and the profile of a channel are read for an update (R87, R357). -/
def readFor (f : Field) (x : BitVec 17) : Field :=
  let f1 := if f.recovering x then f else f.readEntry x
  f1.readProf (f1.chan x).nev.profile
/-- An arrival meets its channel: an update, or a way out of FALLBACK (R67). While the entry is being recovered the update is of class
missing, and the channel does not leave FALLBACK (R351). -/
def arrive (f0 : Field) (x : BitVec 17) (a0 : Arrival) : Field :=
  let f := if (f0.chan x).nev.state = .free then f0 else f0.readFor x
  let c := f.chan x
  let a := if f.recovering x then { a0 with cls := .missing } else a0
  match c.nev.state with
  | .free => f
  | .fallback =>
    if c.nev.kind ≠ .virt && mayLeave c a.cls && !f.recovering x then (f.leaveFallback x a.word).update x a
    else f.modAux x (fun u => { u with firstArrival := false })
  | _ => f.update x a
/-- Take the first waiting entry of a channel from a queue. -/
def takeWaiting (x : BitVec 17) : List Waiting → Option (Arrival × List Waiting)
  | [] => none
  | w :: r => if w.ch = x then some (w.arr, r)
    else match takeWaiting x r with | some (a, r') => some (a, w :: r') | none => none
/-- INGEST_UPDATE: a pipe takes the channel's first waiting arrival (R96, R106). -/
def ingestUpdate (f : Field) (x : BitVec 17) : Field :=
  match takeWaiting x f.nev.arrivals with
  | some (a, r) => ({ f with nev := { f.nev with arrivals := r } }).arrive x a
  | none => f
/-- MIRROR_UPDATE: the mirror's first waiting update (R105); it yields to point updates (R107). -/
def mirrorUpdate (f : Field) (x : BitVec 17) : Field :=
  if f.nev.arrivals ≠ [] then f
  else match takeWaiting x f.nev.mirrorQ with
  | some (a, r) => ({ f with nev := { f.nev with mirrorQ := r } }).arrive x a
  | none => f

/-! ### Retry policy and the wheel (05) -/

/-- The policy bytes of a class: ACTION, COUNT, BASE (R146). -/
def policyOf (p : Bytes) (c : Nat) : Nat × Bool × Nat × Nat :=
  let a := u8 p (128 + 4 * c)
  let b := leNat p (130 + 4 * c) 2
  let unit := b / 16384
  let f := if unit = 0 then 1 else if unit = 1 then 100 else if unit = 2 then 10000 else 600000
  ((bits a 0 2).toNat, bit a 2, (u8 p (129 + 4 * c)).toNat, (b % 16384) * f)
/-- MULT of a profile, in eighths. -/
def multOf (p : Bytes) : Nat := if u8 p 160 = 0 then 16 else (u8 p 160).toNat
/-- CEILING of a profile, in steps. -/
def ceilingOf (p : Bytes) : Nat := if leNat p 164 4 = 0 then 864000000 else leNat p 164 4
/-- SPREAD of a profile. -/
def spreadOf (p : Bytes) : Nat := (bits (u8 p 161) 0 4).toNat
/-- The backoff of R148: n multiplications. -/
def backoff (p : Bytes) : Nat → Nat → Nat
  | 0, d => d
  | n + 1, d => backoff p n (min (d * multOf p / 8) (ceilingOf p))
/-- The retry delay of R148 in steps, with RCOUNT already raised. -/
def retryDelay (p : Bytes) (x : BitVec 17) (base rcount : Nat) : Nat :=
  let d := min (backoff p (rcount - 1) base) (ceilingOf p)
  min (d + x.toNat % 2 ^ spreadOf p) 864000000
/-- RETRY_POLICY (R148): the policy of the last trip's class, once the switch is confirmed open. -/
def retryPolicy (f : Field) (x : BitVec 17) : Field :=
  let c := f.chan x
  if c.nev.state ≠ .tripped || !c.aux.confirmed || c.aux.policyApplied then f
  else
    let p := f.profOf x
    let pol := policyOf p (causeClass c.fr.cause)
    if pol.1 = 0 then f.modAux x (fun a => { a with policyApplied := true })
    else if pol.1 ≠ 1 then f.lockOut x 1
    else if pol.2.2.1 ≤ c.fr.rcount.toNat then f.lockOut x 2
    else
      let n := c.fr.rcount.toNat + 1
      let d := retryDelay p x pol.2.2.2 n
      (f.enter x .retryWait c.fr.cause 0 none).modRec x (fun r =>
        { r with rcount := BitVec.ofNat 4 n, wheel := .retry (dueAt f.now d) })
/-- The next slot boundary after now (R154, R155). -/
def nextSlot (f : Field) : Count := BitVec.ofNat 64 ((f.now.toNat / 10000 + 1) * 10000)
/-- Does the timing wheel act: not in STANDBY, in a reset or with the die off (R164)? -/
def wheelRuns (f : Field) : Bool := f.pwr.st = .run || f.pwr.st = .trim || f.pwr.st = .quiet
/-- Entry into INSERTING with an origin, and into the queue (R64, R153): every counter starts from 0 (R94). -/
def startInserting (f : Field) (x : BitVec 17) (o : Origin) (issuer : Option Part) : Field :=
  let f1 := ((f.useToken x).modNev x (fun e => disarm e.state e)).enter x .inserting 0 (BitVec.ofNat 8 o.code) issuer
  { f1 with hel := { f1.hel with queue := f1.hel.queue ++ [{ ch := x, origin := o, tJoin := f1.now }] } }
/-- The due count of a wheel entry. -/
def Wheel.dueOf : Wheel → Option Count
  | .retry d => some d
  | .stable d => some d
  | .none => none
/-- Is the entry of channel x with due count d the first of those due, by due count and then by index (R152)? -/
def wheelFirst (f : Field) (x : BitVec 17) (d : Count) : Bool :=
  f.existing.all (fun e => match Wheel.dueOf e.2.fr.wheel with
    | some t => !(t < d || (t = d && e.1 < x))
    | none => true)
/-- RETRY_DUE (R153 to R155): a retry entry that falls due, in the order of R152; lag is the time since its slot boundary in µs. -/
def retryDue (f : Field) (x : BitVec 17) (lag : Nat) : Field :=
  match (f.chan x).fr.wheel with
  | .retry d =>
    if !f.wheelRuns || !f.due d || !f.wheelFirst x d || (f.chan x).nev.state ≠ .retryWait then f
    else
      let f1 := { f with sel := { f.sel with lagPeak := satMax f.sel.lagPeak lag } }
      let again (g : Field) := g.modRec x (fun r => { r with wheel := .retry g.nextSlot })
      if f1.sel.holdAll then again f1
      else if rateMax (f1.profOf x) ≠ 0 && (f1.chan x).nev.tok = 0 then f1.lockOut x 3
      else if f1.saf.safe then again f1
      else if 1024 ≤ f1.hel.queue.length then
        again { f1 with sel := { f1.sel with qfull := satAdd f1.sel.qfull 1 } }
      else ({ f1 with sel := { f1.sel with retries := satAdd f1.sel.retries 1 } }).startInserting x .retry none
  | _ => f
/-- STABLE_DUE (R151): a stable entry that falls due resets RCOUNT. -/
def stableDue (f : Field) (x : BitVec 17) (lag : Nat) : Field :=
  match (f.chan x).fr.wheel with
  | .stable d =>
    if !f.wheelRuns || !f.due d || !f.wheelFirst x d then f
    else ({ f with sel := { f.sel with lagPeak := satMax f.sel.lagPeak lag } }).modRec x
      (fun r => { r with rcount := 0, wheel := .none })
  | _ => f
/-- FALLBACK_UNSYNCED of a channel: its fallback configuration is not acknowledged 100 ms after queuing (R111). -/
def fallbackUnsynced (f : Field) (x : BitVec 17) : Field :=
  let c := f.chan x
  match c.aux.fbQueued with
  | some t => if c.nev.state ≠ .free && !c.nev.fbSync && !c.aux.fbRaised && f.due (t + 10000000)
    then (f.modAux x (fun a => { a with fbRaised := true })).element x 0x0C else f
  | none => f

end Field
end Sys2Proof.Machine
end

