-- ==== Sys2Proof/Machine/Heliostat.lean ====
section
/-! DEFINITION. Insertion and the Heliostat loop (06, 07): the claim, the stage chain, supervision, the phases and their
timeouts, swaps, missing periods, the ramp-off, and the captures that run in a context (08). -/
namespace Sys2Proof.Machine

/-! ### Numbers (R183 to R187) -/

/-- Saturation to an 18-bit mantissa. -/
def sat18 (x : Int) : Int := sat x (-131072) 131071
/-- k times 2 to the n, rounded under R8 for n below 0. -/
def scale (k n : Int) : Int := if 0 ≤ n then k * 2 ^ n.toNat else rdiv k (2 ^ (-n).toNat)
/-- shift(k, n) of R184. -/
def shift (k n : Int) : Int := sat18 (scale k n)
/-- P(a) of R185 at exponent e. -/
def pround (a e : Int) : Int := rdiv a (2 ^ (17 - e).toNat)
/-- An 18-bit two's-complement mantissa. -/
def mant (n : Nat) : Int := if 131072 ≤ n % 262144 then (n % 262144 : Int) - 262144 else n % 262144

/-! ### Banks (R189) -/

/-- NSTAGE. -/
def nstage (b : Bytes) : Nat := (u8 b 0).toNat
/-- TYPE of stage s. -/
def stType (b : Bytes) (s : Nat) : Nat := (u8 b (16 + 18 * s)).toNat
/-- E0 of stage s. -/
def stE0 (b : Bytes) (s : Nat) : Int := (bits (u8 b (17 + 18 * s)) 0 6).toInt
/-- C[i] of stage s as the bank holds it. -/
def stC (b : Bytes) (s i : Nat) : Int := mant (leNat b (18 + 18 * s + 3 * i) 3)
/-- The working coefficient C[i] of stage s at exponent e (R186). -/
def workC (b : Bytes) (s i : Nat) (e : Int) : Int := shift (stC b s i) (stE0 b s - e)
/-- Effective RAMPOFF. -/
def rampOff (b : Bytes) : Nat := if leNat b 8 2 = 0 then 64 else leNat b 8 2
/-- Effective BUMP_N. -/
def bumpN (b : Bytes) : Nat := if leNat b 10 2 = 0 then 16 else leNat b 10 2
/-- A stage with E at E0 and every state 0. -/
def Stage.fresh (b : Bytes) (s : Nat) : Stage := { s0 := 0, s1 := 0, s2 := 0, s3 := 0, e := stE0 b s, low := 0 }
/-- The stages of a bank as a claim sets them (R192). -/
def freshStages (b : Bytes) : List Stage := (List.range 6).map (Stage.fresh b)

/-! ### The stage chain (R194 to R196) -/

/-- What the chain gives: the last output, the stages after it, each stage's output, PI increments still to add, the limit
flags and the saturations that R188 counts. -/
structure Chain where
  k : Int
  e : Int
  stages : List Stage
  outs : List Int
  hi : Bool
  lo : Bool
  sats : Nat

/-- One stage on input x (R195): the output before saturation, the stage after it, and whether a limit saw x above HI or
below LO. A PI stage's integrator is updated after the flags are known. -/
def evalStage (b : Bytes) (s : Nat) (t : Stage) (x : Int) : Int × Stage × Bool × Bool :=
  let c (i : Nat) := workC b s i t.e
  let ty := stType b s
  if ty = 1 then (pround (c 0 * x) t.e + t.s0, t, false, false)
  else if ty = 2 then
    let y := pround (c 0 * x + c 1 * t.s0 + c 2 * t.s1 - c 3 * t.s2 - c 4 * t.s3) t.e
    (y, { t with s1 := t.s0, s0 := x, s3 := t.s2, s2 := sat18 y }, false, false)
  else if ty = 3 then
    let y := pround (c 0 * x + c 1 * t.s0 - c 2 * t.s1) t.e
    (y, { t with s0 := x, s1 := sat18 y }, false, false)
  else if ty = 4 then (pround (c 0 * x) t.e, t, false, false)
  else (min (max x (c 1)) (c 0), t, c 0 < x, x < c 1)
/-- The chain over the stages of a bank, from stage s on; k and e are the value and exponent that enter (R194). inputs
collects each stage's input for the integrators. -/
def runChain (b : Bytes) : Nat → List Stage → Int → Int → Chain × List Int
  | _, [], k, e => ({ k := k, e := e, stages := [], outs := [], hi := false, lo := false, sats := 0 }, [])
  | s, t :: ts, k, e =>
    if nstage b ≤ s then
      ({ k := k, e := e, stages := t :: ts, outs := [], hi := false, lo := false, sats := 0 }, [])
    else
      let top := t.e = stE0 b s + 6
      let x0 := scale k (e - t.e)
      let x := sat18 x0
      let (y0, t1, hi, lo) := evalStage b s t x
      let y := sat18 y0
      let n := if top then (if x ≠ x0 then 1 else 0) + (if y ≠ y0 then 1 else 0) else 0
      let (r, xs) := runChain b (s + 1) ts y t.e
      ({ r with stages := t1 :: r.stages, outs := y :: r.outs, hi := hi || r.hi, lo := lo || r.lo, sats := n + r.sats }, x :: xs)
/-- The PI integrators after a sample (R195, R196). -/
def integrate (b : Bytes) (hi lo : Bool) : Nat → List Stage → List Int → List Stage
  | _, [], _ => []
  | _, ts, [] => ts
  | s, t :: ts, x :: xs =>
    let p := pround (workC b s 1 t.e * x) t.e
    let blocked := (hi && decide (0 < p)) || (lo && decide (p < 0))
    let t1 := if stType b s = 1 && !blocked then { t with s0 := sat (t.s0 + p) (workC b s 3 t.e) (workC b s 2 t.e) } else t
    t1 :: integrate b hi lo (s + 1) ts xs
/-- Renormalisation of one stage with output y (R187); answers the stage, rises and falls. -/
def renorm (b : Bytes) (s : Nat) (t : Stage) (y : Int) : Stage × Nat × Nat :=
  let m := max (max (max t.s0.natAbs t.s1.natAbs) (max t.s2.natAbs t.s3.natAbs)) y.natAbs
  if 65536 ≤ m && decide (t.e < stE0 b s + 6) then
    ({ t with e := t.e + 1, s0 := shift t.s0 (-1), s1 := shift t.s1 (-1), s2 := shift t.s2 (-1), s3 := shift t.s3 (-1) }, 1, 0)
  else if m < 16384 then
    let n := min (t.low + 1) 64
    if n = 64 && decide (stE0 b s < t.e) then
      ({ t with e := t.e - 1, low := 0, s0 := t.s0 * 2, s1 := t.s1 * 2, s2 := t.s2 * 2, s3 := t.s3 * 2 }, 0, 1)
    else ({ t with low := n }, 0, 0)
  else ({ t with low := 0 }, 0, 0)
/-- Renormalisation of every stage in use. -/
def renormAll (b : Bytes) : Nat → List Stage → List Int → List Stage × Nat × Nat
  | _, [], _ => ([], 0, 0)
  | _, ts, [] => (ts, 0, 0)
  | s, t :: ts, y :: ys =>
    let (t1, u, d) := renorm b s t y
    let (r, us, ds) := renormAll b (s + 1) ts ys
    (t1 :: r, u + us, d + ds)

/-- What one sample of a chain gives before it is committed (R194). -/
structure Loop where
  g : Int
  hi : Bool
  lo : Bool
  /-- g was clamped at G_MAX, at G_MIN. -/
  atMax : Bool
  atMin : Bool
  stages : List Stage
  outs : List Int
  sats : Nat

/-- The clamps and the slew limit of R194 on g, with the flags of R196. -/
def clampG (b : Bytes) (gOut g : Int) : Int × Bool × Bool × Bool × Bool :=
  let gmin : Int := leNat b 2 2
  let gmax : Int := leNat b 4 2
  let g1 := sat g gmin gmax
  let sl : Int := leNat b 6 2
  let g2 := if sl = 0 then g1 else sat g1 (gOut - sl) (gOut + sl)
  (g2, decide (gmax < g) || decide (g2 < g1), decide (g < gmin) || decide (g1 < g2), decide (gmax < g), decide (g < gmin))
/-- One sample through bank b with stages ts, error d, offset bump and previous output gOut (R194); integrators included. At
a swap the flags are those that the sample before left (R202): kept. -/
def loopStep (b : Bytes) (ts : List Stage) (d bump gOut : Int) (kept : Option (Bool × Bool)) : Loop :=
  let e0 : Int := match ts with | t :: _ => t.e | [] => 0
  let k0 := scale d (7 - e0)
  let (r, xs) := runChain b 0 ts k0 e0
  let g0 := scale r.k (r.e - 5) + bump
  let (g, hi, lo, mx, mn) := clampG b gOut g0
  let (hi1, lo1) := match kept with | some fl => fl | none => (hi || r.hi, lo || r.lo)
  { g := g, hi := hi1, lo := lo1, atMax := mx, atMin := mn, stages := integrate b hi1 lo1 0 r.stages xs, outs := r.outs,
    sats := r.sats }

/-! ### The insertion block (R166, R205) -/

/-- TRAJ of a block, with a soft start always on the voltage trajectory. The block's offsets are those of the profile less
176. -/
def trajVolt (c : Ctx) : Bool := u8 c.ins 0 = 0 || c.origin = .soft
/-- V_T in Q2.10. -/
def vTarget (c : Ctx) : Nat := if leNat c.ins 14 2 = 0 then 1024 else leNat c.ins 14 2
/-- The ramp time in ticks. -/
def rampTicks (c : Ctx) : Nat := if c.origin = .soft then leNat c.ins 6 2 * 100000 else leNat c.ins 4 2 * 1000
/-- The whole ramp, and k loop samples of it, in one unit: T of R176 is their quotient at k = 1, and need not be whole. -/
def rampSpan (c : Ctx) : Nat := rampTicks c * c.rate
/-- k loop samples in the unit of rampSpan. -/
def rampAt (k : Nat) : Nat := k * 100000000
/-- The trajectory reference at loop sample k (R176); I_REF for the current trajectory. -/
def trajRef (c : Ctx) (k : Nat) : Int :=
  if !trajVolt c then leNat c.ins 8 2
  else
    let vt : Int := vTarget c
    let v0 : Int := c.v0.toNat
    if vt ≤ v0 || rampSpan c ≤ rampAt k then vt else v0 + ((vt - v0) * rampAt k) / rampSpan c
/-- INJECT_EN and the length of the injection in samples (R213). -/
def injLen (c : Ctx) : Nat := if bit (u8 c.ins 28) 1 then 2 * leNat c.ins 48 2 * (u8 c.ins 50).toNat else 0
/-- The injected offset at injection sample n. -/
def injAt (c : Ctx) (n : Int) : Int :=
  let h : Int := leNat c.ins 48 2
  if n < 0 || (injLen c : Int) ≤ n || h = 0 then 0
  else if n % (2 * h) < h then leNat c.ins 46 2 else - (leNat c.ins 46 2 : Int)
/-- The sum of the magnitudes of the injected steps in the 7 periods up to sample n (R210, R213). -/
def injRise (c : Ctx) (n : Int) : Int :=
  (List.range 7).foldl (fun (a : Int) j => a + ((injAt c (n - j) - injAt c (n - j - 1)).natAbs : Int)) 0
/-- D of R207. -/
def dvSpan (c : Ctx) : Nat := if u8 c.ins 30 = 0 then 4 else (u8 c.ins 30).toNat
/-- KC of R207 for a block and a sample rate. -/
def kcOf (ins : Bytes) (rate : Nat) : Nat :=
  let d := if u8 ins 30 = 0 then 4 else (u8 ins 30).toNat
  (rdiv (65536 * leNat ins 32 4 * rate : Nat) (d * 1000000 : Nat)).toNat
/-- Does a phase run the loop's supervision: PREPARE, RAMP or SETTLE? -/
def Phase.supervised (p : Phase) : Bool := p = .prepare || p = .ramp || p = .settle

/-- A sample of a loop as its word gives it (R84, R193). -/
structure Smp where
  v : BitVec 12
  /-- Signed current, Q6.10, and its magnitude. -/
  i : Int
  mag : Nat
  raw : BitVec 16 × BitVec 12
  satd : Bool
  inval : Bool
/-- A word normalised with a channel's gains. -/
def smpOf (e : Nev) (w : Word) : Smp :=
  let m := (Field.normI w e.igain).toNat
  { v := Field.normV w e.vgain, i := if Field.wordI w < 0 then -(m : Int) else m, mag := m,
    raw := (bits w 0 16, bits w 16 12), satd := Field.wordSat w, inval := Field.wordInv w }

namespace Field

/-! ### Capture entries (R214, R233) -/

/-- An entry joins the capture of a slot; a LOOP capture that is full stops with TRUNC (R233). -/
def capPut (f : Field) (sl : Nat) (e : CapEnt) : Field :=
  match f.slot? sl with
  | some s =>
    if !s.running then f
    else
      let s1 := { s with ents := s.ents ++ [e], npre := if e.pre then s.npre + 1 else s.npre }
      let f1 := f.heal1 (slotCw sl (2 + s.ents.length / 4))
      if s.kind = CapKind.loop && 8184 ≤ s1.ents.length then (f1.setSlot sl { s1 with trunc := true }).capEnd sl false
      else f1.setSlot sl s1
  | none => f
/-- The capture entry of a good sample, or of a missing period. -/
def capEntry (c : Ctx) (s : Option Smp) (loop : Bool) : CapEnt :=
  match s with
  | some x => { ref := if loop then c.ref else 0, v := x.v, i := ofInt 16 (sat x.i (-32768) 32767), g := if loop then c.gOut else 0,
                missing := false, pre := false, satd := x.satd, inval := x.inval }
  | none => { ref := if loop then c.ref else 0, v := c.v, i := c.i, g := if loop then c.gOut else 0, missing := true, pre := false,
              satd := c.pSat, inval := c.pInval }
/-- A period of a context joins its LOOP capture while the injection runs, and the log a failure would keep. -/
def loopEntry (f : Field) (n : Nat) (s : Option Smp) : Field :=
  match tabLook f.hel.ctx n with
  | none => f
  | some c =>
    let e := capEntry c s true
    let f1 := match c.loopSlot with
      | some sl => if c.injActive then f.capPut sl e else f
      | none => f
    if bit (u8 c.ins 3) 0 && c.log.length < 8184 then f1.modCtx n (fun k => { k with log := e :: k.log }) else f1
/-- A period of a TRIP, REQUEST or FAIL capture; when its window is full the capture ends, and with it a context that does
nothing else (R180, R233). -/
def capPeriod (f : Field) (n : Nat) (s : Option Smp) : Field :=
  match tabLook f.hel.ctx n with
  | none => f
  | some c => match c.capSlot with
    | none => f
    | some sl => match f.slot? sl with
      | none => f
      | some k =>
        let f1 := (f.setSlot sl { k with left := k.left - 1 }).capPut sl (capEntry c s (c.phase = .rampOff))
        if 1 < k.left then f1
        else
          let f2 := f1.capEnd sl false
          if c.phase = .capture then (f2.stopStream c 2).dropCtx n false
          else f2.modCtx n (fun c => { c with capSlot := none })
/-- A pre-trigger sample of a stream (R231, R275). -/
def preSample (f : Field) (n : Nat) (w : Word) : Field :=
  match tabLook f.hel.ctx n with
  | none => f
  | some c => match c.capSlot with
    | none => f
    | some sl => match f.slot? sl with
      | some k =>
        if 0 < k.preWant then
          let x := smpOf (f.chan c.ch).nev w
          (f.setSlot sl { k with preWant := k.preWant - 1 }).capPut sl
            { ref := 0, v := x.v, i := ofInt 16 (sat x.i (-32768) 32767), g := 0, missing := false, pre := true, satd := x.satd,
              inval := x.inval }
        else f
      | none => f
/-- The first live sample of a capture: pre-trigger samples still wanted are not available (R231). -/
def preClose (f : Field) (n : Nat) : Field :=
  match tabLook f.hel.ctx n with
  | some c => match c.capSlot with
    | some sl => match f.slot? sl with
      | some k => if 0 < k.preWant then f.setSlot sl { k with preWant := 0, preShort := true } else f
      | none => f
    | none => f
  | none => f

/-! ### The claim (R168 to R170, R192) -/

/-- The entry that a free context goes to: the first eligible DIRECT one, else the first eligible one (R170). -/
def claimNext (f : Field) : Option InsEnt :=
  match f.hel.queue.find? (fun e => f.eligible e && (f.chan e.ch).nev.kind = .direct) with
  | some e => some e
  | none => f.hel.queue.find? (f.eligible ·)
/-- The loop set that a claim for a channel copies, and its VALID (R192). -/
def claimBank (f : Field) (x : BitVec 17) : Bytes := f.loopSet (u8 (f.profOf x) 178)
/-- A context is claimed for a queue entry. -/
def claim (f : Field) (e : InsEnt) (n : Nat) : Field :=
  let p := f.profOf e.ch
  let ins := slice p 176 64
  let bank := pad 128 (f.loopSet (u8 p 178))
  let wait := (f.now.toNat - e.tJoin.toNat) / 10000
  let f1 := { f with hel := { f.hel with queue := f.hel.queue.erase e, waitPeak := satMax f.hel.waitPeak wait } }
  let st := f1.startStream e.ch (insRate p) false false
  let c := st.1.newCtx e.ch e.origin .prepare st.2 ins bank (freshStages bank)
  st.1.setCtx n { c with kc := kcOf ins st.2.rate }
/-- CONTEXT_CLAIM (R170, R174): a free context goes to the queue, else to a waiting capture. The claim reads the four codewords of its
loop set (R357); one that names a loop set with VALID 0 fails with STREAM_FAIL (R350). -/
def contextClaim (f : Field) : Field :=
  match f.freeCtx, f.claimNext with
  | some n, some e =>
    let g := f.readLoop (u8 (f.profOf e.ch) 178)
    if bit (u8 (g.claimBank e.ch) 1) 0 then g.claim e n else (g.countFail 0x19).tripChan e.ch 0x19
  | some _, none => capRetry 64 f
  | none, _ => f

/-! ### Phase changes -/

/-- RAMP ends: SETTLE begins, with the injection and its LOOP capture where INJECT_EN is 1 (R176, R213, R214). -/
def toSettle (f : Field) (n : Nat) (v : Nat) : Field :=
  match tabLook f.hel.ctx n with
  | none => f
  | some c =>
    let inj : Bool := decide (0 < injLen c)
    let thr := vTarget c - leNat c.ins 16 2
    let c1 := { c with phase := .settle, tPhase := f.now, tSettled := if thr ≤ v then some f.now else none, injK := 0,
                       injActive := inj }
    if inj then
      match f.freeSlot with
      | some sl =>
        let s : Slot := { handle := c.handle, kind := .loop, trunc := false, aborted := false, preShort := false, cause := 0,
                          tTrigger := f.now, rate := c.rate, npre := 0, ents := [], dest := (f.chan c.ch).nev.owner,
                          running := true, left := 8184, preWant := 0 }
        (f.writeSlot sl s 0).setCtx n { c1 with loopSlot := some sl }
      | none => f.setCtx n c1
    else f.setCtx n c1
/-- SETTLE ends: HANDOVER, the gate fully on and the stream stopped, its lane slot free for others (R178); a direct channel whose DFB already shows the
driver on completes at once. -/
def toHandover (f : Field) (n : Nat) : Field :=
  match tabLook f.hel.ctx n with
  | none => f
  | some c =>
    let f1 := f.dropSwap n
    let f2 := match c.loopSlot with | some sl => f1.capEnd sl false | none => f1
    let f3 := (f2.stopStream c 1).modCtx n (fun k =>
      { k with phase := .handover, slot := none, sample := none, tPhase := f.now, loopSlot := none, injActive := false })
    match f3.directOf c.ch with
    | some d =>
      let f4 := f3.gateTo d .on 0
      if (f4.dchan d).dfb then f4.completeIns n else f4
    | none => f3
/-- SETTLE's end is judged after a period (R213, insertion phases). -/
def settleEnd (f : Field) (n : Nat) : Field :=
  match tabLook f.hel.ctx n with
  | none => f
  | some c => match c.tSettled with
    | some t => if injLen c ≤ c.injK && leNat c.ins 18 2 * 1000 ≤ f.now.toNat - t.toNat then f.toHandover n else f
    | none => f

/-! ### A sample period (R193 to R210) -/

/-- The output of a context goes to its gate: a direct channel's LINEAR reference; a stream carries it in its cycle. -/
def driveGate (f : Field) (n : Nat) : Field :=
  match tabLook f.hel.ctx n with
  | some c => match f.directOf c.ch with | some d => f.gateTo d .linear c.gOut | none => f
  | none => f
/-- States of the new bank at a swap (R202). -/
def swapStages (old new : Bytes) (ts : List Stage) : List Stage :=
  (List.range 6).map (fun s =>
    let t := ts.getD s (Stage.fresh new s)
    if s < nstage new && stType old s = stType new s then
      let mv (k : Int) := shift k (t.e - stE0 new s)
      let s0 := mv t.s0
      { s0 := if stType new s = 1 then sat s0 (stC new s 3) (stC new s 2) else s0, s1 := mv t.s1, s2 := mv t.s2, s3 := mv t.s3,
        e := stE0 new s, low := 0 }
    else Stage.fresh new s)
/-- bump(c) of R201 with a bank's BUMP_N. -/
def bumpAt (delta : Int) (j n : Nat) : Int := if n ≤ j then 0 else rdiv (delta * ((n : Int) - j)) n
/-- The active bank of a context. -/
def activeBank (c : Ctx) : Bytes := if c.activeB then c.bankB else c.bankA
/-- The loop of R194 on a good sample with reference r: the swap of R201 is taken where one is pending, the output and the
states are committed. -/
def runLoop (f : Field) (n : Nat) (r : Int) (x : Smp) : Field :=
  match tabLook f.hel.ctx n with
  | none => f
  | some c =>
    let d := if trajVolt c then r - x.v.toNat else r - x.i
    let old := activeBank c
    let gPrev : Int := c.gOut.toNat
    let new := if c.activeB then c.bankA else c.bankB
    let swaps := c.swap.isSome
    let bank := if swaps then new else old
    let ts := if swaps then swapStages old new c.stages else c.stages
    let lo := loopStep old c.stages d (bumpAt c.delta c.bumpJ (bumpN old)) gPrev none
    let ln := loopStep new ts d 0 gPrev none
    let delta := if swaps then
        (if (lo.atMax && ln.atMax && leNat old 4 2 = leNat new 4 2) || (lo.atMin && ln.atMin && leNat old 2 2 = leNat new 2 2) then 0
         else lo.g - ln.g) else c.delta
    let j := if swaps then 0 else c.bumpJ
    let l := loopStep bank ts d (bumpAt delta j (bumpN bank)) gPrev (if swaps then some (c.satHi, c.satLo) else none)
    let (st, up, dn) := renormAll bank 0 l.stages l.outs
    let h := f.hel
    let f1 := { f with hel := { h with
      renormUp := satAdd h.renormUp up, renormDown := satAdd h.renormDown dn, satMant := satAdd h.satMant l.sats,
      satClamp := if l.hi || l.lo then satAdd h.satClamp 1 else h.satClamp,
      swapDone := if swaps then satAdd h.swapDone 1 else h.swapDone } }
    let f2 := f1.setCtx n { c with
      gOut := BitVec.ofNat 12 l.g.toNat, ref := ofInt 16 r, stages := st, satHi := l.hi, satLo := l.lo, delta := delta,
      bumpJ := min (j + 1) 1024, activeB := if swaps then !c.activeB else c.activeB, swap := none,
      swapTaken := if swaps then true else c.swapTaken, holding := false }
    let f3 := match c.swap with | some q => f2.done q | none => f2
    f3.driveGate n
/-- The over-limit count of R177 after a sample. -/
def overNext (c : Ctx) (x : Smp) : Nat := if leNat c.ins 10 2 < x.mag then c.overN + 1 else 0
/-- The expected current and the band check of R207 for the good samples in a history (newest first). -/
def modelJudge (c : Ctx) (x : Smp) (hist : List (BitVec 12)) : Option (Int × Bool × Int × Int) :=
  let d := dvSpan c
  if hist.length ≤ d then none
  else
    let dv : Int := (x.v.toNat : Int) - (hist.getD d 0).toNat
    let ir := rdiv (leNat c.ins 36 2 * x.v.toNat : Nat) 4096
    let i0 := (u16 c.ins 38).toInt
    let iexp := sat (rdiv (c.kc * dv) 65536 + ir + i0) (-32768) 32767
    let band : Int := leNat c.ins 40 2 + ((u8 c.ins 42).toNat * iexp.natAbs) / 256
    some (iexp, decide (band < ((x.i - iexp).natAbs : Int)), x.i - ir - i0, dv)
/-- A good sample of a context in PREPARE, RAMP or SETTLE: supervision in the order of R211, then the loop and the phase
(R175, R176, R193, R207 to R211). -/
def goodSample (f : Field) (n : Nat) (w : Word) : Field :=
  match tabLook f.hel.ctx n with
  | none => f
  | some c =>
    let x := smpOf (f.chan c.ch).nev w
    let hist := (x.v :: c.vHist).take 17
    let looping := c.phase = .ramp || c.phase = .settle
    let k := if looping then c.k + 1 else c.k
    let injK := if c.phase = .settle then c.injK + 1 else c.injK
    let mj := modelJudge c x hist
    let viol := match mj with | some (_, v, _, _) => v && bit (u8 c.ins 28) 0 | none => false
    let vcnt := if (match mj with | some _ => bit (u8 c.ins 28) 0 | none => false) then (if viol then satAdd c.viol 1 else 0)
      else c.viol
    let frz := if c.lastRaw = some x.raw then satAdd c.frz 1 else 1
    let ovN := overNext c x
    let inj := if c.phase = .settle then injAt c c.injK else 0
    let rise := trajRef c k - trajRef c (k - 7) + (if c.phase = .settle && c.injK < injLen c then injRise c c.injK else 0)
    let dvF : Int := if leNat c.ins 44 2 = 0 then 2 else leNat c.ins 44 2
    let armed := if trajVolt c then looping && dvF ≤ rise else c.phase = .ramp
    let acc := looping && mj.isSome
    let (sxy, sxx) := match mj with
      | some (_, _, r, dv) => (sat (c.sxy + r * dv) (-(2 ^ 47)) (2 ^ 47 - 1), sat (c.sxx + dv * dv) 0 (2 ^ 48 - 1))
      | none => (c.sxy, c.sxx)
    let c1 := { c with
      v := x.v, i := ofInt 16 (sat x.i (-32768) 32767), vHist := hist, lastRaw := some x.raw, missCnt := 0, viol := vcnt, frz := frz,
      overN := ovN, periods := c.periods + 1, firstGood := some (c.firstGood.getD f.now), k := k, injK := injK,
      iexp := (match mj with | some (ie, _, _, _) => ofInt 16 ie | none => c.iexp), sxy := if acc then sxy else c.sxy,
      sxx := if acc then sxx else c.sxx, goodRun := if c.phase = .prepare then satAdd c.goodRun 1 else c.goodRun,
      injActive := c.phase = .settle && c.injK < injLen c, sample := none, pSat := false, pInval := false, holding := false }
    let f0 := f.setCtx n c1
    let f1 := { f0 with hel := { f0.hel with viol := if viol then satAdd f0.hel.viol 1 else f0.hel.viol } }
    let violN := if u8 c.ins 29 = 0 then 4 else (u8 c.ins 29).toNat
    if (u8 c.ins 12).toNat ≤ ovN then (f1.loopEntry n (some x)).failIns n 0x1E
    else if armed && 8 ≤ frz.toNat then (f1.loopEntry n (some x)).failIns n 0x1D
    else if violN ≤ vcnt.toNat && viol then (f1.loopEntry n (some x)).failIns n 0x1B
    else if c.phase = .prepare then
      let f2 := f1.loopEntry n (some x)
      if 8 ≤ c1.goodRun.toNat then
        let f3 := (f2.modCtx n (fun c => { c with phase := .ramp, v0 := x.v, tPhase := f.now, k := 0 })).driveGate n
        if vTarget c ≤ x.v.toNat then f3.toSettle n x.v.toNat else f3
      else f2
    else
      let f2 := (f1.runLoop n (trajRef c k + inj) x).loopEntry n (some x)
      if c.phase = .ramp then
        if (if trajVolt c then rampSpan c ≤ rampAt k else vTarget c ≤ x.v.toNat) then f2.toSettle n x.v.toNat else f2
      else
        let thr := vTarget c - leNat c.ins 16 2
        (f2.modCtx n (fun c => { c with tSettled := if thr ≤ x.v.toNat then some (c.tSettled.getD f.now) else none })).settleEnd n
/-- A good sample reaches its context's core (R194, R198); lat is the time from the arrival to the reference, in ticks. -/
def takeSample (f : Field) (n : Nat) (w : Word) (lat : Nat) : Field :=
  match tabLook f.hel.ctx n with
  | none => f
  | some c =>
    let direct := (f.chan c.ch).nev.kind = .direct
    let f1 := { f with hel := { f.hel with
      lateDirect := if direct && c.phase.supervised then satMax f.hel.lateDirect lat else f.hel.lateDirect,
      lateRemote := if !direct && c.phase.supervised then satMax f.hel.lateRemote lat else f.hel.lateRemote } }
    if c.phase.supervised then f1.goodSample n w
    else
      let x := smpOf (f.chan c.ch).nev w
      let f2 := f1.setCtx n { c with
        v := x.v, i := ofInt 16 (sat x.i (-32768) 32767), periods := c.periods + 1, firstGood := some (c.firstGood.getD f.now),
        sample := none, pSat := false, pInval := false }
      f2.capPeriod n (some x)
/-- The deadline of a context's running period (R193): none before its first good sample. -/
def deadline (c : Ctx) : Option Nat :=
  c.firstGood.map (fun t => t.toNat + c.periods.toNat * periodTicks c + periodTicks c / 2)
/-- Has a context's running period passed its deadline with no sample (R193)? -/
def overdue (f : Field) (c : Ctx) : Bool :=
  c.sample.isNone && (match deadline c with | some d => decide (d ≤ f.now.toNat) | none => false)
/-- The sequence number of the cycle that fills a stream's period j: cycles run 25 to a superframe, numbered mod 16 (R193, R262). -/
def periodSeq (c : Ctx) (j : Nat) : Nat := (c.cyc0 + j) % 25 % 16
/-- Does a sample carry the number of a period that has ended: one of the last 8? -/
def pastSeq (c : Ctx) (seq : Nat) : Bool :=
  c.firstGood.isSome && (List.range 8).any (fun i => i + 1 ≤ c.periods.toNat && periodSeq c (c.periods.toNat - (i + 1)) = seq)
/-- A sample that is not good (R193): counted; a sample that R177 judges all the same moves the over-limit count. -/
def badSample (f : Field) (n : Nat) (w : Word) (sound late : Bool) : Field :=
  match tabLook f.hel.ctx n with
  | none => f
  | some c =>
    let x := smpOf (f.chan c.ch).nev w
    let h := f.hel
    let f1 := { f with hel := { h with
      dropLate := if late then satAdd h.dropLate 1 else h.dropLate,
      dropNotGood := if late then h.dropNotGood else satAdd h.dropNotGood 1 } }
    if late then f1
    else
      let judged := sound && !x.inval && c.phase.supervised
      let ovN := if judged then overNext c x else c.overN
      let f2 := f1.setCtx n { c with overN := ovN, goodRun := if c.phase = .prepare then 0 else c.goodRun,
                                     pSat := sound && x.satd, pInval := sound && x.inval }
      if judged && (u8 c.ins 12).toNat ≤ ovN then f2.failIns n 0x1E else f2
/-- The context that streams in a slot of a lane. -/
def ctxOfSlot (f : Field) (l : BitVec 5) (s : BitVec 3) : Option (Nat × Ctx) :=
  f.hel.ctx.find? (fun e => e.2.slot = some (l, s))
/-- MISSING_PERIOD of a context (R193, R197, R209): the running period ends with no good sample. The reference advances; a context
that uses no samples only counts the period. -/
def missingPeriod (f : Field) (n : Nat) : Field :=
  match tabLook f.hel.ctx n with
  | none => f
  | some c =>
    if !f.overdue c then f
    else if c.phase.supervised then
      let looping := c.phase = .ramp || c.phase = .settle
      let m := satAdd c.missCnt 1
      let k := if looping then c.k + 1 else c.k
      let inj := if c.phase = .settle then injAt c c.injK else 0
      let f1 := f.setCtx n { c with
        periods := c.periods + 1, missCnt := m, goodRun := 0, holding := looping, k := k,
        ref := if looping then ofInt 16 (trajRef c k + inj) else c.ref,
        injActive := c.phase = .settle && c.injK < injLen c, injK := if c.phase = .settle then c.injK + 1 else c.injK }
      let f2 := (f1.loopEntry n none).modCtx n (fun k => { k with pSat := false, pInval := false })
      if 2 ≤ m.toNat then (f2.failIns n 0x1C).modCtx n (fun k => { k with lostPend := true })
      else if c.phase = .settle then f2.settleEnd n else f2
    else
      let f1 := f.setCtx n { c with periods := c.periods + 1 }
      (f1.capPeriod n none).modCtx n (fun k => { k with pSat := false, pInval := false })
/-- STREAM_SAMPLE (R193, R275): a sample in slot s of lane l, with its PRE bit, SEQ, word and CRC outcome. A period whose deadline has
passed ends first. A good sample waits for its context's core; the first one starts the periods. One that carries the number of an
ended period is late. -/
def streamSample (f : Field) (l : BitVec 5) (s : BitVec 3) (pre : Bool) (seq : BitVec 4) (w : Word) (crcOk : Bool) : Field :=
  match (if f.mer.holdover then none else f.ctxOfSlot l s) with
  | none => f
  | some (n, c0) =>
    if pre then
      let f1 := if crcOk then f.preSample n w else f
      { f1 with hel := { f1.hel with dropNotGood := satAdd f1.hel.dropNotGood 1 } }
    else
      let f0 := if match deadline c0 with | some d => decide (d < f.now.toNat) | none => false then (f.preClose n).missingPeriod n
        else f.preClose n
      match tabLook f0.hel.ctx n with
      | none => f0
      | some c =>
        let cyc := (f0.lane l).cyc - 1
        let here := seq.toNat = (if c.firstGood.isSome then periodSeq c c.periods.toNat else cyc % 16)
        let sound := crcOk && here && c.sample.isNone
        if crcOk && !here && pastSeq c seq.toNat then f0.badSample n w sound true
        else if sound && !wordSat w && !wordInv w then
          f0.setCtx n { c with sample := some (w, f0.now), firstGood := some (c.firstGood.getD f0.now),
                               cyc0 := if c.firstGood.isSome then c.cyc0 else cyc }
        else f0.badSample n w sound false
/-- Does another sample of the same core wait that arrived earlier (R198)? Samples of DIRECT contexts never wait. -/
def coreBusy (f : Field) (c : Ctx) (t : Count) : Bool :=
  f.hel.ctx.any (fun e => e.2.core = c.core && (match e.2.sample with | some (_, u) => decide (u < t) | none => false))
/-- LOOP_SAMPLE of a remote context: its waiting sample is taken, in the core's order of arrival (R193, R198). -/
def loopSampleRemote (f : Field) (n : Nat) : Field :=
  match tabLook f.hel.ctx n with
  | some c => match c.sample with
    | some (w, t) => if f.coreBusy c t then f else f.takeSample n w (f.now.toNat - t.toNat)
    | none => f
  | none => f

/-- The ramp-off of a context ends: gate off, stream stopped unless a capture keeps it (R180, R212). -/
def rampOffEnd (f : Field) (n : Nat) : Field :=
  match tabLook f.hel.ctx n with
  | none => f
  | some c => match f.directOf c.ch with | some d => f.gateOff d false | none => f.rampOver n
/-- RAMP_OFF_STEP (R209, R212): one period of a ramp-off. -/
def rampOffStep (f : Field) (n : Nat) : Field :=
  match tabLook f.hel.ctx n with
  | none => f
  | some c =>
    if c.phase ≠ .rampOff || f.now.toNat < c.tPhase.toNat + periodTicks c then f
    else
      let t := c.tPhase + BitVec.ofNat 64 (periodTicks c)
      if c.lostPend then f.setCtx n { c with lostPend := false, tPhase := t }
      else
        let g := c.gOut.toNat - rampOff (activeBank c)
        let f1 := f.setCtx n { c with gOut := BitVec.ofNat 12 g, tPhase := t }
        if g = 0 then f1.rampOffEnd n else f1.driveGate n

/-! ### Timeouts (R171, R175, R176, R180) -/

/-- QUEUE_TO of a channel's profile, in ticks. -/
def queueTo (f : Field) (x : BitVec 17) : Nat := leNat (f.profOf x) 198 2 * 1000000
/-- QUEUE_TIMEOUT of a channel (R171). -/
def queueTimeout (f : Field) (x : BitVec 17) : Field :=
  match f.hel.queue.find? (fun e => e.ch = x) with
  | some e => if 0 < f.queueTo x && f.queueTo x ≤ f.now.toNat - e.tJoin.toNat
    then (f.countFail 0x18).tripChan x 0x18 else f
  | none => f
/-- After a rewrite or a rebinding of the profile of channels that p holds of, their entries whose QUEUE_TO has been reached leave at
once (R171). -/
def queueRecheck (f : Field) (p : BitVec 17 → Bool) : Field :=
  (f.hel.queue.filter (fun e => p e.ch)).foldl (fun (g : Field) e => g.queueTimeout e.ch) f
/-- The insertion of a channel in a phase, by context. A timeout waits while a sample that has arrived or a period that has gone
missing may bring an earlier ending of R211. -/
def insIn (f : Field) (x : BitVec 17) (p : Phase) : Option (Nat × Ctx) :=
  match f.insCtx x with
  | some (n, c) =>
    if c.phase = p && (f.chan x).nev.state = .inserting && !(p.supervised && (c.sample.isSome || f.overdue c)) then some (n, c)
    else none
  | none => none
/-- STREAM_FAIL (R175): PREPARE exceeds PREP_TO. -/
def streamFail (f : Field) (x : BitVec 17) : Field :=
  match f.insIn x .prepare with
  | some (n, c) =>
    let prepTo := if leNat c.ins 20 2 = 0 then 20 else leNat c.ins 20 2
    if c.tPhase.toNat + prepTo * 10000 ≤ f.now.toNat then f.failIns n 0x19 else f
  | none => f
/-- RAMP_TIMEOUT (R176). -/
def rampTimeout (f : Field) (x : BitVec 17) : Field :=
  match f.insIn x .ramp with
  | some (n, c) =>
    let pct := if leNat c.ins 24 2 = 0 then 200 else leNat c.ins 24 2
    let t := if trajVolt c then rampTicks c else leNat c.ins 4 2 * 1000
    if c.tPhase.toNat + t * pct / 100 ≤ f.now.toNat then f.failIns n 0x1A else f
  | none => f
/-- SETTLE_FAIL (R180): SETTLE exceeds 4 x SETTLE, or HANDOVER 1 ms. -/
def settleFail (f : Field) (x : BitVec 17) : Field :=
  match f.insIn x .settle with
  | some (n, c) => if c.tPhase.toNat + 4 * leNat c.ins 18 2 * 1000 ≤ f.now.toNat then f.failIns n 0x1F else f
  | none => match f.insIn x .handover with
    | some (n, c) => if c.tPhase.toNat + 100000 ≤ f.now.toNat then f.failIns n 0x1F else f
    | none => f
/-- CAPTURE_WAIT_EXPIRY (R232): the oldest capture that has waited 100 ms is dropped. -/
def captureWaitExpiry (f : Field) : Field :=
  match f.firn.capWait with
  | w :: r => if w.t.toNat + 10000000 ≤ f.now.toNat
    then ({ f with firn := { f.firn with capWait := r } }).capNoCtx w else f
  | [] => f

end Field
end Sys2Proof.Machine
end

