-- ==== Sys2Proof/Machine/LaneRx.lean ====
section
/-! DEFINITION. What a lane receiver makes of the characters it meets (10): the innermost open unit takes each character, a unit that
ends resumes the one it interrupted, and a misused character or a start of no higher level ends a unit as broken (R255 to R257, R516). -/
namespace Sys2Proof.Machine

/-- The units of a lane (10, unit levels). -/
inductive UKind where
  | ordinary | reserve | cycle | express | allOpen
  deriving DecidableEq, Repr
/-- The level of a unit. -/
def UKind.level : UKind → Nat
  | .ordinary | .reserve => 0
  | .cycle => 1
  | .express => 2
  | .allOpen => 3

/-- A unit that is being collected. -/
structure OpenUnit where
  kind : UKind
  /-- Its characters so far, the last first; a reserve block collects none. -/
  got : Bytes
  /-- Its second character was K28.5: a telemetry frame. -/
  tele : Bool
  /-- A nested stream command (R516), and a K27.7 met in a frame, of which the next character tells whether it starts one. -/
  nested : Bool
  tent : Bool
  deriving DecidableEq, Repr
/-- A receiver: the open units, innermost first, the ordinary frames and express copies that broke, and the ordinary frames collected,
each with whether it is a telemetry frame. -/
structure LaneRx where
  opened : List OpenUnit
  ord : Nat
  exp : Nat
  done : List (Bool × Bytes)
  deriving DecidableEq, Repr

namespace LaneRx

/-- A unit starts with its first character. -/
def start (r : LaneRx) (k : UKind) (b : Byte) (tent : Bool) : LaneRx :=
  { r with opened := { kind := k, got := if k = UKind.reserve then [] else [b], tele := false, nested := false, tent := tent } :: r.opened }
/-- The innermost unit is broken (R257). -/
def broken (r : LaneRx) : LaneRx :=
  match r.opened with
  | [] => r
  | u :: us =>
    { r with opened := us, ord := if u.kind = .ordinary then r.ord + 1 else r.ord,
             exp := if u.kind = .express || u.kind = .allOpen then r.exp + 1 else r.exp }
/-- The innermost unit is complete. -/
def complete (r : LaneRx) : LaneRx :=
  match r.opened with
  | [] => r
  | u :: us => { r with opened := us, done := if u.kind = .ordinary then r.done ++ [(u.tele, u.got.reverse)] else r.done }
/-- The characters of a unit once it is whole, as its own say (10, unit levels): 284 for a telemetry frame, 10 + LEN for any other
ordinary frame, 13 + 7 for each slot of VALID for a cycle, 12 for an express frame. -/
def whole (u : OpenUnit) : Option Nat :=
  let b := u.got.reverse
  match u.kind with
  | .ordinary => if u.tele then some 284 else if 5 ≤ b.length then some (10 + (u8 b 4).toNat) else none
  | .cycle => if 3 ≤ b.length then some (13 + 7 * (List.range 6).countP (fun i => bit (u8 b 2) i)) else none
  | .express | .allOpen => some 12
  | .reserve => none
/-- The innermost unit collects a character; eof: it is the end character of its kind. A unit of full length without one is broken,
but for those that have none. -/
def put (r : LaneRx) (b : Byte) (eof : Bool) : LaneRx :=
  match r.opened with
  | [] => r
  | u :: us =>
    let v := { u with got := b :: u.got }
    let r1 := { r with opened := v :: us }
    let full := whole v = some v.got.length
    if eof then (if full then r1.complete else r1.broken)
    else if full then (if v.tele || v.kind = .cycle then r1.complete else r1.broken)
    else r1
/-- A reserve block lies under the open units. -/
def inReserve (r : LaneRx) : Bool := r.opened.any (fun u => u.kind = .reserve)
/-- A K27.7 met in a frame was the start of a nested stream command if its TYPE says so; else the frame it met is broken (R516). -/
def settle (r : LaneRx) (data : Bool) (b : Byte) : LaneRx :=
  match r.opened with
  | u :: w :: us =>
    if !u.tent then r
    else if data && (b = 0x20 || b = 0x21) then { r with opened := { u with nested := true, tent := false } :: w :: us }
    else { r with opened := { u with tent := false } :: us, ord := r.ord + 1 }
  | _ => r
/-- A control character (R255 to R257); n bounds the units that it ends. -/
def control (b : Byte) : Nat → LaneRx → LaneRx
  | 0, r => r
  | n + 1, r =>
    match r.opened with
    | [] =>
      if b = 0xFB then r.start .ordinary b false
      else if b = 0x3C then r.start .express b false
      else if b = 0x7C then r.start .allOpen b false
      else if b = 0x5C then r.start .cycle b false
      else if b = 0x1C then r.start .reserve b false
      else r
    | u :: _ =>
      let above (k : UKind) : LaneRx := if u.kind.level < k.level then r.start k b false else control b n r.broken
      if b = 0xFB then
        if u.kind = .reserve then r.start .ordinary b false
        else if u.kind = .ordinary && !u.nested && r.inReserve then r.start .ordinary b true
        else control b n r.broken
      else if b = 0x3C then above .express
      else if b = 0x7C then above .allOpen
      else if b = 0x5C then above .cycle
      else if b = 0xFD then if u.kind = .ordinary && !u.tele then r.put b true else r.broken
      else if b = 0xF7 then if u.kind = .express || u.kind = .allOpen then r.put b true else r.broken
      else if b = 0x9C then
        if u.kind = .reserve then r.complete
        else if u.kind = .ordinary && r.inReserve then control b n r.broken
        else r.broken
      else if b = 0x1C then if u.kind = .reserve then r else if u.kind = .cycle && 13 ≤ u.got.length then r.put b false else r.broken
      else if b = 0xDC then if u.kind = .cycle && 13 ≤ u.got.length then r.put b false else r.broken
      else if b = 0xBC then
        if u.kind = .reserve then r
        else if u.kind = .ordinary && u.got.length = 1 && !u.nested then
          { r with opened := { u with got := b :: u.got, tele := true } :: r.opened.drop 1 }
        else r.broken
      else r.broken
/-- A receiver meets a character. -/
def step (r : LaneRx) (c : LChar) : LaneRx :=
  let r1 := r.settle (!c.k) c.b
  if c.k then control c.b (r1.opened.length + 1) r1
  else match r1.opened with
    | [] => r1
    | u :: _ => if u.kind = .reserve then r1.broken else r1.put c.b false

end LaneRx

/-- What a receiver makes of a run of characters that meets it inside a reserve block; a frame it leaves unfinished is broken. -/
def receive (cs : List LChar) : LaneRx :=
  let r := cs.foldl LaneRx.step
    { opened := [{ kind := .reserve, got := [], tele := false, nested := false, tent := false }], ord := 0, exp := 0, done := [] }
  (List.range r.opened.length).foldl (fun (q : LaneRx) _ => q.broken) r
/-- The characters of a telemetry frame: its first two are control characters. -/
def teleChars (b : Bytes) : List LChar := (b.take 2).map (fun x => ⟨true, x⟩) ++ (b.drop 2).map (fun x => ⟨false, x⟩)
/-- The characters of any other ordinary frame: its first and last are control characters. -/
def frameChars (b : Bytes) : List LChar :=
  (b.take 1).map (fun x => ⟨true, x⟩) ++ ((b.drop 1).take (b.length - 2)).map (fun x => ⟨false, x⟩)
    ++ (b.drop (b.length - 1)).map (fun x => ⟨true, x⟩)

end Sys2Proof.Machine
end

