-- ==== Sys2Proof/Machine/Metering.lean ====
section
/-! DEFINITION. Energy totals and their images, demand, history records and the telemetry table
(08_metering_history_capture). -/
namespace Sys2Proof.Machine
namespace Field

/-! ### Energy (R216 to R222) -/

/-- The ELSB a channel is metered in: its own, or for a mirroring VIRTUAL channel its source's (R216); 0 for none. -/
def elsbOf (f : Field) (x : BitVec 17) : BitVec 32 :=
  let c := f.chan x
  if c.nev.kind = .virt then (match c.fr.mirror with | some s => (f.chan s).fr.elsb | none => 0) else c.fr.elsb
/-- The channels that a point's or direct channel's counts reach: the bound channel and its mirror, where metered
(R216; log entry 31). -/
def metered (f : Field) (x : BitVec 17) : List (BitVec 17) :=
  (x :: ((f.existing.find? (fun e => e.2.fr.mirror = some x)).map (·.1)).toList).filter (fun y => f.elsbOf y ≠ 0)
/-- Add counts to a channel's totals and running interval (R218, R224), and write codewords 2 to 4 of its record (R349). -/
def addCounts (f : Field) (x : BitVec 17) (di de : Nat) : Field :=
  (f.modMet x (fun m => { m with
    imp := m.imp + BitVec.ofNat 64 di, exp := m.exp + BitVec.ofNat 64 de, runImp := satAdd m.runImp di,
    runExp := satAdd m.runExp de, tApplied := f.now })).writeMeter x
/-- What a report does to one channel (R218): it is applied, or asks for a baseline or a resynchronisation. -/
inductive Verdict where
  | apply
  | base
  | resync (suspect : Bool)
  deriving DecidableEq, Repr
/-- The judgement of R218 on a report of two 16-bit counters. -/
def judge (f : Field) (m : Meter) (ri re : BitVec 16) : Verdict :=
  let di := ri - m.imgImp.setWidth 16
  let de := re - m.imgExp.setWidth 16
  match m.sync with
  | .first | .baseWait => .base
  | .resyncDue | .resyncWait => .resync false
  | .ok =>
    if 61440 < di.toNat || 61440 < de.toNat then .resync true
    else if 15 < (f.nev.sfCount - m.lastSf) / 16 then .resync false
    else .apply
/-- Apply a report's verdict to one channel. -/
def applyReport (f : Field) (x : BitVec 17) (ri re : BitVec 16) : Field :=
  let m := (f.chan x).met
  let di := ri - m.imgImp.setWidth 16
  let de := re - m.imgExp.setWidth 16
  match f.judge m ri re with
  | .apply =>
    (f.modMet x (fun m => { m with
      imgImp := m.imgImp + di.setWidth 48, imgExp := m.imgExp + de.setWidth 48, lastSf := f.nev.sfCount })).addCounts x
        di.toNat de.toNat
  | .base => f.modMet x (fun m => { m with sync := .baseWait })
  | .resync _ => f.modMet x (fun m => { m with sync := .resyncWait })
/-- The reserve that an answer fills (10, command set). -/
def reserveBytes (n : Nat) : Bytes := List.replicate n 0x1C ++ [0x9C]
/-- ENERGY_READ leaves for a point with the reserve of its answer (10, command set), and waits for that; or it waits for characters. -/
def energyRead (f : Field) (l : BitVec 5) (pos pt : BitVec 6) : Field :=
  let v := f.lane l
  let held := f.setLane l { v with eHeld := v.eHeld ++ [(pos, pt)] }
  match endOf v pos with
  | some e =>
    if !f.mer.holdover && f.wireFree l e && f.fits l e 36 (pollRoom v e) then
      (f.setLane l { v with eReads := v.eReads ++ [(pos, pt, f.nev.sfCount)] }).emit
        (.lane l e (ordinaryBytes 0x28 (pos.setWidth 8) 0 [pt.setWidth 8] ++ reserveBytes 24))
    else held
  | none => held
/-- A report for the point of a channel (R218, R219): none is applied while Firn is not READY (R343) or an answer is
awaited. -/
def report16 (f0 : Field) (x : BitVec 17) (ri re : BitVec 16) : Field :=
  let ts := f0.metered x
  let f := f0.each ts (fun g y => g.readMeter y)
  let waits := ts.any (fun y => (f.chan y).met.sync = .baseWait || (f.chan y).met.sync = .resyncWait)
  if !f.firnOn || waits then f
  else
    let vs := ts.map (fun y => f.judge (f.chan y).met ri re)
    let res := vs.any (fun v => v = .resync false || v = .resync true)
    let f1 := ts.foldl (fun (g : Field) y => g.applyReport y ri re) f
    let f2 := { f1 with firn := { f1.firn with
      resync := if res then satAdd f1.firn.resync 1 else f1.firn.resync,
      suspect := if vs.contains (.resync true) then satAdd f1.firn.suspect 1 else f1.firn.suspect } }
    if vs.any (· ≠ .apply) then
      match f2.pointOf x with
      | some (l, pos, pt, _) => f2.energyRead l pos pt
      | none => f2
    else f2
/-- A full read of a point's counters for one channel (R219). -/
def takeImages (f : Field) (x : BitVec 17) (ni ne : BitVec 48) : Field :=
  let m := (f.chan x).met
  let set (g : Field) : Field :=
    g.modMet x (fun m => { m with imgImp := ni, imgExp := ne, sync := .ok, lastSf := f.nev.sfCount })
  match m.sync with
  | .baseWait => set f
  | .resyncWait => (set f).addCounts x (ni - m.imgImp).toNat (ne - m.imgExp).toNat
  | _ => f
/-- An energy answer (R219): 14 payload bytes from a position of a lane. -/
def takeEnergy (f : Field) (l : BitVec 5) (pos : BitVec 6) (b : Bytes) : Field :=
  let v := f.lane l
  let pt : BitVec 6 := BitVec.ofNat 6 (u8 b 0).toNat
  if !v.eReads.any (fun r => r.1 = pos && r.2.1 = pt) then f
  else
    let f1 := f.setLane l { v with eReads := v.eReads.filter (fun r => !(r.1 = pos && r.2.1 = pt)) }
    match tabLook v.os pos.toNat with
    | none => f1
    | some o =>
      match f1.existing.find? (fun e => match e.2.fr.bind with | .point _ _ q i => i = o.id && q = pt | _ => false) with
      | none => f1
      | some (x, _) =>
        if !f1.firnOn then f1
        else (f1.metered x).foldl (fun (g : Field) y =>
          (g.readMeter y).takeImages y (BitVec.ofNat 48 (leNat b 2 6)) (BitVec.ofNat 48 (leNat b 8 6))) f1
/-- The counts that the ADC subsystem hands over at a CMP0 mark (R220); they are held while Firn is not READY (R343). -/
def directCounts (f : Field) (x : BitVec 17) (di de : Nat) : Field :=
  (f.metered x).foldl (fun (g : Field) y =>
    if f.firnOn then (g.readMeter y).addCounts y di de
    else g.modMet y (fun m => { m with heldImp := m.heldImp + di, heldExp := m.heldExp + de })) f
/-- Firn is READY again: held counts are added, and every metered remote channel's next report starts a
resynchronisation, or the baseline it still wants (R343). -/
def meterReady (f : Field) : Field :=
  f.existing.foldl (fun (g : Field) e =>
    let m := e.2.met
    let g1 := if m.heldImp = 0 && m.heldExp = 0 then g
      else ((g.readMeter e.1).addCounts e.1 m.heldImp m.heldExp).modMet e.1 (fun k => { k with heldImp := 0, heldExp := 0 })
    g1.modMet e.1 (fun k => { k with sync := match k.sync with
      | .first | .baseWait => .first
      | .resyncDue | .resyncWait | .ok => .resyncDue })) f
/-- The channels of an identity resynchronise at their next report: its outstation returns from unreachable (R219). -/
def meterReturn (f : Field) (id : BitVec 64) : Field :=
  let xs := f.select (fun c => match c.fr.bind with | .point _ _ _ i => i = id | _ => false)
  f.each xs (fun g x => (g.metered x).foldl (fun (k : Field) y =>
    k.modMet y (fun m => { m with sync := match m.sync with
      | .first | .baseWait => .first
      | .resyncDue | .resyncWait | .ok => .resyncDue })) g)
/-- EFLAGS (R226). -/
def eflags (m : Meter) (final : Bool) : Nat :=
  (if final then 1 else 0) + (if m.partialLast then 2 else 0) + (if m.sync = .resyncWait then 4 else 0)
    + (if m.setByHost then 8 else 0)
/-- The energy record (R226). -/
def energyRecord (h elsb : Word) (m : Meter) (final : Bool) : Bytes :=
  le 4 h ++ le 4 elsb ++ le 8 m.imp ++ le 8 m.exp ++ le 8 m.tApplied ++ le 4 m.demImp ++ le 4 m.demExp ++ le 4 m.demPeak
    ++ toLe (eflags m final) 4 ++ le 8 m.tDemEnd ++ le 8 m.tPeak

/-! ### Demand (R224, R225) -/

/-- Ticks of a demand interval: 900 s. -/
def demandTicks : Nat := 90000000000
/-- Station time (12). -/
def station (f : Field) : Count := f.mer.count + f.mer.sto
/-- The running interval of a channel ends at count t; step: at a step of station time. -/
def demandClose (t : Count) (step : Bool) (m : Meter) : Meter :=
  let short := m.short || step
  let rise := !short && m.demPeak < m.runImp
  { m with demImp := m.runImp, demExp := m.runExp, demPeak := if rise then m.runImp else m.demPeak,
           tPeak := if rise then t else m.tPeak, tDemEnd := t, partialLast := short, runImp := 0, runExp := 0, short := step }
/-- The running interval of every channel ends. -/
def demandEnd (f : Field) (t : Count) (step : Bool) : Field :=
  let f1 := f.each (f.select (fun _ => true)) (fun g x => ((g.readMeter x).modMet x (demandClose t step)).writeMeter x)
  { f1 with firn := { f1.firn with demIdx := f1.station.toNat / demandTicks } }
/-- DEMAND_INTERVAL_END (R224): station time has reached a multiple of 900 s. While the core stands still no interval ends (R451). -/
def demandIntervalEnd (f : Field) : Field :=
  let s := f.station.toNat
  if !f.coreOn || s / demandTicks = f.firn.demIdx then f
  else f.demandEnd (f.now - BitVec.ofNat 64 (s % demandTicks)) false
/-- A warm reset or STANDBY makes the running interval short (R225). -/
def demandShort (f : Field) : Field := f.each (f.select (fun _ => true)) (fun g x => g.modMet x (fun m => { m with short := true }))
/-- After a warm reset or STANDBY: the interval in which it began is short, and where its end fell meanwhile it ends there and the
interval that runs now is short too (R225; log entry 119). -/
def demandResume (f : Field) : Field := ((f.demandShort).demandIntervalEnd).demandShort

/-! ### History (R227 to R229, R38 to R41) -/

/-- Does a channel receive updates: bound, or a mirror with a source? -/
def receives (c : Chan) : Bool := c.nev.kind ≠ .virt || c.fr.mirror.isSome
/-- The record of a channel's interval. -/
def histRec (f : Field) (c : Chan) (span : Nat) (merged : Bool) : HistRec :=
  let h := c.hist
  let none? := h.fresh = 0
  let mean (s : Nat) : Nat := (rdiv s h.fresh).toNat
  { tEnd := f.now, iMin := if none? then 0 else h.iMin, iMax := if none? then 0 else h.iMax,
    iMean := if none? then 0 else BitVec.ofNat 16 (mean h.iSum), vMin := if none? then 0 else h.vMin,
    vMax := if none? then 0 else h.vMax, vMean := if none? then 0 else BitVec.ofNat 12 (mean h.vSum),
    fresh := BitVec.ofNat 32 h.fresh, span := BitVec.ofNat 32 span, state := c.nev.state,
    hflags := BitVec.ofNat 8 ((if merged then 1 else 0) + (if h.gap then 2 else 0) + (if h.exportSeen then 4 else 0)
      + (if h.satSeen then 8 else 0) + (if h.stateChanged then 16 else 0) + (if h.restart then 32 else 0)
      + (if none? then 64 else 0)),
    seq := c.fr.hseq }
/-- The 32 bytes of a history record (R227). -/
def histBytes (r : HistRec) : Bytes :=
  le 8 r.tEnd ++ le 2 r.iMin ++ le 2 r.iMax ++ le 2 r.iMean ++ le 2 r.vMin ++ le 2 r.vMax ++ le 2 r.vMean ++ le 4 r.fresh
    ++ le 4 r.span ++ [BitVec.ofNat 8 r.state.code, r.hflags] ++ le 2 r.seq
/-- The Firn codeword of a history record (R348). -/
def histCw (f : Field) (x : BitVec 17) (seq : BitVec 16) : Nat :=
  let n := 2 ^ f.firn.depth.toNat
  (0x10000000 + (x.toNat * n + seq.toNat % n) * 32) / 32
/-- The interval of a channel starts again. -/
def histClear (h : Hist) : Hist := { Hist.empty with ring := h.ring }
/-- One channel's record is written, and its interval starts again; where none is written, a RESTART waits for the next (R228). -/
def histWrite (f : Field) (x : BitVec 17) (span : Nat) (merged : Bool) : Field :=
  let c := f.chan x
  if bit (u8 (f.prof c.nev.profile) 240) 0 && receives c && f.firn.depth ≠ 0 && f.firnOn then
    let ring := c.hist.ring ++ [f.histRec c span merged]
    let cut := ring.drop (ring.length - 2 ^ f.firn.depth.toNat)
    let f1 := f.modChan x (fun c => { c with hist := { histClear c.hist with ring := cut }, fr := { c.fr with hseq := c.fr.hseq + 1 } })
    let f2 := (f1.heal1 (f.histCw x c.fr.hseq)).heal2 x 1
    { f2 with firn := { f2.firn with histWritten := satAdd f2.firn.histWritten 1 } }
  else f.modHist x (fun h => { histClear h with restart := h.restart })
/-- Every channel's record is written, over the superframes since the last ones, with the present count as T_END; R40 and R41 do not
say which mark T_END is where an exit or the close of a span falls between two marks (log entry 119). -/
def histAll (f : Field) (merged : Bool) : Field :=
  let span := f.firn.histSf
  let f1 := f.each (f.select (fun _ => true)) (fun g x => g.histWrite x span merged)
  { f1 with firn := { f1.firn with histSf := 0 } }
/-- Superframes of a history interval: 2,000, or 4,000 under shedding step 1 (R37, R227). -/
def histLen (f : Field) : Nat := if f.pwr.step1 then 4000 else 2000
/-- The CMP0 mark's part in history (R227): the interval may end, unless step 2 defers the write (R38). The superframes run so far
are held against the length that now applies, so an interval in which step 1 begins or ends takes the new length; R37 does not say
which length it has (log entry 119). -/
def histMark (f : Field) : Field :=
  let f1 := { f with firn := { f.firn with histSf := f.firn.histSf + 1 } }
  if f1.pwr.step2 || f1.firn.histSf < f1.histLen then f1 else f1.histAll false
/-- DEFER_SPAN_CLOSE (R41): after 65,535 s of step 2 the span is closed, and the deferral goes on. -/
def deferSpanClose (f : Field) : Field :=
  if f.pwr.step2 && f.pwr.tSpan.toNat + 6553500000000 ≤ f.now.toNat then
    let f1 := f.histAll true
    { f1 with pwr := { f1.pwr with tSpan := f1.pwr.tSpan + 6553500000000 } }
  else f
/-- A warm reset discards the interval in progress; the first record after it has RESTART (R228). -/
def histRestart (f : Field) : Field :=
  let f1 := f.each (f.select (fun _ => true)) (fun g x => g.modHist x (fun h => { histClear h with restart := true }))
  { f1 with firn := { f1.firn with histSf := 0 } }
/-- HIST_CFG_WRITE (R229): a depth that fits empties every ring, any other sets FIT_ERR. -/
def histCfgWrite (f : Field) (v : Word) : Field :=
  let d : BitVec 5 := bits v 0 5
  let fits := d = 0 || (8 ≤ d.toNat && d.toNat ≤ 16 && 4 * 2 ^ d.toNat ≤ f.firn.capGib.toNat * 1024 - 256)
  if fits then
    let f1 := f.each (f.select (fun _ => true)) (fun g x => g.modHist x (fun h => { h with ring := [] }))
    { f1 with firn := { f1.firn with depth := d, fitErr := false } }
  else { f with firn := { f.firn with fitErr := true } }

/-! ### Captures as bytes (R233) -/

/-- The 64-byte header of a slot. -/
def slotHeader (s : Slot) : Bytes :=
  le 4 s.handle ++ [BitVec.ofNat 8 s.kind.code,
    (if s.trunc then 1 else 0) + (if s.aborted then 2 else 0) + (if s.preShort then 4 else 0)] ++ le 2 (s.cause.setWidth 16)
    ++ le 8 s.tTrigger ++ toLe s.rate 4 ++ toLe s.npre 2 ++ zeros 2 ++ toLe s.ents.length 4 ++ zeros 36
/-- The 8 bytes of a sample entry. -/
def entBytes (e : CapEnt) : Bytes :=
  le 2 e.ref ++ le 2 (e.v.setWidth 16) ++ le 2 e.i
    ++ toLe (e.g.toNat + (if e.missing then 4096 else 0) + (if e.pre then 8192 else 0) + (if e.satd then 16384 else 0)
      + (if e.inval then 32768 else 0)) 2
/-- A slot's content. -/
def slotBytes (s : Slot) : Bytes := slotHeader s ++ (s.ents.map entBytes).flatten

/-! ### The telemetry table (R234, R235) -/

/-- The 8 bytes of a telemetry entry; a FREE index gives 0. -/
def tlmEntry (f : Field) (i : Nat) : Bytes :=
  let e := (f.chan (BitVec.ofNat 17 i)).nev
  if e.state = .free then zeros 8
  else le 2 e.iLast ++ toLe (e.vLast.toNat + e.status.toNat * 4096) 2
    ++ [BitVec.ofNat 8 (e.state.code + (if e.dir then 8 else 0) + (if e.staleRaised then 16 else 0) + (if e.disRaised then 32 else 0)),
      e.pickup.setWidth 8, e.sfnLow, e.miss.setWidth 8]
/-- The message of one posted write to host memory. -/
def hwriteMsg (p : Part) (addr : Nat) (b : Bytes) : Msg :=
  { type := 0x83, part := p.setWidth 8, tag := 0, payload := toLe addr 8 ++ toLe b.length 2 ++ zeros 2 ++ b }
/-- Write the table of a partition: SEQ odd, the header with its reserved bytes 0 (R13) and every entry, T_END, and SEQ plus 1
(R234). -/
def publish (f : Field) (p : Part) (base : BitVec 64) (first count : Nat) : Field :=
  let a := base.toNat
  let n := min count (131072 - first)
  let s := tabGet 0 f.prt.pubSeq p.toNat
  let odd : BitVec 32 := s + 1
  let head := le 4 odd ++ toLe first 4 ++ toLe n 4 ++ zeros 4 ++ le 8 f.now
  let body := ((List.range n).map (fun i => f.tlmEntry (first + i))).flatten
  let f1 := (f.sendData (hwriteMsg p a head)).1
  let rest := zeros 32 ++ body
  let f2 := hwrites p (a + 32) (rest.length / 468 + 1) rest f1
  let f3 := (f2.sendData (hwriteMsg p (a + 24) (le 8 f2.now))).1
  let r := f3.sendData (hwriteMsg p a (le 4 (odd + 1)))
  { r.1 with prt := { r.1.prt with pubSeq := tabSet 0 r.1.prt.pubSeq p.toNat (odd + 1),
                                   pubLast := tabPut r.1.prt.pubLast p.toNat r.2 } }
/-- A publication to a partition has not finished: its last message is not yet covered by an ACK (R235). -/
def publishing (f : Field) (p : Part) : Bool :=
  match tabLook f.prt.pubLast p.toNat with
  | some q => f.trn.dat.kept.any (fun k => k.1 = q)
  | none => false

end Field
end Sys2Proof.Machine
end

