-- ==== Sys2Proof/Machine/Lanes.lean ====
section
/-! DEFINITION. The lane engines (09, 10): states, breaks and heals, enumeration, missing outstations, health polls, telemetry
frames, numbered commands, stream cycles and the superframe mark of a lane. -/
namespace Sys2Proof.Machine
namespace Field

/-! ### Names of outstations and channels -/

/-- The channels bound to an identity. -/
def chansOf (f : Field) (id : BitVec 64) : List (BitVec 17) :=
  f.select (fun c => match c.fr.bind with | .point _ _ _ i => i = id | _ => false)
/-- Change the outstation enumerated at a position. -/
def modOs (f : Field) (l : BitVec 5) (pos : Nat) (g : Outst → Outst) : Field :=
  match tabLook (f.lane l).os pos with
  | some o => f.modLane l (fun v => { v with os := tabPut v.os pos (g o) })
  | none => f
/-- A newly enumerated outstation. -/
def newOs (id : BitVec 64) (npts : BitVec 7) : Outst :=
  { id := id, npts := npts, missing := false, missCnt := 0, seenA := false, seenB := false, judged := false, present := 0,
    switched := 0, healthy := false, pollDue := false }
/-- Ends that head a chain (R240): A, and in SPLIT end B too while WEST_VALID is 1. -/
def heads (v : Lane) : List Bool :=
  if v.st = .ring then [false] else if v.st = .split then [false] ++ (if v.westValid then [true] else []) else []
/-- Ends from which an enumeration starts: each that heads a chain (R248), after TRAIN without a loop each locked one (R242). -/
def enumEnds (v : Lane) (locked : Bool) : List Bool :=
  if locked && v.st = .split then (if v.lockA then [false] else []) ++ (if v.lockB then [true] else []) else heads v

/-! ### Missing outstations (R250, R66) -/

/-- The channels of an identity enter FALLBACK: its outstation is declared missing (R66). -/
def fallbackId (f : Field) (id : BitVec 64) : Field :=
  f.each (f.chansOf id) (fun g x => (g.toFallback x).modAux x (fun a =>
    { a with osMissing := true, healthTaken := false, fbOpened := false }))
/-- An enumerated outstation is declared missing (R250). -/
def declareMissing (f : Field) (l : BitVec 5) (pos : Nat) : Field :=
  match tabLook (f.lane l).os pos with
  | some o => if o.missing then f
      else (f.modOs l pos (fun o => { o with missing := true, missCnt := 0 })).fallbackId o.id
  | none => f
/-- Every enumerated outstation of a lane that p holds for is declared missing. -/
def declareAll (f : Field) (l : BitVec 5) (p : Nat → Bool) : Field :=
  ((f.lane l).os.map (·.1)).foldl (fun (g : Field) k => if p k then g.declareMissing l k else g) f

/-! ### States (R242) -/

/-- A LANE_STATE event for every partition (R242). -/
def laneEvent (f : Field) (l : BitVec 5) (old new : LaneState) : Field :=
  f.raiseAll 0x28 [l.setWidth 8, BitVec.ofNat 8 old.code, BitVec.ofNat 8 new.code]
/-- Frames queued for the outstations of a lane are discarded; an open command whose frame is discarded completes
(log entry 32). -/
def discardQueued (f : Field) (l : BitVec 5) : Field :=
  ((f.lane l).os.map (fun e => e.2.id)).foldl (fun (g : Field) id =>
    let k := g.link id
    k.wait.foldl (fun (h : Field) u => match u.ref with | some r => h.done r | none => h) (g.setLink id { k with wait := [] }))
    (f.modLane l (fun v => { v with exq := [], pollQ := [], eHeld := [] }))
/-- Entry into RING, SPLIT or ISOLATED: the state, its count and its event. -/
def enterLane (f : Field) (l : BitVec 5) (new : LaneState) : Field :=
  let v := f.lane l
  (f.setLane l { v with
    st := new, tState := f.now, loopTicks := 0, healAsked := false,
    splits := if new = .split then satAdd v.splits 1 else v.splits }).laneEvent l v.st new
/-- An enumeration is asked for: it starts with the next mark, or after the COMMIT of a running one (09, enumeration
triggers). -/
def startEnum (f : Field) (l : BitVec 5) (locked : Bool) : Field :=
  f.modLane l (fun v =>
    if v.enumPh = .idle then { v with enumPh := .pending locked, enumAns := [] } else { v with enumHeld := true })
/-- RING or SPLIT goes to ISOLATED once every enumerated outstation is missing and neither receiver is locked (R242). -/
def isolate (f : Field) (l : BitVec 5) : Field :=
  let v := f.lane l
  if laneUp v && !v.lockA && !v.lockB && v.os.all (fun e => e.2.missing) then
    (f.discardQueued l).enterLane l .isolated
  else f
/-- A split trigger in RING (R246). -/
def split (f : Field) (l : BitVec 5) : Field :=
  if (f.lane l).st = .ring then f.enterLane l .split else f
/-- Training begins; what LANE_BREAK records stays, since only a heal clears it (R247). -/
def train (f : Field) (l : BitVec 5) : Field :=
  f.modLane l (fun v => { v with st := .train, tState := f.now, loopTicks := 0, loopSeen := false, loopRun := 0 })
/-- TRAIN goes to RING with both receivers locked and the loop seen within 10 ms. -/
def trainLoop (f : Field) (l : BitVec 5) (ticks : BitVec 16) : Field :=
  let v := f.lane l
  if v.st = .train && v.lockA && v.lockB && v.loopSeen && f.now.toNat ≤ v.tState.toNat + 1000000 then
    ((f.enterLane l .ring).modLane l (fun v => { v with loopTicks := ticks })).startEnum l false
  else f

/-- A lane becomes DISABLED, and its outstations missing (R242). -/
def laneOff (f : Field) (l : BitVec 5) : Field :=
  if (f.lane l).st = .disabled then f.modLane l (fun v => { v with en := false })
  else
    let f1 := (f.discardQueued l).declareAll l (fun _ => true)
    f1.modLane l (fun v => { v with en := false, st := .disabled, tState := f.now, loopTicks := 0, enumPh := .idle, enumAns := [],
                                    enumHeld := false, polls := [], pollQ := [], eReads := [], eHeld := [] })
/-- LANE_ENABLE: EN of LANE_CTRL, for COMMISSIONER (R242); in RETURNED every lane stays DISABLED (R477). -/
def laneEnable (f : Field) (p : Part) (l : BitVec 5) (en : Bool) : Field :=
  if !f.commissioner p then f
  else if en then
    (if (f.lane l).st = .disabled && f.sec.life ≠ 4 then (f.modLane l (fun v => { v with en := true })).train l else f)
  else f.laneOff l
/-- REENUM of LANE_CTRL (R249). -/
def reenum (f : Field) (p : Part) (l : BitVec 5) : Field :=
  if f.commissioner p && laneUp (f.lane l) then f.startEnum l false else f
/-- The break has mended: the first condition of R247. -/
def mended (v : Lane) : Bool :=
  if v.eastValid || v.westValid then (!v.eastValid || v.restEast) && (!v.westValid || v.restWest)
  else v.lockA && v.lockB && 2 ≤ v.loopRun
/-- HEAL of LANE_CTRL (R247). -/
def heal (f : Field) (p : Part) (l : BitVec 5) : Field :=
  if f.commissioner p && (f.lane l).st = .split && mended (f.lane l) then f.modLane l (fun v => { v with healAsked := true })
  else f
/-- RECEIVER_LOCK of an end (R242); a receiver has no clock in holdover (R317). -/
def receiverLock (f : Field) (l : BitVec 5) (e : End) : Field :=
  if f.mer.holdover then f
  else
    let f1 := f.modLane l (fun v => { v with lockA := v.lockA || e = .a, lockB := v.lockB || e = .b })
    if (f1.lane l).st = .isolated then f1.train l else f1.trainLoop l (f1.lane l).loopTicks
/-- LOSS_OF_SIGNAL of an end (R244, R246). -/
def lossOfSignal (f : Field) (l : BitVec 5) (e : End) : Field :=
  if f.mer.holdover then f
  else
  let f1 := f.modLane l (fun v => { v with lockA := v.lockA && e ≠ .a, lockB := v.lockB && e ≠ .b })
  (f1.split l).isolate l
/-- LANE_TRAIN_TIMEOUT (R242): 10 ms of TRAIN without a loop. -/
def laneTrainTimeout (f : Field) (l : BitVec 5) : Field :=
  let v := f.lane l
  if v.st = .train && v.tState.toNat + 1000000 ≤ f.now.toNat then
    if v.lockA || v.lockB then (f.enterLane l .split).startEnum l true
    else (f.declareAll l (fun _ => true)).enterLane l .isolated
  else f
/-- MARK_REACHES_END_B (R242, R246, R247): the mark of end A arrives after a number of ticks. -/
def markReachesEndB (f : Field) (l : BitVec 5) (ticks : BitVec 16) : Field :=
  let v := f.lane l
  if v.st = .disabled || f.mer.holdover then f
  else
    let f1 := f.setLane l { v with loopSeen := true, loopTicks := if v.st = .ring && v.loopTicks = 0 then ticks else v.loopTicks }
    f1.trainLoop l ticks
/-- MARK_LOOP_FAIL (R246): the mark has not reached end B in LANE_LOOP.TICKS plus 200 ticks. -/
def markLoopFail (f : Field) (l : BitVec 5) : Field :=
  let v := f.lane l
  if v.st = .ring && !v.loopSeen && f.lan.tMark.toNat + v.loopTicks.toNat + 200 ≤ f.now.toNat then f.split l else f
/-- Does a lane take in notices: with its clock, in any state but DISABLED (R246)? -/
def notices (f : Field) (l : BitVec 5) : Bool := (f.lane l).st ≠ .disabled && !f.mer.holdover
/-- Sides of a notice: true is the west input. WRAP (R246): a lane in RING splits, the side is recorded, and what lies between two
recorded sides is declared missing. -/
def wrap (f : Field) (l : BitVec 5) (pos : BitVec 6) (west crcOk : Bool) : Field :=
  if !f.notices l then f
  else if !crcOk then f.crcExpress l
  else
    let f1 := (f.split l).modLane l (fun v =>
      if west then { v with westPos := pos, westValid := true, restWest := false }
      else { v with eastPos := pos, eastValid := true, restEast := false })
    let v := f1.lane l
    if v.eastValid && v.westValid then
      (f1.declareAll l (fun k => v.eastPos.toNat < k && k < v.westPos.toNat)).isolate l
    else f1
/-- RESTORED (R247). -/
def restored (f : Field) (l : BitVec 5) (pos : BitVec 6) (west crcOk : Bool) : Field :=
  let v := f.lane l
  if !f.notices l then f
  else if !crcOk then f.crcExpress l
  else if west && v.westValid && v.westPos = pos then f.setLane l { v with restWest := true }
  else if !west && v.eastValid && v.eastPos = pos then f.setLane l { v with restEast := true }
  else f
/-- OUTSTATION_MISSING (R250). -/
def outstationMissing (f : Field) (l : BitVec 5) (pos : BitVec 6) : Field :=
  let v := f.lane l
  match tabLook v.os pos.toNat with
  | some o =>
    let n := if v.osMiss = 0 then 6 else v.osMiss.toNat
    if !o.missing && n ≤ o.missCnt then (f.declareMissing l pos.toNat).isolate l else f
  | none => f
/-- LANE_DEGRADED (R253): violations that the end receivers count; where one end passes the limit in the running Meridian second,
DEGRADED is set and told. -/
def laneDegraded (f : Field) (l : BitVec 5) (cvA cvB : Nat) : Field :=
  if f.mer.holdover then f
  else
    let v := f.lane l
    let a := v.secA + cvA
    let b := v.secB + cvB
    let lim := v.cvLimit.toNat
    let past : Bool := lim ≠ 0 && (lim < a || lim < b)
    let f1 := f.setLane l { v with cvA := satAdd v.cvA cvA, cvB := satAdd v.cvB cvB, secA := a, secB := b,
                                   degraded := v.degraded || past }
    if past && !v.degraded then
      let endB := !decide (lim < a)
      f1.raiseAll 0x2A ([l.setWidth 8, if endB then 1 else 0] ++ toLe (min (if endB then b else a) 65535) 2)
    else f1
/-- A Meridian second ends at a lane: one at or below the limit clears DEGRADED (R253). -/
def secondOver (v : Lane) : Lane :=
  let lim := v.cvLimit.toNat
  { v with secA := 0, secB := 0, degraded := v.degraded && (lim = 0 || lim < v.secA || lim < v.secB) }

/-! ### Health polls (R251, R254, R280) -/

/-- A health poll leaves an end with the reserve of its answer (10, command set). -/
def sendPoll (f : Field) (l : BitVec 5) (e : Bool) (q : BitVec 6 × Bool) : Field :=
  let v := f.lane l
  (f.setLane l { v with pollQ := v.pollQ.erase q, polls := v.polls ++ [(q.1, q.2, f.now)] }).emit
    (.lane l e (ordinaryBytes 0x30 (q.1.setWidth 8) 0 [] ++ reserveBytes 85))
/-- The first poll that waits at an end leaves, where the tail guard stays (R264). -/
def pollServe (f : Field) (l : BitVec 5) (e : Bool) : Field :=
  match (f.lane l).pollQ.find? (fun q => endOf (f.lane l) q.1 = some e) with
  | some q => if !f.mer.holdover && f.wireFree l e && f.fits l e 96 0 then f.sendPoll l e q else f
  | none => f
/-- A health poll is presented for a position. -/
def poll (f : Field) (l : BitVec 5) (pos : BitVec 6) (again : Bool) : Field :=
  let f1 := f.modLane l (fun v => { v with pollQ := v.pollQ ++ [(pos, again)] })
  match endOf (f.lane l) pos with
  | some e => f1.pollServe l e
  | none => f1
/-- A poll of R251, unless one is out, waits or is due at that position. -/
def poll251 (f : Field) (l : BitVec 5) (pos : Nat) : Field :=
  let v := f.lane l
  match tabLook v.os pos with
  | some o =>
    if o.pollDue || v.polls.any (fun q => q.1.toNat = pos && q.2.1) || v.pollQ.any (fun q => q.1.toNat = pos && q.2) then f
    else f.poll l (BitVec.ofNat 6 pos) true
  | none => f
/-- The position the rotation polls next: the lowest enumerated one above the last, else the lowest. -/
def pollNext (v : Lane) : Option (BitVec 6) :=
  let ks := v.os.map (·.1)
  let above := match v.pollPos with | some p => ks.filter (fun k => p.toNat < k) | none => ks
  (match above with | k :: _ => some k | [] => ks.head?).map (BitVec.ofNat 6)
/-- The polls of a CMP6 fire (R254): one poll on every lane in RING or SPLIT. -/
def healthPoll (f : Field) : Field :=
  (f.lan.lane.filter (fun e => laneUp e.2)).foldl (fun (g : Field) e =>
    let l : BitVec 5 := BitVec.ofNat 5 e.1
    match pollNext e.2 with
    | some p => (g.poll l p false).modLane l (fun v => { v with pollPos := some p })
    | none => g) f
/-- An outstation is reachable again (R251): its channels take its FB_OPENED bits, receive fallback configuration and are
resynchronised. -/
def reachable (f : Field) (l : BitVec 5) (pos : Nat) (id fbOpened : BitVec 64) : Field :=
  let f1 := f.modOs l pos (fun o => { o with missing := false, missCnt := 0, pollDue := false })
  let f2 := f1.each (f1.chansOf id) (fun g x =>
    let opened := match (g.chan x).fr.bind with | .point _ _ pt _ => bit fbOpened pt.toNat | _ => false
    (g.modAux x (fun a => { a with healthTaken := true, fbOpened := opened })).queueFb x)
  f2.meterReturn id
/-- A health answer (R251, R254): the 75 payload bytes that answer a poll. -/
def takeHealth (f : Field) (l : BitVec 5) (pos : BitVec 6) (b : Bytes) : Field :=
  let v := f.lane l
  match v.polls.find? (fun q => q.1 = pos), tabLook v.os pos.toNat with
  | some q, some o =>
    let f1 := f.setLane l { v with polls := v.polls.erase q }
    if u64 b 0 ≠ o.id then f1.startEnum l false
    else
      let f2 := f1.modOs l pos.toNat (fun o => { o with present := u64 b 32, switched := u64 b 40, healthy := true })
      if o.missing then f2.reachable l pos.toNat o.id (u64 b 48) else f2
  | _, _ => f
/-- HEALTH_POLL_TIMEOUT (R254): a poll unanswered after 200 µs is counted; one of R251 is sent again in the next superframe. -/
def healthPollTimeout (f : Field) (l : BitVec 5) (pos : BitVec 6) : Field :=
  let v := f.lane l
  match v.polls.find? (fun q => q.1 = pos && decide (q.2.2.toNat + 20000 ≤ f.now.toNat)) with
  | some q =>
    let f1 := f.setLane l { v with polls := v.polls.erase q, pollsLost := satAdd v.pollsLost 1 }
    if q.2.1 then f1.modOs l pos.toNat (fun o => { o with pollDue := true }) else f1
  | none => f

/-! ### Numbered commands (R276 to R278, R518) -/

/-- Outstanding commands with the numbers from c on, all to be sent again (R277). -/
def renumber : Byte → List Sent → List Sent
  | _, [] => []
  | c, s :: r => { s with cnum := cnumNext c, due := true } :: renumber (cnumNext c) r
/-- A fallback configuration of channel x is acknowledged: FB_SYNC is set, unless a later one is still on its way (R111,
R277). -/
def fbAcked (f : Field) (id : BitVec 64) (x : BitVec 17) : Field :=
  let k := f.link id
  let later := k.sent.any (fun s => LCmd.isFbOf x s.cmd) || k.wait.any (fun u => LCmd.isFbOf x u.cmd)
  let own := match (f.chan x).fr.bind with | .point _ _ _ i => decide (i = id) | _ => false
  if later || !own || (f.chan x).nev.kind ≠ .switched then f
  else f.modChan x (fun c => { c with nev := { c.nev with fbSync := true }, aux := { c.aux with fbQueued := none, fbRaised := false } })
/-- Every SWITCHED channel of an identity has lost its fallback configuration (R278). -/
def fbLost (f : Field) (id : BitVec 64) : Field := f.each (f.chansOf id) (fun g x => g.queueFb x)
/-- ACK and DEFAULTS of a good frame (R277, R278, R518). -/
def takeAck (f : Field) (id : BitVec 64) (a : Byte) (defaults : Bool) : Field :=
  let k := f.link id
  let lost := (defaults && k.defaults = some false) || (a = 0 && k.base.isSome && k.base ≠ some 0)
  let k0 := { k with defaults := some defaults, anew := false, base := some a }
  let f1 :=
    if !k.anew && k.base = some a then f.setLink id k0
    else if !k.anew && k.base.isSome && k.sent.any (fun s => s.cnum = a) then
      let i := k.sent.findIdx (fun s => s.cnum = a)
      let f2 := f.setLink id { k0 with sent := k.sent.drop (i + 1) }
      (k.sent.take (i + 1)).foldl (fun (g : Field) s => match s.cmd with | .fbConfig x _ => g.fbAcked id x | _ => g) f2
    else f.setLink id { k0 with sent := renumber a k.sent }
  let f3 := pumpLink id 16 f1
  if lost then f3.fbLost id else f3
/-- COMMAND_RESEND of a position (R277): where 2 superframes have passed since a sending, the commands not acknowledged go again in
order, and so does an energy read unanswered in its superframe. -/
def commandResend (f : Field) (l : BitVec 5) (pos : BitVec 6) : Field :=
  let v := f.lane l
  match tabLook v.os pos.toNat with
  | none => f
  | some o =>
    let old := v.eReads.filter (fun r => r.1 = pos && r.2.2 < f.nev.sfCount)
    let f1 := f.setLane l { v with eReads := v.eReads.filter (fun r => !(r.1 = pos && r.2.2 < f.nev.sfCount)) }
    let f2 := old.foldl (fun (g : Field) r => g.energyRead l pos r.2.1) f1
    let k := f2.link o.id
    if k.sent.any (fun s => s.sf + 2 ≤ f.nev.sfCount) then
      pumpLink o.id 16 (f2.setLink o.id { k with sent := k.sent.map (fun s => { s with due := true }) })
    else f2

/-! ### Telemetry frames (R82, R83, R267 to R271) -/

/-- The class of a word for a channel (R82, R83). A copy is a duplicate of one that still waits for a pipe as of one that a pipe has
taken. -/
def classify (f : Field) (x : BitVec 17) (sfn : Byte) (w : Word) : ArrClass :=
  let c := f.chan x
  let waiting := (f.nev.arrivals.filter (fun w => w.ch = x)).getLast?
  let free := f.nev.noDup ≠ 0 || (waiting.isNone && (c.aux.firstArrival ||
    (c.nev.state = .fallback && !c.aux.recLost && (!c.aux.osMissing || c.aux.healthTaken))))
  let last := match waiting with | some w => w.arr.sfn | none => c.nev.sfnLow
  if !free && last = sfn then .duplicate
  else if sfn ≠ (f.nev.sfn - 1).setWidth 8 then .outseq
  else if wordInv w then .flagged
  else .fresh
/-- Count an arrival's class. -/
def countClass (n : Nevs) : ArrClass → Nevs
  | .duplicate => { n with dup := satAdd n.dup 1 }
  | .missing => { n with missed := satAdd n.missed 1 }
  | .outseq => { n with outseq := satAdd n.outseq 1 }
  | .flagged => { n with flagged := satAdd n.flagged 1 }
  | .fresh => n
/-- A classed arrival waits for a pipe, unless it is a duplicate. -/
def queueArrival (f : Field) (x : BitVec 17) (a : Arrival) : Field :=
  let f1 := { f with nev := countClass f.nev a.cls }
  if a.cls = .duplicate then f1
  else
    let q := f1.nev.arrivals ++ [{ ch := x, arr := a }]
    ({ f1 with nev := { f1.nev with arrivals := q, backlogPeak := satMax f1.nev.backlogPeak q.length } }).modAux x
      (fun u => { u with firstArrival := false })
/-- The word of one point of a frame: its class, where a channel is bound, and the energy report of the point, if the frame
holds it (R82, R218). -/
def takeWord (f : Field) (id : BitVec 64) (pt : Nat) (sfn : Byte) (w : Word) (rep : Option (BitVec 16 × BitVec 16)) : Field :=
  let key := id.toNat * 64 + pt
  let f0 := { f with nev := { f.nev with lastWord := tabPut f.nev.lastWord key (bits w 28 4, f.nev.sfCount) } }
  match f0.chanAt id (BitVec.ofNat 6 pt) with
  | none => { f0 with nev := { f0.nev with unbound := satAdd f0.nev.unbound 1 } }
  | some x =>
    let cls := f0.classify x sfn w
    let f1 := f0.queueArrival x { cls := cls, word := w, sfn := sfn }
    match (if cls = .duplicate then none else rep) with
    | some r => f1.report16 x r.1 r.2
    | none => f1
/-- The points of a frame in order. -/
def takeWords (f : Field) (id : BitVec 64) (b : Bytes) (n : Nat) (energy : Bool) : Field :=
  let sfn := u8 b 4
  let g := sfn.toNat % 16
  (List.range n).foldl (fun (h : Field) pt =>
    let r : Option (BitVec 16 × BitVec 16) :=
      if energy && pt / 4 = g then some (u16 b (264 + 4 * (pt % 4)), u16 b (266 + 4 * (pt % 4))) else none
    h.takeWord id pt sfn (u32 b (8 + 4 * pt)) r) f
/-- An ordinary frame that fails its CRC, or is discarded under R271. -/
def crcOrdinary (f : Field) (l : BitVec 5) : Field := f.modLane l (fun v => { v with crcOrd := satAdd v.crcOrd 1 })
/-- An enumeration answer joins those of the running enumeration (R270). -/
def enumAnswer (f : Field) (l : BitVec 5) (e : End) (b : Bytes) : Field :=
  let v := f.lane l
  let a : EnumAns := { id := u64 b 264, newPos := u8 b 272, npts := (bits (u8 b 273) 0 7), fromB := v.st = .split && e = .b }
  match v.enumPh with
  | .out _ => if v.enumAns.contains a || a.id = 0 || a.id = BitVec.allOnes 64 then f
      else f.setLane l { v with enumAns := v.enumAns ++ [a] }
  | _ => f
/-- A telemetry frame of 284 characters that an end has collected (R82, R271). -/
def takeFrame (f : Field) (l : BitVec 5) (e : End) (b : Bytes) : Field :=
  let v := f.lane l
  if crc32c (slice b 2 278) ≠ u32 b 280 || u8 b 2 ≠ 1 then f.crcOrdinary l
  else
    let ans := bit (u8 b 5) 3
    let f1 := if ans then f.enumAnswer l e b else f
    if bit (u8 b 3) 7 then f1
    else
      let pos := (bits (u8 b 3) 0 6).toNat
      match tabLook v.os pos with
      | none => f1.crcOrdinary l
      | some o =>
        if (if e = .a then o.seenA else o.seenB) then f1.crcOrdinary l
        else
          let f2 := f1.modOs l pos (fun o => { o with missCnt := 0, seenA := o.seenA || e = .a, seenB := o.seenB || e = .b })
          let f3 := if o.missing then f2.poll251 l pos else f2
          let f4 := f3.takeAck o.id (u8 b 6) (bit (u8 b 5) 4)
          f4.takeWords o.id b (min (bits (u8 b 7) 0 7).toNat 64) (!ans)
/-- An answer frame that an end has collected: a payload of n bytes from a position, with its CRC (R253, R257). -/
def takeAnswer (f : Field) (l : BitVec 5) (type : Byte) (n : Nat) (take : Field → BitVec 6 → Bytes → Field) (b : Bytes) : Field :=
  let len := (u8 b 4).toNat
  if crc32c (slice b 1 (4 + len)) ≠ u32 b (5 + len) then f.crcOrdinary l
  else if u8 b 1 = type && len = n then take f (bits (u8 b 2) 0 6) (slice b 5 n)
  else f
/-- Characters reach an end of a lane (R255 to R257): broken units are counted, and each ordinary frame of the kind that a row brings is
taken. What else the characters hold comes with its own row (log entry 121). -/
def laneChars (f : Field) (l : BitVec 5) (cs : List LChar) (tele : Bool) (take : Field → Bytes → Field) : Field :=
  if !f.laneHears l then f
  else
    let r := receive cs
    (r.done.filter (fun d => d.1 = tele)).foldl (fun (g : Field) d => take g d.2)
      (f.modLane l (fun v => { v with crcOrd := satAdd v.crcOrd r.ord, crcExp := satAdd v.crcExp r.exp }))
/-- TELEMETRY_FRAME (R82, R271): characters that reach an end of a lane from the K27.7 of a telemetry frame on. -/
def telemetryFrame (f : Field) (l : BitVec 5) (e : End) (cs : List LChar) : Field :=
  f.laneChars l cs true (fun g b => g.takeFrame l e b)
/-- HEALTH_ANSWER (R251, R254): the characters of an answer to a health poll. -/
def healthAnswer (f : Field) (l : BitVec 5) (cs : List LChar) : Field :=
  f.laneChars l cs false (fun g b => g.takeAnswer l 0xB0 75 (fun h pos d => h.takeHealth l pos d) b)
/-- ENERGY_ANSWER (R219): the characters of an answer to an energy read. -/
def energyAnswer (f : Field) (l : BitVec 5) (cs : List LChar) : Field :=
  f.laneChars l cs false (fun g b => g.takeAnswer l 0xA8 14 (fun h pos d => h.takeEnergy l pos d) b)
/-- TELEMETRY_MISSING (R82): the place of an outstation ends with no good frame. -/
def telemetryMissing (f : Field) (l : BitVec 5) (pos : BitVec 6) : Field :=
  let v := f.lane l
  match tabLook v.os pos.toNat with
  | none => f
  | some o =>
    if !laneUp v || o.seenA || o.seenB || o.judged then f
    else
      let f1 := f.modOs l pos.toNat (fun o => { o with missCnt := o.missCnt + 1, judged := true })
      f1.each (f1.chansOf o.id) (fun g x =>
        g.queueArrival x { cls := .missing, word := 0, sfn := (g.nev.sfn - 1).setWidth 8 })

/-! ### Enumeration (R248, R249) -/

/-- The map that the answers give (R249): positions to identities, with OVERCOUNT and DUP_ID. -/
def newMap : List EnumAns → Tab (BitVec 64 × BitVec 7) → Bool → Bool → Tab (BitVec 64 × BitVec 7) × Bool × Bool
  | [], m, ov, dup => (m, ov, dup)
  | a :: r, m, ov, dup =>
    if m.any (fun e => e.2.1 = a.id) then newMap r m ov true
    else if 63 < a.newPos.toNat || (tabLook m a.newPos.toNat).isSome then newMap r m true dup
    else newMap r (tabPut m a.newPos.toNat (a.id, a.npts)) ov dup
/-- Answers that count: NEWPOS 0xFF is dropped where the same identity has answered with a position. -/
def answers (as : List EnumAns) : List EnumAns :=
  as.filter (fun a => !(a.newPos = 0xFF && as.any (fun b => b.id = a.id && b.newPos ≠ 0xFF)))
/-- COMMIT (R249): the new map, what it drops and what it places again. A missing identity that it places is to be polled (R251), and what
waits for an identity leaves once the wire is free. A poll that is out stays out, now without the care of R251. -/
def commitEnum (f : Field) (l : BitVec 5) : Field :=
  let v := f.lane l
  let r := newMap (answers v.enumAns) [] false false
  let old := v.os.map (fun e => e.2)
  let kept (id : BitVec 64) : Option Outst := old.find? (fun o => o.id = id)
  let os : Tab Outst := r.1.map (fun e => (e.1, match kept e.2.1 with
    | some o => { o with npts := e.2.2, seenA := false, seenB := false, judged := false, pollDue := false }
    | none => { newOs e.2.1 e.2.2 with missing := f.lan.gone.contains e.2.1 }))
  let ids := r.1.map (fun e => e.2.1)
  let lost := old.filter (fun o => !ids.contains o.id)
  let added := ids.filter (fun i => (kept i).isNone)
  let moved (q : BitVec 6 × BitVec 6 × Nat) : Option (BitVec 6 × BitVec 6 × Nat) :=
    match tabLook v.os q.1.toNat with
    | some o => (os.find? (fun e => e.2.id = o.id)).map (fun e => (BitVec.ofNat 6 e.1, q.2.1, q.2.2))
    | none => none
  let f1 := f.setLane l { v with os := os, enumPh := .idle, enumAns := [], overcount := r.2.1, dupId := r.2.2,
                                 enums := satAdd v.enums 1, shown := true, polls := v.polls.map (fun q => (q.1, false, q.2.2)),
                                 pollQ := v.pollQ.filter (fun q => !q.2 && (tabLook os q.1.toNat).isSome),
                                 eReads := v.eReads.filterMap moved,
                                 eHeld := (v.eHeld.filterMap (fun q => moved (q.1, q.2, 0))).map (fun q => (q.1, q.2.1)) }
  let f2 := { f1 with lan := { f1.lan with gone := (f1.lan.gone.filter (fun i => !ids.contains i)) ++ lost.map (·.id) } }
  let f3 := lost.foldl (fun (g : Field) o => if o.missing then g else g.fallbackId o.id) f2
  let f4 := (os.filter (fun e => e.2.missing)).foldl (fun (g : Field) e => g.modOs l e.1 (fun o => { o with pollDue := true })) f3
  let f6 := f4.raiseAll 0x29 [l.setWidth 8, BitVec.ofNat 8 (ids.length - added.length), BitVec.ofNat 8 lost.length,
    BitVec.ofNat 8 added.length]
  (if v.enumHeld then (f6.modLane l (fun v => { v with enumHeld := false })).startEnum l false else f6).isolate l
/-- Is every answer in: has each reachable outstation of the old map answered, and is there one (log entry 33)? -/
def allAnswered (v : Lane) : Bool :=
  let reach := v.os.filter (fun e => !e.2.missing)
  reach ≠ [] && reach.all (fun e => v.enumAns.any (fun a => a.id = e.2.id && a.newPos ≠ 0xFF))

/-! ### The superframe mark of a lane (R240, R247, R248, R261, R265) -/

/-- Heal at a mark (R247). -/
def healAt (f : Field) (l : BitVec 5) : Field :=
  let v := f.lane l
  if v.st = .split && mended v && v.tState.toNat + v.healDelay.toNat * 1000000 ≤ f.now.toNat && (v.healDelay ≠ 0 || v.healAsked) then
    ((f.enterLane l .ring).modLane l (fun v => { v with
      heals := satAdd v.heals 1, eastValid := false, eastPos := 0, westValid := false, westPos := 0, restEast := false,
      restWest := false })).startEnum l false
  else f
/-- The MARK pair of an end (R240, R266). -/
def markPair (f : Field) (l : BitVec 5) (endB commit enum : Bool) : Field :=
  f.expressPair l endB 0x01 (f.nev.sfn.setWidth 8) (if (f.lane l).st = .ring then 2 else 3)
    ((if commit then 1 else 0) + (if enum then 2 else 0) + (if endB then 4 else 0)) 0
/-- Outstations enumerated in the chain of an end. -/
def chainCount (v : Lane) (e : Bool) : Nat := v.os.countP (fun o => endOf v (BitVec.ofNat 6 o.1) = some e)
/-- The schedule reaches a character offset of the superframe (R261). -/
def reach (f : Field) (l : BitVec 5) (e : Bool) (off : Nat) : Field :=
  f.modLane l (fun v => setWire v e { wireOf v e with occ := max (wireOf v e).occ off })
/-- The telemetry reserve of n places (R265): K28.0, and K28.5 where the offset is 1 more than a multiple of 284, then K28.4. -/
def trainReserve (n spare : Nat) : Bytes :=
  (List.range (284 * n + spare)).map (fun i => if i % 284 = 1 then 0xBC else 0x1C) ++ [0x9C]
/-- The telemetry train of an end (R265): TRAIN_OPEN and the reserve. -/
def trainOpen (f : Field) (l : BitVec 5) (e : Bool) (enum : Bool) : Field :=
  let v := f.lane l
  let n := if enum then 64 else chainCount v e
  ((f.reach l e 48).emit (.lane l e (ordinaryBytes 0x02 0x40 0 ([BitVec.ofNat 8 n] ++ toLe v.spare.toNat 2)))).emit
    (.lane l e (trainReserve n v.spare.toNat))
/-- ENUMERATE of an end (R248): from A the counter starts at 0, from B at 63. -/
def enumerate (f : Field) (l : BitVec 5) (e : Bool) : Field :=
  (f.reach l e 24).emit (.lane l e (ordinaryBytes 0x40 0x40 0 (if e then [63, 1] else [0, 0])))
/-- The wire of an end at a mark: level-0 content that express frames have pushed past it goes on. -/
def wireTurn (w : Wire) : Wire := { w with used := 0, occ := w.occ - 20000, res := w.res - 20000 }
/-- The superframe that ends at a mark: its occupancy (LANE_SF_USE; R264), and that of the next begins. -/
def sfTurn (v : Lane) : Lane :=
  let v1 := { v with sfPeak := satMax v.sfPeak (min (max v.useA v.useB) 20000),
                     sfOverrun := if 20000 < max v.resA v.resB then satAdd v.sfOverrun 1 else v.sfOverrun }
  setWire (setWire v1 false (wireTurn (wireOf v1 false))) true (wireTurn (wireOf v1 true))
/-- A CMP0 mark at a lane (R261): heal and COMMIT, the MARK pairs, ENUMERATE and the telemetry train. Commands and polls follow once
the reserve has left. -/
def laneMark (f : Field) (l : BitVec 5) : Field :=
  if (f.lane l).st = .disabled then f
  else
    let f1 := f.modLane l (fun v =>
      { v with loopRun := if v.loopSeen then v.loopRun + 1 else 0, loopSeen := false, cyc := 0,
               os := v.os.map (fun e => (e.1, { e.2 with seenA := false, seenB := false, judged := false })) })
    let f2 := f1.healAt l
    let v := f2.lane l
    let ph := v.enumPh
    let commits : Bool := match ph with | .out n => 1 ≤ n || allAnswered v | _ => false
    let f3 := if commits then f2.commitEnum l
      else f2.modLane l (fun v => { v with enumPh := match v.enumPh with
        | .pending _ => .out 0 | .out n => .out (n + 1) | .idle => .idle })
    let enum : Bool := !commits && ph ≠ .idle
    let f4 := (f3.markPair l false commits enum).markPair l true commits enum
    if !laneUp (f4.lane l) then f4
    else
      let f5 := match ph with
        | .pending k => (enumEnds v k).foldl (fun (g : Field) e => g.enumerate l e) f4
        | _ => f4
      let f6 := (heads (f5.lane l)).foldl (fun (g : Field) e => g.trainOpen l e enum) f5
      ((f6.lane l).os.filter (fun e => e.2.pollDue)).foldl (fun (g : Field) e =>
        (g.modOs l e.1 (fun o => { o with pollDue := false })).poll l (BitVec.ofNat 6 e.1) true) f6

/-! ### The wire between marks (R31, R111, R126, R261) -/

/-- A fallback configuration sent in an earlier superframe and not acknowledged is repeated where characters remain (R111). -/
def fbRepeat (f : Field) (l : BitVec 5) (e : Bool) (o : Nat × Outst) : Option Field :=
  let k := f.link o.2.id
  if k.anew then none
  else match k.sent.find? (fun s => s.rep < f.nev.sfCount && (match s.cmd with | .fbConfig _ _ => true | _ => false)) with
    | some s =>
      if f.fits l e (10 + (lcmdBytes s.cmd).2.length) (pollRoom (f.lane l) e) then
        some ((f.setLink o.2.id { k with sent := k.sent.map (fun t =>
          if t.cnum = s.cnum then { t with rep := f.nev.sfCount } else t) }).emit
            (.lane l e (cmdFrame (BitVec.ofNat 6 o.1) s.cnum s.cmd)))
      else none
    | none => none
/-- An end whose wire is free of level-0 content sends the next ordinary frame: a numbered command, an energy read, a repeated fallback
configuration, a health poll (R31, R261). Among the outstations of its chain the lowest position goes first (log entry 30). -/
def endServe (f : Field) (l : BitVec 5) (e : Bool) : Field :=
  if !f.wireFree l e then f
  else
    let v := f.lane l
    let chain := v.os.filter (fun o => endOf v (BitVec.ofNat 6 o.1) = some e)
    match chain.find? (fun o => match OsLink.next (f.link o.2.id) with | some c => f.mayLeaveEnd l e c.1 | none => false) with
    | some o => pumpLink o.2.id 1 f
    | none =>
      match v.eHeld.find? (fun q => endOf v q.1 = some e && f.fits l e 36 (pollRoom v e)) with
      | some q => (f.setLane l { v with eHeld := v.eHeld.erase q }).energyRead l q.1 q.2
      | none => match chain.findSome? (fun o => f.fbRepeat l e o) with
        | some g => g
        | none => f.pollServe l e
/-- One lane in a tick: each end sends the express frame and the ordinary frame that wait for it. -/
def laneTick (f : Field) (l : BitVec 5) : Field :=
  if !laneUp (f.lane l) then f
  else
    let f1 := (f.exServe l false).exServe l true
    (heads (f1.lane l)).foldl (fun (g : Field) e => g.endServe l e) f1
/-- The lanes in a tick, while they have their clock (R317); at the end of a Meridian second DEGRADED is judged (R253). -/
def lanesTick (f : Field) : Field :=
  let f1 := if f.now.toNat % 100000000 = 0 then
      { f with lan := { f.lan with lane := tabMap Lane.reset f.lan.lane (fun _ v => secondOver v) } } else f
  if !f1.coreOn || f1.mer.holdover then f1
  else f1.lan.lane.foldl (fun (g : Field) e => g.laneTick (BitVec.ofNat 5 e.1)) f1

/-! ### Stream cycles (R262, R273, R274) -/

/-- The bytes of a stream cycle (10, stream cycle). -/
def cycleBytes (k : Nat) (refs : List (Nat × BitVec 12)) : Bytes :=
  let valid := refs.foldl (fun (a : Nat) r => a + 2 ^ r.1) 0
  let ref := refs.foldl (fun (a : Nat) r => a + r.2.toNat * 2 ^ (12 * r.1)) 0
  let body := [BitVec.ofNat 8 (k % 16), BitVec.ofNat 8 valid] ++ toLe ref 9
  [0x5C] ++ body ++ [crc8 body] ++ List.replicate (7 * refs.length) 0x1C
/-- The next stream cycle of a lane is due (R262): 1.0 µs and k times 20 µs after the mark. -/
def cycleDue (f : Field) (l : BitVec 5) : Bool := f.due (f.lan.tMark + BitVec.ofNat 64 (100 + 2000 * (f.lane l).cyc))
/-- STREAM_CYCLE of a lane (R262): a cycle leaves each head end whose chain streams, and every one while a slot is being given up, whose
VALID bit is then clear (R274). -/
def streamCycle (f : Field) (l : BitVec 5) : Field :=
  let v := f.lane l
  if !laneUp v || 25 ≤ v.cyc || !f.cycleDue l then f
  else
    let given := v.slots.any (fun s => match s with | .gap _ => true | _ => false)
    let f1 := (heads v).foldl (fun (g : Field) e =>
      let rs := f.cycleRefs l e
      if rs = [] && !given then g else g.emit (.lane l e (cycleBytes v.cyc rs))) f
    f1.modLane l (fun v => { v with cyc := v.cyc + 1, slots := v.slots.map (fun s => match s with
      | .gap n => if n ≤ 1 then .idle else .gap (n - 1)
      | t => t) })

end Field
end Sys2Proof.Machine
end

