-- ==== Sys2Proof/Machine/Direct.lean ====
section
/-! DEFINITION. The direct channels and the ADC subsystem (11): comparator and its timers, driver feedback, conversions, the
direct sample word, cross-check and calibration, host sequences. -/
namespace Sys2Proof.Machine
namespace Field

/-! ### Conversions (R301) -/

/-- A converter's result for an input code: corrected for AIN0 to AIN31 and AINS, raw for the internal sources; with OVR. -/
def convert (f : Field) (code : Nat) (raw : BitVec 16) : BitVec 16 × Bool :=
  let r := raw.toInt
  let edge : Bool := r = -32768 || r = 32767
  if code ≤ 32 then
    let k := tabGet (0, 0x4000) f.adc.corr code
    let c0 := rdiv ((r - k.1.toInt) * k.2.toNat) 16384
    let c := sat c0 (-32768) 32767
    (ofInt 16 c, edge || decide (c ≠ c0))
  else (raw, edge)
/-- Conversions are flagged: the reference is not ready, or the cross-check has failed (R302, R303). -/
def adcFlagged (f : Field) : Bool := !f.adc.refReady || f.adc.xchkFail
/-- The sample word of a loop conversion of a direct channel (R297). -/
def loopWord (f : Field) (d : BitVec 4) (rawI rawV : BitVec 16) : Word :=
  let i := f.convert (2 * d.toNat) rawI
  let v := f.convert (2 * d.toNat + 1) rawV
  let vv := (sat (rdiv v.1.toInt 8) 0 4095).toNat
  BitVec.ofNat 32 (i.1.toNat + vv * 65536 + (if i.2 || v.2 then 2 ^ 30 else 0) + (if f.adcFlagged then 2 ^ 31 else 0))
/-- The scan slot of direct channel n (R295). -/
def scanOf (n : BitVec 4) : Nat := 10 * (n.toNat % 4) + n.toNat / 4
/-- Does slot s belong to the pattern granted to a context of direct channel n (R296)? -/
def patternSlot (c : Ctx) (n : BitVec 4) (s : Nat) : Bool :=
  if c.grant = 3 then s % 10 = c.grantClass
  else if c.grant = 2 then s % 10 = c.grantClass && s / 10 % 2 = c.grantHalf
  else s = scanOf n
/-- The start of the pattern slot whose sample arrives now: at most 600 ns ago (R297). -/
def patternStart (f : Field) (c : Ctx) (n : BitVec 4) : Option Nat :=
  let t := f.now.toNat
  let r := t % 2000
  if patternSlot c n (r / 50) then some (t - r % 50)
  else if 50 ≤ r && r % 50 ≤ 10 && patternSlot c n (r / 50 - 1) then some (t - r % 50 - 50)
  else none
/-- LOOP_SAMPLE: a granted pattern slot of a direct context is converted and its sample taken, once a slot, from the first slot after
the claim (R296); a remote context's waiting sample is taken (R193, R194, R297). -/
def loopSample (f : Field) (n : Nat) (rawI rawV : BitVec 16) (lat : Nat) : Field :=
  match tabLook f.hel.ctx n with
  | none => f
  | some c => match f.directOf c.ch with
    | none => f.loopSampleRemote n
    | some d => match f.patternStart c d with
      | none => f
      | some t =>
        let done := match c.lastSlot with | some u => decide (t ≤ u.toNat) | none => false
        if c.grant = 0 || c.phase = Phase.handover || t ≤ c.claimT.toNat || done then f
        else
          let w := f.loopWord d rawI rawV
          let late : Bool := match deadline c with | some t => decide (t < f.now.toNat) | none => false
          let f1 := (f.modCtx n (fun k => { k with lastSlot := some (BitVec.ofNat 64 t) })).preClose n
          if late || wordSat w || wordInv w then f1.badSample n w true late else f1.takeSample n w lat

/-! ### What the ingest array and the meter receive (R298 to R300) -/

/-- SCAN_SLOT_CONVERSION of direct channel n, at the start of its slot in the cycle (R295): sums, energy accumulators and the
pre-trigger buffer. -/
def scanSlot (f : Field) (n : BitVec 4) (rawI rawV : BitVec 16) : Field :=
  let d := f.dchan n
  if d.bound.isNone || f.pwr.st = .standby || f.pwr.st = .thermalOff || f.now.toNat % 2000 ≠ 50 * scanOf n || d.tScan = some f.now
  then f
  else
    let i := f.convert (2 * n.toNat) rawI
    let v := f.convert (2 * n.toNat + 1) rawV
    let p := i.1.toInt * max v.1.toInt 0
    let s : PreSample := { v := v.1, i := i.1, ovr := i.2 || v.2, inval := f.adcFlagged }
    f.setDch n { d with
      tScan := some f.now,
      sumI := d.sumI + i.1.toInt, sumV := d.sumV + v.1.toInt, n := d.n + 1, ovr := d.ovr || i.2 || v.2,
      inval := d.inval || f.adcFlagged,
      accImp := if d.escale = 0 then 0 else if 0 < p then d.accImp + BitVec.ofNat 48 p.toNat else d.accImp,
      accExp := if d.escale = 0 then 0 else if p < 0 then d.accExp + BitVec.ofNat 48 (-p).toNat else d.accExp,
      pre := if d.preFrozen.isSome then d.pre else (d.pre ++ [s]).drop (d.pre.length + 1 - 128) }
/-- The direct sample word at a mark (R298). -/
def directWord (d : Dch) (localTrip : Bool) : Word :=
  let i := if d.n = 0 then 0 else ofInt 16 (rdiv d.sumI d.n)
  let v := if d.n = 0 then 0 else (sat (rdiv d.sumV (8 * d.n : Nat)) 0 4095).toNat
  BitVec.ofNat 32 (i.toNat + v * 65536 + (if d.mode = .off then 0 else 2 ^ 28) + (if localTrip then 2 ^ 29 else 0)
    + (if d.ovr then 2 ^ 30 else 0) + (if d.n = 0 || d.inval then 2 ^ 31 else 0))
/-- Direct channel n at a CMP0 mark: its sample word becomes an arrival, and its counts are handed over (R81, R220, R298,
R299). -/
def directMark (f : Field) (n : BitVec 4) : Field :=
  let d := f.dchan n
  match d.bound with
  | none => f
  | some x =>
    let w := directWord d (f.chan x).aux.localTrip
    let e := d.escale.toNat
    let ci := if e = 0 then 0 else d.accImp.toNat / e
    let ce := if e = 0 then 0 else d.accExp.toNat / e
    let f1 := (f.setDch n { d with
      sumI := 0, sumV := 0, n := 0, ovr := false, inval := false,
      accImp := if e = 0 then 0 else BitVec.ofNat 48 (d.accImp.toNat % e),
      accExp := if e = 0 then 0 else BitVec.ofNat 48 (d.accExp.toNat % e) }).modAux x (fun a => { a with localTrip := false })
    let sfn : Byte := (f.nev.sfn - 1).setWidth 8
    let f2 := f1.queueArrival x { cls := f1.classify x sfn w, word := w, sfn := sfn }
    f2.directCounts x ci ce
/-- A mark at which no word is handed over, in STANDBY or a warm reset: the next word covers later conversions alone (R298). -/
def sumsClear (f : Field) : Field :=
  { f with dch := tabMap Dch.reset f.dch (fun _ d => { d with sumI := 0, sumV := 0, n := 0, ovr := false, inval := false }) }
/-- PRETRIGGER_RELEASE (R300): 100 ms after the freeze. -/
def pretriggerRelease (f : Field) (n : BitVec 4) : Field :=
  match (f.dchan n).preFrozen with
  | some t => if t.toNat + 10000000 ≤ f.now.toNat then f.modDch n (fun d => { d with preFrozen := none }) else f
  | none => f

/-! ### The comparator (R290 to R293) -/

/-- CLEARED of the direct channels that owe one: DGn OFF, DFBn low, the comparator clear for the clear time (R291, step 9). -/
def clearSweep (f : Field) : Field :=
  if !f.coreOn then f
  else (f.dch.map (·.1)).foldl (fun (g : Field) k =>
    let n : BitVec 4 := BitVec.ofNat 4 k
    let d := g.dchan n
    match d.bound with
    | some x =>
      if d.mode = .off && !d.dfb && d.clear && !d.clearedSent then
        (g.setDch n { d with clearedSent := true }).cleared x
      else g
    | none => g) f
/-- A comparator action (R292): DGn OFF, and a trip with element LOCAL_TRIP; in a reset the next sample word carries it. -/
def comparatorOpen (f : Field) (n : BitVec 4) (x : BitVec 17) : Field :=
  let f1 := (f.gateOff n true).modDch n (fun d => { d with cmpOpen := satAdd d.cmpOpen 1 })
  let s := (f1.chan x).nev.state
  let f2 := if f1.coreOn && (s = .closed || s = .inserting) then f1.tripChan x 0x07 else f1
  f2.modAux x (fun a => { a with localTrip := true })
/-- COMPARATOR_CROSSING (R290, R291): the output has been asserted at run samples in a row. From CMP_FILT + 1 of them on, and while
DGn is not OFF, the crossing is recognised, and reported where the comparator has been clear since the last report; lat and pres are
the times of R137. -/
def comparatorCrossing (f : Field) (n : BitVec 4) (run lat pres : Nat) : Field :=
  let d := f.dchan n
  match d.bound with
  | none => f
  | some x =>
    if d.thresh = 0 || run = 0 then f
    else if d.mode = .off || run ≤ d.cmpFilt.toNat then f.setDch n { d with clear := false, tAssert := f.now }
    else
      let f1 := f.setDch n { d with
        cmp := true, clear := false, tAssert := f.now, preFrozen := some (d.preFrozen.getD f.now) }
      if !d.mayReport then f1
      else
        let f2 := f1.modDch n (fun d => { d with mayReport := false, reports := satAdd d.reports 1 })
        let rep (g : Field) (opened : Bool) : Field := if g.coreOn then g.report x opened lat pres else g
        if d.immediate then
          let f3 := rep (f2.gateOff n true) true
          f3.comparatorOpen n x
        else
          (rep (f2.modDch n (fun d => { d with timer := .holdoff (f.now + BitVec.ofNat 64 (100 * d.holdoffUs)) })) false).clearSweep
/-- A timer of R291 has expired: DGn opens if the comparator is recognised as asserted at the expiry tick. -/
def timerEnd (f : Field) (n : BitVec 4) (asserted : Bool) : Field :=
  let f1 := f.modDch n (fun d => { d with timer := .idle, cmp := asserted, clear := d.clear && !asserted,
                                          tAssert := if asserted then f.now else d.tAssert })
  match (f.dchan n).bound with
  | some x => if asserted && (f.dchan n).mode ≠ .off then f1.comparatorOpen n x else f1
  | none => f1
/-- HOLDOFF_EXPIRY (R291, step 7). -/
def holdoffExpiry (f : Field) (n : BitVec 4) (asserted : Bool) : Field :=
  match (f.dchan n).timer with
  | .holdoff t => if f.due t then f.timerEnd n asserted else f
  | _ => f
/-- HOLD_LIMIT_EXPIRY (R291, step 7). -/
def holdLimitExpiry (f : Field) (n : BitVec 4) (asserted : Bool) : Field :=
  match (f.dchan n).timer with
  | .hold t => if f.due t then f.timerEnd n asserted else f
  | _ => f
/-- CLEAR_TIME_EXPIRY (R291, steps 8 and 9): the comparator has been deasserted at every sample for the clear time, which runs on
Meridian from the last tick at which it was asserted (R121). -/
def clearTimeExpiry (f : Field) (n : BitVec 4) : Field :=
  let d := f.dchan n
  if d.bound.isNone || (d.clear && d.mayReport) || f.now.toNat < d.tAssert.toNat + 100 * d.clearUs then f
  else (f.setDch n { d with cmp := false, clear := true, mayReport := true, timer := .idle }).clearSweep

/-! ### Driver feedback (R294) -/

/-- DFB_LEVEL: pin DFBn has shown a level at run samples in a row. From DFB_FILT of them on the level, after DFB_POL, is recognised. -/
def dfbLevel (f : Field) (n : BitVec 4) (pin : Bool) (run : Nat) : Field :=
  let d := f.dchan n
  let lvl := pin != d.dfbPol
  if run < max 1 d.dfbFilt.toNat || f.pwr.st = .thermalOff then f
  else
    let f1 := f.setDch n { d with dfb := lvl }
    match d.bound with
    | none => f1
    | some x =>
      if !f1.coreOn then f1
      else if lvl then
        match f1.insCtx x with
        | some (k, c) => if c.phase = Phase.handover && (f1.chan x).nev.state = .inserting then f1.completeIns k else f1
        | none => f1
      else (f1.driverFault n).clearSweep
/-- DRIVER_STUCK (R294): DFBn is high DFB_T µs after DGn went OFF. -/
def driverStuck (f : Field) (n : BitVec 4) : Field :=
  let d := f.dchan n
  match d.bound with
  | none => f
  | some x =>
    if f.coreOn && d.mode = .off && d.dfb && d.dfbT ≠ 0 && !d.stuck && d.tOff.toNat + 100 * d.dfbT.toNat ≤ f.now.toNat then
      (f.setDch n { d with stuck := true }).element x 0x15
    else f

/-! ### Reference, cross-check, calibration (R302 to R304) -/

/-- REF_READY: 20,000 ticks after REFBUF was enabled; it is off in STANDBY (R302, R450). -/
def refReadyAt (f : Field) : Field :=
  if f.adc.refEn && !f.adc.refReady && f.pwr.st ≠ .standby && f.pwr.st ≠ .thermalOff && f.adc.tRef.toNat + 20000 ≤ f.now.toNat then { f with adc := { f.adc with refReady := true } }
  else f
/-- REFBUF_EN: a write of ADC_CTRL.REFBUF_EN by COMMISSIONER; 0 is ignored while a DIRECT channel exists. -/
def refbufEn (f : Field) (p : Part) (b : Bool) : Field :=
  if !f.commissioner p then f
  else if b then (if f.adc.refEn then f else { f with adc := { f.adc with refEn := true, refReady := false, tRef := f.now } })
  else if f.nev.cntDirect ≠ 0 then f
  else { f with adc := { f.adc with refEn := false, refReady := false } }
/-- Entries of a busy run: it uses a slot for each (R306). -/
def injNeed (v : AdcInj) : Nat := max v.runLenA.toNat v.runLenB.toNat
/-- May a sequence's next entry convert in slot s that starts now: at least 2 ticks after its recognition, and one of 9, 19, 29 and 39
with GRID 1 (R306)? -/
def injWants (f : Field) (v : AdcInj) (s : Nat) : Bool :=
  v.busy && v.conv.length < injNeed v && decide (v.tRecog.toNat + 2 ≤ f.now.toNat) && (!v.runGrid || s % 10 = 9)
/-- The sequence whose entry takes a host slot s: the lowest number (R305). -/
def injNext (f : Field) (s : Nat) : Option Nat :=
  firstNat (fun m => f.injWants (tabGet AdcInj.reset f.adc.inj m) s) 0 4
/-- An injected entry converts in the slot that starts now. -/
def injTake (f : Field) (m : Nat) : Field :=
  let v := tabGet AdcInj.reset f.adc.inj m
  { f with adc := { f.adc with
      injSlot := some f.now,
      inj := tabSet AdcInj.reset f.adc.inj m { v with
        tStart := if v.conv = [] then f.now else v.tStart, conv := v.conv ++ [(f.adc.refReady, f.adc.xchkFail)] } } }
/-- Is slot s, other than 39, a host slot (R295)? -/
def hostSlot (f : Field) (s : Nat) : Bool :=
  if s % 10 ≤ 3 then (f.dchan (BitVec.ofNat 4 (4 * (s % 10) + s / 10))).bound.isNone
  else if s % 10 ≤ 8 then f.halfFree (s % 10) (s / 10 % 2)
  else s ≠ 39
/-- The slot that starts now. -/
def slotNow (f : Field) : Option Nat := if f.now.toNat % 50 = 0 then some (f.now.toNat % 2000 / 50) else none
/-- At the start of a host slot an injected entry that wants it converts (R305, R306). -/
def injTick (f : Field) : Field :=
  if f.adc.inj.any (fun e => e.2.busy) && f.coreOn then
    match f.slotNow with
    | some s => if f.hostSlot s then (match f.injNext s with | some m => f.injTake m | none => f) else f
    | none => f
  else f
/-- Is count t the present one and the start of slot 39, and the slot not used yet? -/
def at39 (f : Field) (t : Count) : Bool := f.coreOn && t = f.now && f.slotNow = some 39 && f.adc.slot39 ≠ some f.now
/-- Does slot 39 go to a pending injected entry (R304)? -/
def yields (f : Field) : Bool := (f.injNext 39).isSome && f.adc.yieldRun < 64
/-- Slot 39 is yielded to the entry. -/
def yieldSlot (f : Field) : Field :=
  let g := match f.injNext 39 with | some m => f.injTake m | none => f
  { g with adc := { g.adc with yields := satAdd g.adc.yields 1, yieldRun := g.adc.yieldRun + 1, slot39 := some g.now } }
/-- Effective PERIOD of the cross-check. -/
def xchkPeriod (a : Adc) : Nat := if a.period = 0 then 8 else a.period.toNat
/-- A cross-check falls in the running cycle: PERIOD cycles have passed since the last one (R303). -/
def xchkDue (f : Field) : Bool := f.adc.tol ≠ 0 && decide (f.adc.xchkAt + xchkPeriod f.adc ≤ f.now.toNat / 2000)
/-- ADC_CROSS_CHECK (R303), at slot 39: both converters' raw codes of AINS. A difference that the 16 bits of LAST_DIFF cannot hold is
shown as a free value (log entry 34). -/
def crossCheck (f : Field) (t : Count) (rawA rawB : BitVec 16) : Field :=
  let a := f.adc
  if !f.at39 t || !f.xchkDue then f
  else if f.yields then f.yieldSlot
  else
    let d := (f.convert 32 rawA).1.toInt - (f.convert 32 rawB).1.toInt
    let fits : Bool := -32768 ≤ d && d ≤ 32767
    let f0 := if fits then f else f.free.2
    let shown : BitVec 16 := if fits then ofInt 16 d else f.free.1.setWidth 16
    let bad : Bool := decide (a.tol.toNat < d.natAbs)
    let fails := if bad then a.failRun + 1 else 0
    let passes := if bad then 0 else a.passRun + 1
    let set : Bool := bad && 3 ≤ fails && !a.xchkFail
    let f1 := { f0 with adc := { a with
      lastDiff := shown, xchkAt := f.now.toNat / 2000, slot39 := some f.now, yieldRun := 0, xchkBad := if bad then satAdd a.xchkBad 1 else a.xchkBad,
      failRun := min fails 3, passRun := min passes 3,
      xchkFail := if set then true else if 3 ≤ passes then false else a.xchkFail } }
    if set then f1.raiseAll 0x3C (le 2 shown) else f1
/-- ADC_CALIBRATION_STEP (R304): slot 39 of a cycle without a cross-check. One slot in 40 of each converter is within R43's one
conversion in 32. -/
def calibrationStep (f : Field) (t : Count) : Field :=
  if !f.at39 t || f.xchkDue then f
  else if f.yields then f.yieldSlot
  else { f with adc := { f.adc with calSteps := f.adc.calSteps + 1, yieldRun := 0, slot39 := some f.now } }

/-! ### Host sequences (R305 to R308) -/

/-- A host result of an input code. -/
def hostRes (f : Field) (code : Nat) (raw : BitVec 16) : AdcRes :=
  let r := f.convert code raw
  { result := r.1, ovr := r.2, valid := f.adc.refReady, xfail := f.adc.xchkFail }
/-- Does the slot that starts now carry a regular entry of a converter: a host slot that no injected entry has taken (R305)? A slot of
an injected sequence is used on both converters (log entry 120). -/
def regSlot (f : Field) (e : End) : Bool :=
  let used := if e = .a then f.adc.regSlotA else f.adc.regSlotB
  (match f.slotNow with | some s => f.hostSlot s | none => false) && f.adc.injSlot ≠ some f.now && used ≠ some f.now
/-- ADC_REG_CONVERSION of converter A or B (R305): the next regular entry; a pass takes up the configuration at its start. -/
def regConversion (f : Field) (e : End) (raw : BitVec 16) : Field :=
  let a := f.adc
  let isA : Bool := e = .a
  let off := if isA then 0 else 16
  let k := if isA then a.nextA else a.nextB
  let mine (t : Tab (BitVec 6)) := t.filter (fun q => (q.1 < 16) = isA)
  let other (t : Tab (BitVec 6)) := t.filter (fun q => (q.1 < 16) ≠ isA)
  let a1 := if k = 0 then { a with entNow := if isA then mine a.ent ++ other a.entNow else other a.entNow ++ mine a.ent,
                                   lenNowA := if isA then a.lenA else a.lenNowA, lenNowB := if isA then a.lenNowB else a.lenB }
            else a
  let len := (if isA then a1.lenNowA else a1.lenNowB).toNat
  if !f.coreOn || len = 0 || !f.regSlot e then f
  else
    let r := f.hostRes (tabGet 0 a1.entNow (off + k)).toNat raw
    let k1 := if len ≤ k + 1 then 0 else k + 1
    let wrap : BitVec 16 := if k1 = 0 then 1 else 0
    { f with adc := { a1 with
        regSlotA := if isA then some f.now else a1.regSlotA, regSlotB := if isA then a1.regSlotB else some f.now,
        res := tabSet AdcRes.reset a1.res (off + k) r,
        nextA := if isA then k1 else a1.nextA, nextB := if isA then a1.nextB else k1,
        passesA := if isA then a1.passesA + wrap else a1.passesA, passesB := if isA then a1.passesB else a1.passesB + wrap } }
/-- An injected sequence. -/
def inj (f : Field) (m : Nat) : AdcInj := tabGet AdcInj.reset f.adc.inj m
/-- Write an injected sequence. -/
def setInj (f : Field) (m : Nat) (v : AdcInj) : Field :=
  { f with adc := { f.adc with inj := tabSet AdcInj.reset f.adc.inj m v } }
/-- A trigger of sequence m is recognised at tick t: the run takes a copy of the configuration (R306, R308). -/
def injStart (f : Field) (m : Nat) (t : Count) : Field :=
  let v := { f.inj m with trig := none }
  if v.busy then f.setInj m { v with overrun := satAdd v.overrun 1 }
  else if v.lenA = 0 && v.lenB = 0 then f.setInj m { v with empty := satAdd v.empty 1 }
  else f.setInj m { v with busy := true, tRecog := t, conv := [], runGrid := v.grid, runPart := v.part, runEvtEn := v.evtEn,
                           runLenA := v.lenA, runLenB := v.lenB, runEntA := v.entA, runEntB := v.entB }
/-- The compare or down-counter of an SRC code has fired: its sequences have a trigger to recognise (R306). -/
def injSource (f : Field) (src : Nat) : Field :=
  (List.range 4).foldl (fun (g : Field) m =>
    if (g.inj m).src.toNat = src then g.setInj m { g.inj m with trig := some g.now } else g) f
/-- ADC_INJ_TRIGGER of sequence m: the trigger of its compare or down-counter is recognised. -/
def injTrigger (f : Field) (m : BitVec 2) : Field :=
  match (f.inj m.toNat).trig with
  | some t => if f.coreOn then f.injStart m.toNat t else f
  | none => f
/-- ADC_INJ_SWTRIG: a write by OPERATOR or COMMISSIONER triggers the sequences of the mask whose SRC is software. -/
def injSwtrig (f : Field) (p : Part) (mask : BitVec 4) : Field :=
  if f.operator p || f.commissioner p then
    (List.range 4).foldl (fun (g : Field) m => if bit mask m && (g.inj m).src = 1 then g.injStart m g.now else g) f
  else f
/-- The result of a run's entry from its input code and raw code, with what stood at its slot. -/
def runRes (f : Field) (code : Nat) (raw : BitVec 16) (at' : Bool × Bool) : AdcRes :=
  let r := f.convert code raw
  { result := r.1, ovr := r.2, valid := at'.1, xfail := at'.2 }
/-- The results of one converter of a run. -/
def injRes (f : Field) (off len : Nat) (ents : List (BitVec 6)) (conv : List (Bool × Bool)) (raws : List (BitVec 16))
    (t : Tab AdcRes) : Tab AdcRes :=
  (List.range 4).foldl (fun (t : Tab AdcRes) k =>
    let old := tabGet AdcRes.reset t (off + k)
    tabSet AdcRes.reset t (off + k)
      (if k < len then f.runRes (ents.getD k 0).toNat (raws.getD k 0) (conv.getD k (false, false)) else { old with valid := false })) t
/-- ADC_INJ_DONE of the run of sequence m whose entry 0 started at count t (R308): every entry has converted; the raw codes of both
converters. -/
def injDone (f : Field) (m : BitVec 2) (t : Count) (rawA rawB : List (BitVec 16)) : Field :=
  let v := f.inj m.toNat
  if !f.coreOn || !v.busy || t ≠ v.tStart || v.conv.length < injNeed v then f
  else
    let r1 := f.injRes 0 v.runLenA.toNat v.runEntA v.conv rawA v.res
    let r2 := f.injRes 4 v.runLenB.toNat v.runEntB v.conv rawB r1
    let f1 := f.setInj m.toNat { v with busy := false, done := true, t := v.tStart.setWidth 32, res := r2 }
    if v.runEvtEn then f1.raiseAt v.runPart 0x32 0 v.tStart [m.setWidth 8] else f1

/-! ### Selectivity rows, with the CLEARED that a direct channel owes -/

/-- FAULT_SEEN (R123). -/
def faultSeenRow (f : Field) (l : BitVec 5) (pos pt : BitVec 6) (fnum : Byte) (opened crcOk : Bool) (lat pres : Nat) : Field :=
  (f.faultSeen l pos pt fnum opened crcOk lat pres).clearSweep
/-- GATHER_DEADLINE (R124). -/
def gatherRow (f : Field) (n : BitVec 16) : Field := (f.gatherDeadline n).clearSweep
/-- BREAKER_FAILURE_EXPIRY (R129). -/
def bfRow (f : Field) (n : BitVec 16) : Field := (f.breakerFailure n).clearSweep
/-- INGEST_UPDATE, with the CLEARED of a direct ancestor that a slow fault has tripped (R133). -/
def ingestRow (f : Field) (x : BitVec 17) : Field := (f.ingestUpdate x).clearSweep

end Field
end Sys2Proof.Machine
end

