-- ==== Sys2Proof/Machine/Nvm.lean ====
section
/-! DEFINITION. The field NVM and the observing log (20): waiting records, the place writer, the token bucket, sector
erases, the start-up scan, image updates and their repair. -/
namespace Sys2Proof.Machine

/-! ### Records and places -/

/-- Record places of the log, and of one log sector (R466). -/
def logPlaces : Nat := 24384
/-- An emergency record: THERMAL_SHUT or a safety record (R468). -/
def logEmerg (t : Byte) : Bool := t = 0x05 || (0x40 ≤ t && t ≤ 0x47)
/-- SEQ of the place after one with SEQ s: 0 and 0xFFFF_FFFF are never taken (R467). -/
def seqNext (s : BitVec 32) : BitVec 32 := if s = 0xFFFFFFFE then 1 else s + 1
/-- The 32 bytes of a record place (R466). -/
def recPlace (seq : BitVec 32) (type : Byte) (emerg : Bool) (ncont : Nat) (boot : BitVec 32) (t : Count) (body : Bytes) : Bytes :=
  let b := le 4 seq ++ [type, BitVec.ofNat 8 ((if emerg then 1 else 0) + 2 * ncont)] ++ toLe boot.toNat 2 ++ le 8 t ++ pad 12 body
  b ++ le 4 (crc32c b)
/-- The 32 bytes of a continuation place (R466). -/
def contPlace (seq : BitVec 32) (body : Bytes) : Bytes :=
  let b := le 4 seq ++ [0x7F] ++ pad 23 body
  b ++ le 4 (crc32c b)
/-- The place after p on the ring, past retired sectors; n bounds the search (R465, R466). -/
def placeAfter (l : Log) : Nat → Nat → Nat
  | 0, p => p
  | n + 1, p =>
    let q := (p + 1) % logPlaces
    if l.retired.contains (q / 127) then placeAfter l n ((q / 127) * 127 + 126) else q
/-- The place after p. -/
def Log.after (l : Log) (p : Nat) : Nat := placeAfter l 193 p
/-- Is a place erased and usable: not programmed, its sector headed and not being erased? -/
def Log.erased (l : Log) (p : Nat) : Bool :=
  (tabLook l.place p).isNone && !l.badHdr.contains (p / 127) && l.erasing ≠ some (p / 127)
/-- Erased places from p on, at most n. -/
def Log.erasedRun (l : Log) : Nat → Nat → Nat
  | 0, _ => 0
  | n + 1, p => if l.erased p then 1 + Log.erasedRun l n (l.after p) else 0
/-- Erased places that follow the last record, at most 256. -/
def Log.room (l : Log) : Nat := l.erasedRun 256 l.next
/-- The n-th place after p. -/
def Log.afterN (l : Log) : Nat → Nat → Nat
  | 0, p => p
  | n + 1, p => Log.afterN l n (l.after p)
/-- Write one place and move on (R467). -/
def Log.put (l : Log) (b : Bytes) : Log :=
  { l with place := tabPut l.place l.next b, next := l.after l.next, seq := seqNext l.seq }
/-- Write a whole entry: the record place, then its continuations. -/
def Log.write (l : Log) (boot : BitVec 32) (r : LogRec) : Log :=
  r.conts.foldl (fun (k : Log) c => k.put (contPlace k.seq c))
    (l.put (recPlace l.seq r.type (logEmerg r.type) r.conts.length boot r.t r.body))
/-- A record waits whose write may start: an emergency record with room, or an ordinary one with 65 erased places from its first. -/
def Log.writable (l : Log) : Bool :=
  match l.emerg, l.ord with
  | r :: _, _ => decide (1 + r.conts.length ≤ l.room)
  | [], r :: _ => decide (65 + r.conts.length ≤ l.room)
  | [], [] => false
/-- Write ordinary records of the scan as they come, ahead of those that wait; where R469 leaves no place they wait, in order. Each
uses a token (R468). -/
def Log.scanned (l : Log) (boot : BitVec 32) : List LogRec → Log
  | [] => l
  | r :: rs =>
    let k := { l with tokens := l.tokens - 1 }
    if l.erasing.isNone && 65 ≤ l.room then (k.write boot r).scanned boot rs
    else { k with ord := (r :: rs) ++ l.ord, tokens := l.tokens - (r :: rs).length }

namespace Field

/-- Change the log. -/
def modLog (f : Field) (g : Log → Log) : Field := { f with nvm := { f.nvm with log := g f.nvm.log } }
/-- Drop a record (R468). -/
def logDrop (f : Field) (type : Byte) : Field :=
  let l := f.nvm.log
  { f with nvm := { f.nvm with
      dropped := satAdd f.nvm.dropped 1,
      log := { l with lostN := l.lostN + 1, lostType := if l.lostN = 0 then type else l.lostType } } }
/-- Records waiting (NVM_STATUS.BUFFERED). -/
def buffered (f : Field) : Nat := f.nvm.log.emerg.length + f.nvm.log.ord.length
/-- A record for the observing log, recognised at t: it waits for a place, or is dropped (R468, R469). -/
def logAt (f : Field) (type : Byte) (t : Count) (body : Bytes) (conts : List Bytes) : Field :=
  let r : LogRec := { type := type, t := t, body := body, conts := conts }
  if logEmerg type then f.modLog (fun l => { l with emerg := l.emerg ++ [r] })
  else if f.nvm.log.tokens = 0 || 256 ≤ f.buffered then f.logDrop type
  else f.modLog (fun l => { l with ord := l.ord ++ [r], tokens := l.tokens - 1 })
/-- A record recognised now. -/
def log (f : Field) (type : Byte) (body : Bytes) : Field := f.logAt type f.now body []
/-- RWC_REFUSED of a window offset and partition (R16). -/
def logRwc (f : Field) (off : Word) (p : Part) : Field := f.log 0x02 (le 4 off ++ [p.setWidth 8])

/-- The NVM works: the die is neither off nor at the end of a BOR. -/
def nvmOn (f : Field) : Bool := f.pwr.st ≠ .thermalOff
/-- Wear management starts an erase of the next log sector where fewer than 192 erased places follow the last record, no
record's write waits and 100 ms have passed since the last start (R43, R45, R469). A record that waits for erased places does not
hold the erase back (log entry 123). -/
def wearStart (f : Field) : Field :=
  let l := f.nvm.log
  let paced := match l.tErase with | some t => t.toNat + 10000000 ≤ f.now.toNat | none => true
  if l.ready && l.room < 192 && !l.writable && l.erasing.isNone && paced then
    f.modLog (fun l => { l with erasing := some (l.afterN l.room l.next / 127), tErase := some f.now })
  else f
/-- A sector is retired (R465): counted and logged. -/
def retire (f : Field) (sector : Nat) : Field :=
  { f with nvm := { f.nvm with retired := satAdd f.nvm.retired 1 } }.log 0x08 [BitVec.ofNat 8 sector]
/-- LOG_WRITE (R467 to R470): the first emergency record, else the first ordinary one, is written where it may be. bad:
the place fails verification twice, its sector is retired and the record still waits (R465). -/
def logWrite (f : Field) (bad : Bool) : Field :=
  let l := f.nvm.log
  if !f.nvmOn || !l.ready then f
  else if bad && (l.emerg ≠ [] || l.ord ≠ []) then
    (f.modLog (fun l =>
      let k := { l with retired := l.next / 127 :: l.retired }
      { k with next := k.after k.next })).retire (64 + l.next / 127)
  else match l.emerg, l.ord with
    | r :: rs, _ =>
      if 1 + r.conts.length ≤ l.room then ({ f with nvm := { f.nvm with log := { l with emerg := rs }.write f.nvm.boot r } }).wearStart
      else f
    | [], r :: rs =>
      if l.erasing.isNone && 64 + 1 + r.conts.length ≤ l.room then
        ({ f with nvm := { f.nvm with log := { l with ord := rs }.write f.nvm.boot r } }).wearStart
      else f.wearStart
    | [], [] => f.wearStart
/-- Unlist every place of a log sector. -/
def clearSector (pl : Tab Bytes) (s : Nat) : Tab Bytes := pl.filter (fun e => e.1 / 127 ≠ s)
/-- Erase a log sector and give it a header (R469, R471). -/
def eraseLogSector (f : Field) (s : Nat) : Field :=
  let n := tabGet 0 f.nvm.log.erases s + 1
  { f with nvm := { f.nvm with
      maxErases := satMax f.nvm.maxErases n,
      log := { f.nvm.log with place := clearSector f.nvm.log.place s, erases := tabSet 0 f.nvm.log.erases s n,
                              badHdr := f.nvm.log.badHdr.filter (· ≠ s) } } }
/-- SECTOR_ERASE_DONE (R469). bad: the erase fails verification twice (R465). -/
def sectorEraseDone (f : Field) (bad : Bool) : Field :=
  match f.nvm.log.erasing with
  | none => f
  | some s =>
    if !f.nvmOn then f
    else
      let f1 := f.modLog (fun l => { l with erasing := none })
      if bad then
        (f1.modLog (fun l => { l with retired := s :: l.retired, place := clearSector l.place s })).retire (64 + s)
      else (f1.eraseLogSector s).wearStart
/-- An interruption of the NVM by a confirmed shutdown or a BOR: a running erase is abandoned, and its sector left
without a header (R471). -/
def nvmAbandon (f : Field) : Field :=
  match f.nvm.log.erasing with
  | none => f
  | some s => f.modLog (fun l => { l with erasing := none, badHdr := s :: l.badHdr, place := clearSector l.place s })
/-- TOKEN_REFILL (R468): a token every 500 ms; the first one after a drop writes a LOST entry. -/
def tokenRefill (f : Field) : Field :=
  let l := f.nvm.log
  if !f.nvmOn || f.now < l.tToken then f
  else
    let f1 := f.modLog (fun l => { l with tokens := min (l.tokens + 1) 256, tToken := l.tToken + 50000000 })
    let f2 := if l.lostN = 0 then f1
      else f1.modLog (fun k => { k with
        lostN := 0, ord := k.ord ++ [{ type := 0x07, t := f.now, body := toLe l.lostN 4 ++ [l.lostType], conts := [] }] })
    f2.wearStart

/-! ### The scan (R471) and reading (R472) -/

/-- SEQ, TYPE and NCONT of a place. -/
def placeSeq (b : Bytes) : BitVec 32 := u32 b 0
/-- The CRC of a place passes. -/
def placeOk (b : Bytes) : Bool := crc32c (b.take 28) = u32 b 28
/-- A valid record place. -/
def isRec (b : Bytes) : Bool := placeOk b && u8 b 4 ≠ 0x7F && u8 b 4 ≠ 0
/-- NCONT of a record place. -/
def ncont (b : Bytes) : Nat := (bits (u8 b 5) 1 2).toNat
/-- Are the n places after p valid continuations that go on from SEQ s? -/
def contsOk (l : Log) : Nat → Nat → BitVec 32 → Bool
  | 0, _, _ => true
  | n + 1, p, s => match tabLook l.place (l.after p) with
    | some b => placeOk b && u8 b 4 = 0x7F && placeSeq b = seqNext s && contsOk l n (l.after p) (seqNext s)
    | none => false
/-- Places of the whole entry that begins at p, in order; none where no whole entry begins there. -/
def entryAt (l : Log) (p : Nat) (b : Bytes) : List Nat :=
  if isRec b && ncont b ≤ 2 && contsOk l (ncont b) p (placeSeq b) then (List.range (ncont b + 1)).map (fun i => l.afterN i p) else []
/-- The places that belong to whole entries. -/
def wholePlaces (l : Log) : List Nat := (l.place.map (fun e => entryAt l e.1 e.2)).flatten
/-- LOG_SCAN (R471): torn places are voided, sectors without a header erased again, BOOT and TORN_REPAIR written, and the
log is ready. -/
def logScan (f : Field) : Field :=
  if f.nvm.log.ready || f.pwr.st = .thermalOff || f.pwr.st = .reset then f
  else
    let whole := wholePlaces f.nvm.log
    let torn := f.nvm.log.place.filter (fun e => !whole.contains e.1 && e.2 ≠ zeros 32)
    let bad := f.nvm.log.badHdr
    let f1 := f.modLog (fun l => { l with
      place := l.place.map (fun e => if whole.contains e.1 then e else (e.1, zeros 32)), ready := true })
    let f2 := bad.foldl (fun (g : Field) s => g.eraseLogSector s) f1
    let f3 := { f2 with nvm := { f2.nvm with torn := satAdd f2.nvm.torn torn.length } }
    let boot : LogRec := { type := 0x01, t := f3.now, body := [f3.pwr.rstLast.setWidth 8], conts := [] }
    let repair : LogRec := { type := 0x06, t := f3.now, body := toLe torn.length 2 ++ [BitVec.ofNat 8 bad.length], conts := [] }
    f3.modLog (fun l => l.scanned f3.nvm.boot (if torn = [] && bad = [] then [boot] else [boot, repair]))
/-- The last SEQ written (NVM_LOG_HEAD): 0 before the first record. -/
def logHead (f : Field) : Word :=
  if f.nvm.log.seq = 1 then 0 else f.nvm.log.seq - 1
/-- The oldest SEQ present (NVM_LOG_TAIL): 0 where none is. -/
def logTail (f : Field) : Word :=
  let l := f.nvm.log
  let ss := (wholePlaces l).map (fun p => placeSeq (tabGet [] l.place p))
  match ss with
  | [] => 0
  | s :: r => r.foldl (fun m x => if x < m then x else m) s
/-- The 32 bytes of the place that holds a SEQ: zeros where it is not present or not part of a whole entry (R472). -/
def logSeek (f : Field) (s : Word) : Bytes :=
  let l := f.nvm.log
  match (wholePlaces l).find? (fun p => placeSeq (tabGet [] l.place p) = s) with
  | some p => tabGet [] l.place p
  | none => zeros 32
/-- The last THERMAL_SHUT record of the log: site, first and confirming reading (R471). -/
def lastThermal (f : Field) : Byte × BitVec 16 × BitVec 16 :=
  let l := f.nvm.log
  let bs := (l.place.filter (fun e => (entryAt l e.1 e.2) ≠ [] && u8 e.2 4 = 0x05)).map (·.2)
  match bs with
  | [] => (0xFF, 0, 0)
  | b :: r =>
    let m := r.foldl (fun (a : Bytes) x => if placeSeq a < placeSeq x then x else a) b
    (u8 m 16, u16 m 17, u16 m 19)

/-! ### Counters and images -/

/-- One increment of an N-class counter programs a place of the counter area; a full sector is left for the next, with
the counters copied and the full one erased. -/
def counterPlace (f : Field) : Field :=
  let n := f.nvm
  if n.ctrUsed < 127 then { f with nvm := { n with ctrUsed := n.ctrUsed + 1 } }
  else
    let e := tabGet 0 n.erases n.ctrSector + 1
    { f with nvm := { n with ctrSector := 8 + (n.ctrSector - 7) % 8, ctrUsed := 5, erases := tabSet 0 n.erases n.ctrSector e,
                             maxErases := satMax n.maxErases e } }
end Field

/-- The copy an image gives at a start, and the image after its repair (R463). -/
def Img.start (item : Nat) (i : Img) : Option Bytes × Img :=
  let fromA := (some i.a.payload, { i with b := ImgCopy.of item 1 i.a.gen i.a.payload })
  let fromB := (some i.b.payload, { i with a := ImgCopy.of item 0 i.b.gen i.b.payload })
  if i.a.valid item 0 then
    if i.b.valid item 1 then (if i.a.gen < i.b.gen then fromB else if i.a.gen = i.b.gen then (some i.a.payload, i) else fromA) else fromA
  else if i.b.valid item 1 then fromB
  else (none, i)
/-- The sector that the repair at a start erases. -/
def Img.repaired (item : Nat) (i : Img) : Option Nat :=
  if (i.start item).2 = i then none else some (2 * item + (if (i.start item).2.a = i.a then 1 else 0))
/-- Both copies after an update: GEN one above the higher of the two (R462). -/
def Img.update (item : Nat) (i : Img) (p : Bytes) : Img :=
  let g := (if i.a.gen < i.b.gen then i.b.gen else i.a.gen) + 1
  { a := ImgCopy.of item 0 g p, b := ImgCopy.of item 1 g p }
/-- The copy an update programs first, 0 or 1: an invalid one, or the one of the lower GEN, or A (R462, step 1). -/
def Img.first (item : Nat) (i : Img) : Nat :=
  if i.a.valid item 0 && (!i.b.valid item 1 || i.b.gen < i.a.gen) then 1 else 0

/-- One more erase of a sector. -/
def FNvm.erase (n : FNvm) (s : Nat) : FNvm :=
  let e := tabGet 0 n.erases s + 1
  { n with erases := tabSet 0 n.erases s e, maxErases := satMax n.maxErases e }
/-- The field NVM after the read of its images at a start: the repairs made, LOST set as R464 has it. -/
def FNvm.start (n : FNvm) : FNvm :=
  let ca := n.calib.start 0
  let lk := n.lock.start 1
  let sf := n.safety.start 2
  let cr := n.cregs.start 3
  let worn := [n.calib.repaired 0, n.lock.repaired 1, n.safety.repaired 2, n.cregs.repaired 3].filterMap id
  { worn.foldl FNvm.erase n with
    calib := ca.2, lock := lk.2, safety := sf.2, cregs := cr.2,
    lost := BitVec.ofBool cr.1.isNone ++ BitVec.ofBool sf.1.isNone ++ BitVec.ofBool lk.1.isNone ++ BitVec.ofBool ca.1.isNone }

namespace Field
/-- A field image by item. -/
def img (f : Field) (item : Nat) : Img :=
  if item = 0 then f.nvm.calib else if item = 1 then f.nvm.lock else if item = 2 then f.nvm.safety else f.nvm.cregs
/-- Write a field image. -/
def setImg (f : Field) (item : Nat) (i : Img) : Field :=
  { f with nvm := { f.nvm with
      calib := if item = 0 then i else f.nvm.calib, lock := if item = 1 then i else f.nvm.lock,
      safety := if item = 2 then i else f.nvm.safety, cregs := if 3 ≤ item then i else f.nvm.cregs } }
/-- Start an update of an image: it waits behind an earlier one of the same image (R462). -/
def imgStart (f : Field) (item : Nat) (p : Bytes) : Field :=
  { f with nvm := { f.nvm with upd := f.nvm.upd ++ [{ item := item, payload := p }] } }
/-- Remove the first waiting update of an item. -/
def takeUpd (item : Nat) : List ImgUpd → Option (ImgUpd × List ImgUpd)
  | [] => none
  | u :: r => if u.item = item then some (u, r)
    else match takeUpd item r with | some (v, r') => some (v, u :: r') | none => none
/-- One more erase of a sector. -/
def addErase (f : Field) (s : Nat) : Field := { f with nvm := f.nvm.erase s }
end Field
end Sys2Proof.Machine
end

