-- ==== Sys2Proof/Machine/Meridian.lean ====
section
/-! DEFINITION. Meridian (12): the tick, wide reads and staged writes, station time and its slew, PPS, holdover, compare
channels, pin compares and down-counters. -/
namespace Sys2Proof.Machine
namespace Field

/-! ### Access -/

/-- Meridian runs: everywhere but in THERMAL-OFF (R312). -/
def merOn (f : Field) : Bool := f.pwr.st ≠ .thermalOff
/-- A compare channel. -/
def cmp (f : Field) (n : Nat) : Cmp := tabGet Cmp.reset f.mer.cmp n
/-- Write a compare channel. -/
def setCmp (f : Field) (n : Nat) (c : Cmp) : Field := { f with mer := { f.mer with cmp := tabSet Cmp.reset f.mer.cmp n c } }
/-- A pin compare. -/
def pcmp (f : Field) (m : Nat) : Pcmp := tabGet Pcmp.reset f.mer.pcmp m
/-- Write a pin compare. -/
def setPcmp (f : Field) (m : Nat) (c : Pcmp) : Field :=
  { f with mer := { f.mer with pcmp := tabSet Pcmp.reset f.mer.pcmp m c } }
/-- A down-counter. -/
def dct (f : Field) (k : Nat) : Dct := tabGet Dct.reset f.mer.dct k
/-- Write a down-counter. -/
def setDct (f : Field) (k : Nat) (d : Dct) : Field := { f with mer := { f.mer with dct := tabSet Dct.reset f.mer.dct k d } }
/-- What Meridian keeps for a partition. -/
def merPart (f : Field) (p : Part) : MerPart := tabGet MerPart.reset f.mer.part p.toNat
/-- Write what Meridian keeps for a partition. -/
def setMerPart (f : Field) (p : Part) (m : MerPart) : Field :=
  { f with mer := { f.mer with part := tabSet MerPart.reset f.mer.part p.toNat m } }
/-- Bits [63:32] of a 64-bit value. -/
def hi32 (x : BitVec 64) : Word := bits x 32 32
/-- A 64-bit value from its HI and LO words. -/
def wide (hi lo : Word) : BitVec 64 := hi ++ lo

/-! ### Wide values (R313, R315) -/

/-- The value a LO register reads from. -/
def wideValue (f : Field) : WideReg → BitVec 64
  | .cnt => f.mer.count
  | .stn => f.station
  | .pps => f.mer.pps
/-- WIDE_LO_READ (R313): bits [31:0] are returned, and bits [63:32] go to the partition's latch. -/
def wideLoRead (f : Field) (p : Part) (r : WideReg) : Field × Word :=
  let v := f.wideValue r
  let m := f.merPart p
  let m1 : MerPart := match r with
    | .cnt => { m with cntHi := hi32 v }
    | .stn => { m with stnHi := hi32 v }
    | .pps => { m with ppsHi := hi32 v }
  (f.setMerPart p m1, bits v 0 32)
/-- A commit of MER_STO: a step of station time, which ends the demand interval and any slew (R321, R225). -/
def stoCommit (f : Field) (v : BitVec 64) : Field :=
  let f1 := f.demandEnd f.now true
  let f2 := { f1 with mer := { f1.mer with sto := v, slew := 0 } }
  { f2 with firn := { f2.firn with demIdx := f2.station.toNat / demandTicks } }
/-- Stage a LO word of MER_STO (R315). -/
def stoStage (f : Field) (p : Part) (v : Word) : Field :=
  if f.commissioner p then f.setMerPart p { f.merPart p with stoLo := some v } else f
/-- Commit MER_STO. -/
def stoHi (f : Field) (p : Part) (v : Word) : Field :=
  if f.commissioner p then
    let m := f.merPart p
    let lo := m.stoLo.getD (bits f.mer.sto 0 32)
    (f.setMerPart p { m with stoLo := none }).stoCommit (wide v lo)
  else f
/-- May a partition write a compare channel: CMP8 to CMP23, by its owner (R326, R328)? -/
def ownsCmp (f : Field) (p : Part) (n : Nat) : Bool := decide (8 ≤ n) && decide (n < 24) && (f.cmp n).owner = some p
/-- Stage a LO word of MER_CMP. -/
def cmpStage (f : Field) (p : Part) (n : Nat) (v : Word) : Field :=
  if f.ownsCmp p n then f.setMerPart p { f.merPart p with cmpLo := tabPut (f.merPart p).cmpLo n v } else f
/-- Commit MER_CMP. -/
def cmpHi (f : Field) (p : Part) (n : Nat) (v : Word) : Field :=
  if f.ownsCmp p n then
    let m := f.merPart p
    let lo := (tabLook m.cmpLo n).getD (bits (f.cmp n).v 0 32)
    (f.setMerPart p { m with cmpLo := tabDel m.cmpLo n }).setCmp n { f.cmp n with v := wide v lo }
  else f
/-- Stage a LO word of MER_PCMP. -/
def pcmpStage (f : Field) (p : Part) (n : Nat) (v : Word) : Field :=
  if f.commissioner p then f.setMerPart p { f.merPart p with pcmpLo := tabPut (f.merPart p).pcmpLo n v } else f
/-- Commit MER_PCMP. -/
def pcmpHi (f : Field) (p : Part) (n : Nat) (v : Word) : Field :=
  if f.commissioner p then
    let m := f.merPart p
    let lo := (tabLook m.pcmpLo n).getD (bits (f.pcmp n).v 0 32)
    (f.setMerPart p { m with pcmpLo := tabDel m.pcmpLo n }).setPcmp n { f.pcmp n with v := wide v lo }
  else f
/-- Stage PWR_WAKE_LO (19). -/
def wakeStage (f : Field) (p : Part) (v : Word) : Field :=
  if f.operator p || f.commissioner p then { f with pwr := { f.pwr with wakeLo := tabPut f.pwr.wakeLo p.toNat v } } else f
/-- Commit PWR_WAKE (19). -/
def wakeHi (f : Field) (p : Part) (v : Word) : Field :=
  if f.operator p || f.commissioner p then
    let lo := (tabLook f.pwr.wakeLo p.toNat).getD (bits f.pwr.wakeAt 0 32)
    { f with pwr := { f.pwr with wakeLo := tabDel f.pwr.wakeLo p.toNat, wakeAt := wide v lo } }
  else f
/-- HI_WRITE_COMMIT (R315): a write of a HI register of MER_STO, MER_CMP, MER_PCMP or PWR_WAKE by its field-window
offset. -/
def hiWriteCommit (f : Field) (p : Part) (off v : Word) : Field :=
  let o := off.toNat
  if o = 0x16014 then f.stoHi p v
  else if 0x16100 ≤ o && o < 0x16280 && o % 16 = 4 then f.cmpHi p ((o - 0x16100) / 16) v
  else if 0x16300 ≤ o && o < 0x16380 && o % 16 = 4 then f.pcmpHi p ((o - 0x16300) / 16) v
  else if o = 0x3000C then f.wakeHi p v
  else f
/-- MER_SLEW (R321): the amount that remains is replaced. -/
def merSlew (f : Field) (p : Part) (v : Word) : Field :=
  if f.commissioner p then { f with mer := { f.mer with slew := v } } else f
/-- SLEW_STEP (R321): at a count that is a multiple of 10,000 one tick moves into the offset. -/
def slewStep (f : Field) : Field :=
  let m := f.mer
  if !f.merOn || m.slew = 0 || m.count.toNat % 10000 ≠ 0 || m.slewAt = some m.count then f
  else if bit m.slew 31 then { f with mer := { m with sto := m.sto - 1, slew := m.slew + 1, slewAt := some m.count } }
  else { f with mer := { m with sto := m.sto + 1, slew := m.slew - 1, slewAt := some m.count } }

/-! ### Losing REFCLK (R316 to R318) -/

/-- REFCLK_LOST: Meridian enters holdover (R316, R317); in holdover the 1 ms of R318 starts again. -/
def refclkLost (f : Field) : Field :=
  if !f.merOn then f
  else if f.mer.holdover then { f with mer := { f.mer with holdAt := f.now } }
  else
    ({ f with mer := { f.mer with holdover := true, holdEntries := satAdd f.mer.holdEntries 1, holdAt := f.now,
                                  holdOwed := f.mer.holdOwed ++ [f.now] },
                trn := { f.trn with st := if f.trn.st = LinkState.up then LinkState.down else f.trn.st },
                sec := { f.sec with comm := false } }).log 0x04 []
/-- Every enabled lane starts training. -/
def retrainLanes (f : Field) : Field :=
  (f.lan.lane.filter (fun e => e.2.en)).foldl (fun (g : Field) e => g.train (BitVec.ofNat 5 e.1)) f
/-- Transit starts training. -/
def trainLink (f : Field) : Field := { f with trn := { f.trn with st := .train, trainSent := false } }
/-- Firn has its clock again: what was held while it was unavailable is applied (R343). -/
def firnClock (f : Field) : Field := if f.firn.st = .ready then f.meterReady else f
/-- REFCLK_RESTORED: after 1 ms in tolerance Meridian leaves holdover, and the lanes and Transit start training (R318). -/
def refclkRestored (f : Field) : Field :=
  if !f.merOn || !f.mer.holdover || f.now.toNat < f.mer.holdAt.toNat + 100000 then f
  else
    let f1 := { f with mer := { f.mer with holdover := false } }
    if !f1.coreOn then f1
    else
      (f1.retrainLanes.trainLink).firnClock

/-! ### Compare channels (R322 to R327) -/

/-- The interval of CMP3 (R355): PERIOD is 1,440 where it is 0, and in QUIET (19). -/
def ploughItv (f : Field) : Nat :=
  let p := if f.pwr.st = .quiet || f.firn.period = 0 then 1440 else f.firn.period.toNat
  p * 6000000000 / (max 1 f.firn.capGib.toNat * 262144)
/-- The interval that CMP4 applies (R327). -/
def tlmItv (f : Field) : Nat :=
  min ((f.cmp 4).itv.toNat * (if f.pwr.step1 then 2 else 1) * (if f.pwr.st = .quiet then 16 else 1)) 3200000000
/-- The interval a channel applies at its fire. -/
def cmpItv (f : Field) (n : Nat) : Nat := if n = 3 then f.ploughItv else if n = 4 then f.tlmItv else (f.cmp n).itv.toNat
/-- V, EN and the periods skipped after a fire at count t (R324). -/
def nextFire (v t itv : Nat) : Count × Bool × Nat :=
  if itv = 0 then (BitVec.ofNat 64 v, false, 0)
  else
    let n := (t - v) / itv
    (BitVec.ofNat 64 (v + itv * (n + 1)), true, n)
/-- A master event: it acts on its slaves at the next tick (R332). -/
def masterEvent (f : Field) (sel : Nat) : Field :=
  { f with mer := { f.mer with
      dct := tabMap Dct.reset f.mer.dct (fun _ d =>
        if d.run && (d.mode = 1 || d.mode = 3) && d.msel.toNat = sel then { d with masterEv := true } else d) } }
/-- Does a system compare act: in every running state, and CMP0, CMP2 and CMP5 in STANDBY and in a warm reset (R451, R409,
R431)? -/
def sysActs (f : Field) (n : Nat) : Bool := f.coreOn || n = 0 || n = 2 || n = 5
/-- What a fire of channel n brings, after the channel's own fields are written (R325, R326, R336). -/
def cmpActs (f : Field) (n : Nat) (c : Cmp) : Field :=
  if n = 7 then
    if f.coreOn && f.trn.st = .up then f.sendCtl { type := 0x05, part := 0x80, tag := 0, payload := le 8 f.now } else f
  else if n < 8 then
    if f.sysActs n then { f with mer := { f.mer with sysDue := f.mer.sysDue ||| BitVec.ofNat 8 (2 ^ n) } } else f
  else
    let f1 := f.masterEvent (16 + (n - 8))
    if !f1.coreOn then f1
    else
      let f2 := f1.injSource n
      match c.owner with
      | some p => if c.evtEn then f2.raise p 0x30 0 [BitVec.ofNat 8 n, c.missed] else f2
      | none => f2
/-- COMPARE_FIRE of CMPn: EN is 1 and V lies at or behind the count (R322). -/
def compareFire (f : Field) (n : BitVec 5) : Field :=
  let i := n.toNat
  let c := f.cmp i
  if !f.merOn || !c.en || f.now < c.v then f
  else
    let r := nextFire c.v.toNat f.now.toNat (f.cmpItv i)
    let c1 := { c with v := r.1, en := r.2.1, missed := satAdd c.missed r.2.2, fired := true }
    (f.setCmp i c1).cmpActs i c1
/-- Take the due mark of a system compare: none where it has not fired. -/
def takeSys (f : Field) (n : Nat) : Option Field :=
  if bit f.mer.sysDue n then some { f with mer := { f.mer with sysDue := f.mer.sysDue &&& ~~~ BitVec.ofNat 8 (2 ^ n) } } else none
/-- PCMP_FIRE of PCMPm (R330, R331). -/
def pcmpFire (f : Field) (m : BitVec 3) : Field :=
  let c := f.pcmp m.toNat
  if !f.merOn || !c.en || f.now < c.v then f
  else
    let r := nextFire c.v.toNat f.now.toNat c.itv.toNat
    f.setPcmp m.toNat { c with v := r.1, en := r.2.1, missed := satAdd c.missed r.2.2, fired := true,
                               level := if c.action = 0 then true else if c.action = 1 then false else !c.level }
/-- A write of MER_CMP_ITV (R325, R326). -/
def cmpItvWrite (f : Field) (p : Part) (n : Nat) (v : Word) : Field :=
  let x := v.toNat
  let ok : Bool := if n = 1 then f.commissioner p && 100 ≤ x && x ≤ 100000
    else if n = 4 then f.commissioner p && 100000 ≤ x && x ≤ 100000000
    else if n = 6 then f.commissioner p && 50000 ≤ x && x ≤ 100000000
    else f.ownsCmp p n && (x = 0 || 100 ≤ x)
  if ok then f.setCmp n { f.cmp n with itv := v } else f
/-- TIMER_CLAIM (R328): an unowned timer goes to a partition with OPERATOR or COMMISSIONER. -/
def timerClaim (f : Field) (p : Part) (t : Timer) : Field :=
  if !(f.operator p || f.commissioner p) then f
  else match t with
    | .cmp n => if 8 ≤ n.toNat && n.toNat < 24 && (f.cmp n.toNat).owner = none then
        f.setCmp n.toNat { f.cmp n.toNat with owner := some p } else f
    | .dct k => if (f.dct k.toNat).owner = none then f.setDct k.toNat { f.dct k.toNat with owner := some p } else f
/-- A compare channel given up. -/
def cmpFree (c : Cmp) : Cmp := { c with owner := none, en := false }
/-- A down-counter given up. -/
def dctFree (d : Dct) : Dct := { d with owner := none, run := false }
/-- TIMER_RELEASE (R328): the owner gives the timer up, and it stops. -/
def timerRelease (f : Field) (p : Part) (t : Timer) : Field :=
  match t with
  | .cmp n => if (f.cmp n.toNat).owner = some p then f.setCmp n.toNat (cmpFree (f.cmp n.toNat)) else f
  | .dct k => if (f.dct k.toNat).owner = some p then f.setDct k.toNat (dctFree (f.dct k.toNat)) else f
/-- A PART reset of the owner gives its timers up (R328). -/
def timersOf (f : Field) (p : Part) : Field :=
  { f with mer := { f.mer with
      cmp := tabMap Cmp.reset f.mer.cmp (fun _ c => if c.owner = some p then cmpFree c else c),
      dct := tabMap Dct.reset f.mer.dct (fun _ d => if d.owner = some p then dctFree d else d) } }
/-- A write of MER_CMP_CTL (R328): a CLAIM by a partition that does not own the channel only claims. -/
def cmpCtlWrite (f : Field) (p : Part) (n : BitVec 5) (v : Word) : Field :=
  if !f.ownsCmp p n.toNat then (if bit v 31 then f.timerClaim p (.cmp n) else f)
  else if bit v 30 then f.timerRelease p (.cmp n)
  else
    let c := f.cmp n.toNat
    f.setCmp n.toNat { c with en := bit v 0, evtEn := bit v 1, fired := c.fired && !bit v 2 }
/-- A write of MER_PCMP_ITV: the layout and ranges of MER_CMP_ITV, access as R331. -/
def pcmpItvWrite (f : Field) (p : Part) (m : Nat) (v : Word) : Field :=
  if f.commissioner p && (v = 0 || 100 ≤ v.toNat) then f.setPcmp m { f.pcmp m with itv := v } else f
/-- A write of MER_PCMP_CTL (R330, R331). -/
def pcmpCtlWrite (f : Field) (p : Part) (m : Nat) (v : Word) : Field :=
  if f.commissioner p then
    let c := f.pcmp m
    let act : BitVec 2 := bits v 1 2
    let c1 := { c with en := bit v 0, action := if act = 3 then c.action else act, init := bit v 3, fired := c.fired && !bit v 5 }
    f.setPcmp m (if c1.en then c1 else { c1 with level := c1.init })
  else f

/-! ### Down-counters (R332 to R335) -/

/-- What RELOAD gives at a reload: with AUTO, a value below 99 is taken as 99 (R333). -/
def reloadOf (d : Dct) : BitVec 32 := if d.reload.toNat < 99 then 99 else d.reload
/-- Has a counter a decrement opportunity at the tick of count t? master: its master DCT before this tick. -/
def opportunity (d master : Dct) (t : Nat) : Bool :=
  d.run && (if d.mode = 3 then d.masterEv
    else t % 2 ^ d.prescale.toNat = 0 &&
      (if d.mode = 0 then true else if d.mode = 1 then d.started || d.masterEv else master.run && master.count ≠ 0))
/-- One tick of a counter (R332 to R334). -/
def dctStep (d master : Dct) (t : Nat) : Dct :=
  let d1 := { d with masterEv := false, reloaded := false, stopped := false, started := d.started || (d.masterEv && d.mode = 1) }
  if !opportunity d master t then d1
  else if d1.count = 0 then
    if d1.loaded0 then { d1 with loaded0 := false, fireDue := true }
    else if d1.auto then { d1 with count := reloadOf d1, reloaded := true }
    else { d1 with run := false, stopped := true }
  else { d1 with count := d1.count - 1, fireDue := d1.count = 1 }
/-- Every counter's tick, each from the counters before it (R332). -/
def dctTick (t : Nat) (ds : Tab Dct) : Tab Dct :=
  tabMap Dct.reset ds (fun _ d => dctStep d (tabGet Dct.reset ds d.msel.toNat) t)
/-- The fire of DCTk (R333, R336). -/
def dctFire (f : Field) (k : Nat) : Field :=
  let d := f.dct k
  let f1 := (f.setDct k { d with zero := true, fireDue := false }).masterEvent k
  if !f1.coreOn then f1
  else
    let f2 := f1.injSource (32 + k)
    match d.owner with
    | some p => if d.evtEn then f2.raise p 0x31 0 [BitVec.ofNat 8 k] else f2
    | none => f2
/-- DCT_ZERO of DCTk: COUNT has become 0 (R333). -/
def dctZero (f : Field) (k : BitVec 4) : Field := if (f.dct k.toNat).fireDue then f.dctFire k.toNat else f
/-- A write of MER_DCT_CTL by the owner (R328, R332 to R335). A LOAD at the tick of a master event in CASCADE wins: the event
does not decrement, and so does not fire. RUN written 0 at the tick of a reload leaves COUNT at 0; a LOAD at the tick at which AUTO 0
stops a counter goes before the stop. -/
def dctCtlWrite (f : Field) (p : Part) (k : BitVec 4) (v : Word) : Field :=
  let d := f.dct k.toNat
  let msel : BitVec 6 := bits v 10 6
  let mode : BitVec 2 := bits v 8 2
  if d.owner ≠ some p then (if bit v 31 then f.timerClaim p (.dct k) else f)
  else if bit v 30 then f.timerRelease p (.dct k)
  else if msel.toNat = k.toNat || (mode = 2 && 15 < msel.toNat) || 32 < msel.toNat then f
  else
    let d1 := { d with run := bit v 0, auto := bit v 1, evtEn := bit v 3, prescale := bits v 4 4, mode := mode, msel := msel,
                       zero := d.zero && !bit v 16, started := d.started && (d.run || (d.stopped && bit v 2)) }
    f.setDct k.toNat
      (if bit v 2 then { d1 with count := d1.reload, loaded0 := d1.reload = 0, fireDue := d.fireDue && d.mode ≠ 3, stopped := false,
                                 reloaded := false }
       else if !d1.run && d.reloaded then { d1 with count := 0 } else d1)
/-- LOAD (R334, R335): a write of MER_DCT_CTL whose LOAD bit is 1. -/
def dctLoad (f : Field) (p : Part) (k : BitVec 4) (v : Word) : Field := f.dctCtlWrite p k (v ||| 4)
/-- A write of MER_DCT_RELOAD. -/
def dctReloadWrite (f : Field) (p : Part) (k : Nat) (v : Word) : Field :=
  if (f.dct k).owner = some p then f.setDct k { f.dct k with reload := v } else f

/-! ### PPS (R319, R320) -/

/-- The tolerance that applies. -/
def ppsTol (f : Field) : Nat := if f.mer.ppsTol = 0 then 10000 else f.mer.ppsTol.toNat
/-- PPS_EDGE: an edge is accepted and latched, or rejected (R319, R320). -/
def ppsEdge (f : Field) : Field :=
  let m := f.mer
  let d := m.count.toNat - m.pps.toNat
  if !f.merOn || !m.ppsEn then f
  else if m.ppsEdges ≠ 0 && d ≤ 100000 then { f with mer := { m with ppsBad := satAdd m.ppsBad 1 } }
  else
    let near : Bool := 100000000 ≤ d + f.ppsTol && d ≤ 100000000 + f.ppsTol
    let bad : Bool := m.ppsEdges ≠ 0 && !near
    ({ f with mer := { m with
      pps := m.count, ppsFrom := m.count, ppsEdges := min (m.ppsEdges + 1) 2, ppsLost := false,
      ppsOk := m.ppsEdges ≠ 0 && near, ppsBad := if bad then satAdd m.ppsBad 1 else m.ppsBad } }).masterEvent 32
/-- PPS_LOST: 100,000,000 + TOL ticks have passed with no accepted edge (R320). -/
def ppsLost (f : Field) : Field :=
  let m := f.mer
  if !f.merOn || !m.ppsEn || m.ppsLost || m.count.toNat < m.ppsFrom.toNat + 100000000 + f.ppsTol then f
  else
    let f1 := { f with mer := { m with ppsOk := false, ppsLost := true } }
    if f1.coreOn then f1.raiseAll 0x39 [] else f1
/-- A write of MER_PPS_CFG. -/
def ppsCfgWrite (f : Field) (p : Part) (v : Word) : Field :=
  if f.commissioner p then
    let m := f.mer
    let m1 := { m with ppsEn := bit v 0, ppsTol := bits v 16 16 }
    { f with mer := if bit v 0 && !m.ppsEn then { m1 with ppsEdges := 0, ppsFrom := m.count, ppsLost := false, ppsOk := false }
                    else if !bit v 0 then { m1 with ppsOk := false } else m1 }
  else f

/-! ### Resets and the tick -/

/-- A field-die warm reset (R311, R329, R331): the count, the system compares' values, the pin compares and the P fields
stay, the latches and staged words of P fields with them; W and T fields are cleared (log entry 116). -/
def merWarm (m : Mer) (now : Count) : Mer :=
  { m with ppsOk := false, ppsBad := 0, pps := 0, ppsEdges := 0, ppsFrom := now, ppsLost := false,
           part := tabMap MerPart.reset m.part (fun _ q => { q with ppsHi := 0, cmpLo := [] }),
           cmp := tabMap Cmp.reset m.cmp (fun n c => if n < 8 then { c with fired := false, missed := 0 } else Cmp.reset), dct := [],
           sysDue := 0 }
/-- Fire every counter whose fire is still due: it precedes the next tick. -/
def dctFires (f : Field) : Field :=
  (f.mer.dct.filter (fun e => e.2.fireDue)).foldl (fun (g : Field) e => g.dctFire e.1) f
/-- One tick of Meridian (R310, R330, R332): the count advances by 1, the down-counters count, and a pin compare with EN 0
drives INIT. -/
def merTick (f : Field) : Field :=
  if !f.merOn then f
  else
    let g := f.dctFires
    let t := g.mer.count + 1
    { g with mer := { g.mer with
        count := t, dct := dctTick t.toNat g.mer.dct,
        pcmp := tabMap Pcmp.reset g.mer.pcmp (fun _ c => if c.en then c else { c with level := c.init }) } }

end Field
end Sys2Proof.Machine
end

