-- ==== Sys2Proof/Machine/Firn.lean ====
section
/-! DEFINITION. Firn (13): availability and link retries, poison and failed devices, Plough's patrol, the on-chip scrub and the recovery of lost
entries. -/
namespace Sys2Proof.Machine
namespace Field

/-! ### Availability (R342 to R344) -/

/-- FILL_DONE: the history region is filled, and the patrol may start (R342, R357). -/
def fillDone (f : Field) : Field :=
  if f.firnOn && !f.firn.filled then { f with firn := { f.firn with filled := true } } else f
/-- CA_PARITY_ALERT (R344): an access is rejected by CA parity, or by write CRC where wcrc, where that is enabled (R340); first: it is
the access's first issue. In training it is the training that fails. -/
def caParityAlert (f : Field) (wcrc first : Bool) : Field :=
  let m := f.firn
  if !(if wcrc then m.wrCrcNow else m.caParNow) then f
  else if m.st = .ready then
    let n := (if first then 0 else m.accFails) + 1
    if 4 ≤ n then { f with firn := { m with st := .train, accFails := 0, trainFails := 0 } }
    else { f with firn := { m with accFails := n, caRetry := if wcrc then m.caRetry else satAdd m.caRetry 1,
                                   wcRetry := if wcrc then satAdd m.wcRetry 1 else m.wcRetry } }
  else if m.st = .train then
    { f with firn := { m with trainFails := m.trainFails + 1, st := if 1 ≤ m.trainFails then .failed else .train } }
  else f
/-- Firn goes to self-refresh, at a warm reset or in STANDBY (R343, R450). -/
def firnSleep (f : Field) : Field :=
  if f.firn.st = .failed then f else { f with firn := { f.firn with st := .selfRefresh, accFails := 0, trainFails := 0 } }
/-- Firn leaves self-refresh and retrains (R343). -/
def firnWake (f : Field) : Field := if f.firn.st = .selfRefresh then { f with firn := { f.firn with st := .train } } else f

/-! ### Plough (R355 to R357) -/

/-- The codewords of the running block that do not stand as they were written, in rising order: of every other the patrol reads what
was written, and nothing follows. -/
def blockCws (f : Field) : List Nat :=
  let b := f.firn.block.toNat * 128
  (List.range 128).map (· + b) |>.filter (fun c => !f.sound c)
/-- PLOUGH_BLOCK (R355, R356): pats gives errors that have appeared in the store, by codeword; at a CMP3 fire the next block is
patrolled. -/
def ploughBlock (f : Field) (pats : List (BitVec 31 × Bytes)) : Field :=
  let fd := pats.foldl (fun (g : Field) e => if e.1.toNat < g.firnCws then g.damage e.1.toNat e.2 else g) f
  match fd.takeSys 3 with
  | none => fd
  | some f0 =>
    if !f0.firnOn || !f0.firn.filled then f0
    else
      let f1 := f0.readCws f0.blockCws
      let m := f1.firn
      if f1.firnBlocks ≤ m.block.toNat + 1 then { f1 with firn := { m with block := 0, passes := m.passes + 1, passCe := [] } }
      else { f1 with firn := { m with block := m.block + 1 } }

/-! ### The on-chip scrub (R43, R350, R351) -/

/-- The entry that replaces a lost Névé entry (R351): what the record does not give is a free value (log entry 41). -/
def rebuilt (e : Nev) (fr : ChRec) (p : Bytes) (free : BitVec 64) : Nev :=
  { e with fbSync := false, pickup := 0, therm := fr.thermSnap, stCnt := 0, ovCnt := 0, uvCnt := 0, instCnt := 0, miss := 0,
           disPend := false, disRaised := false, staleRaised := false, satRaised := false, tok := 0, rcnt := u8 p 48,
           iLast := bits free 0 16, vLast := bits free 16 12, status := bits free 28 4, dir := bit free 32, sfnLow := bits free 40 8 }
/-- When the scrub reads its position i, in the pass that began at scrubFrom: all 135,168 in 1 s (R43). -/
def scrubAt (f : Field) : Count := f.nev.scrubFrom + BitVec.ofNat 64 (f.nev.scrubPos * 100000000 / 135168)
/-- The scrub goes on from now at its position, after a time in which the core stood still (R43). -/
def scrubResume (f : Field) : Field :=
  { f with nev := { f.nev with scrubFrom := f.now - BitVec.ofNat 64 (f.nev.scrubPos * 100000000 / 135168) } }
/-- The scrub goes on from its position (R43). -/
def scrubOn (f : Field) : Field :=
  let n := f.nev
  { f with nev := { n with scrubPos := (n.scrubPos + 1) % 135168,
                           scrubFrom := if n.scrubPos + 1 = 135168 then n.scrubFrom + 100000000 else n.scrubFrom } }
/-- NEVE_SCRUB: pats gives errors that have appeared in the on-chip stores, by codeword; when it is due the scrub reads the next Névé
entry or profile. -/
def neveScrub (f : Field) (pats : List (BitVec 18 × Bytes)) : Field :=
  let f0 := pats.foldl (fun (g : Field) e => g.damageChip e.1.toNat e.2) f
  if !f0.coreOn || !f0.due f0.scrubAt then f0
  else
    let i := f0.nev.scrubPos
    (if i < 131072 then f0.readEntry (BitVec.ofNat 17 i) else f0.readProf (BitVec.ofNat 12 (i - 131072))).scrubOn
/-- NEVE_RECOVERY_DONE: a lost entry is rebuilt from codewords 0 and 1 of its record (R350, R351); where one is lost in both copies
the channel has lost its record. -/
def neveRecoveryDone (f : Field) (x : BitVec 17) : Field :=
  if !f.recovering x || !f.firnOn then f
  else
    let c0 := f.readEither x 0
    let c1 := c0.1.readEither x 1
    let f1 := c1.1.healChip x.toNat
    let n := { f1.nev with recovering := f1.nev.recovering.filter (· ≠ x) }
    if c0.2 && c1.2 then
      let (v, f2) := ({ f1 with nev := { n with eccRecov := satAdd n.eccRecov 1 } }).free
      let p := f2.profOf x
      f2.modChan x (fun c => { c with nev := rebuilt c.nev c.fr p v, aux := { c.aux with firstArrival := true } })
    else ({ f1 with nev := { n with eccLost := satAdd n.eccLost 1 } }).loseRecord x

end Field
end Sys2Proof.Machine
end

