-- ==== Sys2Proof/Machine/Safety.lean ====
section
/-! DEFINITION. The safety function (18_safety_function): entry to the safe state and its reasons, discrepancy, test
pulses, read-back, rearm, the parameter block and its confirmation; FSTATE (14, R366). -/
namespace Sys2Proof.Machine
namespace Field

/-! ### The core and FSTATE -/

/-- The power state as FSTATE carries it: PWR_STATUS codes, and 4 for THERMAL-OFF (log entry 23). -/
def pwrCode (f : Field) : Byte :=
  match f.pwr.st with
  | .run => 0 | .trim => 1 | .quiet => 2 | .standby => 3 | .thermalOff => 4 | .reset => 0
/-- FSTATE with a code and a reset kind, where Transit is up (R366). -/
def fstate (f : Field) (code : FCode) (kind : Byte) (part : Byte) : Field :=
  if f.trn.st = .up then
    f.sendCtl { type := 0x43, part := part, tag := 0,
                payload := [BitVec.ofNat 8 code.ctorIdx, kind, f.pwrCode, (if f.saf.safe then 1 else 0)] }
  else f

/-! ### Records (R445) -/

/-- Raise a safety record for every partition and write it to the observing log; while the core stands still its events
wait (R451). -/
def safRecord (f : Field) (rtype : Byte) (body : Bytes) (logIt : Bool) : Field :=
  let f1 := if logIt then f.log rtype body else f
  if f1.coreOn then f1.raiseAll rtype body
  else { f1 with saf := { f1.saf with recsOwed := f1.saf.recsOwed ++ [(rtype, f1.now, body)] } }

/-! ### Entry and exit (R425, R426) -/

/-- ALL-OPEN at both ends of every lane in RING or SPLIT (R426, R427). -/
def allOpen (f : Field) : Field :=
  let c := expressBytes 0x7C 0xF0 f.saf.aoSeq 0 0 0
  (f.lan.lane.filter (fun e => laneUp e.2)).foldl (fun (g : Field) e =>
    (g.emit (.lane (BitVec.ofNat 5 e.1) false (c ++ c))).emit (.lane (BitVec.ofNat 5 e.1) true (c ++ c))) f
/-- The core's part of an entry: R131 closes every selectivity event, R161 trips the switching channels. -/
def coreEntry (f : Field) : Field :=
  let f1 := f.closeAllEpo
  f1.each (f1.select (fun c => c.nev.kind.switches)) (fun g0 x =>
    let g := g0.rampsEnd x
    let c := g.chan x
    if c.nev.state = .closed || c.nev.state = .inserting || c.nev.state = .retryWait then g.tripChan x 0x13
    else if c.nev.state = .tripped && !c.aux.policyApplied then g.modRec x (fun r => { r with cause := 0x13 })
    else g)
/-- The direct gates and SAFEOUT pins go to their safe level (R426). -/
def pinsSafe (f : Field) : Field :=
  let f1 := (List.range 16).foldl (fun (g : Field) n => g.gateOff (BitVec.ofNat 4 n) true) f
  { f1 with saf := { f1.saf with safeout := 0 } }
/-- A reason of R425: an entry to the safe state, or a further reason while it holds. logIt is false for THERMAL, whose
log record is THERMAL_SHUT (20). -/
def enterSafe (f : Field) (reason wh : Byte) (logIt : Bool) : Field :=
  let f0 := { f with saf := { f.saf with lastReason := reason, tReason := f.now } }
  if f0.saf.safe then f0.safRecord 0x40 [reason, wh, f0.saf.aoSeq, 1] logIt
  else
    let f1 := { f0 with saf := { f0.saf with
      safe := true, reason := reason, aoSeq := f0.saf.aoSeq + 1, entries := satAdd f0.saf.entries 1 } }.counterPlace.pinsSafe
    let f2 := if f1.coreOn then f1.allOpen.coreEntry else { f1 with saf := { f1.saf with coreOwed := true } }
    (f2.safRecord 0x40 [reason, wh, f2.saf.aoSeq, 0] logIt).fstate .safe 0 0x80
/-- A safety fault is latched: SAFE_FAULT, and the reason of R425 where it is one. -/
def safFault (f : Field) (reason wh : Byte) : Field :=
  (f.enterSafe reason wh true).safRecord 0x42 [reason, wh] true
/-- A safety fault clears (FAULT_CLEAR). -/
def safClear (f : Field) (kind wh : Byte) : Field := f.safRecord 0x43 [kind, wh] true
/-- What the core owes the safety block when it runs again: an entry it has not applied, and the records of the time it
stood still (R428, R443). -/
def safResume (f : Field) : Field :=
  let f1 := if f.saf.coreOwed then ({ f with saf := { f.saf with coreOwed := false } }).coreEntry else f
  let rs := f1.saf.recsOwed
  rs.foldl (fun (g : Field) r => ([0, 1, 2, 3] : List Part).foldl (fun (k : Field) p => k.raiseAt p r.1 0 r.2.1 r.2.2) g)
    { f1 with saf := { f1.saf with recsOwed := [] } }
/-- Is a safety fault latched (R436, condition 2)? -/
def faulted (s : Saf) : Bool :=
  s.fDisc ≠ 0 || s.fTest ≠ 0 || s.fCross || s.fParam || s.fLogic || s.fStuck || s.outPins ≠ []

/-! ### Inputs (R422, R424, R429) -/

/-- The safety function acts: it is dead only in THERMAL-OFF (R443). -/
def safOn (f : Field) : Bool := f.pwr.st ≠ .thermalOff
/-- PAIR_EN of the active block. -/
def pairEn (s : Saf) (k : Nat) : Bool := bit (u8 s.active 2) k
/-- MODE of a pair: antivalent. -/
def antivalent (s : Saf) (k : Nat) : Bool := u8 s.active (4 + 8 * k) = 1
/-- D of a pair, in ticks (R429). -/
def discTicks (s : Saf) (k : Nat) : Nat :=
  let d := leNat s.active (6 + 8 * k) 2
  (if d = 0 then 20 else d) * 100000
/-- Is a pin level the demand level of channel 2k+s (R424)? -/
def isDemand (s : Saf) (ch : Nat) (lvl : Bool) : Bool := lvl = (antivalent s (ch / 2) && ch % 2 = 1)
/-- The level that stands for a channel: before its mask while it is masked (R429). -/
def effLevel (s : Saf) (ch : Nat) : Bool := if bit s.masked ch then bit s.held ch else bit s.epo ch
/-- A channel stands at demand. -/
def chDemand (s : Saf) (ch : Nat) : Bool := isDemand s ch (effLevel s ch)
/-- A pair demands (R424). -/
def pairDemand (s : Saf) (k : Nat) : Bool := pairEn s k && (chDemand s (2 * k) || chDemand s (2 * k + 1))
/-- A pair's channels disagree (R429). -/
def pairDiffers (s : Saf) (k : Nat) : Bool := pairEn s k && chDemand s (2 * k) ≠ chDemand s (2 * k + 1)
/-- A pair's clean cycle after levels changed (R430). -/
def cycleNext (s : Saf) (k : Nat) (c : Cycle) : Cycle :=
  let d0 := chDemand s (2 * k)
  let d1 := chDemand s (2 * k + 1)
  match c with
  | .waitRun => if !d0 && !d1 then .toDemand else .waitRun
  | .toDemand => if d0 && d1 then .toRun else .toDemand
  | .toRun => if !d0 && !d1 then .none else .toRun
  | .none => .none
/-- The levels of pair k changed from those of an earlier state: the discrepancy timer, the clean cycle and a new demand
(R424, R425, R429, R430). -/
def pairMoved (f : Field) (was : Saf) (k : Nat) : Field :=
  let s := f.saf
  let old := tabGet Cycle.none s.cycle k
  let new := cycleNext s k old
  let f1 := { f with saf := { s with
    disc := if pairDiffers s k then (if pairDiffers was k then s.disc else tabPut s.disc k f.now) else tabDel s.disc k,
    cycle := tabSet Cycle.none s.cycle k new } }
  let f2 := if old = .toRun && new = .none then
      ({ f1 with saf := { f1.saf with fDisc := f1.saf.fDisc &&& ~~~(1#4 <<< k) } }).safClear 0x08 (BitVec.ofNat 8 k)
    else f1
  if pairDemand s k && !pairDemand was k then f2.enterSafe (BitVec.ofNat 8 (k + 1)) (BitVec.ofNat 8 k) true else f2
/-- CROSS is latched (R432). -/
def crossSeen (f : Field) (ch : Nat) : Field :=
  let f1 := { f with saf := { f.saf with roundCross := true, fCross := true } }
  if f.saf.fCross then f1 else f1.safFault 0x0A (BitVec.ofNat 8 ch)
/-- EPO_LEVEL: a new level of channel s of pair k is recognised (R422, R424, R429, R430, R432). -/
def epoLevel (f : Field) (k : BitVec 2) (side : End) (lvl : Bool) : Field :=
  let ch := 2 * k.toNat + side.ctorIdx
  let s := f.saf
  if !f.safOn || bit s.epo ch = lvl then f
  else
    let m : BitVec 8 := 1#8 <<< ch
    let at? := tabLook s.pulseAt ch
    let dip := match at? with
      | some t => !bit s.epot ch && !isDemand s ch lvl && t.toNat + 1000 < f.now.toNat
      | none => false
    let f1 := { f with saf := { s with epo := if lvl then s.epo ||| m else s.epo &&& ~~~m,
                                       dipped := if dip then s.dipped ||| m else s.dipped } }
    let other := (List.range 8).any (fun j => j ≠ ch && !bit s.epot j)
    let f2 := if other then f1.crossSeen ch else f1
    f2.pairMoved s k.toNat
/-- DISCREPANCY_EXPIRY of a pair (R429). -/
def discrepancyExpiry (f : Field) (k : BitVec 2) : Field :=
  match tabLook f.saf.disc k.toNat with
  | some t =>
    if f.safOn && pairDiffers f.saf k.toNat && t.toNat + discTicks f.saf k.toNat ≤ f.now.toNat then
      let f1 := { f with saf := { f.saf with
        disc := tabDel f.saf.disc k.toNat, cycle := tabSet Cycle.none f.saf.cycle k.toNat .waitRun,
        fDisc := f.saf.fDisc ||| (1#4 <<< k.toNat) } }
      if bit f.saf.fDisc k.toNat then f1 else f1.safFault 0x08 (k.setWidth 8)
    else f
  | none => f

/-! ### Test pulses (R431 to R433, R438) -/

/-- Is channel ch tested: its pair enabled and its test flag set (R431)? -/
def tested (s : Saf) (ch : Nat) : Bool := pairEn s (ch / 2) && bit (u8 s.active (5 + 8 * (ch / 2))) (ch % 2)
/-- EPO_TEST_SCHEDULE: at a CMP5 fire the round of pulses is laid out and the self-test of R438 runs. logicOk: the
duplicate path gave the expected outcome. -/
def epoTestSchedule (f : Field) (logicOk : Bool) : Field :=
  if !f.safOn then f
  else
    let chs := (List.range 8).filter (fun ch => tested f.saf ch)
    let f1 := { f with
      saf := { f.saf with
        pulseDue := chs.foldl (fun (t : Tab Count) ch => tabPut t ch (BitVec.ofNat 64 (f.now.toNat + ch * 50000))) [],
        roundCross := false, roundLeft := chs.foldl (fun (b : BitVec 8) ch => b ||| (1#8 <<< ch)) 0 } }
    if logicOk || f1.saf.fLogic then f1
    else ({ f1 with saf := { f1.saf with fLogic := true } }).safFault 0x0D 0
/-- TEST_PULSE_START of a channel (R431). -/
def testPulseStart (f : Field) (ch : BitVec 3) : Field :=
  match tabLook f.saf.pulseDue ch.toNat with
  | some t =>
    if f.safOn && t.toNat ≤ f.now.toNat then
      let m : BitVec 8 := 1#8 <<< ch.toNat
      { f with saf := { f.saf with
          pulseDue := tabDel f.saf.pulseDue ch.toNat, pulseAt := tabPut f.saf.pulseAt ch.toNat f.now,
          epot := f.saf.epot &&& ~~~m, masked := f.saf.masked ||| m,
          held := (f.saf.held &&& ~~~m) ||| (f.saf.epo &&& m), dipped := f.saf.dipped &&& ~~~m } }
    else f
  | none => f
/-- The round is complete: CROSS clears if no cross change came in it (R433). -/
def roundEnd (f : Field) : Field :=
  if f.saf.roundLeft = 0 && f.saf.fCross && !f.saf.roundCross then
    ({ f with saf := { f.saf with fCross := false } }).safClear 0x0A 0
  else f
/-- TEST_PULSE_END of a channel (R432). -/
def testPulseEnd (f : Field) (ch : BitVec 3) : Field :=
  match tabLook f.saf.pulseAt ch.toNat with
  | some t =>
    let s := f.saf
    if f.safOn && !bit s.epot ch.toNat && t.toNat + 20000 ≤ f.now.toNat then
      let m : BitVec 8 := 1#8 <<< ch.toNat
      let judged := !isDemand s ch.toNat (bit s.held ch.toNat)
      let dip := bit s.dipped ch.toNat || isDemand s ch.toNat (bit s.epo ch.toNat)
      let fails := judged && !dip
      let f1 := { f with saf := { s with
        epot := s.epot ||| m, dipped := if dip then s.dipped ||| m else s.dipped, roundLeft := s.roundLeft &&& ~~~m,
        fTest := if fails then s.fTest ||| m else s.fTest } }
      let f2 := if fails && !bit s.fTest ch.toNat then f1.safFault 0x09 (ch.setWidth 8) else f1
      f2.roundEnd
    else f
  | none => f
/-- MASK_END of a channel (R432, R433). -/
def maskEnd (f : Field) (ch : BitVec 3) : Field :=
  match tabLook f.saf.pulseAt ch.toNat with
  | some t =>
    let s := f.saf
    if f.safOn && bit s.epot ch.toNat && t.toNat + 25000 ≤ f.now.toNat then
      let m : BitVec 8 := 1#8 <<< ch.toNat
      let judged := !isDemand s ch.toNat (bit s.held ch.toNat)
      let pass := judged && bit s.dipped ch.toNat && !isDemand s ch.toNat (bit s.epo ch.toNat)
      let f1 := { f with saf := { s with
        masked := s.masked &&& ~~~m, pulseAt := tabDel s.pulseAt ch.toNat,
        fTest := if pass then s.fTest &&& ~~~m else s.fTest } }
      let f2 := if pass && bit s.fTest ch.toNat then f1.safClear 0x09 (ch.setWidth 8) else f1
      f2.pairMoved s (ch.toNat / 2)
    else f
  | none => f

/-! ### Read-back (R434) -/

/-- WHERE of a pin: DGn is n, SAFEOUTn is 16 + n (log entry 24). -/
def pinWhere : OutPin → Byte
  | .dg n => n.setWidth 8
  | .safeout n => 16 + n.setWidth 8
/-- OUTPUT_MISMATCH: a pin has differed from its command for 1,000 ticks (R434). -/
def outputMismatch (f : Field) (p : OutPin) : Field :=
  if !f.safOn || f.saf.outPins.contains p then f
  else ({ f with saf := { f.saf with outPins := f.saf.outPins ++ [p] } }).safFault 0x0B (pinWhere p)
/-- OUTPUT_MATCH: a pin latched under R434 has matched for 10,000,000 ticks. -/
def outputMatch (f : Field) (p : OutPin) : Field :=
  if f.safOn && f.saf.outPins.contains p then
    ({ f with saf := { f.saf with outPins := f.saf.outPins.filter (· ≠ p) } }).safClear 0x0B (pinWhere p)
  else f

/-! ### Rearm (R435 to R437) -/

/-- STUCK_REARM is latched: SAFE_FAULT with no entry to the safe state. -/
def stuckLatch (f : Field) : Field :=
  ({ f with saf := { f.saf with fStuck := true, pressStuck := true } }).safRecord 0x42 [0x13, 0] true
/-- REARM_PRESS (R435, R437). -/
def rearmPress (f : Field) : Field :=
  if !f.safOn || f.saf.rearm then f
  else
    let first := !f.saf.rearmSeen && f.now.toNat < 200000
    let f1 := { f with saf := { f.saf with rearm := true, rearmSeen := true, tRearm := f.now, pressStuck := false } }
    if first then f1.stuckLatch else f1
/-- The first failing condition of R436; none where the rearm is accepted. A part in RETURNED holds the safe state. -/
def rearmFails (f : Field) : Option Byte :=
  let s := f.saf
  if !s.safe then some 1
  else if faulted s then some 2
  else if (List.range 4).any (fun k => pairDemand s k) then some 3
  else if (s.tReason = f.now && !(s.lastReason ≤ 4 || s.lastReason = 0x11 || s.lastReason = 0x12)) || f.sec.life = 4 then some 4
  else none
/-- At a rearm every LOCKED_OUT channel whose last trip's class has REARM_RELEASE moves to OPEN (R149, R160). -/
def rearmRelease160 (f : Field) : Field :=
  f.each (f.select (fun c => c.nev.state = .lockedOut)) (fun g x =>
    if (policyOf (g.profOf x) (causeClass (g.chan x).fr.cause)).2.1 then
      (g.modRec x (fun r => { r with rcount := 0 })).enter x .opened 0 0 none
    else g)
/-- PRESS_MS of a press. -/
def pressMs (d : Nat) : Bytes := toLe (min (d / 100000) 65535) 2
/-- The safe state is left (R434, R436). -/
def safExit (f : Field) (d : Nat) : Field :=
  let f1 := { f with saf := { f.saf with safe := false, safeout := bits (u8 f.saf.active 3) 0 4 } }
  ((f1.rearmRelease160).safRecord 0x41 ([f1.saf.aoSeq, 0] ++ pressMs d) true).fstate .safe 0 0x80
/-- REARM_RELEASE (R435, R436). -/
def rearmRelease (f : Field) : Field :=
  if !f.safOn || !f.saf.rearm then f
  else
    let d := f.now.toNat - f.saf.tRearm.toNat
    let f1 := { f with saf := { f.saf with rearm := false, tRearm := f.now } }
    if f.saf.pressStuck then f1
    else if d < 5000000 then { f1 with saf := { f1.saf with short := satAdd f1.saf.short 1 } }
    else if 300000000 < d then f1.stuckLatch
    else match f1.rearmFails with
      | none => f1.safExit d
      | some w =>
        ({ f1 with saf := { f1.saf with refused := satAdd f1.saf.refused 1 } }).safRecord 0x44 ([w, 0] ++ pressMs d) true
/-- STUCK_REARM: REARM is still pressed after 3 s (R435). -/
def stuckRearm (f : Field) : Field :=
  if f.safOn && f.saf.rearm && !f.saf.pressStuck && f.saf.tRearm.toNat + 300000001 ≤ f.now.toNat then f.stuckLatch else f
/-- REARM_STUCK_CLEAR: REARM has been released for 1 s (R437). -/
def rearmStuckClear (f : Field) : Field :=
  if f.safOn && f.saf.fStuck && !f.saf.rearm && f.saf.tRearm.toNat + 100000000 ≤ f.now.toNat then
    ({ f with saf := { f.saf with fStuck := false } }).safClear 0x13 0
  else f

/-! ### The parameter block (R439 to R442) -/

/-- The first byte offset that check 3 of R440 refuses. -/
def safBadOffset (b : Bytes) : Option Nat :=
  let pair (k : Nat) : List (Bool × Nat) :=
    [(u8 b (4 + 8 * k) ≤ 1, 4 + 8 * k),
     (!(bit (u8 b (5 + 8 * k)) 1 && u8 b (4 + 8 * k) = 1), 5 + 8 * k),
     (leNat b (6 + 8 * k) 2 = 0 || (2 ≤ leNat b (6 + 8 * k) 2 && leNat b (6 + 8 * k) 2 ≤ 500), 6 + 8 * k),
     (u8 b (8 + 8 * k) = 0, 8 + 8 * k), (u8 b (9 + 8 * k) = 0, 9 + 8 * k), (u8 b (10 + 8 * k) = 0, 10 + 8 * k),
     (u8 b (11 + 8 * k) = 0, 11 + 8 * k)]
  let cs : List (Bool × Nat) := ([(leNat b 0 2 = 1, 0), ((bits (u8 b 2) 0 4 : BitVec 4) ≠ 0, 2)] : List (Bool × Nat)) ++ pair 0 ++ pair 1 ++ pair 2 ++ pair 3
  match cs.find? (fun c => !c.1) with
  | some c => some c.2
  | none => firstNonzero b 52 460
/-- A confirmation is refused with a code and offset (R440). -/
def safRefuse (f : Field) (last : BitVec 3) (off : Nat) : Field :=
  ({ f with saf := { f.saf with last := last, offset := BitVec.ofNat 9 off } }).safRecord 0x46
    ([last.setWidth 8, 0] ++ toLe off 2) true
/-- SAF_CONFIRM: the checks of R440 on the staging block; a block that passes goes to NVM. -/
def safConfirm (f : Field) (p : Part) (v : Word) : Field :=
  if !f.sec.comm then f.logRwc 0x00017018 p
  else if !f.commissioner p then f
  else if !f.saf.safe then f.safRefuse 2 0
  else if v ≠ crc32c f.saf.staging then f.safRefuse 3 0
  else match safBadOffset f.saf.staging with
    | some o => f.safRefuse 4 o
    | none => ({ f with saf := { f.saf with commit := some f.saf.staging } }).imgStart 2 f.saf.staging
/-- The interval of CMP2 changes to 250 us at its next fire (17). -/
def fastPace (f : Field) : Field :=
  { f with mer := { f.mer with cmp := tabPut f.mer.cmp 2 { tabGet Cmp.reset f.mer.cmp 2 with itv := 25000 } },
           saf := { f.saf with pace := true } }
/-- A block is in NVM: it becomes the active block, a latched PARAM clears, and PARAM_CONFIRMED is raised (R440, R441). -/
def safCommitted (f : Field) (b : Bytes) : Field :=
  let c := crc32c b
  let f1 := { f with saf := { f.saf with active := b, activeCrc := c, confirmed := true, commit := none, last := 1, offset := 0,
                                         fParam := false } }
  let f2 := if f.saf.fParam then f1.safClear 0x0C 0 else f1
  (f2.fastPace).safRecord 0x45 (le 4 c) true
/-- The unconfirmed state begins with the default block (R442): why 0 never confirmed, 1 no good copy. -/
def unconfirm (f : Field) (why : Byte) : Field :=
  ({ f with saf := { f.saf with active := safDefault, activeCrc := crc32c safDefault, confirmed := false } }).safRecord 0x47
    [why] true
/-- A copy of the safety image that holds the confirmed block, by SAF_ACTIVE_CRC (R441). -/
def safGoodCopy (im : Img) (crc : Word) : Option Bytes :=
  ([(im.a, 0), (im.b, 1)] : List (ImgCopy × Nat)).findSome? (fun c =>
    if c.1.valid 2 c.2 && c.1.payload.length = 512 && crc32c c.1.payload = crc then some c.1.payload else none)
/-- PARAM_CHECK (R441), once a second: flips lists the bytes of the active block found changed, with their exclusive-or; badA and badB
say which NVM copies fail their own check. -/
def paramCheck (f : Field) (flips : List (BitVec 9 × Byte)) (badA badB : Bool) : Field :=
  if !f.safOn || f.now < f.saf.paramDue then f
  else
    let f := { f with saf := { f.saf with paramDue := f.now + 100000000 } }
    let b := flips.foldl (fun (b : Bytes) e => listSet b e.1.toNat (u8 b e.1.toNat ^^^ e.2)) f.saf.active
    let f0 := { f with saf := { f.saf with active := b } }
    if crc32c b = f.saf.activeCrc then f0
    else
      let im := f.nvm.safety
      let im1 : Img := { a := if badA then { bytes := [] } else im.a, b := if badB then { bytes := [] } else im.b }
      let f1 := { f0 with saf := { f0.saf with fParam := true } }
      let f2 := if f.saf.fParam then f1 else f1.safFault 0x0C 0
      match safGoodCopy im1 f.saf.activeCrc with
      | some c => ({ f2 with saf := { f2.saf with active := c, fParam := false } }).safClear 0x0C 0
      | none => if f2.saf.confirmed then f2.unconfirm 1
        else { f2 with saf := { f2.saf with active := safDefault, activeCrc := crc32c safDefault } }
/-- ENTER: a write of 1 to SAF_CTRL.ENTER (R444). -/
def safEnter (f : Field) (p : Part) (v : Bool) : Field :=
  if v && f.safOn && (f.operator p || f.commissioner p) then f.enterSafe 0x12 0 true else f
/-- The block that a start takes from the image i, and whether it is a confirmed one (R442). -/
def safImage (i : Option Bytes) : Bytes × Bool :=
  match i with
  | some b => if b.length = 512 then (b, true) else (safDefault, false)
  | none => (safDefault, false)
/-- The safety block before its start entry (R425, R442). -/
def safFresh (i : Option Bytes) (entries : BitVec 16) : Saf :=
  let act := (safImage i).1
  { safe := false, confirmed := (safImage i).2, reason := 0, aoSeq := 0, fDisc := 0, fTest := 0, fCross := false, fParam := false,
    fLogic := false, fStuck := false, outPins := [], epo := 0, masked := 0, held := 0, epot := 0xFF, rearm := false,
    rearmSeen := false, tRearm := 0, pressStuck := false, disc := [], cycle := [], pulseDue := [], pulseAt := [], dipped := 0,
    roundCross := false, roundLeft := 0, safeout := 0, active := act, staging := act, activeCrc := crc32c act, last := 0,
    offset := 0, commit := none, entries := entries, refused := 0, short := 0, lastReason := 0, tReason := 0, coreOwed := false,
    recsOwed := [], pace := false, paramDue := 100000000 }
/-- A start: the entry with reason START, then the faster pace of a confirmed block, or PARAM_UNCONFIRMED (R425, R442). -/
def safStart (f : Field) (i : Option Bytes) : Field :=
  let f1 := f.enterSafe 0x11 0 true
  if (safImage i).2 then f1.fastPace
  else f1.safRecord 0x47 [(match i with | some _ => 0 | none => 1)] true

end Field
end Sys2Proof.Machine
end

