-- ==== Sys2Proof/Machine/Mark.lean ====
section
/-! DEFINITION. The superframe mark (R261): what every CMP0 fire brings, block by block; the activities of the other system
compares. -/
namespace Sys2Proof.Machine
namespace Field

/-- A CMP0 mark that ends a whole second of station time copies every θ into THERM_SNAP (13, the channel record). -/
def thermSnap (f : Field) : Field :=
  let s := f.station.toNat
  if s / 100000000 ≠ (s - 50000) / 100000000 then
    f.each (f.select (fun _ => true)) (fun g x =>
      (g.modChan x (fun c => { c with fr := { c.fr with thermSnap := c.nev.therm } })).heal2 x 1)
  else f
/-- The mirror of a source in FALLBACK receives one missing update a superframe (R105). -/
def mirrorMark (f : Field) : Field :=
  f.each (f.select (fun c => c.nev.state = .fallback)) (fun g x =>
    g.queueMirror x { cls := .missing, word := 0, sfn := (g.nev.sfn - 1).setWidth 8 })
/-- NEV_SFN and the superframes of the run advance. -/
def sfnMark (f : Field) : Field := { f with nev := { f.nev with sfn := f.nev.sfn + 1, sfCount := f.nev.sfCount + 1 } }
/-- The lanes at a mark: ALL-OPEN first while the safe state holds (R427, R263), which closes the
events open (R131), then each lane's own superframe. -/
def lanesMark (f : Field) : Field :=
  let f0 := { f with lan := { f.lan with lane := tabMap Lane.reset f.lan.lane (fun _ v => sfTurn v) } }
  let f1 := if f0.saf.safe then f0.allOpen.closeAllEpo else f0
  (List.range 32).foldl (fun (g : Field) l => g.laneMark (BitVec.ofNat 5 l)) f1
/-- SUPERFRAME_MARK, at a CMP0 fire (R261, R81, R451). In STANDBY only NEV_SFN advances; in a warm reset nothing does. The
direct sums start again at each. -/
def superframeMark (f : Field) : Field :=
  match f.takeSys 0 with
  | none => f
  | some f0 =>
    if f0.coreOn then
      let f1 := f0.sfnMark
      let f2 := { f1 with nev := { f1.nev with noDup := f1.nev.noDup - (if f1.nev.noDup = 0 then 0 else 1) },
                          lan := { f1.lan with tMark := f1.now } }
      let f3 := (List.range 16).foldl (fun (g : Field) n => g.directMark (BitVec.ofNat 4 n)) f2
      ((((f3.mirrorMark).lanesMark).stormMark).histMark).thermSnap
    else if f0.pwr.st = .standby then f0.sfnMark.sumsClear
    else f0.sumsClear
/-- HEALTH_POLL, at a CMP6 fire (R254). -/
def healthPollRow (f : Field) : Field :=
  match f.takeSys 6 with
  | some g => g.healthPoll
  | none => f
/-- EPO_TEST_SCHEDULE, at a CMP5 fire (R431, R438). -/
def epoTestRow (f : Field) (logicOk : Bool) : Field :=
  match f.takeSys 5 with
  | some g => g.epoTestSchedule logicOk
  | none => f

end Field
end Sys2Proof.Machine
end

