-- ==== Sys2Proof/Machine/Thermal.lean ====
section
/-! DEFINITION. Thermometry (17): readings, broken sites, warning and throttle, SENSOR throttle, confirming demands and the
shutdown; shedding under throttle (01, R36 to R42). -/
namespace Sys2Proof.Machine

/-! ### Readings (R407, R408) -/

/-- The reading t of a gate. -/
def readT (tr : Trim) (g : Gate) : Int :=
  tr.t0 + rdiv ((((g.n1 * 1048576 / g.n2 : Nat) : Int) - tr.r0) * tr.s) 1048576
/-- Is a reading valid? -/
def gateValid (tr : Trim) (g : Gate) : Bool :=
  tr.n1Up ≤ 2 * g.n1 && g.n1 ≤ 2 * tr.n1Up && tr.n2Up ≤ 2 * g.n2 && g.n2 ≤ 2 * tr.n2Up && decide (0 < g.n2) &&
    decide (-280 ≤ readT tr g) && decide (readT tr g ≤ 700)
/-- The valid reading of a gate. -/
def reading (tr : Trim) (g : Gate) : Option Int := if gateValid tr g then some (readT tr g) else none
/-- The neighbours of a site (17, thermometry sites). -/
def neighbours (d : Die) (k : Nat) : List Nat :=
  match d with
  | .field => (([[1, 4], [0, 2, 5], [1, 3, 6], [2, 7], [0, 5, 8], [1, 4, 6, 9], [2, 5, 7, 10], [3, 6, 11], [4, 9], [5, 8, 10],
      [6, 9, 11], [7, 10]] : List (List Nat))).getD k []
  | .host => (([[1, 2], [0, 3], [0, 3], [1, 2]] : List (List Nat))).getD k []
/-- Sites of a die. -/
def siteCount (d : Die) : Nat := match d with | .field => 12 | .host => 4
/-- The code of a die in a thermal record. -/
def dieCode (d : Die) : Byte := match d with | .field => 0 | .host => 1

namespace Thm

/-- A site. -/
def siteAt (t : Thm) (k : Nat) : Site := tabGet Site.reset t.site k
/-- Write a site. -/
def setSite (t : Thm) (k : Nat) (s : Site) : Thm := { t with site := tabSet Site.reset t.site k s }
/-- The trim values of a site. -/
def trimAt (t : Thm) (k : Nat) : Trim := tabGet Trim.reset t.trim k
/-- WARN, THROT and SHUT in quarter degrees. -/
def warnLvl (t : Thm) : Int := ((bits t.limit 0 8).toNat * 4 : Nat)
def throtLvl (t : Thm) : Int := ((bits t.limit 8 8).toNat * 4 : Nat)
def shutLvl (t : Thm) : Int := ((bits t.limit 16 8).toNat * 4 : Nat)

/-! ### Site health (R410, R411) -/

/-- The own readings of a demand: none where the site gates a confirming demand or its reading is invalid. -/
def owns (d : Die) (t : Thm) (gates : List Gate) (skip : List Nat) : List (Option Int) :=
  (List.range (siteCount d)).map (fun k =>
    if skip.contains k then none
    else match gates[k]? with | some g => reading (t.trimAt k) g | none => none)
/-- Readings of a site's healthy neighbours. -/
def around (d : Die) (t : Thm) (rs : List (Option Int)) (k : Nat) : List Int :=
  (neighbours d k).filterMap (fun j => if (t.siteAt j).broken then none else (rs.getD j none))
/-- The runs of R410 of one site after a demand. -/
def siteRuns (d : Die) (t : Thm) (rs : List (Option Int)) (skip : List Nat) (k : Nat) : Site :=
  let s := t.siteAt k
  if skip.contains k then s
  else
    let ns := around d t rs k
    let far (x : Int) : Bool := ns.all (fun y => decide ((t.tol.toNat : Int) < (x - y).natAbs))
    match rs.getD k none with
    | none => { s with badRun := s.badRun + 1, disRun := if ns.length < 2 then s.disRun else 0, valid := false }
    | some x => { s with badRun := 0, disRun := if ns.length < 2 then s.disRun else if far x then s.disRun + 1 else 0,
                         valid := true, last := ofInt 16 x }
/-- THM_SITE_BROKEN of a site (R421). -/
def brokenRec (d : Die) (k : Nat) (why : Byte) (s : Site) : Byte × Bytes :=
  (0x54, [dieCode d, BitVec.ofNat 8 k, why, 0] ++ le 2 s.last)
/-- Declare a site broken where one of its runs has reached 4 (R410, R411). -/
def declare (d : Die) (t : Thm) (k : Nat) : Thm × List (Byte × Bytes) :=
  let s := t.siteAt k
  if !s.broken && (4 ≤ s.badRun || 4 ≤ s.disRun) then
    (t.setSite k { s with broken := true, reported := true }, [brokenRec d k (if 4 ≤ s.badRun then 0 else 1) s])
  else (t, [])
/-- Declare over every site. -/
def declareAll (d : Die) (t : Thm) : Thm × List (Byte × Bytes) :=
  (List.range (siteCount d)).foldl (fun (a : Thm × List (Byte × Bytes)) k =>
    let r := declare d a.1 k
    (r.1, a.2 ++ r.2)) (t, [])

/-! ### Effective and decision readings (R412) -/

/-- The highest of a list of readings. -/
def highest : List Int → Option Int
  | [] => none
  | x :: r => match highest r with | some y => some (if y < x then x else y) | none => some x
/-- A site's effective reading, and whether it is a substitute. -/
def effective (d : Die) (t : Thm) (rs : List (Option Int)) (k : Nat) : Option (Int × Bool) :=
  if (t.siteAt k).broken then (highest (around d t rs k)).map (fun x => (x + 20, true))
  else (rs.getD k none).map (fun x => (x, false))
/-- The decision reading with its site. -/
def decide1 (es : List (Option (Int × Bool))) : Option (Int × Nat) :=
  (es.zipIdx).foldl (fun (a : Option (Int × Nat)) e => match e.1, a with
    | some (x, _), some (y, j) => if y < x then some (x, e.2) else some (y, j)
    | some (x, _), none => some (x, e.2)
    | none, _ => a) none
/-- THM_READ of every site after a demand. -/
def showSites (t : Thm) (es : List (Option (Int × Bool))) : Thm :=
  (es.zipIdx).foldl (fun (a : Thm) e => match e.1 with
    | some (x, sub) => a.setSite e.2 { a.siteAt e.2 with t := ofInt 16 x, subst := sub }
    | none => a.setSite e.2 { a.siteAt e.2 with subst := false }) t
/-- SENSOR throttle is due on the field die: more than 3 sites broken, or a broken one with no healthy neighbour (R412). -/
def sensorDue (t : Thm) : Bool :=
  let br (k : Nat) : Bool := (t.siteAt k).broken
  decide (3 < (List.range 12).countP br) || (List.range 12).any (fun k => br k && (neighbours .field k).all br)

/-! ### Warning and throttle (R414) -/

/-- BODY of a warning or throttle record. -/
def levelBody (d : Die) (t : Thm) (sensor : Bool) : Bytes :=
  [dieCode d, t.hotSite.setWidth 8] ++ le 2 t.decision ++ [if sensor then 1 else 0]
/-- The counts and the warning state after a decision reading x. -/
def judgeWarn (d : Die) (t : Thm) (x : Int) : Thm × List (Byte × Bytes) :=
  let i := if t.warnLvl ≤ x then t.warnIn + 1 else 0
  let o := if x < t.warnLvl - 20 then t.warnOut + 1 else 0
  if !t.warn && 2 ≤ i then
    ({ t with warn := true, warnIn := i, warnOut := 0, warnEntries := satAdd t.warnEntries 1 }, [(0x50, levelBody d t false)])
  else if t.warn && 8 ≤ o then ({ t with warn := false, warnIn := 0, warnOut := 0 }, [(0x51, levelBody d t false)])
  else ({ t with warnIn := i, warnOut := if t.warn then o else 0 }, [])
/-- The counts of throttle after a decision reading x: entry due, exit due. -/
def judgeThrottle (t : Thm) (x : Int) : Thm × Bool × Bool :=
  let i := if t.throtLvl ≤ x then t.thrIn + 1 else 0
  let o := if x < t.throtLvl - 24 then t.thrOut + 1 else 0
  if !t.hot && 2 ≤ i then ({ t with throttle := true, hot := true, thrIn := i, thrOut := 0 }, !t.throttle, false)
  else if t.throttle && !t.sensor && 8 ≤ o then ({ t with throttle := false, hot := false, thrIn := 0, thrOut := 0 }, false, true)
  else ({ t with thrIn := i, thrOut := if t.throttle then o else 0 }, false, false)
/-- Sites whose valid reading starts a confirming demand (R416, R413). -/
def confirms (t : Thm) (now : Count) (rs : List (Option Int)) : List Confirm :=
  (rs.zipIdx).filterMap (fun e => match e.1 with
    | some x => if t.shutLvl ≤ x && (!(t.siteAt e.2).broken || t.sensor) && t.confirm.all (fun c => c.site ≠ e.2) then
        some { site := e.2, first := ofInt 16 x, tries := 0, due := now + 1000 } else none
    | none => none)
/-- The readings that the corrections of R420 refer to: on the host die, its regulators alone, by TS-H03. -/
def compensate (d : Die) (t : Thm) (es : List (Option (Int × Bool))) : Thm :=
  let at? (k : Nat) (old : BitVec 16) : BitVec 16 := match es.getD k none with | some (x, _) => ofInt 16 x | none => old
  match d with
  | .field => { t with compOsc := at? 11 t.compOsc, compRef := at? 9 t.compRef, compReg := at? 10 t.compReg }
  | .host => { t with compReg := at? 3 t.compReg }

/-! ### One demand -/

/-- What a demand's readings do to thermometry: its state, the records before throttle is judged, and throttle entry and
exit; now: the end of the gate, after which a confirming gate ends 1,000 ticks later at the earliest (R407, R416). -/
def judge (d : Die) (t : Thm) (now : Count) (gates : List Gate) (skip : List Nat) : Thm × List (Byte × Bytes) × Bool × Bool :=
  let rs := owns d t gates skip
  let bad := (rs.zipIdx).countP (fun e => e.1.isNone && !skip.contains e.2)
  let t1 := (List.range (siteCount d)).foldl (fun (a : Thm) k => a.setSite k (siteRuns d t rs skip k))
    { t with gate := none, invalid := satAdd t.invalid bad, blindRun := if rs.all (·.isNone) then t.blindRun + 1 else 0 }
  let r2 := declareAll d t1
  let es := (List.range (siteCount d)).map (effective d r2.1 rs)
  let t3 := (showSites r2.1 es).compensate d es
  let t4 := { t3 with confirm := t3.confirm ++ confirms t3 now rs }
  match decide1 es with
  | none => ({ t4 with noDecision := true }, r2.2, false, false)
  | some (x, k) =>
    let t5 := { t4 with noDecision := false, decision := ofInt 16 x, hotSite := BitVec.ofNat 4 k }
    let w := judgeWarn d t5 x
    let h := judgeThrottle w.1 x
    (h.1, r2.2 ++ w.2, h.2.1, h.2.2)
/-- A confirming reading of a site (R416), which counts towards R410: the state, the records, and the shutdown's first and confirming readings. -/
def confirmJudge (d : Die) (t : Thm) (now : Count) (k : Nat) (g : Gate) : Thm × List (Byte × Bytes) × Option (BitVec 16 × BitVec 16) :=
  match t.confirm.find? (fun c => c.site = k) with
  | none => (t, [], none)
  | some c =>
    if now < c.due then (t, [], none) else
    let drop := { t with confirm := t.confirm.filter (fun (e : Confirm) => e.site ≠ k) }
    match reading (t.trimAt k) g with
    | some x =>
      let seen := drop.setSite k { t.siteAt k with badRun := 0, last := ofInt 16 x }
      if t.shutLvl ≤ x then (seen, [], some (c.first, ofInt 16 x))
      else ({ seen with unconfirmed := satAdd t.unconfirmed 1 },
        [(0x55, [dieCode d, BitVec.ofNat 8 k] ++ le 2 c.first ++ le 2 (ofInt 16 x))], none)
    | none =>
      let t1 := { t with
        invalid := satAdd t.invalid 1,
        confirm := if 2 ≤ c.tries then drop.confirm
          else t.confirm.map (fun (e : Confirm) => if e.site = k then { e with tries := e.tries + 1, due := now + 1000 } else e) }
      let t2 := t1.setSite k { t1.siteAt k with badRun := (t1.siteAt k).badRun + 1 }
      let r := declare d t2 k
      (r.1, r.2, none)

end Thm

namespace Field

/-- Raise thermal records for every partition; while the core stands still they wait (R421, R451). -/
def thmRecords (f : Field) (rs : List (Byte × Bytes)) : Field := rs.foldl (fun (g : Field) r => g.safRecord r.1 r.2 false) f

/-! ### Shedding (R36 to R42) -/

/-- Throttle entry (R36, R40): step 1, the rail to TRIM, the 10 s of R38. -/
def throttleEntry (f : Field) (sensor : Bool) : Field :=
  let was := f.pwr.st
  let f1 := { f with pwr := { f.pwr with
    step1 := true, st := if was = PwrState.run then PwrState.trim else was, shedEntries := satAdd f.pwr.shedEntries 1, tThrottle := f.now } }
  let f2 := f1.thmRecords [(0x52, f1.thm.levelBody .field sensor)]
  if was = PwrState.run then f2.fstate .power 0 0x80 else f2
/-- Throttle exit (R40): the merged records of step 2, then step 1 and the rail. -/
def throttleExit (f : Field) : Field :=
  let f1 := if f.pwr.step2 && f.coreOn then f.histAll true else f
  let was := f1.pwr.st
  let f2 := { f1 with pwr := { f1.pwr with step2 := false, step1 := false, st := if was = PwrState.trim then PwrState.run else was } }
  let f3 := f2.thmRecords [(0x53, f2.thm.levelBody .field false)]
  if was = PwrState.trim then f3.fstate .power 0 0x80 else f3
/-- THROTTLE_STEP2 (R38, R413): 10 s after throttle entry, still hot, shedding step 2 defers history writes. The interval that runs is
closed with records of its own first, so that a merged record covers the deferral alone (R40, R41). The test stays open: R38 does
not say whether it is made once, and the model applies step 2 at any later moment at which it holds (log entry 119). -/
def throttleStep2 (f : Field) : Field :=
  let t := f.thm
  let hot : Bool := if t.noDecision then t.sensor else decide (t.throtLvl ≤ t.decision.toInt)
  let due : Bool := (f.pwr.tThrottle.toNat + 1000000000 ≤ f.now.toNat && hot) ||
    (t.sensor && t.tSensor.toNat + 1000000000 ≤ f.now.toNat)
  if t.throttle && f.pwr.step1 && !f.pwr.step2 && f.pwr.st ≠ .thermalOff && due then
    let f1 := if f.coreOn then f.histAll false else f
    { f1 with pwr := { f1.pwr with step2 := true, tSpan := f.now } }
  else f
/-- SENSOR throttle begins where R412 asks for it. -/
def sensorEntry (f : Field) : Field :=
  if !f.thm.sensor && f.thm.sensorDue then
    let was := f.thm.throttle
    let f1 := { f with thm := { f.thm with sensor := true, sensorRaised := true, throttle := true, tSensor := f.now } }
    if was then f1.thmRecords [(0x52, f1.thm.levelBody .field true)] else f1.throttleEntry true
  else f
/-- Four demands in a row without a valid reading while SENSOR throttle holds (R413). -/
def blind (f : Field) : Field :=
  if f.thm.sensor && 4 ≤ f.thm.blindRun then
    let ks := (List.range 12).filter (fun k => !(f.thm.siteAt k).reported)
    let f1 := f.thmRecords (ks.map (fun k => Thm.brokenRec .field k 0 (f.thm.siteAt k)))
    let f2 := { f1 with thm := ks.foldl (fun (t : Thm) k => t.setSite k { t.siteAt k with reported := true }) f1.thm }
    if f2.thm.sensorRaised then f2
    else ({ f2 with thm := { f2.thm with sensorRaised := true } }).thmRecords [(0x52, f2.thm.levelBody .field true)]
  else f

/-! ### Demands and readings -/

/-- THERMOMETRY_DEMAND of the field die, at a CMP2 fire: every site gates for 1,000 ticks (R407, R409). -/
def thermoDemand (f : Field) : Field :=
  match f.takeSys 2 with
  | some g => if g.pwr.st = .thermalOff then g
    else { g with thm := { g.thm with gate := some (g.now + 1000, g.thm.confirm.map (·.site)) } }
  | none => f
/-- THERMOMETRY_READING of the field die: the gate ends with the counts of the twelve sites (R408 to R416, R420). -/
def thermoReading (f : Field) (gates : List Gate) : Field :=
  match f.thm.gate with
  | none => f
  | some (due, skip) =>
    if f.now < due || f.pwr.st = .thermalOff then f
    else
      let r := Thm.judge .field f.thm f.now gates skip
      let f1 := ({ f with thm := r.1 }).thmRecords r.2.1
      let f2 := if r.2.2.1 then f1.throttleEntry false else if r.2.2.2 then f1.throttleExit else f1
      f2.sensorEntry.blind
/-- Write every waiting emergency record at once, before the rails go (R416, R471). -/
def flushEmerg (f : Field) : Field :=
  if !f.nvm.log.ready then f
  else f.modLog (fun l => l.emerg.foldl (fun (k : Log) r => if 1 + r.conts.length ≤ k.room then k.write f.nvm.boot r else k)
    { l with emerg := [] })
/-- Debug authorisation of the field TAP ends, and a halted sequencer resumes (R483). -/
def debugEnd (f : Field) : Field := { f with sec := { f.sec with dbg := 0, halted := false, extest := false } }
/-- The thermal shutdown of the field die (R416): safe state, its record, FSTATE, THERMAL-OFF. -/
def shutdown (f : Field) (k : Nat) (first conf : BitVec 16) : Field :=
  let f1 := f.enterSafe 0x10 (BitVec.ofNat 8 k) false
  let f2 := (f1.log 0x05 ([BitVec.ofNat 8 k] ++ le 2 first ++ le 2 conf ++ [f1.saf.aoSeq])).flushEmerg.nvmAbandon.counterPlace
  let f3 := { f2 with pwr := { f2.pwr with st := .thermalOff },
                      thm := { f2.thm with shutCount := satAdd f2.thm.shutCount 1, gate := none, confirm := [], offN := 0, offRun := 0, offT := 0 } }
  let f4 := (f3.fstate .power 0 0x80).debugEnd
  { f4 with trn := { f4.trn with st := .down }, sec := { f4.sec with comm := false }, saf := { f4.saf with epot := 0 } }
/-- CONFIRMING_READING of a field site (R416). -/
def confirmingReading (f : Field) (k : BitVec 4) (g : Gate) : Field :=
  if f.pwr.st = .thermalOff then f
  else
    let r := Thm.confirmJudge .field f.thm f.now k.toNat g
    let f1 := ({ f with thm := r.1 }).thmRecords r.2.1
    match r.2.2 with
    | some (a, b) => f1.shutdown k.toNat a b
    | none => f1.sensorEntry

/-! ### The host die's thermal state (R418) -/

/-- A write of THM_H_STATE by the host die: its records of warning and throttle are raised from the change. -/
def hostThermal (f : Field) (v : Word) : Field :=
  let old := f.thm.hState
  let body : Bytes := [1, (bits v 2 2).setWidth 8] ++ le 2 (bits v 16 16 : BitVec 16)
  let rs : List (Byte × Bytes) :=
    (if bit v 0 && !bit old 0 then [(0x50, body)] else []) ++ (if !bit v 0 && bit old 0 then [(0x51, body)] else [])
    ++ (if bit v 1 && !bit old 1 then [(0x52, body ++ [0])] else []) ++ (if !bit v 1 && bit old 1 then [(0x53, body)] else [])
  ({ f with thm := { f.thm with hState := v &&& 0xFFFF000F } }).thmRecords rs

end Field
end Sys2Proof.Machine
end

