-- ==== Sys2Proof/Machine/Power.lean ====
section
/-! DEFINITION. Power states, resets and what they keep, on the field die (19): cold starts, warm resets, STANDBY, the
restart from THERMAL-OFF. -/
namespace Sys2Proof.Machine

/-! ### The blocks after a cold start (19, retention table; the Reset column of each register) -/

/-- Channels, tables and ingest after a cold start (R51, R75). -/
def Nevs.cold : Nevs :=
  { ch := [], freeList := [{ lo := 0, count := 131072 }], cntSwitched := 0, cntSense := 0, cntDirect := 0, cntVirtual := 0,
    coldAck := 0xF, prof := [], loops := [], sfn := 0, sfCount := 0, missed := 0, outseq := 0, flagged := 0, dup := 0, unbound := 0,
    backlogPeak := 0, mirrorPeak := 0, arrivals := [], mirrorQ := [], noDup := 2, lastWord := [], eccCorr := 0, eccRecov := 0,
    eccLost := 0, pEccCorr := 0, pEccRecov := 0, pEccLost := 0, recovering := [], scrubPos := 0, scrubFrom := 0, errs := [] }
/-- Selectivity, storms and the wheel after a cold start. -/
def Sel.cold : Sel :=
  { enable := true, stormN := 0x10, stormQuiet := 4, events := [], nextNum := 0, seen := [], storms := [], reports := 0,
    openedCnt := 0, rBackup := 0, rNoBackup := 0, rNonsel := 0, rLate := 0, overflow := 0, ignored := 0, decPeak := 0, retries := 0,
    lForbidden := 0, lExhausted := 0, lRate := 0, lPrior := 0, qfull := 0, lagPeak := 0, holdAll := false }
/-- Insertion and the loop engine after a cold start. -/
def Hel.cold : Hel :=
  { queue := [], ctx := [], pause := false, capMax := 0x10, done := 0, fails := List.replicate 8 0, waitPeak := 0, lateDirect := 0,
    lateRemote := 0, renormUp := 0, renormDown := 0, satMant := 0, satClamp := 0, dropLate := 0, dropNotGood := 0, swapDone := 0,
    swapDisc := 0, viol := 0 }
/-- Firn after a cold start that finds FIRN_CFG at cfg: TRAIN, and a capacity of 8, 16, 32 or 64 GiB (13). -/
def Firn.cold (cfg : Word) : Firn :=
  { speed := bits cfg 0 2, ranks := bit cfg 2, density := bits cfg 3 2, caPar := bit cfg 5, wrCrc := bit cfg 6,
    capGib := BitVec.ofNat 7 (8 * 2 ^ (bits cfg 3 2 : BitVec 2).toNat * (if bit cfg 2 then 2 else 1)), st := .train, filled := false,
    devFailed := false, dev := 0, rank := false, failedDev := [], period := 0x5A0, passes := 0, block := 0, ce := 0, uncorr := 0,
    poison := 0, ueAddr := 0, ueValid := false, caRetry := 0, wcRetry := 0, devCe := [], passCe := [], devThresh := 0x100,
    oneCopy := 0, rebuilt := 0, lost := 0, ranksNow := bit cfg 2, caParNow := bit cfg 5, wrCrcNow := bit cfg 6, poisoned := [], errs := [],
    alien := [], ueSince := 0, ueLast := none, accFails := 0, trainFails := 0,
    waiting := [], depth := 10, fitErr := false, histWritten := 0, demIdx := 0, histSf := 0, slots := [], capWait := [],
    dropNoSlot := 0, dropNoCtx := 0, resync := 0, suspect := 0 }
/-- Every lane DISABLED, no link to an outstation (R243). -/
def Lans.cold : Lans := { lane := [], link := [], gone := [], tMark := 0 }
/-- ADC_CORR as the C-class image holds it. -/
def corrOf (b : Bytes) : Tab (BitVec 16 × BitVec 16) :=
  (List.range 33).foldl (fun t k => tabSet (0, 0x4000) t k (u16 b (8 + 4 * k), u16 b (10 + 4 * k))) []

namespace Field

/-! ### Cold starts: POR, BOR and the THERMAL restart -/

/-- The field die at the end of a POR, BOR or THERMAL reset, before the safety block's start entry: what the NVM and the N
and C classes hold stays, every other field is at its Reset column (R446, R458, R463, R464). -/
def coldBase (k : RstKind) (nvm : FNvm) (trim : Tab Trim) (shut entries : BitVec 16) (freeN : Nat) (out : List Out) : Field :=
  let lk := nvm.lock.start 1
  let sf := nvm.safety.start 2
  let cr := nvm.cregs.start 3
  let bl : BitVec 4 := match lk.1 with | some b => bits (u8 b 0) 0 4 | none => 0
  { mer := Mer.reset, nev := Nevs.cold, sel := Sel.cold, hel := Hel.cold,
    firn := Firn.cold (match cr.1 with | some b => u32 b 0 | none => 0x60), lan := Lans.cold, dch := [],
    adc := { Adc.reset with corr := match cr.1 with | some b => corrOf b | none => [] },
    trn := { FTrn.reset with st := .train }, prt := FPart.reset,
    thm := { Thm.reset with trim := trim, shutCount := shut, limit := match cr.1 with | some b => u32 b 4 | none => thmLimitReset },
    saf := safFresh sf.1 entries, pwr := { FPwr.reset with rstLast := BitVec.ofNat 3 k.ctorIdx },
    nvm := { nvm.start with
      upd := [], dropped := 0, torn := 0, boot := nvm.boot + 1,
      log := { nvm.log with ready := false, emerg := [], ord := [], tokens := 256, tToken := 50000000, lostN := 0, lostType := 0,
                            tErase := none } },
    sec := { FSec.reset with bl := bl, blForce := bl, ucodeFail := bl ≠ 0 && !ucodeOk nvm.ucode bl 0 }, freeN := freeN, out := out }
/-- Calibration is lost: every field site is broken, which gives SENSOR throttle (R464, R412). -/
def calibLost (f : Field) : Field :=
  if bit f.nvm.lost 0 then
    let t := (List.range 12).foldl (fun (t : Thm) k => t.setSite k { t.siteAt k with broken := true, reported := true }) f.thm
    (({ f with thm := t }).thmRecords ((List.range 12).map (fun k => Thm.brokenRec .field k 0 Site.reset))).sensorEntry
  else f
/-- The microcode image of the level in the lock is missing or does not verify (R486). -/
def ucodeStart (f : Field) : Field := if f.sec.ucodeFail then f.log 0x26 [f.sec.bl.setWidth 8] else f
/-- A cold start: the start-up of the field die to the end of its NVM read (19, start-up). -/
def coldStart (k : RstKind) (nvm : FNvm) (trim : Tab Trim) (shut entries : BitVec 16) (freeN : Nat) (out : List Out) : Field :=
  let f := coldBase k nvm trim shut entries freeN out
  (((f.counterPlace).safStart (nvm.safety.start 2).1).calibLost).ucodeStart
/-- A POR, BOR or THERMAL restart of the field die. An NVM operation in progress is abandoned (R471). -/
def powerOn (f : Field) (k : RstKind) : Field :=
  let g := f.nvmAbandon
  coldStart k g.nvm g.thm.trim g.thm.shutCount g.saf.entries g.freeN g.out
/-- POR of the field die (R446). -/
def porField (f : Field) : Field := f.powerOn .por
/-- BOR of the field die (R447). -/
def borField (f : Field) : Field := f.powerOn .bor
/-- THERMAL_OFF_MEASUREMENT (R417): one measurement of the twelve sites, every 10 ms; supplyOk: VINF is within its range. -/
def thermalOffMeasurement (f : Field) (gates : List Gate) (supplyOk : Bool) : Field :=
  if f.pwr.st ≠ .thermalOff || f.thm.offT < 1000000 * (f.thm.offN + 1) then f
  else
    let t := f.thm
    let good := supplyOk && (List.range 12).all (fun k => match gates[k]? with
      | some g => match reading (t.trimAt k) g with | some x => decide (x < t.shutLvl - 60) | none => false
      | none => false)
    let f1 := { f with thm := { t with offN := t.offN + 1, offRun := if good then t.offRun + 1 else 0 } }
    if 100000000 ≤ f1.thm.offT && 3 ≤ f1.thm.offRun then f1.powerOn .thermal else f1

/-- The keep-alive domain counts in THERMAL-OFF (R417). -/
def offTick (f : Field) : Field :=
  if f.pwr.st = .thermalOff then { f with thm := { f.thm with offT := f.thm.offT + 1 } } else f

/-! ### Leaving a sleep or a reset -/

/-- The wheel acts again (R164): stable entries restart with their full STABLE delay, none where it is 0 by now, and retry entries whose
due count has passed fall due at the first slot boundary. -/
def wheelResume (f : Field) : Field :=
  f.each (f.select (fun c => c.fr.wheel ≠ .none)) (fun g x =>
    g.modRec x (fun r => { r with wheel := match r.wheel with
      | .stable _ => if stableSteps (g.profOf x) = 0 then .none else .stable (dueAt g.now (stableSteps (g.profOf x)))
      | .retry d => .retry (if d < g.now then dueAt g.now 0 else d)
      | .none => .none }))
/-- What stands low on DFBn when the field die runs again (R294). -/
def driverResume (f : Field) : Field := (List.range 16).foldl (fun (g : Field) n => g.driverFault (BitVec.ofNat 4 n)) f
/-- The core runs again. No arrival is a duplicate in the running superframe, of which only the rest is left, nor in the next, the first
whole one (R83; log entry 120). Firn and the lanes retrain, Transit trains, what stood still starts anew, and what the core owes
the safety block is done (R83, R164, R228, R453, R428). -/
def coreResume (f : Field) : Field :=
  let f1 := { f with pwr := { f.pwr with step1 := f.thm.throttle, st := if f.thm.throttle then PwrState.trim else PwrState.run } }
  let f2 := ((f1.firnWake).retrainLanes).trainLink
  let f3 := ({ f2 with nev := { f2.nev with noDup := 2 } }).driverResume
  ((((f3.histRestart).demandResume).wheelResume).scrubResume).safResume

/-! ### Warm resets: PIN, WDT and SOFT -/

/-- Nevs with its W fields cleared. -/
def warmNevs (n : Nevs) : Nevs :=
  { n with sfn := 0, missed := 0, outseq := 0, flagged := 0, dup := 0, unbound := 0, backlogPeak := 0, mirrorPeak := 0, arrivals := [],
           mirrorQ := [], lastWord := [], eccCorr := 0, eccRecov := 0, eccLost := 0, pEccCorr := 0, pEccRecov := 0, pEccLost := 0 }
/-- Sel with its W fields cleared: open events and storms end. -/
def warmSel (s : Sel) : Sel :=
  { Sel.cold with enable := s.enable, stormN := s.stormN, stormQuiet := s.stormQuiet, nextNum := s.nextNum, holdAll := s.holdAll }
/-- Hel with its queue, its contexts and its W fields cleared (R182). -/
def warmHel (h : Hel) : Hel := { Hel.cold with pause := h.pause, capMax := h.capMax }
/-- Firn with its W fields cleared; its content stays (R343). -/
def warmFirn (m : Firn) : Firn :=
  { m with ce := 0, uncorr := 0, poison := 0, ueAddr := 0, ueValid := false, caRetry := 0, wcRetry := 0, devCe := [], oneCopy := 0,
           rebuilt := 0, lost := 0, histWritten := 0, dropNoSlot := 0, dropNoCtx := 0, resync := 0, suspect := 0, waiting := [],
           capWait := [] }
/-- A lane in a warm reset: idle, with its P fields and the map of its last COMMIT, which no register shows (R20, R243). -/
def warmLane (v : Lane) : Lane :=
  { Lane.reset with en := v.en, osMiss := v.osMiss, healDelay := v.healDelay, cvLimit := v.cvLimit, spare := v.spare, shown := false,
                    os := v.os.map (fun e => (e.1, { e.2 with missCnt := 0, seenA := false, seenB := false, judged := false,
                                                              pollDue := false })) }
/-- A numbered-command link through a warm reset (R518): the numbering stays, and is taken anew at the first telemetry frame; streams are
forgotten, and no command waits for a sending any more. -/
def warmLink (k : OsLink) : OsLink :=
  { k with anew := k.base.isSome, sent := k.sent.filter (fun s => !LCmd.streams s.cmd),
           wait := (k.wait.filter (fun u => !LCmd.streams u.cmd)).map (fun u => { u with ref := none }) }
/-- A direct channel in a warm reset: its gate and comparator go on, and a gate in LINEAR begins to fall, its first step 20 µs on
(R309, R293). -/
def warmDch (d : Dch) (now : Count) : Dch :=
  { d with cmpOpen := 0, drvFault := 0, reports := 0, stuck := false, fall := if d.mode = .linear then some (now + 2000) else none }
/-- The ADC subsystem in a warm reset: host sequences restart from entry 0 (R309), and REF_READY, a W field, counts its 200 µs anew
(R302; log entry 79). -/
def warmAdc (a : Adc) (now : Count) : Adc :=
  { a with refReady := false, tRef := now, xchkFail := false, xchkBad := 0, yields := 0, yieldRun := 0, failRun := 0, passRun := 0, lastDiff := 0, xchkAt := now.toNat / 2000,
           passesA := 0, passesB := 0, nextA := 0, nextB := 0, res := [],
           inj := tabMap AdcInj.reset a.inj (fun _ j => { j with
             trig := none, conv := [], busy := false, done := false, overrun := 0, empty := 0, t := 0, res := [] }) }
/-- Thermometry in a warm reset: every site is healthy again, and SENSOR throttle ends (R411, R413). -/
def warmThm (t : Thm) : Thm :=
  { t with site := [], noDecision := false, hotSite := 0, decision := 0, blindRun := 0, sensor := false, sensorRaised := false,
           invalid := 0, hState := 0, hBroken := 0 }
/-- The insertion queue and the contexts are cleared (R182); running captures end with ABORTED (R233). -/
def warmContexts (f : Field) : Field :=
  let lost := f.hel.ctx.filter (fun e => inserts e.2 && (f.chan e.2.ch).nev.state = .inserting)
  let f1 := f.hel.ctx.foldl (fun (g : Field) e => g.dropCtx e.1 true) f
  { f1 with hel := warmHel f1.hel, pwr := { f1.pwr with insLost := lost } }
/-- The W and T fields of the core are cleared (R21, R458), and commands in flight are forgotten. -/
def warmClear (f : Field) : Field :=
  { f with
    mer := merWarm f.mer f.now, nev := warmNevs f.nev, sel := warmSel f.sel, firn := warmFirn f.firn,
    lan := { f.lan with lane := tabMap Lane.reset f.lan.lane (fun _ v => warmLane v),
                        link := tabMap OsLink.empty f.lan.link (fun _ k => warmLink k) },
    dch := tabMap Dch.reset f.dch (fun _ d => warmDch d f.now), adc := warmAdc f.adc f.now,
    trn := { f.trn with fresh := true, badMsg := 0, bulk := [], tunWait := [] },
    prt := { f.prt with hold := 0, block := [], busy := [], logSel := [], rstA := 0, rstB := 0 },
    saf := { f.saf with staging := f.saf.active, last := 0, offset := 0, refused := 0, short := 0 },
    sec := { f.sec with comm := false } }
/-- SENSOR throttle ends at the reset: throttle stays only where the readings hold it (R413, R415). -/
def warmThrottle (f : Field) : Field :=
  let was := f.thm.sensor
  let f1 := { f with thm := warmThm f.thm }
  if was && !f1.thm.hot then ({ f1 with thm := { f1.thm with throttle := false } }).throttleExit else f1
/-- A warm reset of a kind begins, or its 100,000 ticks restart (R455, R366, R343). A PIN reset ends 100,000 ticks after RST_N_F
is recognised high, at least 100 ticks later. -/
def warmEntry (f : Field) (k : RstKind) : Field :=
  let due : Count := f.now + (if k = .pin then 100100 else 100000)
  if f.pwr.st = .thermalOff then f
  else if f.pwr.st = .reset then { f with pwr := { f.pwr with warm := some (k, due) } }
  else
    let f1 := f.fstate .resetEntry (BitVec.ofNat 8 k.ctorIdx) 0x80
    let f2 := ({ f1 with trn := { f1.trn with st := .down } }).warmContexts
    let f3 := (f2.warmClear).firnSleep
    (({ f3 with pwr := { f3.pwr with st := .reset, req := 0, refuse := 0, entry := none, wakeHeld := 0, step1 := false, step2 := false, tSpan := 0,
                                     warm := some (k, due) } }).warmThrottle).debugEnd
/-- PIN of the field die: RST_N_F is recognised low (R455); ignored in THERMAL-OFF (R457). -/
def pinField (f : Field) : Field := f.warmEntry .pin
/-- WDT of the field die: the running sequencer has not serviced its watchdog. -/
def wdtField (f : Field) : Field := if f.coreOn || f.pwr.st = .reset then f.warmEntry .wdt else f
/-- SOFT: 0x50F7 from a COMMISSIONER partition (19, PWR_SOFT_RST). -/
def softReset (f : Field) (p : Part) (key : BitVec 16) : Field :=
  if f.coreOn && f.commissioner p && key = 0x50F7 then f.warmEntry .soft else f
/-- Every channel in INSERTING trips with STREAM_FAIL (R182), a gate that the reset held ON going OFF (R286), and the insertions that
held a context end (R519). -/
def warmTrips (f : Field) : Field :=
  let f1 := f.each (f.select (fun c => c.nev.state = .inserting)) (fun g x =>
    let g1 := match g.directOf x with | some n => if (g.dchan n).mode = DgMode.on then g.gateOff n false else g | none => g
    (g1.countFail 0x19).tripChan x 0x19)
  let f2 := f.pwr.insLost.foldl (fun (g : Field) e => g.insEnd e.1 e.2 0x19) f1
  { f2 with pwr := { f2.pwr with insLost := [] } }
/-- WARM_RESET_END (R455, R182, R243, R471). -/
def warmResetEnd (f : Field) : Field :=
  match f.pwr.st, f.pwr.warm with
  | .reset, some (k, due) =>
    if f.now < due then f
    else
      let f1 := { f with
        pwr := { f.pwr with warm := none, rstLast := BitVec.ofNat 3 k.ctorIdx, rstWarm := satAdd f.pwr.rstWarm 1,
                            rstWdt := if k = RstKind.wdt then satAdd f.pwr.rstWdt 1 else f.pwr.rstWdt },
        nvm := { f.nvm.start with log := { f.nvm.log with ready := false, tokens := 256 } } }
      ((f1.calibLost).coreResume).warmTrips
  | _, _ => f
/-- A gate that a warm reset found in LINEAR falls by 64 codes every 20 µs, and then is OFF (R309). -/
def gateFall (f : Field) : Field :=
  (f.dch.filter (fun e => match e.2.fall with | some t => decide (t ≤ f.now) | none => false)).foldl (fun (g : Field) e =>
    let n : BitVec 4 := BitVec.ofNat 4 e.1
    if e.2.gOut.toNat ≤ 64 then g.gateOff n false
    else g.modDch n (fun d => { d with gOut := d.gOut - 64, fall := some (g.now + 2000) })) f

/-! ### RUN, QUIET and STANDBY -/

/-- May a partition write PWR_CTRL (R448)? -/
def ownsPower (f : Field) (p : Part) : Bool := f.operator p || f.commissioner p
/-- REQ_RUN_QUIET (R448): REQ := RUN, or QUIET. -/
def reqRunQuiet (f : Field) (p : Part) (quiet : Bool) : Field :=
  if f.coreOn && f.ownsPower p && f.pwr.entry.isNone then
    let st := if quiet then PwrState.quiet else if f.pwr.step1 then PwrState.trim else PwrState.run
    let f1 := { f with pwr := { f.pwr with req := if quiet then 1 else 0, st := st } }
    if st = f.pwr.st then f1 else f1.fstate .power 0 0x80
  else f
/-- The code of the first failing STANDBY entry check (R449). -/
def standbyRefusal (f : Field) : Option (BitVec 3) :=
  if f.dch.any (fun e => e.2.mode ≠ .off) then some 1
  else if f.existing.any (fun e => e.2.nev.state = .inserting) || f.hel.ctx ≠ [] || f.firn.capWait ≠ [] then some 2
  else if f.firn.st ≠ .ready then some 3
  else if !(f.pwr.wakePin || f.pwr.wakeLink || (f.pwr.wakeTime && f.now < f.pwr.wakeAt)) then some 4
  else none
/-- REQ_STANDBY (R449): entry starts, or REFUSE is written and REQ keeps its earlier value. -/
def reqStandby (f : Field) (p : Part) : Field :=
  if f.coreOn && f.ownsPower p && f.pwr.entry.isNone then
    match f.standbyRefusal with
    | some c => { f with pwr := { f.pwr with refuse := c } }
    | none => { f with pwr := { f.pwr with req := 2, entry := some f.now, wakeHeld := 0, tCheck := f.now } }
  else f
/-- Exit from STANDBY for a wake source: 1 pin, 2 time, 3 link (R452, R453). -/
def standbyExit (f : Field) (src : BitVec 3) : Field :=
  ({ f with pwr := { f.pwr with req := 0, wake := src, wakeHeld := 0 }, adc := { f.adc with tRef := f.now } }).coreResume
/-- STANDBY_ENTRY (R450): once no sector erase runs, FSTATE, quiet lanes, self-refresh, REFBUF and PHYs off, retention. A wake
source recognised during entry ends it at once. -/
def standbyEntry (f : Field) : Field :=
  if f.coreOn && f.pwr.entry.isSome && f.nvm.log.erasing.isNone then
    let f1 := { f with pwr := { f.pwr with st := .standby, entry := none, stbyEntries := satAdd f.pwr.stbyEntries 1 } }
    let f2 := f1.fstate .power 0 0x80
    let f3 := { f2 with
      lan := { f2.lan with lane := tabMap Lane.reset f2.lan.lane (fun _ v => { v with
        st := .disabled, lockA := false, lockB := false, loopSeen := false, loopTicks := 0, enumPh := .idle, enumAns := [],
        enumHeld := false, polls := [], pollQ := [], eReads := [], eHeld := [], exq := [], slots := List.replicate 6 .idle }) } }
    let f4 := f3.firnSleep
    let f5 := ({ f4 with adc := { f4.adc with refReady := false }, trn := { f4.trn with st := .down }, sec := { f4.sec with comm := false } }).debugEnd
    if f5.pwr.wakeHeld = 0 then f5 else f5.standbyExit f5.pwr.wakeHeld
  else f
/-- A wake source is recognised, enabled or not: the first that is enabled ends STANDBY, or its entry (R452). -/
def wakeBy (f : Field) (en : Bool) (src : BitVec 3) : Field :=
  if !en then f
  else if f.pwr.st = .standby then f.standbyExit src
  else if f.coreOn && f.pwr.entry.isSome && f.pwr.wakeHeld = 0 then { f with pwr := { f.pwr with wakeHeld := src } }
  else f
/-- WAKE_PIN: WAKE_N_F low for 100,000 ticks. -/
def wakePin (f : Field) : Field := f.wakeBy f.pwr.wakePin 1
/-- WAKE_TIME: the count has reached PWR_WAKE, which lay ahead at the entry check (R449, R452). -/
def wakeTime (f : Field) : Field := f.wakeBy (f.pwr.wakeTime && f.pwr.tCheck < f.pwr.wakeAt && f.pwr.wakeAt ≤ f.now) 2
/-- WAKE_LINK: signal energy on the Transit control lanes for 1,000 ticks. -/
def wakeLink (f : Field) : Field := f.wakeBy f.pwr.wakeLink 3

/-- The delta-sigma outputs at a tick (R287). -/
def deltaSigma (f : Field) : Field :=
  { f with dch := tabMap Dch.reset f.dch (fun _ d =>
      if d.mode = .linear then
        let s : BitVec 13 := d.acc + d.gOut.setWidth 13
        { d with dg := 4095 ≤ s.toNat, acc := if 4095 ≤ s.toNat then s - 4095 else s }
      else d) }

end Field
end Sys2Proof.Machine
end

