-- ==== Sys2Proof/Machine/Checks.lean ====
section
/-! DEFINITION. The checks of a profile write and of a bank: R89, R118, R147, R167, R191, R206 and R230, and R190. -/
namespace Sys2Proof.Machine

/-- A test of a block: the offset of its field, and whether the field fails it. -/
abbrev FieldTest := Nat × Bool
/-- The first failing field in offset order (R89). -/
def firstBad (ts : List FieldTest) : Option Nat :=
  (ts.filter (·.2)).foldl (fun m t => match m with | none => some t.1 | some o => some (min o t.1)) none
/-- A reserved field of n bytes at an offset must be 0. -/
def resvField (b : Bytes) (o n : Nat) : FieldTest := (o, decide (leNat b o n ≠ 0))
/-- The first failing field of the first block that has one. -/
def firstBlock : List (List FieldTest) → Option Nat
  | [] => none
  | ts :: r => match firstBad ts with
    | some o => some o
    | none => firstBlock r

/-! ### The profile's own fields (R89) -/

/-- T of a fallback stage in 100 µs units. -/
def fbT (b : Bytes) (i : Nat) : Nat :=
  let t := u16 b (70 + 4 * i)
  let u := bits t 14 2
  (bits t 0 14).toNat * (if u = 0 then 1 else if u = 1 then 10 else if u = 2 then 100 else 1000)
/-- M of a fallback stage. -/
def fbM (b : Bytes) (i : Nat) : Nat := leNat b (68 + 4 * i) 2
/-- The tests of fallback stage i. -/
def fbTests (b : Bytes) (i : Nat) : List FieldTest :=
  let on : Bool := decide (fbM b i ≠ 0)
  let off := (List.range i).any (fun k => fbM b k = 0)
  let low : Bool := decide (i ≠ 0) && decide (fbM b i ≤ fbM b (i - 1))
  let slow : Bool := decide (i ≠ 0) && decide (fbM b (i - 1) ≠ 0) && decide (fbT b (i - 1) < fbT b i)
  [(68 + 4 * i, on && (off || low)), (70 + 4 * i, on && (slow || decide (bits (u16 b (70 + 4 * i)) 0 14 = 0)))]
/-- M of the enabled stage with the highest number, 0 for none. -/
def fbLastM (b : Bytes) : Nat := (List.range 8).foldl (fun m i => if fbM b i = 0 then m else fbM b i) 0
/-- The tests of bytes 0 to 103. -/
def coreTests (b : Bytes) : List FieldTest :=
  let act (o : Nat) : Bool := decide (u8 b o ≠ 0)
  let zero (o n : Nat) : Bool := decide (leNat b o n = 0)
  let above (o n m : Nat) : Bool := decide (m < leNat b o n)
  [(0, decide (bits (u8 b 0) 3 5 ≠ 0)), resvField b 1 1,
   (8, above 8 1 2), (9, act 8 && (zero 9 1 || above 9 1 4)), (10, act 8 && zero 10 2),
   (12, above 12 1 2), (13, above 13 1 1), (14, act 12 && zero 14 2), (16, act 12 && zero 16 2),
   (18, above 18 1 2), resvField b 19 1, (20, act 18 && zero 20 4),
   (24, act 18 && !zero 24 4 && decide (leNat b 20 4 ≤ leNat b 24 4)),
   (28, decide (u8 b 31 &&& 0xE0 ≠ 0) || (act 18 && (zero 28 4 || above 28 4 0x10000000))),
   (32, decide (u8 b 35 &&& 0xE0 ≠ 0) || (act 18 && (zero 32 4 || above 32 4 0x10000000))),
   (36, above 36 1 2), (37, above 37 1 2),
   (38, decide (u8 b 39 &&& 0xF0 ≠ 0) || (act 36 && zero 38 2)), (40, act 36 && (zero 40 2 || above 40 2 4095)),
   (42, decide (u8 b 43 &&& 0xF0 ≠ 0)), (44, act 37 && (zero 44 2 || above 44 2 4095)),
   (46, zero 46 1 || above 46 1 15), (47, above 47 1 15), (48, act 47 && zero 48 1), resvField b 49 15,
   (64, !zero 64 2 && decide (fbLastM b ≠ 0) && decide (leNat b 64 2 ≤ fbLastM b)), resvField b 66 2]
  ++ ((List.range 8).map (fbTests b)).flatten ++ [resvField b 100 4]

/-! ### The blocks (R118, R147, R167, R206, R230) -/

/-- The selectivity block (R118). -/
def selTests (b : Bytes) : List FieldTest :=
  let v (o n : Nat) : Nat := leNat b o n
  let outside (o lo hi : Nat) : Bool := decide (0 < v o 2) && decide (v o 2 < lo) || decide (hi < v o 2)
  [(104, decide (3 < v 104 1)), (105, decide (25 < v 105 1) || decide (Field.holdoffUs b < v 105 1 + 15)),
   (106, outside 106 15 1000), (108, outside 108 50 10000),
   (110, outside 110 100 60000 || decide (Field.holdLimitUs b ≤ Field.holdoffUs b)), (112, outside 112 2 100), resvField b 114 14]
/-- The policy of one cause class (R147). -/
def classTests (b : Bytes) (c : Nat) : List FieldTest :=
  let o := 128 + 4 * c
  let a := u8 b o
  let retry : Bool := decide (bits a 0 2 = 1)
  let n := (u8 b (o + 1)).toNat
  [(o, decide (bits a 0 2 = 3) || decide (bits a 3 5 ≠ 0) || (decide (c = 6) && retry)),
   (o + 1, if retry then decide (n = 0) || decide (15 < n) else decide (n ≠ 0)),
   (o + 2, if retry then decide (bits (u16 b (o + 2)) 0 14 = 0) else decide (u16 b (o + 2) ≠ 0))]
/-- The retry block (R147). -/
def retryTests (b : Bytes) : List FieldTest :=
  ((List.range 8).map (classTests b)).flatten ++
  [(160, decide (0 < leNat b 160 1) && decide (leNat b 160 1 < 8)), (161, decide (15 < leNat b 161 1)), resvField b 162 2,
   (164, decide (864000000 < leNat b 164 4)), (168, decide (864000000 < leNat b 168 4)), resvField b 172 4]
/-- Effective V_TARGET of a profile. -/
def vTargetOf (b : Bytes) : Nat := if leNat b 190 2 = 0 then 1024 else leNat b 190 2
/-- The insertion block (R167). -/
def insTests (b : Bytes) : List FieldTest :=
  let v (o n : Nat) : Nat := leNat b o n
  let outside (o lo hi : Nat) : Bool := decide (0 < v o 2) && decide (v o 2 < lo) || decide (hi < v o 2)
  [(176, decide (1 < v 176 1)), (177, decide (2 < v 177 1)), (179, decide (1 < v 179 1)), (180, decide (v 180 2 < 10)),
   (184, if v 176 1 = 1 then decide (v 184 2 = 0) || decide (v 186 2 ≤ v 184 2) else decide (v 176 1 = 0) && decide (v 184 2 ≠ 0)),
   (186, decide (v 186 2 = 0)), (188, decide (v 188 1 = 0)), resvField b 189 1, (190, decide (4095 < v 190 2)),
   (192, decide (4095 < v 192 2) || decide (v 192 2 = 0) || decide (vTargetOf b ≤ v 192 2)), (194, decide (v 194 2 = 0)),
   (196, outside 196 5 1000), (198, decide (60000 < v 198 2)), (200, outside 200 110 1000), resvField b 202 2, resvField b 236 4]
/-- The model block (R206). -/
def modelTests (b : Bytes) : List FieldTest :=
  let v (o n : Nat) : Nat := leNat b o n
  let en := bit (u8 b 204) 0
  let inj := bit (u8 b 204) 1
  [(204, decide (3 < v 204 1)), (205, decide (15 < v 205 1)), (206, decide (16 < v 206 1)), resvField b 207 1,
   (216, en && decide (v 216 2 = 0)), resvField b 219 1, (220, decide (4095 < v 220 2)),
   (222, if inj then decide (v 222 2 = 0) || decide (v 192 2 < 2 * v 222 2) else decide (v 222 2 ≠ 0)),
   (224, if inj then decide (v 224 2 = 0) || decide (4095 < v 224 2) || decide (3 * v 194 2 < 4 * v 224 2 * v 226 1)
     else decide (v 224 2 ≠ 0)),
   (226, if inj then decide (v 226 1 = 0) else decide (v 226 1 ≠ 0)), resvField b 227 9]
/-- The metering block (R230). -/
def meterTests (b : Bytes) : List FieldTest :=
  let v (o n : Nat) : Nat := leNat b o n
  [(240, decide (3 < v 240 1)), resvField b 241 1, (242, decide (128 < v 242 2)),
   (244, (bit (u8 b 240) 1 && decide (v 244 2 = 0)) || decide (8184 < v 242 2 + v 244 2)), resvField b 246 10]
/-- The check of a whole profile, the blocks in the order of R514; the loop set of R191 after R167. -/
def profileBad (b : Bytes) (loopOk : Bool) : Option Nat :=
  firstBlock [coreTests b, selTests b, retryTests b, insTests b, [(178, !loopOk)], modelTests b, meterTests b]

/-! ### Banks (R190) -/

/-- Coefficients of a stage type (R195). -/
def coefCount (ty : Nat) : Nat :=
  if ty = 1 then 4 else if ty = 2 then 5 else if ty = 3 then 3 else if ty = 4 then 1 else if ty = 5 then 2 else 0
/-- The tests of stage s. -/
def stageTests (b : Bytes) (s : Nat) : List FieldTest :=
  let o := 16 + 18 * s
  let ty := stType b s
  let c (i : Nat) : Nat := leNat b (o + 2 + 3 * i) 3
  if s < nstage b then
    [(o, decide (ty = 0) || decide (5 < ty)),
     (o + 1, decide (stE0 b s < -16) || decide (8 < stE0 b s)
       || decide (bits (u8 b (o + 1)) 6 2 ≠ if bit (u8 b (o + 1)) 5 then 3 else 0))]
    ++ (List.range 5).map (fun i => ((o + 2 + 3 * i, decide (262143 < c i) || (decide (coefCount ty ≤ i) && decide (c i ≠ 0))
      || (decide (ty = 1) && decide (i = 2) && decide (stC b s 2 < stC b s 3))
      || (decide (ty = 5) && decide (i = 0) && decide (stC b s 0 ≤ stC b s 1))) : FieldTest))
    ++ [resvField b (o + 17) 1]
  else
    [resvField b o 1, resvField b (o + 1) 1] ++ (List.range 5).map (fun i => resvField b (o + 2 + 3 * i) 3) ++ [resvField b (o + 17) 1]
/-- The check of a bank (R190): the first failing field; a condition on two fields names the lower offset. -/
def bankBad (b : Bytes) : Option Nat :=
  let v (o n : Nat) : Nat := leNat b o n
  firstBad ([(0, decide (nstage b = 0) || decide (6 < nstage b)), (1, decide (1 < v 1 1)),
    (2, decide (4095 < v 2 2) || decide (v 4 2 ≤ v 2 2)), (4, decide (4095 < v 4 2)), (6, decide (4095 < v 6 2)),
    (8, decide (4095 < v 8 2)), (10, decide (1024 < v 10 2)), resvField b 12 4]
    ++ ((List.range 6).map (stageTests b)).flatten ++ [resvField b 124 4])

end Sys2Proof.Machine
end

