-- ==== Sys2Proof/Machine/Commands.lean ====
section
/-! DEFINITION. The channel commands of the field die: creation, destruction, reconfiguration, switching, grants, energy and
captures (02, 04, 05, 06, 08, 15; R53 to R72, R405, R515). -/
namespace Sys2Proof.Machine
namespace Field

/-! ### Checks (R53, R405) -/

/-- Checks 1 to 5 of R53 for a command that is no read: the handle, a role or a grant for bit b, ownership or the grant. -/
def checks15 (f : Field) (p : Part) (h : Word) (role : Bool) (b : Option Nat) : List Check :=
  let g := match b with | some k => f.granted p (idx h) k | none => false
  f.checks123 p h ++ [(role || g, .role, 0), ((f.chan (idx h)).nev.owner = p || g, .notOwner, 0)]
/-- Checks 1 to 4 of a read that names a handle. -/
def checksRead (f : Field) (p : Part) (h : Word) : List Check := f.checks123 p h ++ [(f.anyRole p, .role, 0)]
/-- Check 6 for a command that only a kind with a switch allows. -/
def kindSwitches (f : Field) (h : Word) : Check := ((f.chan (idx h)).nev.kind.switches, .kind, 0)
/-- The safe check of a mirror source (R104). -/
def mirrorSrcOk (f : Field) (h : Word) : Bool := handleForm h && f.handleLive h && (f.chan (idx h)).nev.kind ≠ .virt
/-- Another VIRTUAL channel than x mirrors a source. -/
def mirroredElse (f : Field) (src x : BitVec 17) (self : Bool) : Bool :=
  f.existing.any (fun e => e.2.fr.mirror = some src && !(self && e.1 = x))
/-- VALID of a profile. -/
def profValid (f : Field) (p : BitVec 12) : Bool := bit (u8 (f.prof p) 0) 0
/-- VALID of a loop set. -/
def loopValid (f : Field) (n : Byte) : Bool := bit (u8 (f.loopSet n) 1) 0
/-- Parent checks 1 and 2 (R112). -/
def parentOk (f : Field) (h : Word) : Bool := handleForm h && f.handleLive h && (f.chan (idx h)).nev.kind ≠ .sense
/-- Parent check 4: the parent's DEPTH plus 1 plus the subtree's height is at most 15 (R112). -/
def depthOk (f : Field) (h : Word) (height : Nat) : Bool := (f.chan (idx h)).nev.depth.toNat + 1 + height ≤ 15

/-! ### CREATE (R54 to R56, R515) -/

/-- The outstation of a BIND, where its lane is up and it is enumerated and reachable (R54). -/
def bindOs (f : Field) (b : Word) : Option Outst :=
  let l : BitVec 5 := bits b 12 5
  let pos : BitVec 6 := bits b 6 6
  if (endOf (f.lane l) pos).isNone then none
  else match f.osAt l pos with
    | some o => if o.missing then none else some o
    | none => none
/-- Does the point of a BIND exist (R54)? -/
def pointExists (f : Field) (b : Word) : Bool :=
  let pt : BitVec 6 := bits b 0 6
  match f.bindOs b with
  | some o => decide (pt.toNat < o.npts.toNat) && bit o.present pt.toNat
  | none => false
/-- Does the point of a BIND have a switch? -/
def pointSwitched (f : Field) (b : Word) : Bool :=
  match f.bindOs b with | some o => bit o.switched (bits b 0 6).toNat | none => false
/-- The binding a CREATE asks for. -/
def bindOf (f : Field) (o : CreateOps) : Bind :=
  match o.kind.toNat with
  | 0 | 1 => match f.bindOs o.bind with
    | some s => .point (bits o.bind 12 5) (bits o.bind 6 6) (bits o.bind 0 6) s.id
    | none => .none
  | 2 => .direct (bits o.bind 0 4)
  | _ => .none
/-- Do two bindings name one point of an identity, or one direct channel? -/
def bindSame : Bind → Bind → Bool
  | .point _ _ p i, .point _ _ q j => p = q && i = j
  | .direct n, .direct m => n = m
  | _, _ => false
/-- The last word's status bits of the point of a BIND, where it arrived in the current or the previous superframe (R56). -/
def recentWord (f : Field) (b : Word) : Option (BitVec 4) :=
  match f.bindOs b with
  | some o => match tabLook f.nev.lastWord (o.id.toNat * 64 + (bits b 0 6).toNat) with
    | some (w, sf) => if f.nev.sfCount ≤ sf + 1 then some w else none
    | none => none
  | none => none
/-- The byte of BIND that holds the first bit outside the bits stated for a kind (R12, R405 check B); VIRTUAL has none
stated, and its BIND is a matter of check D. -/
def bindBad (k : Kind) (b : Word) : Option Nat :=
  let lo : Nat := match k with | .switched | .sense => 17 | .direct => 4 | .virt => 32
  match firstNat (fun i => bit b i) lo (32 - lo) with
  | some i => some (28 + i / 8)
  | none => none
/-- Checks C and D of a CREATE, with check B of its BIND and the refusal of R343. -/
def createFirst (f : Field) (p : Part) (o : CreateOps) : List Check :=
  let k := Kind.ofCode o.kind.toNat
  let gains := k ≠ .virt || o.mirror ≠ 0
  [((bindBad k o.bind).isNone, .badDesc, (bindBad k o.bind).getD 0),
   (o.root || !bit f.nev.coldAck p.toNat, .epoch, 0), (f.commissioner p, .role, 0),
   (!o.root || o.parent = 0, .badParam, 20), (o.reqIndex || o.index = 0, .badParam, 24),
   (k ≠ .virt || o.bind = 0, .badParam, 28),
   (!gains || o.igain ≠ 0, .badParam, 32), (!gains || o.vgain ≠ 0, .badParam, 36),
   (k = .virt || o.mirror = 0, .badParam, 44), (f.firnOn, .firnDown, 0)]
/-- Existing channels, of all kinds. -/
def chanCount (f : Field) : Nat :=
  f.nev.cntSwitched.toNat + f.nev.cntSense.toNat + f.nev.cntDirect.toNat + f.nev.cntVirtual.toNat
/-- Channels a partition owns. -/
def ownedBy (f : Field) (p : Part) : Nat := f.existing.countP (fun e => e.2.nev.owner = p)
/-- Check E of a CREATE (R515). -/
def createChecks (f : Field) (p : Part) (o : CreateOps) : List Check :=
  let k := Kind.ofCode o.kind.toNat
  let b := f.bindOf o
  [(f.chanCount < 131072, .full, 0), (f.ownedBy p < f.quota p, .quota, 0),
   (!o.reqIndex || (f.chan o.index).nev.state = .free, .indexBusy, 0),
   (!k.remote || f.pointExists o.bind, .noPoint, 0), (k ≠ .switched || f.pointSwitched o.bind, .kind, 0),
   (!f.existing.any (fun e => bindSame e.2.fr.bind b), .busyPoint, 0),
   (k ≠ .switched || !o.adopt || (f.recentWord o.bind).isSome, .noPoint, 0),
   (o.root || f.parentOk o.parent, .badParent, 0), (o.root || f.depthOk o.parent 0, .tooDeep, 0),
   (f.profValid o.profile, .noProfile, 0),
   (o.mirror = 0 || f.mirrorSrcOk o.mirror, .badParam, 44),
   (o.mirror = 0 || !f.mirroredElse (idx o.mirror) 0 false, .mirrorBusy, 0)]
/-- Take the head of the free list (R51). -/
def spanHead : List Span → Option (Nat × List Span)
  | [] => none
  | s :: r => some (s.lo, if s.count ≤ 1 then r else { lo := s.lo + 1, count := s.count - 1 } :: r)
/-- Remove an index from the free list (R52). -/
def spanRemove (x : Nat) : List Span → List Span
  | [] => []
  | s :: r =>
    if s.lo ≤ x && x < s.lo + s.count then
      (if s.lo < x then [{ lo := s.lo, count := x - s.lo }] else []) ++
      (if x + 1 < s.lo + s.count then [{ lo := x + 1, count := s.lo + s.count - (x + 1) }] else []) ++ r
    else s :: spanRemove x r
/-- Add an index at the tail of the free list (R51). -/
def spanAppend (x : Nat) (l : List Span) : List Span :=
  match l.getLast? with
  | some s => if s.lo + s.count = x then l.dropLast ++ [{ s with count := s.count + 1 }] else l ++ [{ lo := x, count := 1 }]
  | none => [{ lo := x, count := 1 }]
/-- The counts of R77, changed by one. -/
def countKind (n : Nevs) (k : Kind) (up : Bool) : Nevs :=
  match k with
  | .switched => { n with cntSwitched := if up then n.cntSwitched + 1 else n.cntSwitched - 1 }
  | .sense => { n with cntSense := if up then n.cntSense + 1 else n.cntSense - 1 }
  | .direct => { n with cntDirect := if up then n.cntDirect + 1 else n.cntDirect - 1 }
  | .virt => { n with cntVirtual := if up then n.cntVirtual + 1 else n.cntVirtual - 1 }
/-- The channel a CREATE makes, before it enters its first state (R56, R103, R218, R229). -/
def created (f : Field) (p : Part) (o : CreateOps) (x : BitVec 17) : Chan :=
  let pr := f.prof o.profile
  { nev := { Nev.free (f.chan x).nev.gen with
      kind := Kind.ofCode o.kind.toNat, owner := p, profile := o.profile, parent := if o.root then 0 else idx o.parent,
      parentValid := !o.root, depth := if o.root then 0 else (f.chan (idx o.parent)).nev.depth + 1, igain := o.igain,
      vgain := o.vgain, tok := BitVec.ofNat 4 (rateMax pr), rcnt := rateRefill pr },
    fr := { ChRec.empty with bind := f.bindOf o, mirror := if o.mirror = 0 then none else some (idx o.mirror), elsb := o.elsb },
    met := { Meter.empty with elsb2 := o.elsb, short := true },
    hist := Hist.empty, aux := { Aux.empty with firstArrival := true } }
/-- A CREATE that passes its checks, at index x. Binding a direct channel clears its sums, both energy accumulators and the pre-trigger
buffer (R298 to R300). -/
def createAt (f : Field) (p : Part) (o : CreateOps) (x : BitVec 17) : Field :=
  let k := Kind.ofCode o.kind.toNat
  let adopted := k = .switched && o.adopt && (match f.recentWord o.bind with | some w => bit w 0 | none => false)
  let st : ChState := if k.switches && !adopted then .opened else .closed
  let f1 := { f with nev := countKind { f.nev with freeList := spanRemove x.toNat f.nev.freeList } k true }
  let f2 := (List.range 5).foldl (fun (g : Field) j => g.heal2 x j) (f1.setChan x (f.created p o x))
  let f3 := f2.enter x st 0 0 (some p)
  match k with
  | .switched => (if adopted then f3 else f3.cmdTo x .openPoint none).queueFb x
  | .direct =>
    let n : BitVec 4 := bits o.bind 0 4
    (f3.modDch n (fun d => { d with bound := some x, sumI := 0, sumV := 0, n := 0, ovr := false, inval := false, accImp := 0,
                                    accExp := 0, pre := [], preFrozen := none })).gateOff n false
  | _ => f3
/-- CREATE. -/
def create (f : Field) (r : CmdRef) (o : CreateOps) : Field :=
  f.guard r (f.createFirst r.part o) (fun g => g.guard r (g.createChecks r.part o) (fun g =>
    let x : BitVec 17 := if o.reqIndex then o.index else match spanHead g.nev.freeList with
      | some (i, _) => BitVec.ofNat 17 i
      | none => 0
    let g1 := g.createAt r.part o x
    g1.completeH r .ok 0 false (g1.handle x)))

/-! ### DESTROY (R58, R59, R113, R223) -/

/-- May a channel be destroyed in its state (R59, R69)? -/
def destroyable (f : Field) (x : BitVec 17) : Bool :=
  let c := f.chan x
  !(c.nev.kind.switches && (c.nev.state = .closed || c.nev.state = .inserting)) &&
    (match f.directOf x with | some n => (f.dchan n).mode = DgMode.off | none => true)
/-- A channel's contexts end with its destruction; captures end with ABORTED (R233). -/
def destroyCtxs (f : Field) (x : BitVec 17) : Field :=
  (f.ctxsOf x).foldl (fun (g : Field) e =>
    (g.stopStream e.2 (if e.2.phase = Phase.capture then 2 else 0)).dropCtx e.1 true) f
/-- What stands elsewhere for a destroyed channel goes: queued work, grants (R382), waiting captures, and the link of its
mirror (R105). -/
def forget (f : Field) (x : BitVec 17) : Field :=
  let w := f.firn.capWait.filter (fun w => w.ch = x)
  let f1 := { f with
    firn := { f.firn with capWait := f.firn.capWait.filter (fun w => w.ch ≠ x) },
    prt := { f.prt with grants := f.prt.grants.filter (fun g => g.ch ≠ x) },
    nev := { f.nev with arrivals := f.nev.arrivals.filter (fun a => a.ch ≠ x), mirrorQ := f.nev.mirrorQ.filter (fun a => a.ch ≠ x),
                        recovering := f.nev.recovering.filter (· ≠ x) },
    lan := { f.lan with link := tabMap OsLink.empty f.lan.link (fun _ k =>
      { k with wait := k.wait.filter (fun u => !LCmd.isFbOf x u.cmd) }) } }
  let f2 := w.foldl (fun (g : Field) w => g.capNoCtx w) f1
  match f2.mirrorOf x with
  | some m => (f2.modRec m (fun r => { r with mirror := none })).element m 0x0E
  | none => f2
/-- The record after a destruction, which writes codeword 0 only (R349): codeword 1 keeps its fields, but for the wheel entry, which is
gone with the channel. -/
def destroyedRec (r : ChRec) : ChRec :=
  { ChRec.empty with cause := r.cause, lockReason := r.lockReason, lockPrior := r.lockPrior, rcount := r.rcount, tState := r.tState,
                     thermSnap := r.thermSnap, hseq := r.hseq }
/-- A DESTROY that passes its checks. -/
def destroyAt (f : Field) (p : Part) (x : BitVec 17) : Field :=
  let c := f.chan x
  let h := f.handle x
  let f1 := (f.unqueue x).destroyCtxs x
  let f2 := (f1.enter x .free 0 0 (some p)).raise c.nev.owner 0x20 h (le 8 c.met.imp ++ le 8 c.met.exp)
  let f3 := match f2.directOf x with | some n => f2.modDch n (fun d => { d with bound := none }) | none => f2
  let f4 := f3.forget x
  let f5 := f4.setChan x
    { nev := Nev.free (c.nev.gen + 1), fr := destroyedRec c.fr, met := { c.met with elsb2 := f.elsbOf x }, hist := Hist.empty,
      aux := Aux.empty }
  let f6 := f5.heal2 x 0
  { f6 with nev := countKind { f6.nev with freeList := spanAppend x.toNat f6.nev.freeList } c.nev.kind false }
/-- The checks of a DESTROY. -/
def destroyChecks (f : Field) (r : CmdRef) : List Check :=
  f.checks15 r.part r.handle (f.commissioner r.part) none ++
    ([(f.destroyable (idx r.handle), .state, 0), (!f.selMember (idx r.handle), .selBusy, 0),
     ((f.children (idx r.handle)).isEmpty, .hasChildren, 0)] : List Check)
/-- DESTROY. -/
def destroy (f : Field) (r : CmdRef) : Field :=
  f.guard r (f.destroyChecks r) (fun g => (g.destroyAt r.part (idx r.handle)).done r)

/-! ### RECONFIGURE (R72, R92, R111, R114, R353) -/

/-- Check D of a RECONFIGURE. -/
def reconfFields (f : Field) (x : BitVec 17) (o : ReconfOps) : List Check :=
  [(o.parentSel || !o.root, .badParam, 17), (o.profileSel || o.profile = 0, .badParam, 18),
   ((o.parentSel && !o.root) || o.parent = 0, .badParam, 20), (o.gainsSel || o.igain = 0, .badParam, 32),
   (o.gainsSel || o.vgain = 0, .badParam, 36),
   ((o.mirrorSel && (f.chan x).nev.kind = .virt) || o.mirror = 0, .badParam, 44)]
/-- Check E of a RECONFIGURE (R71). One that selects PARENT is refused with SEL_BUSY for a member of an open event even where it names
the present parent (R130; log entry 120). -/
def reconfChecks (f : Field) (x : BitVec 17) (o : ReconfOps) : List Check :=
  let c := f.chan x
  let par := o.parentSel && !o.root
  let y := idx o.parent
  let src := o.mirrorSel && o.mirror ≠ 0
  let gains := c.nev.kind ≠ .virt || (if o.mirrorSel then o.mirror ≠ 0 else c.fr.mirror.isSome)
  [(!o.parentSel || !f.selMember x, .selBusy, 0), (!par || f.parentOk o.parent, .badParent, 0),
   (!par || (y ≠ x && !f.below y x), .cycle, 0), (!par || f.depthOk o.parent (f.height x), .tooDeep, 0),
   (!o.profileSel || f.profValid o.profile, .noProfile, 0), (!src || f.mirrorSrcOk o.mirror, .badParam, 44),
   (!src || !f.mirroredElse (idx o.mirror) x true, .mirrorBusy, 0),
   (!gains || (if o.gainsSel then o.igain else c.nev.igain) ≠ 0, .badParam, 32),
   (!gains || (if o.gainsSel then o.vgain else c.nev.vgain) ≠ 0, .badParam, 36)]
/-- Binding a different profile (R92). -/
def rebind (n : Nev) (q : BitVec 12) (p : Bytes) : Nev :=
  { n with profile := q, instCnt := 0, stCnt := 0, ovCnt := 0, uvCnt := 0, pickup := 0, disPend := false, disRaised := false,
           tok := BitVec.ofNat 4 (rateMax p), rcnt := rateRefill p }
/-- A lost record is rewritten (R353); a VIRTUAL channel then returns to CLOSED (R67). -/
def rewriteRecord (f : Field) (x : BitVec 17) (p : Part) : Field :=
  if (f.chan x).aux.recLost then
    let f1 := f.modChan x (fun c => { c with fr := { c.fr with cause := 0, rcount := 0, wheel := .none },
                                             aux := { c.aux with recLost := false } })
    let f2 := (f1.heal2 x 0).heal2 x 1
    if (f2.chan x).nev.kind = .virt && (f2.chan x).nev.state = .fallback then f2.enter x .closed 0 0 (some p) else f2
  else f
/-- A RECONFIGURE that passes its checks. -/
def reconfAt (f : Field) (p : Part) (x : BitVec 17) (o : ReconfOps) : Field :=
  let c := f.chan x
  let newProf := o.profileSel && o.profile ≠ c.nev.profile
  let newGain := o.gainsSel && o.igain ≠ c.nev.igain
  let parent : Option (BitVec 17) := if o.root then none else some (idx o.parent)
  let moved := o.parentSel && parent ≠ f.parentOf x
  let src : Option (BitVec 17) := if o.mirror = 0 then none else some (idx o.mirror)
  let f1 := f.modChan x (fun c =>
    let n1 := if newProf then rebind c.nev o.profile (f.prof o.profile) else c.nev
    let n2 := if o.gainsSel then { n1 with igain := o.igain, vgain := o.vgain } else n1
    let n3 := if moved then { n2 with parent := parent.getD 0, parentValid := parent.isSome } else n2
    { c with nev := n3, fr := if o.mirrorSel then { c.fr with mirror := src } else c.fr,
             met := if o.mirrorSel && src ≠ c.fr.mirror then { c.met with sync := .first } else c.met })
  let f2 := if moved then (x :: f1.descendants x).foldl (fun (g : Field) y =>
      g.modAux y (fun a => { a with depthPend := true })) f1 else f1
  let f3 := f2.rewriteRecord x p
  let f4 := if newProf then f3.queueRecheck (fun y => y = x) else f3
  if newProf || newGain then f4.queueFb x else f4
/-- RECONFIGURE; one that selects nothing changes nothing. -/
def reconfigure (f : Field) (r : CmdRef) (o : ReconfOps) : Field :=
  let x := idx r.handle
  f.guard r (f.checks15 r.part r.handle (f.operator r.part) none ++ f.reconfFields x o) (fun g =>
    if !o.selects then g.completeH r .ok 0 true r.handle
    else g.guard r (g.reconfChecks x o) (fun g => (g.reconfAt r.part x o).done r))

/-! ### CLOSE, OPEN, RELEASE (R69 to R71, R159, R165) -/

/-- The first checks of a CLOSE (grant bit 0) or an OPEN (grant bit 1). -/
def switchChecks (f : Field) (r : CmdRef) (b : Nat) : List Check :=
  f.checks15 r.part r.handle (f.operator r.part) (some b) ++ [f.kindSwitches r.handle]
/-- Check 7 of a CLOSE or an OPEN: neither LOCKED_OUT nor FALLBACK (R69). -/
def stateCheck (f : Field) (r : CmdRef) : Check :=
  let s := (f.chan (idx r.handle)).nev.state
  (s ≠ .lockedOut && s ≠ .fallback, .state, 0)
/-- A CLOSE finds its channel in INSERTING or CLOSED: "Same" (R69). -/
def alreadyShut (f : Field) (r : CmdRef) : Bool :=
  let s := (f.chan (idx r.handle)).nev.state
  s = .inserting || s = .closed
/-- The checks of a CLOSE that would begin an insertion (R71). -/
def closeChecks (f : Field) (x : BitVec 17) (soft : Bool) : List Check :=
  [(!f.selMember x, .selBusy, 0), (!f.saf.safe, .safeState, 0), (!soft || leNat (f.profOf x) 182 2 ≠ 0, .noSoft, 0),
   (rateMax (f.profOf x) = 0 || (f.chan x).nev.tok ≠ 0, .rate, 0), (f.hel.queue.length < 1024, .queueFull, 0)]
/-- CLOSE. -/
def closeCmd (f : Field) (r : CmdRef) (soft : Bool) : Field :=
  let x := idx r.handle
  f.guard r (f.switchChecks r 0) (fun g =>
    if g.alreadyShut r then g.completeH r .ok 0 true r.handle
    else g.guard r [g.stateCheck r] (fun g => g.guard r (g.closeChecks x soft) (fun g => (g.startInserting x (if soft then .soft else .close) (some r.part)).done r)))
/-- The point of a channel that has moved to OPEN is opened, and the command completes (R70). -/
def sendOpen (f : Field) (r : CmdRef) (x : BitVec 17) : Field :=
  match f.directOf x with
  | some n => (f.gateOff n false).done r
  | none => f.cmdTo x .openPoint (some r)
/-- An open command ends an insertion (R70, R172, R180). In PREPARE, RAMP and SETTLE it completes at the transition to OPEN, for a
DIRECT channel too: R70's second bullet would have it wait for DG low (log entry 120). -/
def openInsertion (f : Field) (r : CmdRef) (x : BitVec 17) : Field :=
  match f.insCtx x with
  | none => ((f.unqueue x).enter x .opened 0 0 (some r.part)).done r
  | some (n, c) =>
    if c.phase = Phase.handover then
      (((f.dropCtx n false).enter x .opened 0 0 (some r.part)).insEnd n c 0x20).sendOpen r x
    else
      let f1 := match c.loopSlot with
        | some s => (f.capEnd s false).modCtx n (fun k => { k with loopSlot := none })
        | none => f
      (((f1.enter x .opened 0 0 (some r.part)).insEnd n c 0x20).toRampOff n none).done r
/-- OPEN. -/
def openCmd (f : Field) (r : CmdRef) : Field :=
  let x := idx r.handle
  f.guard r (f.switchChecks r 1) (fun g =>
    match (g.chan x).nev.state with
    | .opened => g.completeH r .ok 0 true r.handle
    | .inserting => (g.openInsertion r x).modRec x (fun c => { c with rcount := 0 })
    | .closed | .tripped | .retryWait =>
      ((g.enter x .opened 0 0 (some r.part)).modRec x (fun c => { c with rcount := 0 })).sendOpen r x
    | .free | .lockedOut | .fallback => g.complete r .state 0)
/-- The checks of a RELEASE. -/
def releaseChecks (f : Field) (r : CmdRef) : List Check :=
  f.switchChecks r 2 ++ ([((f.chan (idx r.handle)).nev.state = .lockedOut, .state, 0)] : List Check)
/-- RELEASE. -/
def releaseCmd (f : Field) (r : CmdRef) : Field :=
  let x := idx r.handle
  f.guard r (f.releaseChecks r) (fun g => ((g.enter x .opened 0 0 (some r.part)).modRec x (fun c => { c with rcount := 0 })).done r)

/-! ### GRANT (R379) -/

/-- A grant of one channel to one partition. -/
def grantPairs (x : BitVec 17) (grantee : Part) (g : Grant) : Bool := g.ch = x && g.grantee = grantee
/-- The checks of a GRANT (R379). -/
def grantChecks (f : Field) (r : CmdRef) (grantee : Part) (mask : BitVec 3) (subtree : Bool) : List Check :=
  let x := idx r.handle
  f.checks15 r.part r.handle (f.operator r.part || f.commissioner r.part) none ++
    ([(grantee ≠ r.part, .badParam, 16), (mask = 0 || (f.chan x).nev.kind.switches || subtree, .kind, 0),
     (mask = 0 || f.prt.grants.any (grantPairs x grantee) || f.prt.grants.length < 4096, .grantFull, 0)] : List Check)
/-- GRANT. -/
def grantCmd (f : Field) (r : CmdRef) (grantee : Part) (mask : BitVec 3) (subtree : Bool) : Field :=
  let x := idx r.handle
  f.guard r (f.grantChecks r grantee mask subtree)
    (fun g =>
      let rest := g.prt.grants.filter (fun e => !grantPairs x grantee e)
      if mask = 0 then
        ({ g with prt := { g.prt with grants := rest } }).completeH r .ok 0 (!g.prt.grants.any (grantPairs x grantee)) r.handle
      else
        ({ g with prt := { g.prt with grants := rest ++ [(Grant.mk x grantee mask subtree)] } }).done r)

/-! ### Tables and banks (R89 to R91, R190, R191, R200, R514) -/

/-- Every channel bound to a profile. -/
def boundTo (f : Field) (p : Nat) : List (BitVec 17) := f.select (fun c => c.nev.profile.toNat = p)
/-- The checks of a WRITE_PROFILE (R89 to R91). -/
def writeProfileChecks (f : Field) (r : CmdRef) (p : BitVec 16) (data : Bytes) : List Check :=
  let q : BitVec 12 := bits p 0 12
  let old := pad 256 (f.prof q)
  let valid := bit (u8 old 0) 0
  let bad := profileBad data (f.loopValid (u8 data 178))
  [(f.commissioner r.part, .role, 0), (data.length = 256, .badParam, 24), (p.toNat ≤ 4095, .badParam, 28),
   (!valid || bits (u8 old 0) 1 2 = r.part, .notOwner, 0), (bad.isNone, .badProfile, bad.getD 0),
   (!valid || bit (u8 data 0) 0 || (f.boundTo q.toNat).isEmpty, .inUse, 0)]
/-- A profile as the table holds it: its OWNER is the writer (R90). -/
def ownedProfile (p : Part) (data : Bytes) : Bytes := [(u8 data 0 &&& 0xF9) ||| (p.setWidth 8 <<< 1)] ++ data.drop 1
/-- WRITE_PROFILE (R514); a lowered QUEUE_TO takes effect at once (R171). -/
def writeProfile (f : Field) (r : CmdRef) (p : BitVec 16) (data : Bytes) : Field :=
  let q : BitVec 12 := bits p 0 12
  let old := pad 256 (f.prof q)
  f.guard r (f.writeProfileChecks r p data)
    (fun g =>
      let new := ownedProfile r.part data
      let g1 := { g with nev := { g.nev with prof := tabSet [] g.nev.prof q.toNat new } }
      let g2 := (List.range 8).foldl (fun (k : Field) j => (k.heal1 (profShadow q j)).healChip (profCw q j)) g1
      let fb := slice old 64 50 ≠ slice new 64 50
      (if fb then g2.each (g2.boundTo q.toNat) (fun k x => k.queueFb x) else g2).queueRecheck (fun y => (g2.chan y).nev.profile = q) |>.done r)
/-- The checks of a WRITE_LOOPSET (R190, R191). -/
def writeLoopsetChecks (f : Field) (r : CmdRef) (n : Byte) (data : Bytes) : List Check :=
  let named := f.nev.prof.any (fun e => bit (u8 e.2 0) 0 && u8 e.2 178 = n)
  [(f.commissioner r.part, .role, 0), (data.length = 128, .badParam, 24), ((bankBad data).isNone, .badBank, (bankBad data).getD 0),
   (bit (u8 data 1) 0 || !f.loopValid n || !named, .inUse, 0)]
/-- WRITE_LOOPSET (R190, R191). -/
def writeLoopset (f : Field) (r : CmdRef) (n : Byte) (data : Bytes) : Field :=
  f.guard r (f.writeLoopsetChecks r n data)
    (fun g =>
      let g1 := { g with nev := { g.nev with loops := tabSet [] g.nev.loops n.toNat data } }
      ((List.range 4).foldl (fun (k : Field) j => (k.heal1 (loopShadow n j)).healChip (loopCw n j)) g1).done r)
/-- The context of a channel in PREPARE, RAMP or SETTLE (R200). -/
def runningCtx (f : Field) (x : BitVec 17) : Option (Nat × Ctx) :=
  f.hel.ctx.find? (fun e => e.2.ch = x && e.2.phase.supervised)
/-- The checks of a CTX_BANK_WRITE (R200). -/
def bankWriteChecks (f : Field) (r : CmdRef) (data : Bytes) : List Check :=
  let c := f.runningCtx (idx r.handle)
  f.checks15 r.part r.handle (f.operator r.part) (some 0) ++
    ([(data.length = 128, .badParam, 24), (c.isSome, .noContext, 0),
     (match c with | some e => e.2.swap.isNone | none => true, .swapPending, 0),
     ((bankBad data).isNone, .badBank, (bankBad data).getD 0)] : List Check)
/-- CTX_BANK_WRITE (R200). -/
def bankWrite (f : Field) (r : CmdRef) (data : Bytes) : Field :=
  f.guard r (f.bankWriteChecks r data)
    (fun g => match g.runningCtx (idx r.handle) with
      | some (n, _) => (g.modCtx n (fun k =>
          if k.activeB then { k with bankA := data, swapTaken := false } else { k with bankB := data, swapTaken := false })).done r
      | none => g)
/-- The checks of a CTX_SWAP (R200). -/
def swapChecks (f : Field) (r : CmdRef) : List Check :=
  let c := f.runningCtx (idx r.handle)
  f.checks15 r.part r.handle (f.operator r.part) (some 0) ++
    ([(c.isSome, .noContext, 0), (match c with | some e => e.2.swap.isNone | none => true, .swapPending, 0),
     (match c with | some e => !e.2.swapTaken | none => true, .badBank, 0)] : List Check)
/-- CTX_SWAP (R200, R201, R204): the swap is pending, and completes when a good sample takes it. -/
def ctxSwap (f : Field) (r : CmdRef) : Field :=
  f.guard r (f.swapChecks r)
    (fun g => match g.runningCtx (idx r.handle) with | some (n, _) => g.modCtx n (fun k => { k with swap := some r }) | none => g)

/-! ### Energy and captures (R222, R225, R230 to R233) -/

/-- ENERGY_SET (R222). -/
def energySet (f : Field) (r : CmdRef) (imp exp : BitVec 64) : Field :=
  let x := idx r.handle
  f.guard r (f.checks15 r.part r.handle (f.commissioner r.part) none) (fun g =>
    let g0 := g.readMeter x
    let m := (g0.chan x).met
    let g1 := (g0.modMet x (fun m => { m with imp := imp, exp := exp, setByHost := true, recordLost := false })).heal2 x 2
    (g1.logAt 0x03 g1.now (le 4 r.handle) [le 8 m.imp ++ le 8 m.exp, le 8 imp ++ le 8 exp]).done r)
/-- DEMAND_RESET (R225). -/
def demandReset (f : Field) (r : CmdRef) : Field :=
  f.guard r (f.checks15 r.part r.handle (f.operator r.part) none)
    (fun g => (((g.readMeter (idx r.handle)).modMet (idx r.handle) (fun m => { m with demPeak := 0 })).heal2 (idx r.handle) 3).done r)
/-- The checks of a CAPTURE (R230). -/
def captureChecks (f : Field) (r : CmdRef) (pre post : BitVec 16) : List Check :=
  f.checks15 r.part r.handle (f.operator r.part) none ++
    ([((f.chan (idx r.handle)).nev.kind ≠ .virt, .kind, 0), (pre.toNat ≤ 128, .badParam, 16),
     (post ≠ 0 && pre.toNat + post.toNat ≤ 8184, .badParam, 18)] : List Check)
/-- CAPTURE: a REQUEST capture (R230, R232). -/
def captureCmd (f : Field) (r : CmdRef) (pre post : BitVec 16) : Field :=
  f.guard r (f.captureChecks r pre post)
    (fun g => g.capAsk { ch := idx r.handle, kind := .request, cause := 0, t := g.now, pre := pre.toNat, post := post.toNat,
                         ref := some r })
/-- A capture still running in a slot ends with ABORTED. -/
def stopCapture (f : Field) (n : Nat) : Field :=
  match f.hel.ctx.find? (fun e => e.2.capSlot = some n || e.2.loopSlot = some n) with
  | some (k, c) =>
    if c.phase = Phase.capture then (f.stopStream c 2).dropCtx k true
    else (f.capEnd n true).modCtx k (fun c =>
      { c with capSlot := if c.capSlot = some n then none else c.capSlot, loopSlot := if c.loopSlot = some n then none else c.loopSlot })
  | none => f
/-- The checks of a CAPTURE_FREE (R233). -/
def captureFreeChecks (f : Field) (r : CmdRef) (slot : BitVec 16) : List Check :=
  let mine := match f.slot? slot.toNat with | some s => !s.running && s.dest = r.part | none => false
  [(f.commissioner r.part || mine, .role, 0), (slot.toNat ≤ 1023, .badParam, 16), ((f.slot? slot.toNat).isSome, .noSlot, 0)]
/-- CAPTURE_FREE (R233). -/
def captureFree (f : Field) (r : CmdRef) (slot : BitVec 16) : Field :=
  f.guard r (f.captureFreeChecks r slot)
    (fun g =>
      let g1 := g.stopCapture slot.toNat
      ({ g1 with firn := { g1.firn with slots := tabDel g1.firn.slots slot.toNat } }).done r)

end Field
end Sys2Proof.Machine
end

