-- ==== Sys2Proof/Machine/Reads.lean ====
section
/-! DEFINITION. The read commands, and the running of a command by the field die: its acceptance, its wait for Firn (R343) and
its descriptor's operands (16). -/
namespace Sys2Proof.Machine

/-- A flag as a number. -/
def b2n (b : Bool) (w : Nat) : Nat := if b then w else 0
/-- The 32 bytes of a Névé entry (R86). -/
def nevBytes (e : Nev) : Bytes :=
  toLe (e.gen.toNat + e.kind.code * 2 ^ 13 + e.state.code * 2 ^ 15 + e.owner.toNat * 2 ^ 18 + e.profile.toNat * 2 ^ 20) 4
  ++ toLe (e.parent.toNat + b2n e.parentValid (2 ^ 17) + e.depth.toNat * 2 ^ 18 + b2n e.fbSync (2 ^ 22) + e.prior.code * 2 ^ 23
    + e.pickup.toNat * 2 ^ 26) 4
  ++ toLe (e.igain.toNat + e.instCnt.toNat * 2 ^ 24 + b2n e.dir (2 ^ 27) + b2n e.disPend (2 ^ 28) + b2n e.disRaised (2 ^ 29)
    + b2n e.satRaised (2 ^ 30) + b2n e.staleRaised (2 ^ 31)) 4
  ++ le 2 e.vgain ++ le 2 e.iLast
  ++ toLe (e.vLast.toNat + e.status.toNat * 2 ^ 12 + e.miss.toNat * 2 ^ 16 + e.tok.toNat * 2 ^ 20 + e.rcnt.toNat * 2 ^ 24) 4
  ++ le 6 e.therm ++ le 2 e.stCnt ++ toLe (e.ovCnt.toNat + e.uvCnt.toNat * 2 ^ 12 + e.sfnLow.toNat * 2 ^ 24) 4
/-- The 16 bytes of a stage's state (R215). -/
def stageBytes (t : Stage) : Bytes :=
  let m (k : Int) : Bytes := toLe (ofInt 18 k).toNat 3
  m t.s0 ++ m t.s1 ++ m t.s2 ++ m t.s3 ++ le 1 (ofInt 8 t.e) ++ toLe (min t.low 255) 1 ++ zeros 2
/-- The 416 bytes of a context record (R215). -/
def ctxBytes (n : Nat) (c : Ctx) : Bytes :=
  let bank := Field.activeBank c
  let flags := b2n c.activeB 1 + b2n c.swap.isSome 2 + b2n c.satHi 4 + b2n c.satLo 8 + b2n c.holding 16 + b2n c.injActive 32
    + c.core.toNat * 64
  le 4 c.handle ++ toLe n 1 ++ toLe c.origin.code 1 ++ toLe c.phase.code 1 ++ toLe flags 1 ++ le 8 c.claimT ++ le 4 c.periods
  ++ le 2 c.gOut ++ le 2 (ofInt 16 (Field.bumpAt c.delta c.bumpJ (bumpN bank))) ++ le 2 c.ref ++ le 2 c.v ++ le 2 c.i ++ le 2 c.iexp
  ++ le 1 c.viol ++ le 1 c.missCnt ++ le 1 c.frz ++ le 1 c.goodRun ++ le 4 (Field.cnEst c) ++ le 6 (ofInt 48 c.sxy)
  ++ le 6 (ofInt 48 c.sxx) ++ zeros 12 ++ pad 128 c.bankA ++ pad 128 c.bankB
  ++ pad 96 ((c.stages.map stageBytes).flatten)

namespace Field

/-- Check D of a read: BUF is 4 B aligned, and LEN is at least n. -/
def readArgs (o : ReadOps) (n : Nat) : List Check :=
  [(bits o.buf 0 2 = 0, .badParam, 16), (n ≤ o.len.toNat, .badParam, 24)]
/-- READ_CHANNEL. -/
def readChannel (f : Field) (r : CmdRef) (o : ReadOps) : Field :=
  f.guard r (f.checksRead r.part r.handle ++ readArgs o 32)
    (fun g =>
      let g1 := g.readEntry (idx r.handle)
      g1.answer r o.buf (nevBytes (g1.chan (idx r.handle)).nev) .ok 0)
/-- An event of the channel is suppressed under an open storm (R142). -/
def suppressed (f : Field) (x : BitVec 17) : Bool := f.sel.storms.any (fun s => s.opened && s.chans.contains x)
/-- One entry of READ_SUBTREE (R404). -/
def subtreeEntry (f : Field) (y : BitVec 17) : Bytes :=
  let c := f.chan y
  le 4 (f.handle y) ++ [BitVec.ofNat 8 c.nev.state.code, c.nev.pickup.setWidth 8, c.aux.lastElem,
    BitVec.ofNat 8 (b2n (f.suppressed y) 1 + b2n c.nev.staleRaised 2 + b2n c.nev.disRaised 4)]
/-- READ_SUBTREE (R404). -/
def readSubtree (f : Field) (r : CmdRef) (o : ReadOps) (first : BitVec 17) : Field :=
  f.guard r (f.checksRead r.part r.handle ++ readArgs o 0) (fun g =>
    let ys := ((g.descendants (idx r.handle)).filter (fun y => first ≤ y)).take (o.len.toNat / 8)
    g.answer r o.buf ((ys.map (g.subtreeEntry ·)).flatten) .ok ys.length)
/-- The checks of a read that names no handle. -/
def readTableChecks (f : Field) (r : CmdRef) (o : ReadOps) (n : Nat) : List Check := (f.anyRole r.part, Status.role, 0) :: readArgs o n
/-- READ_PROFILE. -/
def readProfile (f : Field) (r : CmdRef) (o : ReadOps) (p : BitVec 16) : Field :=
  f.guard r (f.readTableChecks r o 256 ++ ([(p.toNat ≤ 4095, .badParam, 28)] : List Check))
    (fun g =>
      let g1 := g.readProf (bits p 0 12)
      g1.answer r o.buf (pad 256 (g1.prof (bits p 0 12))) .ok 0)
/-- READ_LOOPSET. -/
def readLoopset (f : Field) (r : CmdRef) (o : ReadOps) (n : Byte) : Field :=
  f.guard r (f.readTableChecks r o 128)
    (fun g =>
      let g1 := g.readLoop n
      g1.answer r o.buf (pad 128 (g1.loopSet n)) .ok 0)
/-- The checks of a READ_CONTEXT. -/
def readContextChecks (f : Field) (r : CmdRef) (o : ReadOps) : List Check :=
  f.checksRead r.part r.handle ++ readArgs o 416 ++ [((f.ctxsOf (idx r.handle)).head?.isSome, .noContext, 0)]
/-- READ_CONTEXT (R215). -/
def readContext (f : Field) (r : CmdRef) (o : ReadOps) : Field :=
  f.guard r (f.readContextChecks r o) (fun g =>
    match (g.ctxsOf (idx r.handle)).head? with | some (n, c) => g.answer r o.buf (ctxBytes n c) .ok 0 | none => g)
/-- The checks of a READ_ENERGY; with FINAL the handle is the one the channel had (R223). -/
def readEnergyChecks (f : Field) (r : CmdRef) (o : ReadOps) (final : Bool) : List Check :=
  let c := f.chan (idx r.handle)
  let live : Bool := if final then c.nev.state = .free && c.nev.gen = bits r.handle 17 13 + 1 else f.handleLive r.handle
  [(!bit f.nev.coldAck r.part.toNat, .epoch, 0), (handleForm r.handle, .badHandle, 0), (live, .stale, 0),
    (f.anyRole r.part, .role, 0)] ++ readArgs o 64
/-- READ_ENERGY (R223, R226, R352). -/
def readEnergy (f : Field) (r : CmdRef) (o : ReadOps) (final : Bool) : Field :=
  let x := idx r.handle
  f.guard r (f.readEnergyChecks r o final) (fun g =>
    let g1 := g.readMeter x
    let m := (g1.chan x).met
    g1.answer r o.buf (energyRecord r.handle (if final then m.elsb2 else g1.elsbOf x) m final)
      (if m.recordLost then .recordLost else .ok) 0)
/-- Codewords are read one after another: those whose read gives data. -/
def readList (f : Field) : List Nat → Field × List Nat
  | [] => (f, [])
  | c :: cs =>
    let r := f.readCw c
    let s := readList r.1 cs
    (s.1, if r.2 then c :: s.2 else s.2)
/-- READ_HISTORY (R229, R354). -/
def readHistory (f : Field) (r : CmdRef) (o : ReadOps) (start count : BitVec 16) : Field :=
  let x := idx r.handle
  f.guard r (f.checksRead r.part r.handle ++ readArgs o 0) (fun g =>
    let rs := ((g.chan x).hist.ring.filter (fun h => (h.seq - start).toNat < count.toNat)).take (o.len.toNat / 32)
    let t := g.readList (rs.map (fun h => g.histCw x h.seq))
    let good := rs.filter (fun h => t.2.contains (g.histCw x h.seq))
    let first := rs.findIdx (fun h => !t.2.contains (g.histCw x h.seq))
    let b := (good.map (fun h => t.1.standing (g.histCw x h.seq) (histBytes h))).flatten
    if good.length = rs.length then t.1.answer r o.buf b .ok good.length else t.1.answer r o.buf b .poisoned (32 * first))
/-- n bytes that nothing has written: free values, eight at a time. -/
def freeBytes : Nat → Field → Bytes × Field
  | 0, f => ([], f)
  | n + 1, f =>
    let (v, f1) := f.free
    let (b, f2) := freeBytes n f1
    (le 8 v ++ b, f2)
/-- The data of a capture read, without the codewords whose read gave none: one message per codeword of those in good; k codewords
from codeword c of the slot. -/
def captureRuns (p : Part) (buf off last : Nat) (bytes : Bytes) (slot : Nat) (good : List Nat) : Nat → Nat → Field → Field
  | 0, _, f => f
  | k + 1, c, f =>
    let a := max off (32 * c)
    let b := min last (32 * c + 32)
    let f1 := if !good.contains (slotCw slot c) then f
      else (f.sendData (hwriteMsg p (buf + (a - off)) (slice bytes (a - off) (b - a)))).1
    captureRuns p buf off last bytes slot good k (c + 1) f1
/-- The bytes of a slot as its codewords from c on give them, n of them. -/
def slotStands (f : Field) (slot c : Nat) : Nat → Bytes → Bytes
  | 0, b => b
  | n + 1, b => f.standing (slotCw slot c) (b.take 32) ++ slotStands f slot (c + 1) n (b.drop 32)
/-- The checks of a READ_CAPTURE (R233). -/
def readCaptureChecks (f : Field) (r : CmdRef) (o : ReadOps) (slot : BitVec 16) (off : Word) : List Check :=
  f.readTableChecks r o 0 ++ ([(slot.toNat ≤ 1023, .badParam, 28), (off.toNat + o.len.toNat ≤ 65536, .badParam, 32),
    ((f.slot? slot.toNat).isSome, .noSlot, 0)] : List Check)
/-- READ_CAPTURE (R233, R354). -/
def readCapture (f : Field) (r : CmdRef) (o : ReadOps) (slot : BitVec 16) (off : Word) : Field :=
  let s := f.slot? slot.toNat
  let len := o.len.toNat
  f.guard r (f.readCaptureChecks r o slot off)
    (fun g =>
      let whole := match s with | some s => slotBytes s | none => []
      let (tail, g1) := freeBytes (cdiv (off.toNat + len - whole.length) 8) g
      let c0 := off.toNat / 32
      let n := if len = 0 then 0 else cdiv (off.toNat + len) 32 - c0
      let t := g1.readList ((List.range n).map (fun k => slotCw slot.toNat (c0 + k)))
      let data := slice (t.1.slotStands slot.toNat 0 (c0 + n) (whole ++ tail)) off.toNat len
      match (List.range n).find? (fun k => !t.2.contains (slotCw slot.toNat (c0 + k))) with
      | none => t.1.answer r o.buf data .ok 0
      | some k =>
        (captureRuns r.part o.buf.toNat off.toNat (off.toNat + len) data slot.toNat t.2 n c0 t.1).complete r .poisoned (32 * (c0 + k)))

/-! ### Running a command (R343, R362, R405) -/

/-- Commands that need Firn and wait for it (R343). A CREATE is refused instead. -/
def waitsFirn : FCmd → Bool
  | .destroy | .reconfigure _ | .closeCh _ | .openCh | .release | .readEnergy _ _ | .readHistory _ _ _ | .readCapture _ _ _
  | .energySet _ _ | .demandReset | .writeProfile _ _ | .writeLoopset _ _ | .capture _ _ => true
  | .nop | .create _ | .grant _ _ _ | .readChannel _ | .readSubtree _ _ | .readProfile _ _ | .readContext _ | .readLoopset _ _
  | .bankWrite _ | .ctxSwap | .captureFree _ => false
/-- A command's own effect. -/
def perform (f : Field) (r : CmdRef) : FCmd → Field
  | .nop => f.guard r [(f.anyRole r.part, .role, 0)] (fun g => g.done r)
  | .create o => f.create r o
  | .destroy => f.destroy r
  | .reconfigure o => f.reconfigure r o
  | .closeCh soft => f.closeCmd r soft
  | .openCh => f.openCmd r
  | .release => f.releaseCmd r
  | .grant g m s => f.grantCmd r g m s
  | .readChannel o => f.readChannel r o
  | .readSubtree o x => f.readSubtree r o x
  | .readProfile o p => f.readProfile r o p
  | .readContext o => f.readContext r o
  | .readEnergy o fin => f.readEnergy r o fin
  | .readHistory o s c => f.readHistory r o s c
  | .readCapture o s off => f.readCapture r o s off
  | .readLoopset o n => f.readLoopset r o n
  | .writeProfile p d => f.writeProfile r p d
  | .writeLoopset n d => f.writeLoopset r n d
  | .bankWrite d => f.bankWrite r d
  | .ctxSwap => f.ctxSwap r
  | .energySet i e => f.energySet r i e
  | .demandReset => f.demandReset r
  | .capture a b => f.captureCmd r a b
  | .captureFree s => f.captureFree r s
/-- A command on the same channel that stands before it in its ring still waits for Firn (R73). -/
def behindWaiting (f : Field) (r : CmdRef) : Bool :=
  r.handle ≠ 0 && f.firn.waiting.any (fun w => w.ref.part = r.part && w.ref.ring = r.ring && idx w.ref.handle = idx r.handle)
/-- The checks that a command undergoes before it needs Firn (R53, R71, R405). -/
def firstChecks (f : Field) (r : CmdRef) : FCmd → List Check
  | .destroy => f.destroyChecks r
  | .reconfigure o => f.checks15 r.part r.handle (f.operator r.part) none ++ f.reconfFields (idx r.handle) o ++
      (if o.selects then f.reconfChecks (idx r.handle) o else [])
  | .closeCh soft => f.switchChecks r 0 ++ f.stateCheck r :: (if f.alreadyShut r then [] else f.closeChecks (idx r.handle) soft)
  | .openCh => f.switchChecks r 1 ++ [f.stateCheck r]
  | .release => f.releaseChecks r
  | .readEnergy o fin => f.readEnergyChecks r o fin
  | .readHistory o _ _ => f.checksRead r.part r.handle ++ readArgs o 0
  | .readCapture o slot off => f.readCaptureChecks r o slot off
  | .energySet _ _ => f.checks15 r.part r.handle (f.commissioner r.part) none
  | .demandReset => f.checks15 r.part r.handle (f.operator r.part) none
  | .writeProfile p d => f.writeProfileChecks r p d
  | .writeLoopset n d => f.writeLoopsetChecks r n d
  | .capture pre post => f.captureChecks r pre post
  | .nop | .create _ | .grant _ _ _ | .readChannel _ | .readSubtree _ _ | .readProfile _ _ | .readContext _ | .readLoopset _ _
  | .bankWrite _ | .ctxSwap | .captureFree _ => []
/-- A command that its checks pass and that changes nothing: "Same" of R69, or a RECONFIGURE that selects nothing. -/
def same (f : Field) (r : CmdRef) : FCmd → Bool
  | .closeCh _ => f.alreadyShut r
  | .openCh => (f.chan (idx r.handle)).nev.state = .opened
  | .reconfigure o => !o.selects
  | _ => false
/-- Run a command with the roles its partition had at its check: a later change does not concern it (R378). -/
def withRoles (f : Field) (p : Part) (roles : BitVec 3) (g : Field → Field) : Field :=
  let old := tabGet 0 f.prt.setup p.toNat
  let f1 := g { f with prt := { f.prt with setup := tabSet 0 f.prt.setup p.toNat ((old &&& 0xFFFFFFF8) ||| roles.setWidth 32) } }
  { f1 with prt := { f1.prt with setup := tabSet 0 f1.prt.setup p.toNat old } }
/-- Run a command, or let it wait for Firn: one that fails a check, or changes nothing, completes at once (R53, R69). -/
def runCmd (f : Field) (r : CmdRef) (c : FCmd) : Field :=
  let wait := { f with firn := { f.firn with waiting := f.firn.waiting ++ [{ ref := r, cmd := c, t := f.now, roles := f.roles r.part }] } }
  if f.behindWaiting r then wait
  else if waitsFirn c && !f.firnOn then f.guard r (f.firstChecks r c) (fun g => if g.same r c then g.perform r c else wait)
  else f.perform r c
/-- Run a command that has waited, or let it wait on: it has passed its checks of role, and sees what stands now. -/
def runAgain (f : Field) (w : FirnWait) : Field :=
  if (waitsFirn w.cmd && !f.firnOn) || f.behindWaiting w.ref then { f with firn := { f.firn with waiting := f.firn.waiting ++ [w] } }
  else f.withRoles w.ref.part w.roles (fun g => g.perform w.ref w.cmd)
/-- The field die accepts commands: its core runs the microcode, and the lifecycle lets it work (R477, R485, R487). -/
def admits (f : Field) : Bool :=
  f.coreOn && 1 ≤ f.sec.life.toNat && f.sec.life.toNat ≤ 3 && !f.sec.ucodeFail && f.sec.blForce ≠ 0 && !f.sec.halted
/-- The ring place and header of a command with its opcode. -/
def refOf (h : CmdHdr) (op : Byte) : CmdRef :=
  { part := h.part, ring := h.ring, sqPos := h.sqPos, opcode := op, quiet := h.quiet, tag := h.tag, handle := h.handle }
/-- A command is in flight (R400). -/
def begun (f : Field) (r : CmdRef) : Field :=
  { f with prt := { f.prt with busy := f.prt.busy ++ [Busy.mk r [] 0 0 f.now true] } }
/-- A command that reaches the field die with its operands and payload: none while Transit is down (R26). -/
def command (f : Field) (h : CmdHdr) (op : Byte) (c : FCmd) : Field :=
  if f.admits && f.linkUp then (f.begun (refOf h op)).runCmd (refOf h op) c else f
/-- Run the commands that waited for Firn and wait no longer (R343, R73). -/
def runWaiting (f : Field) : Field :=
  f.firn.waiting.foldl (fun (g : Field) w => g.runAgain w) { f with firn := { f.firn with waiting := [] } }
/-- FIRN_READY (R342 to R344): the training or the filling ends; held counts are added and waiting commands run. -/
def firnReady (f : Field) : Field :=
  if f.coreOn && (f.firn.st = .train || f.firn.st = .fill) then
    let f1 := { f with firn := { f.firn with st := .ready, trainFails := 0 } }
    (if f1.firnOn then f1.meterReady else f1).runWaiting
  else f.runWaiting
/-- FIRN_DOWN_TIMEOUT (R343): the oldest command that has waited 30 ms for Firn completes with FIRN_DOWN. -/
def firnDownTimeout (f : Field) : Field :=
  match f.firn.waiting with
  | w :: r => if w.t.toNat + 3000000 ≤ f.now.toNat
    then (({ f with firn := { f.firn with waiting := r } }).complete w.ref .firnDown 0).runWaiting else f
  | [] => f
/-- REFCLK_RESTORED, with the commands that waited for Firn's clock. -/
def refclkRestoredRow (f : Field) : Field := f.refclkRestored.runWaiting

/-! ### Descriptors (16, operand layouts) -/

/-- BUF and LEN of a descriptor. -/
def readOpsOf (d : Bytes) : ReadOps := { buf := u64 d 16, len := u32 d 24 }
/-- The command of a 64-byte descriptor, with the payload it carries as BULK; none for an opcode the field die has not. -/
def fcmdOf (d pay : Bytes) : Option FCmd :=
  let o := readOpsOf d
  let op := (u8 d 0).toNat
  if op = 0x00 then some .nop
  else if op = 0x10 then some (.create
    { kind := bits (u8 d 16) 0 2, root := bit (u8 d 17) 0, adopt := bit (u8 d 17) 1, reqIndex := bit (u8 d 17) 2,
      profile := bits (u16 d 18) 0 12, parent := u32 d 20, index := bits (u32 d 24) 0 17, bind := u32 d 28,
      igain := bits (u32 d 32) 0 24, vgain := u16 d 36, elsb := u32 d 40, mirror := u32 d 44 })
  else if op = 0x11 then some .destroy
  else if op = 0x12 then some (.reconfigure
    { profileSel := bit (u8 d 16) 0, parentSel := bit (u8 d 16) 1, gainsSel := bit (u8 d 16) 2, mirrorSel := bit (u8 d 16) 3,
      root := bit (u8 d 17) 0, profile := bits (u16 d 18) 0 12, parent := u32 d 20, igain := bits (u32 d 32) 0 24,
      vgain := u16 d 36, mirror := u32 d 44 })
  else if op = 0x13 then some (.closeCh (bit (u8 d 16) 0))
  else if op = 0x14 then some .openCh
  else if op = 0x15 then some .release
  else if op = 0x16 then some (.grant (bits (u8 d 16) 0 2) (bits (u8 d 17) 0 3) (bit (u8 d 18) 0))
  else if op = 0x20 then some (.readChannel o)
  else if op = 0x21 then some (.readSubtree o (bits (u32 d 28) 0 17))
  else if op = 0x22 then some (.readProfile o (u16 d 28))
  else if op = 0x23 then some (.readContext o)
  else if op = 0x24 then some (.readEnergy o (bit (u8 d 28) 0))
  else if op = 0x25 then some (.readHistory o (u16 d 28) (u16 d 30))
  else if op = 0x26 then some (.readCapture o (u16 d 28) (u32 d 32))
  else if op = 0x27 then some (.readLoopset o (u8 d 28))
  else if op = 0x30 then some (.writeProfile (u16 d 28) pay)
  else if op = 0x31 then some (.writeLoopset (u8 d 28) pay)
  else if op = 0x32 then some (.bankWrite pay)
  else if op = 0x33 then some .ctxSwap
  else if op = 0x40 then some (.energySet (u64 d 16) (u64 d 24))
  else if op = 0x41 then some .demandReset
  else if op = 0x42 then some (.capture (u16 d 16) (u16 d 18))
  else if op = 0x43 then some (.captureFree (u16 d 16))
  else none
/-- The opcodes whose payload arrives as BULK (R362). -/
def carriesBulk (op : Byte) : Bool := op = 0x30 || op = 0x31 || op = 0x32
/-- The reference of a descriptor that came from a place of a ring. -/
def refOfDesc (p : Part) (ring : BitVec 4) (pos : BitVec 16) (d : Bytes) : CmdRef :=
  { part := p, ring := ring, sqPos := pos, opcode := u8 d 0, quiet := bit (u8 d 1) 0, tag := u64 d 8, handle := u32 d 4 }

end Field
end Sys2Proof.Machine
end

