-- ==== Sys2Proof/Machine/Regs.lean ====
section
/-! DEFINITION. The field window: every register of 22_register_map by its field offset, read with its clearing fields and
written under the roles and ranges of its chapter (R15 to R18, R368, R375, R384, R493). A read answers the value and the
field die after it. -/
namespace Sys2Proof.Machine
namespace Field

/-- A register from its fields. -/
def word (l : List Word) : Word := l.foldl (· ||| ·) 0
/-- A set of numbers below 32 as a word. -/
def maskOf (p : Nat → Bool) (n : Nat) : Word := word ((List.range n).map (fun i => flag (p i) i))

/-! ### Channels, tables and ingest (02, 03, 13) -/

/-- Profiles whose VALID is 1. -/
def profCount (f : Field) : Nat := f.nev.prof.countP (fun e => bit (u8 e.2 0) 0)
/-- SWITCHED channels with FB_SYNC 0. -/
def unsynced (f : Field) : Nat := f.existing.countP (fun e => e.2.nev.kind = .switched && !e.2.nev.fbSync)
/-- The NEV registers. -/
def readNev (f : Field) (o : Nat) : Word × Field :=
  let n := f.nev
  if o = 0x10000 then (fld n.cntSwitched 0, f)
  else if o = 0x10004 then (fld n.cntSense 0, f)
  else if o = 0x10008 then (fld n.cntDirect 0, f)
  else if o = 0x1000C then (fld n.cntVirtual 0, f)
  else if o = 0x10010 then (fld n.coldAck 0, f)
  else if o = 0x10100 then (n.sfn, f)
  else if o = 0x10104 then (n.missed, { f with nev := { n with missed := 0 } })
  else if o = 0x10108 then (n.outseq, { f with nev := { n with outseq := 0 } })
  else if o = 0x1010C then (n.flagged, { f with nev := { n with flagged := 0 } })
  else if o = 0x10110 then (n.dup, { f with nev := { n with dup := 0 } })
  else if o = 0x10114 then (n.unbound, { f with nev := { n with unbound := 0 } })
  else if o = 0x10118 then (fld n.backlogPeak 0 ||| fld n.mirrorPeak 15, { f with nev := { n with backlogPeak := 0, mirrorPeak := 0 } })
  else if o = 0x1011C then (fldN f.unsynced 0, f)
  else if o = 0x10120 then (fldN f.profCount 0, f)
  else if o = 0x10124 then
    (word [fld n.eccCorr 0, fld n.eccRecov 16, fld n.eccLost 24], { f with nev := { n with eccCorr := 0, eccRecov := 0, eccLost := 0 } })
  else if o = 0x10128 then
    (word [fld n.pEccCorr 0, fld n.pEccRecov 16, fld n.pEccLost 24],
     { f with nev := { n with pEccCorr := 0, pEccRecov := 0, pEccLost := 0 } })
  else (0, f)
/-- COLD_ACK_WRITE: a partition clears its own bit (R75, R384). -/
def coldAckWrite (f : Field) (p : Part) (v : Word) : Field :=
  if bit v p.toNat then { f with nev := { f.nev with coldAck := f.nev.coldAck &&& ~~~((1 : BitVec 4) <<< p.toNat) } } else f

/-! ### Selectivity and the wheel (04, 05) -/

/-- Channels on the wheel as p says. -/
def wheelCount (f : Field) (p : Wheel → Bool) : Nat := f.nev.ch.countP (fun e => p e.2.fr.wheel)
/-- A RETRY entry. -/
def isRetry : Wheel → Bool
  | .retry _ => true
  | _ => false
/-- A STABLE entry. -/
def isStable : Wheel → Bool
  | .stable _ => true
  | _ => false
/-- The SEL registers. -/
def readSel (f : Field) (o : Nat) : Word × Field :=
  let s := f.sel
  if o = 0x11000 then (word [flag s.enable 0, fld s.stormN 8, fld s.stormQuiet 16], f)
  else if o = 0x11004 then (fldN s.events.length 0 ||| fldN f.stormsOpen 11, f)
  else if o = 0x11008 then (s.reports, { f with sel := { s with reports := 0 } })
  else if o = 0x1100C then (s.openedCnt, { f with sel := { s with openedCnt := 0 } })
  else if o = 0x11010 then
    (word [fld s.rBackup 0, fld s.rNoBackup 8, fld s.rNonsel 16, fld s.rLate 24],
     { f with sel := { s with rBackup := 0, rNoBackup := 0, rNonsel := 0, rLate := 0 } })
  else if o = 0x11014 then (fld s.overflow 0 ||| fld s.ignored 16, { f with sel := { s with overflow := 0, ignored := 0 } })
  else if o = 0x11018 then (fld s.decPeak 0, { f with sel := { s with decPeak := 0 } })
  else if o = 0x11100 then (fldN (f.wheelCount isRetry) 0, f)
  else if o = 0x11104 then (fldN (f.wheelCount isStable) 0, f)
  else if o = 0x11108 then (s.retries, { f with sel := { s with retries := 0 } })
  else if o = 0x1110C then
    (word [fld s.lForbidden 0, fld s.lExhausted 8, fld s.lRate 16, fld s.lPrior 24],
     { f with sel := { s with lForbidden := 0, lExhausted := 0, lRate := 0, lPrior := 0 } })
  else if o = 0x11110 then (fld s.qfull 0 ||| fld s.lagPeak 16, { f with sel := { s with qfull := 0, lagPeak := 0 } })
  else if o = 0x11114 then (flag s.holdAll 0, f)
  else (0, f)
/-- HOLD_ALL of SEL_RETRY_CTRL (R155). -/
def holdAllWrite (f : Field) (p : Part) (b : Bool) : Field :=
  if f.commissioner p then { f with sel := { f.sel with holdAll := b } } else f
/-- SEL_CTRL. -/
def selCtrlWrite (f : Field) (p : Part) (v : Word) : Field :=
  if f.commissioner p then
    { f with sel := { f.sel with enable := bit v 0, stormN := bits v 8 8, stormQuiet := bits v 16 4 } }
  else f

/-! ### Insertion and the loop engine (06, 07) -/

/-- A lane runs six streams. -/
def laneFull (f : Field) (n : Nat) : Bool := (f.lane (BitVec.ofNat 5 n)).slots.all (fun s => s = .active)
/-- Contexts of a core. -/
def coreCtx (f : Field) (k : BitVec 2) : Nat := f.hel.ctx.countP (fun e => e.2.core = k)
/-- The failure counts from code i on as bytes of a register. -/
def failWord (f : Field) (i : Nat) : Word :=
  word ((List.range 4).map (fun k => fld (f.hel.fails.getD (i + k) 0) (8 * k)))
/-- Clear four failure counts. -/
def failClear (f : Field) (i : Nat) : Field :=
  { f with hel := { f.hel with fails := f.hel.fails.take i ++ [0, 0, 0, 0] ++ f.hel.fails.drop (i + 4) } }
/-- The HEL registers. -/
def readHel (f : Field) (o : Nat) : Word × Field :=
  let h := f.hel
  if o = 0x12000 then (word [fldN h.queue.length 0, fldN h.ctx.length 16, fldN f.capCount 25], f)
  else if o = 0x12004 then (flag h.pause 0 ||| fld h.capMax 8, f)
  else if o = 0x12008 then (maskOf f.laneFull 32, f)
  else if o = 0x1200C then (h.done, { f with hel := { h with done := 0 } })
  else if o = 0x12010 then (f.failWord 0, f.failClear 0)
  else if o = 0x12014 then (f.failWord 4, f.failClear 4)
  else if o = 0x12018 then (fld h.waitPeak 0, { f with hel := { h with waitPeak := 0 } })
  else if o = 0x12100 then (word [fldN (f.coreCtx 0) 0, fldN (f.coreCtx 1) 8, fldN (f.coreCtx 2) 16, fldN (f.coreCtx 3) 24], f)
  else if o = 0x12104 then (fld h.lateDirect 0 ||| fld h.lateRemote 16, { f with hel := { h with lateDirect := 0, lateRemote := 0 } })
  else if o = 0x12108 then (fld h.renormUp 0 ||| fld h.renormDown 16, { f with hel := { h with renormUp := 0, renormDown := 0 } })
  else if o = 0x1210C then (fld h.satMant 0 ||| fld h.satClamp 16, { f with hel := { h with satMant := 0, satClamp := 0 } })
  else if o = 0x12110 then (fld h.dropLate 0 ||| fld h.dropNotGood 16, { f with hel := { h with dropLate := 0, dropNotGood := 0 } })
  else if o = 0x12114 then (fld h.swapDone 0 ||| fld h.swapDisc 16, { f with hel := { h with swapDone := 0, swapDisc := 0 } })
  else if o = 0x12118 then (h.viol, { f with hel := { h with viol := 0 } })
  else if o = 0x1211C then (fldN (f.nev.loops.countP (fun e => bit (u8 e.2 1) 0)) 0, f)
  else (0, f)
/-- HEL_INS_CTRL. -/
def insCtrlWrite (f : Field) (p : Part) (v : Word) : Field :=
  if f.commissioner p then { f with hel := { f.hel with pause := bit v 0, capMax := bits v 8 8 } } else f

/-! ### Firn (08, 13) -/

/-- FIRN_CFG's value. -/
def firnCfg (m : Firn) : Word :=
  word [fld m.speed 0, flag m.ranks 2, fld m.density 3, flag m.caPar 5, flag m.wrCrc 6]
/-- The FIRN registers. -/
def readFirn (f : Field) (o : Nat) : Word × Field :=
  let m := f.firn
  if o = 0x13000 then (fld m.depth 0 ||| flag m.fitErr 8, f)
  else if o = 0x13004 then (m.histWritten, { f with firn := { m with histWritten := 0 } })
  else if o = 0x13008 then (fldN m.slots.length 0 ||| fldN m.capWait.length 11, f)
  else if o = 0x1300C then (fld m.dropNoSlot 0 ||| fld m.dropNoCtx 16, { f with firn := { m with dropNoSlot := 0, dropNoCtx := 0 } })
  else if o = 0x13010 then (fld m.resync 0 ||| fld m.suspect 16, { f with firn := { m with resync := 0, suspect := 0 } })
  else if o = 0x13100 then (firnCfg m, f)
  else if o = 0x13104 then
    (word [fldN (m.st.ctorIdx + 1) 0, flag m.filled 3, fld m.capGib 4, flag m.devFailed 11, fld m.dev 12, flag m.rank 17], f)
  else if o = 0x13108 then (fld m.period 0 ||| fld m.passes 16, f)
  else if o = 0x1310C then (fld m.block 0, f)
  else if o = 0x13110 then (m.ce, { f with firn := { m with ce := 0 } })
  else if o = 0x13114 then (fld m.uncorr 0 ||| fld m.poison 16, { f with firn := { m with uncorr := 0, poison := 0 } })
  else if o = 0x13118 then (fld m.ueAddr 0 ||| flag m.ueValid 31, f)
  else if o = 0x1311C then (fld m.caRetry 0 ||| fld m.wcRetry 16, { f with firn := { m with caRetry := 0, wcRetry := 0 } })
  else if 0x13120 ≤ o && o < 0x131B0 then
    let k := (o - 0x13120) / 4
    (fld (tabGet 0 m.devCe k) 0, { f with firn := { m with devCe := tabDel m.devCe k } })
  else if o = 0x131B0 then (fld m.devThresh 0, f)
  else if o = 0x131B4 then
    (word [fld m.oneCopy 0, fld m.rebuilt 16, fld m.lost 24], { f with firn := { m with oneCopy := 0, rebuilt := 0, lost := 0 } })
  else (0, f)
/-- FIRN_PATROL: a period outside 60 to 1,440 other than 0 leaves the field unchanged. -/
def patrolWrite (f : Field) (p : Part) (v : Word) : Field :=
  let x : BitVec 11 := bits v 0 11
  if f.commissioner p && (x = 0 || (60 ≤ x.toNat && x.toNat ≤ 1440)) then { f with firn := { f.firn with period := x } } else f
/-- FIRN_ECC_CFG. -/
def eccCfgWrite (f : Field) (p : Part) (v : Word) : Field :=
  if f.commissioner p then { f with firn := { f.firn with devThresh := bits v 0 16 } } else f
/-- HIST_CFG_WRITE by COMMISSIONER. -/
def histCfg (f : Field) (p : Part) (v : Word) : Field := if f.commissioner p then f.histCfgWrite v else f
/-- FIRN_CFG in the commissioning state: DENSITY 3 leaves that field unchanged. -/
def firnCfgSet (f : Field) (v : Word) : Field :=
  let d : BitVec 2 := bits v 3 2
  { f with firn := { f.firn with speed := bits v 0 2, ranks := bit v 2, density := if d = 3 then f.firn.density else d,
                                 caPar := bit v 5, wrCrc := bit v 6 } }

/-! ### Direct channels and the ADC (11) -/

/-- The DCH registers of channel n. -/
def readDch (f : Field) (n : BitVec 4) (w : Nat) : Word × Field :=
  let d := f.dchan n
  if w = 0 then (word [fld d.cmpFilt 0, fld d.dfbFilt 8, fld d.dfbT 16, flag d.dfbPol 24], f)
  else if w = 1 then
    (word [fldN d.mode.ctorIdx 0, flag d.dfb 2, flag d.cmp 3, flag d.bound.isSome 4, flag (d.timer ≠ .idle) 5, flag d.stuck 6,
           fld d.thresh 8,
           fld (match d.bound with | some x => f.grantShown x | none => 0) 18], f)
  else if w = 2 then (d.escale, f)
  else (word [fld d.cmpOpen 0, fld d.drvFault 8, fld d.reports 16], f.modDch n (fun d => { d with cmpOpen := 0, drvFault := 0, reports := 0 }))
/-- A write of a DCH register. -/
def writeDch (f : Field) (p : Part) (n : BitVec 4) (w : Nat) (v : Word) : Field :=
  if !f.commissioner p then f
  else if w = 0 then f.modDch n (fun d => { d with cmpFilt := bits v 0 3, dfbFilt := bits v 8 8, dfbT := bits v 16 8, dfbPol := bit v 24 })
  else if w = 2 then f.modDch n (fun d => { d with escale := v })
  else f
/-- A result register. -/
def resWord (r : AdcRes) : Word := word [fld r.result 0, flag r.ovr 16, flag r.valid 17, flag r.xfail 18]
/-- Four input codes as a register. -/
def entWord (l : List (BitVec 6)) : Word := word ((List.range 4).map (fun k => fld (l.getD k 0) (8 * k)))
/-- Is a code one of the inputs of the converters (R305, input codes)? -/
def inputOk (c : BitVec 6) : Bool := c.toNat ≤ 36
/-- Four input codes after a write of v: a reserved code leaves its field unchanged. -/
def entOf (old : List (BitVec 6)) (v : Word) : List (BitVec 6) :=
  (List.range 4).map (fun k => if inputOk (bits v (8 * k) 6) then bits v (8 * k) 6 else old.getD k 0)
/-- The registers of injected sequence m, by offset in its block. -/
def readInj (f : Field) (m w : Nat) : Word × Field :=
  let i := f.inj m
  if w = 0x00 then
    (word [fld i.src 0, flag i.grid 6, fld i.part 8, flag i.evtEn 10, fld i.lenA 16, fld i.lenB 20], f)
  else if w = 0x04 then (entWord i.entA, f)
  else if w = 0x08 then (entWord i.entB, f)
  else if w = 0x0C then
    (word [flag i.busy 0, flag i.done 1, fld i.overrun 8, fld i.empty 16], f.setInj m { i with overrun := 0, empty := 0 })
  else if w = 0x10 then (i.t, f)
  else if 0x20 ≤ w && w < 0x40 then (resWord (tabGet AdcRes.reset i.res ((w - 0x20) / 4)), f)
  else (0, f)
/-- Is an SRC code one of those ADC_INJ_CFG takes? -/
def srcOk (s : BitVec 6) : Bool := s.toNat ≤ 1 || (8 ≤ s.toNat && s.toNat ≤ 23) || (32 ≤ s.toNat && s.toNat ≤ 47)
/-- A write of a register of injected sequence m: set-up by COMMISSIONER, DONE also by OPERATOR. -/
def writeInj (f : Field) (p : Part) (m w : Nat) (v : Word) : Field :=
  let i := f.inj m
  let src : BitVec 6 := bits v 0 6
  let la : BitVec 3 := bits v 16 3
  let lb : BitVec 3 := bits v 20 3
  if w = 0x0C then
    (if (f.operator p || f.commissioner p) && bit v 1 then f.setInj m { i with done := false } else f)
  else if !f.commissioner p then f
  else if w = 0x00 then
    f.setInj m { i with src := if srcOk src then src else i.src, grid := bit v 6, part := bits v 8 2, evtEn := bit v 10,
                        lenA := if la.toNat ≤ 4 then la else i.lenA, lenB := if lb.toNat ≤ 4 then lb else i.lenB }
  else if w = 0x04 then f.setInj m { i with entA := entOf i.entA v }
  else if w = 0x08 then f.setInj m { i with entB := entOf i.entB v }
  else f
/-- The ADC registers. -/
def readAdc (f : Field) (o : Nat) : Word × Field :=
  let a := f.adc
  if o = 0x15000 then (flag a.refEn 0 ||| flag a.refReady 1, f)
  else if o = 0x15004 then
    (word [flag a.xchkFail 0, fld a.xchkBad 8, fld a.yields 16], { f with adc := { a with xchkBad := 0, yields := 0 } })
  else if o = 0x15008 then (word [fld a.tol 0, fld a.period 8, fld a.lastDiff 16], f)
  else if o = 0x1500C then (fld a.lenA 0 ||| fld a.lenB 8, f)
  else if o = 0x15010 then (fld a.passesA 0 ||| fld a.passesB 16, f)
  else if 0x15100 ≤ o && o < 0x15184 then
    let k := tabGet (0, 0x4000) a.corr ((o - 0x15100) / 4)
    (fld k.1 0 ||| fld k.2 16, f)
  else if 0x15200 ≤ o && o < 0x15280 then (fld (tabGet 0 a.ent ((o - 0x15200) / 4)) 0, f)
  else if 0x15300 ≤ o && o < 0x15380 then (resWord (tabGet AdcRes.reset a.res ((o - 0x15300) / 4)), f)
  else if 0x15400 ≤ o && o < 0x15500 then f.readInj ((o - 0x15400) / 0x40) ((o - 0x15400) % 0x40)
  else (0, f)
/-- Regular results lose VALID until their next conversion (R305). -/
def unvalid (f : Field) (p : Nat → Bool) : Field :=
  { f with adc := { f.adc with res := tabMap AdcRes.reset f.adc.res (fun k r => if p k then { r with valid := false } else r) } }
/-- ADC_REG_CFG (R305): it acts at the start of the next pass. -/
def regCfgWrite (f : Field) (v : Word) : Field :=
  let la : BitVec 5 := bits v 0 5
  let lb : BitVec 5 := bits v 8 5
  let a : Bool := la.toNat ≤ 16
  let b : Bool := lb.toNat ≤ 16
  ({ f with adc := { f.adc with lenA := if a then la else f.adc.lenA, lenB := if b then lb else f.adc.lenB } }).unvalid
    (fun k => if k < 16 then a else b)
/-- ADC_CORR in the commissioning state: a GAIN of 0 leaves the register unchanged. -/
def corrSet (f : Field) (k : Nat) (v : Word) : Field :=
  if (bits v 16 16 : BitVec 16) = 0 then f
  else { f with adc := { f.adc with corr := tabSet (0, 0x4000) f.adc.corr k (bits v 0 16, bits v 16 16) } }
/-- A write of an ADC register other than ADC_CORR. -/
def writeAdc (f : Field) (p : Part) (o : Nat) (v : Word) : Field :=
  if o = 0x15000 then f.refbufEn p (bit v 0)
  else if o = 0x15014 then f.injSwtrig p (bits v 0 4)
  else if 0x15400 ≤ o && o < 0x15500 then f.writeInj p ((o - 0x15400) / 0x40) ((o - 0x15400) % 0x40) v
  else if !f.commissioner p then f
  else if o = 0x15008 then
    { f with adc := { f.adc with tol := bits v 0 8, period := bits v 8 8,
                                 xchkFail := f.adc.xchkFail && (bits v 0 8 : BitVec 8) ≠ 0 } }
  else if o = 0x1500C then f.regCfgWrite v
  else if 0x15200 ≤ o && o < 0x15280 then
    let n := (o - 0x15200) / 4
    if inputOk (bits v 0 6) then ({ f with adc := { f.adc with ent := tabSet 0 f.adc.ent n (bits v 0 6) } }).unvalid (· = n) else f
  else f

/-! ### Meridian (12) -/

/-- OWNED and OWNER of a CTL register. -/
def ownerWord (o : Option Part) : Word :=
  match o with
  | some p => flag true 27 ||| fld p 28
  | none => 0
/-- The registers of compare channel n. -/
def readCmp (f : Field) (n w : Nat) : Word × Field :=
  let c := f.cmp n
  if w = 0 then (bits c.v 0 32, f)
  else if w = 1 then (bits c.v 32 32, f)
  else if w = 2 then (if n = 3 then fldN (f.cmpItv 3) 0 else c.itv, f)
  else (word [flag (c.en || decide (n < 8)) 0, flag c.evtEn 1, flag c.fired 2, fld c.missed 8, ownerWord c.owner],
        f.setCmp n { c with missed := 0 })
/-- The registers of pin compare m. -/
def readPcmp (f : Field) (m w : Nat) : Word × Field :=
  let c := f.pcmp m
  if w = 0 then (bits c.v 0 32, f)
  else if w = 1 then (bits c.v 32 32, f)
  else if w = 2 then (c.itv, f)
  else (word [flag c.en 0, fld c.action 1, flag c.init 3, flag c.level 4, flag c.fired 5, fld c.missed 8],
        f.setPcmp m { c with missed := 0 })
/-- The registers of down-counter k; offset 0xC is reserved. -/
def readDct (f : Field) (k w : Nat) : Word :=
  let d := f.dct k
  if w = 0 then d.count
  else if w = 1 then d.reload
  else if w = 2 then
    word [flag d.run 0, flag d.auto 1, flag d.evtEn 3, fld d.prescale 4, fld d.mode 8, fld d.msel 10, flag d.zero 16, ownerWord d.owner]
  else 0
/-- The MER registers: a LO read latches HI for the reading partition (R313). -/
def readMer (f : Field) (p : Part) (o : Nat) : Word × Field :=
  let m := f.mer
  let latch (r : WideReg) : Word × Field := ((f.wideLoRead p r).2, (f.wideLoRead p r).1)
  if o = 0x16000 then latch .cnt
  else if o = 0x16004 then ((f.merPart p).cntHi, f)
  else if o = 0x16008 then (hi32 m.count, f)
  else if o = 0x1600C then
    (word [flag m.holdover 0, flag m.ppsOk 1, flag (m.slew ≠ 0) 2, fld m.holdEntries 8, fld m.ppsBad 16],
     { f with mer := { m with holdEntries := 0, ppsBad := 0 } })
  else if o = 0x16010 then (bits m.sto 0 32, f)
  else if o = 0x16014 then (hi32 m.sto, f)
  else if o = 0x16018 then (m.slew, f)
  else if o = 0x1601C then latch .stn
  else if o = 0x16020 then ((f.merPart p).stnHi, f)
  else if o = 0x16024 then latch .pps
  else if o = 0x16028 then ((f.merPart p).ppsHi, f)
  else if o = 0x1602C then (flag m.ppsEn 0 ||| fld m.ppsTol 16, f)
  else if 0x16100 ≤ o && o < 0x16280 then f.readCmp ((o - 0x16100) / 16) (o / 4 % 4)
  else if 0x16300 ≤ o && o < 0x16380 then f.readPcmp ((o - 0x16300) / 16) (o / 4 % 4)
  else if 0x16400 ≤ o && o < 0x16500 then (f.readDct ((o - 0x16400) / 16) (o / 4 % 4), f)
  else (0, f)
/-- A write of a MER register. -/
def writeMer (f : Field) (p : Part) (o : Nat) (v : Word) : Field :=
  if o = 0x16010 then f.stoStage p v
  else if o = 0x16014 then f.stoHi p v
  else if o = 0x16018 then f.merSlew p v
  else if o = 0x1602C then f.ppsCfgWrite p v
  else if 0x16100 ≤ o && o < 0x16280 then
    let n := (o - 0x16100) / 16
    let w := o / 4 % 4
    if w = 0 then f.cmpStage p n v else if w = 1 then f.cmpHi p n v
    else if w = 2 then f.cmpItvWrite p n v else f.cmpCtlWrite p (BitVec.ofNat 5 n) v
  else if 0x16300 ≤ o && o < 0x16380 then
    let m := (o - 0x16300) / 16
    let w := o / 4 % 4
    if w = 0 then f.pcmpStage p m v else if w = 1 then f.pcmpHi p m v
    else if w = 2 then f.pcmpItvWrite p m v else f.pcmpCtlWrite p m v
  else if 0x16400 ≤ o && o < 0x16500 then
    let k := (o - 0x16400) / 16
    let w := o / 4 % 4
    if w = 1 then f.dctReloadWrite p k v else if w = 2 then f.dctCtlWrite p (BitVec.ofNat 4 k) v else f
  else f

/-! ### The safety function (18) -/

/-- SAF_FAULT. -/
def safFaultWord (s : Saf) : Word :=
  word [fld s.fDisc 0, fld s.fTest 4, flag s.fCross 12, flag (s.outPins ≠ []) 13, flag s.fParam 14, flag s.fLogic 15, flag s.fStuck 16]
/-- Conditions 1 to 3 of R436 hold. -/
def rearmOk (s : Saf) : Bool := s.safe && !faulted s && !(List.range 4).any (fun k => pairDemand s k)
/-- SAF_INPUT. -/
def safInputWord (s : Saf) : Word :=
  word [maskOf (fun ch => !isDemand s ch (bit s.epo ch)) 8, fld s.masked 8, flag s.rearm 16,
        word ((List.range 4).map (fun n => flag (bit s.safeout n ^^ s.outPins.contains (.safeout (BitVec.ofNat 2 n))) (17 + n)))]
/-- The SAF registers. -/
def readSaf (f : Field) (o : Nat) : Word × Field :=
  let s := f.saf
  if o = 0x17000 then
    (word [flag s.safe 0, flag s.confirmed 1, flag (rearmOk s) 2, fld s.reason 8, fld s.aoSeq 16], f)
  else if o = 0x17004 then (safFaultWord s, f)
  else if o = 0x17008 then (safInputWord s, f)
  else if o = 0x17010 then (crc32c s.staging, f)
  else if o = 0x17014 then (s.activeCrc, f)
  else if o = 0x1701C then (fld s.last 0 ||| fld s.offset 16, f)
  else if o = 0x17020 then
    (word [fld s.entries 0, fld s.refused 16, fld s.short 24], { f with saf := { s with refused := 0, short := 0 } })
  else if 0x17200 ≤ o && o < 0x17400 then (u32 s.staging (o - 0x17200), f)
  else (0, f)

/-! ### Lanes (09, 10) -/

/-- Commands waiting or outstanding on a lane. -/
def laneQueued (f : Field) (v : Lane) : Nat :=
  v.os.foldl (fun n o => let k := f.link o.2.id; n + k.sent.length + k.wait.length) 0
/-- Bit i of LANE_PRESENT: position p holds an enumerated outstation that is not missing. -/
def presentAt (v : Lane) (p : Nat) : Bool :=
  match tabLook v.os p with
  | some o => v.shown && !o.missing
  | none => false
/-- LANE_STATUS. -/
def laneStatus (v : Lane) : Word :=
  word [fldN v.st.code 0, flag v.lockA 3, flag v.lockB 4, flag v.overcount 5, flag v.dupId 6, flag v.degraded 7,
        flag (v.enumPh ≠ .idle) 8, if v.shown then fldN v.os.length 9 else 0,
        if v.shown && v.st = .split then fldN (chainCount v false) 16 else 0]
/-- The registers of lane l, by offset in its block. -/
def readLane (f : Field) (l : BitVec 5) (w : Nat) : Word × Field :=
  let v := f.lane l
  if w = 0x00 then (flag v.en 0, f)
  else if w = 0x04 then (word [fld v.osMiss 0, fld v.healDelay 8, fld v.cvLimit 16], f)
  else if w = 0x08 then (laneStatus v, f)
  else if w = 0x0C then (word [fld v.eastPos 0, flag v.eastValid 6, fld v.westPos 8, flag v.westValid 14], f)
  else if w = 0x10 then (fld v.cvA 0 ||| fld v.cvB 16, f.setLane l { v with cvA := 0, cvB := 0 })
  else if w = 0x14 then (fld v.crcOrd 0 ||| fld v.crcExp 16, f.setLane l { v with crcOrd := 0, crcExp := 0 })
  else if w = 0x18 then
    (word [fld v.splits 0, fld v.heals 8, fld v.enums 16, fld v.pollsLost 24],
     f.setLane l { v with splits := 0, heals := 0, enums := 0, pollsLost := 0 })
  else if w = 0x1C then (if v.st = .ring then fld v.loopTicks 0 else 0, f)
  else if w = 0x20 then (maskOf (presentAt v) 32, f)
  else if w = 0x24 then (maskOf (fun p => presentAt v (32 + p)) 32, f)
  else if w = 0x28 then (fld v.idSel 0, f)
  else if w = 0x2C then (bits v.idSnap 0 32, f)
  else if w = 0x30 then (bits v.idSnap 32 32, f)
  else if w = 0x34 then (fld v.sfPeak 0 ||| fld v.sfOverrun 16, f.setLane l { v with sfPeak := 0, sfOverrun := 0 })
  else if w = 0x38 then (fld v.resent 0 ||| fldN (min (f.laneQueued v) 1024) 16, f.setLane l { v with resent := 0 })
  else if w = 0x3C then (fld v.spare 0, f)
  else (0, f)
/-- A write of a register of lane l. -/
def writeLane (f : Field) (p : Part) (l : BitVec 5) (w : Nat) (v : Word) : Field :=
  if !f.commissioner p then f
  else if w = 0x00 then
    let f1 := f.laneEnable p l (bit v 0)
    let f2 := if bit v 1 then f1.reenum p l else f1
    if bit v 2 then f2.heal p l else f2
  else if w = 0x04 then f.modLane l (fun x => { x with osMiss := bits v 0 4, healDelay := bits v 8 8, cvLimit := bits v 16 16 })
  else if w = 0x28 then
    let pos : BitVec 6 := bits v 0 6
    f.modLane l (fun x => { x with idSel := pos, idSnap := match tabLook x.os pos.toNat with | some o => o.id | none => 0 })
  else if w = 0x3C then
    if (bits v 0 9 : BitVec 9).toNat ≤ 284 then f.modLane l (fun x => { x with spare := bits v 0 9 }) else f
  else f

/-! ### Power, Transit, partitions, thermometry, NVM, security (19, 14, 15, 17, 20, 21) -/

/-- PWR_STATUS.STATE. -/
def pwrWord : PwrState → Nat
  | .run => 0 | .trim => 1 | .quiet => 2 | .standby => 3 | .thermalOff => 0 | .reset => 0
/-- The registers of page 6 below 0x30300. -/
def readPwr (f : Field) (p : Part) (o : Nat) : Word × Field :=
  let w := f.pwr
  let t := f.trn
  if o = 0x30000 then (word [fld w.req 0, flag w.wakePin 4, flag w.wakeTime 5, flag w.wakeLink 6], f)
  else if o = 0x30004 then
    (word [fldN (pwrWord w.st) 0, fld w.refuse 4, fld w.wake 8, fld w.stbyEntries 16], { f with pwr := { w with stbyEntries := 0 } })
  else if o = 0x30008 then (bits w.wakeAt 0 32, f)
  else if o = 0x3000C then (bits w.wakeAt 32 32, f)
  else if o = 0x30010 then
    (word [fld w.rstLast 0, fld w.rstWarm 8, fld w.rstWdt 16], { f with pwr := { w with rstWarm := 0, rstWdt := 0 } })
  else if o = 0x30040 then
    (word [flag w.step1 0, flag w.step2 1, flag (w.st = .trim || w.st = .quiet) 2, fld w.shedEntries 8,
           if w.step2 then fldN (min ((f.now.toNat - w.tSpan.toNat) / 100000000) 65535) 16 else 0],
     { f with pwr := { w with shedEntries := 0 } })
  else if o = 0x30100 then
    (word [flag (t.st = .up) 0, fld t.losses 8, fld t.badMsg 16], { f with trn := { t with losses := 0, badMsg := 0 } })
  else if 0x30200 ≤ o && o < 0x30210 then (tabGet 0 f.prt.setup ((o - 0x30200) / 4), f)
  else if o = 0x30210 then (fld f.prt.hold 0, f)
  else if o = 0x30214 then (fldN f.prt.grants.length 0, f)
  else if o = 0x3040C then (tabGet 0 f.prt.logSel p.toNat, f)
  else (0, f)
/-- The thermometry registers. -/
def readThm (f : Field) (o : Nat) : Word × Field :=
  let t := f.thm
  if o = 0x30300 then
    (word [flag t.warn 0, flag t.throttle 1, flag t.sensor 2, flag t.noDecision 3, fld t.hotSite 4, fld t.decision 16], f)
  else if o = 0x30304 then (t.limit, f)
  else if o = 0x30308 then (fld t.tol 0, f)
  else if o = 0x3030C then (maskOf (fun k => (Thm.siteAt t k).broken) 12 ||| fld t.hBroken 16, f)
  else if o = 0x30310 then
    (word [fld t.invalid 0, fld t.unconfirmed 16, fld t.warnEntries 24],
     { f with thm := { t with invalid := 0, unconfirmed := 0, warnEntries := 0 } })
  else if o = 0x30314 then (fld t.shutCount 0, f)
  else if o = 0x30318 then (t.hState, f)
  else if 0x30340 ≤ o && o < 0x30370 then
    let s := Thm.siteAt t ((o - 0x30340) / 4)
    (word [fld s.t 0, flag s.valid 16, flag s.subst 17, flag s.broken 18], f)
  else (0, f)
/-- The NVM and security registers. -/
def readNvm (f : Field) (p : Part) (o : Nat) : Word × Field :=
  let n := f.nvm
  let g := n.log
  if o = 0x30400 then
    (word [flag (g.erasing.isSome || n.upd ≠ []) 0, flag (g.erasing.isSome && g.emerg ≠ []) 1, flag g.ready 2, fld n.lost 4,
           fldN (min 64 g.room) 8, fldN f.buffered 16], f)
  else if o = 0x30404 then (f.logHead, f)
  else if o = 0x30408 then (f.logTail, f)
  else if 0x30410 ≤ o && o < 0x30430 then (u32 (f.logSeek (tabGet 0 f.prt.logSel p.toNat)) (o - 0x30410), f)
  else if o = 0x30430 then
    (word [fld n.dropped 0, fld n.torn 16, fld n.retired 24], { f with nvm := { n with dropped := 0, torn := 0 } })
  else if o = 0x30434 then (fld n.maxErases 0, f)
  else if o = 0x30500 then (word [fld f.sec.life 0, flag f.sec.comm 3, flag f.sec.ucodeFail 4, fld f.sec.bl 8], f)
  else (0, f)
/-- THM_LIMIT's ranges (R419). -/
def limitOk (v : Word) : Bool :=
  let w := (bits v 0 8 : BitVec 8).toNat
  let t := (bits v 8 8 : BitVec 8).toNat
  let s := (bits v 16 8 : BitVec 8).toNat
  decide (95 ≤ w) && decide (w ≤ 135) && decide (102 ≤ t) && decide (t ≤ 142) && decide (110 ≤ s) && decide (s ≤ 150) && decide (w < t) && decide (t < s)
/-- A write of PWR_CTRL (R448, R449, R452). -/
def pwrCtrlWrite (f : Field) (p : Part) (v : Word) : Field :=
  if !f.ownsPower p then f
  else
    let f1 := { f with pwr := { f.pwr with wakePin := bit v 4, wakeTime := bit v 5, wakeLink := bit v 6 } }
    let r : BitVec 2 := bits v 0 2
    if r = 0 then f1.reqRunQuiet p false else if r = 1 then f1.reqRunQuiet p true else if r = 2 then f1.reqStandby p else f1
/-- LOG_SELECT: a partition's own selection (R472). -/
def logSelect (f : Field) (p : Part) (seq : Word) : Field :=
  if f.anyRole p then { f with prt := { f.prt with logSel := tabSet 0 f.prt.logSel p.toNat seq } } else f
/-- A write of a register of page 6, RWC fields aside. -/
def writePwr (f : Field) (p : Part) (o : Nat) (v : Word) : Field :=
  if o = 0x30000 then f.pwrCtrlWrite p v
  else if o = 0x30008 then f.wakeStage p v
  else if o = 0x3000C then f.wakeHi p v
  else if o = 0x30014 then f.softReset p (bits v 0 16)
  else if o = 0x30308 then
    (if f.commissioner p && 16 ≤ (bits v 0 8 : BitVec 8).toNat then { f with thm := { f.thm with tol := bits v 0 8 } } else f)
  else if o = 0x3040C then f.logSelect p v
  else f

/-! ### The whole window -/

/-- A field register's value for a partition, and what the read leaves (R15, R18, R493). -/
def regRead (f : Field) (p : Part) (o : Nat) : Word × Field :=
  if o % 4 ≠ 0 then (0, f)
  else if o < 0x10000 then (0, f)
  else if o < 0x11000 then f.readNev o
  else if o < 0x12000 then f.readSel o
  else if o < 0x13000 then f.readHel o
  else if o < 0x14000 then f.readFirn o
  else if o < 0x15000 then (if o < 0x14100 then f.readDch (BitVec.ofNat 4 ((o - 0x14000) / 16)) (o / 4 % 4) else (0, f))
  else if o < 0x16000 then f.readAdc o
  else if o < 0x17000 then f.readMer p o
  else if o < 0x18000 then f.readSaf o
  else if o < 0x20000 then (0, f)
  else if o < 0x20800 then f.readLane (BitVec.ofNat 5 ((o - 0x20000) / 0x40)) (o % 0x40)
  else if o = 0x20800 then (maskOf (fun n => (f.lane (BitVec.ofNat 5 n)).st = .split) 32, f)
  else if o = 0x20804 then (maskOf (fun n => laneUp (f.lane (BitVec.ofNat 5 n))) 32, f)
  else if o < 0x30000 then (0, f)
  else if o < 0x30300 || o = 0x3040C then f.readPwr p o
  else if o < 0x30400 then f.readThm o
  else f.readNvm p o
/-- Does an offset hold an RWC field (R16)? -/
def isRwc (o : Nat) : Bool :=
  o = 0x13100 || o = 0x30304 || o = 0x17018 || (decide (0x15100 ≤ o) && decide (o < 0x15184))
    || (decide (0x17200 ≤ o) && decide (o < 0x17400))
/-- The C-class registers as their image holds them. -/
def cregsOf (f : Field) : Bytes :=
  le 4 (firnCfg f.firn) ++ le 4 f.thm.limit
    ++ ((List.range 33).map (fun k => let c := tabGet (0, 0x4000) f.adc.corr k; le 2 c.1 ++ le 2 c.2)).flatten
/-- A write of an RWC field in the commissioning state. -/
def rwcSet (f : Field) (o : Nat) (v : Word) : Field :=
  if o = 0x13100 then f.firnCfgSet v
  else if o = 0x30304 then (if limitOk v then { f with thm := { f.thm with limit := v &&& 0x00FFFFFF } } else f)
  else if o < 0x16000 then f.corrSet ((o - 0x15100) / 4) v
  else { f with saf := { f.saf with staging := splice f.saf.staging (o - 0x17200) (le 4 v) } }
/-- A write of an RWC field (R16): outside the commissioning state one record of it is logged; within it, COMMISSIONER is
needed (R384). A C-class field that changes is also stored in its image. -/
def rwcWrite (f : Field) (p : Part) (o : Nat) (v : Word) : Field :=
  if o = 0x17018 then f.safConfirm p v
  else if !f.sec.comm then f.logRwc (BitVec.ofNat 32 o) p
  else if !f.commissioner p then f
  else
    let f1 := f.rwcSet o v
    if f1.cregsOf = f.cregsOf then f1 else f1.imgStart 3 f1.cregsOf
/-- A write of a field register by a partition with some role (R375, R384, R493). -/
def regWrite (f : Field) (p : Part) (o : Nat) (v : Word) : Field :=
  if o % 4 ≠ 0 || !f.anyRole p then f
  else if isRwc o then f.rwcWrite p o v
  else if o = 0x10010 then f.coldAckWrite p v
  else if o = 0x11000 then f.selCtrlWrite p v
  else if o = 0x11114 then f.holdAllWrite p (bit v 0)
  else if o = 0x12004 then f.insCtrlWrite p v
  else if o = 0x13000 then f.histCfg p v
  else if o = 0x13108 then f.patrolWrite p v
  else if o = 0x131B0 then f.eccCfgWrite p v
  else if 0x14000 ≤ o && o < 0x14100 then f.writeDch p (BitVec.ofNat 4 ((o - 0x14000) / 16)) (o / 4 % 4) v
  else if 0x15000 ≤ o && o < 0x16000 then f.writeAdc p o v
  else if 0x16000 ≤ o && o < 0x17000 then f.writeMer p o v
  else if o = 0x1700C then f.safEnter p (bit v 0)
  else if 0x20000 ≤ o && o < 0x20800 then f.writeLane p (BitVec.ofNat 5 ((o - 0x20000) / 0x40)) (o % 0x40) v
  else if 0x30000 ≤ o then f.writePwr p o v
  else f

/-! ### The rows that name one register access -/

/-- The management sequencer runs host commands and tunnelled accesses (R484, R486). -/
def seqRuns (f : Field) : Bool := f.coreOn && !f.sec.ucodeFail && !f.sec.halted
/-- A tunnelled access's part in the field die: nothing where the sequencer does not run. -/
def tunnelled (f : Field) (g : Field → Field) : Field := if f.seqRuns then g f else f
/-- A register write of a partition through the tunnelled window: nothing from a partition without a role (R375). -/
def byPart (f : Field) (p : Part) (g : Field → Field) : Field := f.tunnelled (fun f => if f.anyRole p then g f else f)
/-- A register read of a partition: the value leaves the die. -/
def readReg (f : Field) (p : Part) (o : Nat) : Field :=
  f.tunnelled (fun f => let r := f.regRead p o; r.2.emit (.read p r.1))
/-- WIDE_LO_READ: the high half is latched for the reading partition, and the low half leaves the die (R313). -/
def wideLoRow (f : Field) (p : Part) (r : WideReg) : Field :=
  f.tunnelled (fun f => (f.wideLoRead p r).1.emit (.read p (f.wideLoRead p r).2))

end Field
end Sys2Proof.Machine
end

