-- ==== Sys2Proof/Machine/Link.lean ====
section
/-! DEFINITION. Transit's two halves: delivery, acknowledgement and training (14), and what the field die does with the
messages of the host die: commands, tunnelled accesses, PART resets and device state (14, 15, 21). -/
namespace Sys2Proof.Machine

/-! ### One class of one half (R360, R361) -/

/-- Drop the kept messages that an ACK covers: those up to its SEQ, where it is the SEQ of a kept message. -/
def ackHalf (h : Half) (ack : BitVec 16) (t : Count) : Half × List (BitVec 16) :=
  match h.kept.findIdx? (fun k => k.1 = ack) with
  | some i => ({ h with kept := h.kept.drop (i + 1), tSent := t, resends := 0 }, (h.kept.take (i + 1)).map (·.1))
  | none => (h, [])
/-- The kept messages from a SEQ on. -/
def keptFrom (h : Half) (s : BitVec 16) : List (BitVec 16 × Msg) := h.kept.dropWhile (fun k => k.1 ≠ s)
/-- Is the oldest message due to be sent again (R361): 2 µs with no covering ACK? -/
def resendDue (h : Half) (t : Count) : Bool := h.kept ≠ [] && h.tSent.toNat + 200 ≤ t.toNat
/-- A message is due and well formed (R359): its type, class, reserved fields and length. -/
def formOk (h : LinkHdr) (type : Byte) (cls : Bool) : Bool :=
  h.type = type && h.mflags = (if cls then 1 else 0) && (bits h.part 2 5 : BitVec 5) = 0 && decide (1 ≤ h.nblk.toNat) && decide (h.nblk.toNat ≤ 16)
    && h.resv
/-- The payload of TRAIN. -/
def trainPayload (fresh : Bool) (masks : BitVec 12) (level : Byte) : Bytes :=
  [if fresh then 1 else 0] ++ le 2 masks ++ [level]
/-- The TAG of a command: its partition, ring and place (log entry 50). -/
def tagOf (p : Part) (ring : BitVec 4) (pos : BitVec 16) : BitVec 32 :=
  (p.setWidth 8 : BitVec 8) ++ (ring.setWidth 8 : BitVec 8) ++ pos

/-- IDCODE of a TAP: stepping A0, the part code and the manufacturer code (21, debug). -/
def idcode (part : BitVec 16) : Word := BitVec.ofNat 32 (part.toNat * 4096 + Config.makerCode.toNat * 2 + 1)

/-- The tags of TUN_CPL messages for the host die itself: CMP1's interval, NEV_COLD_ACK, and a publication skipped
(log entries 51, 52). -/
def tagItv : BitVec 32 := 0xFF000001
/-- The tag of the NEV_COLD_ACK read. -/
def tagCold : BitVec 32 := 0xFF000002
/-- The tag of a skipped publication; the value is its partition. -/
def tagSkip : BitVec 32 := 0xFF000003

namespace Field

/-! ### Commands that have arrived (R362, R402, R484) -/

/-- The bytes from offset 0 on that pieces of a payload cover without a gap; n bounds the pieces. -/
def joinPieces (ps : List (Nat × Bytes)) : Nat → Bytes → Bytes
  | 0, b => b
  | n + 1, b => match ps.find? (fun p => p.1 ≤ b.length && b.length < p.1 + p.2.length) with
    | some p => joinPieces ps n (b ++ p.2.drop (b.length - p.1))
    | none => b
/-- The payload bytes held for a TAG, up to the first that no BULK has brought (R362). -/
def bulkOf (f : Field) (tag : BitVec 32) : Bytes :=
  let ps := (f.trn.bulk.filter (fun b => b.1 = tag)).map (·.2)
  joinPieces ps ps.length []
/-- Forget the BULK bytes of a TAG. -/
def dropBulk (f : Field) (tag : BitVec 32) : Field :=
  { f with trn := { f.trn with bulk := f.trn.bulk.filter (fun b => b.1 ≠ tag) } }
/-- An unstarted command of the same ring stands before b (R402). -/
def heldBack (f : Field) (b : Busy) : Bool :=
  (f.prt.busy.takeWhile (fun (c : Busy) => c.ref ≠ b.ref)).any (fun (c : Busy) => !c.started && c.ref.part = b.ref.part && c.ref.ring = b.ref.ring)
/-- Start a command: its payload is taken, and it runs. -/
def startCmd (f : Field) (b : Busy) : Field :=
  let pay := (f.bulkOf b.linkTag).take b.need
  let f1 := { f with prt := { f.prt with busy := f.prt.busy.map (fun (c : Busy) => if c.ref = b.ref then { c with started := true } else c) } }
  match fcmdOf b.ops pay with
  | some c => (f1.dropBulk b.linkTag).runCmd b.ref c
  | none => (f1.dropBulk b.linkTag).complete b.ref .badOpcode 0
/-- Start every command that holds its payload and that nothing before it in its ring holds back. -/
def startReady (f : Field) : Field :=
  if !f.admits then f
  else (f.prt.busy.filter (fun b => !b.started)).foldl (fun (g : Field) b =>
    if !g.heldBack b && b.need ≤ (g.bulkOf b.linkTag).length then g.startCmd b else g) f
/-- The field die takes commands in this lifecycle and level, whether or not it is halted. -/
def takesCmds (f : Field) : Bool :=
  f.coreOn && 1 ≤ f.sec.life.toNat && f.sec.life.toNat ≤ 3 && !f.sec.ucodeFail && f.sec.blForce ≠ 0
/-- CMD: the descriptor of ring and place in the TAG becomes a command in flight. -/
def takeCmd (f : Field) (p : Part) (tag : BitVec 32) (ring : BitVec 4) (desc : Bytes) : Field :=
  if !f.takesCmds then f
  else
    let need := if carriesBulk (u8 desc 0) then leNat desc 24 4 else 0
    let b := Busy.mk (refOfDesc p ring (bits tag 0 16) desc) desc tag need f.now false
    { f with prt := { f.prt with busy := f.prt.busy ++ [b] } }
/-- A command's payload is incomplete 100 µs after its CMD: it completes with LINK_ERR (R362). -/
def bulkLate (f : Field) (b : Busy) : Bool :=
  !b.started && decide ((f.bulkOf b.linkTag).length < b.need) && decide (b.t.toNat + 10000 ≤ f.now.toNat)
/-- BULK: bytes of a payload at an offset. Those of a command whose 100 µs have passed no longer count. -/
def takeBulk (f : Field) (tag : BitVec 32) (off : Word) (data : Bytes) : Field :=
  if f.prt.busy.any (fun b => b.linkTag = tag && f.bulkLate b) then f
  else { f with trn := { f.trn with bulk := f.trn.bulk ++ [(tag, off.toNat, data)] } }

/-! ### Tunnelled accesses (R368, R369, R484) -/

/-- Answer a tunnelled access. -/
def tunCpl (f : Field) (part : Byte) (tag : BitVec 32) (v : Word) : Field :=
  f.sendCtl { type := 0x41, part := part, tag := tag, payload := [0, 0, 0, 0] ++ le 4 v }
/-- Run a tunnelled access of a partition. The answer to a write of CMP1's interval carries the interval in force (16;
log entry 51). -/
def runTun (f : Field) (w : TunWait) : Field :=
  match w.value with
  | none =>
    let r := f.regRead w.part w.off.toNat
    r.2.tunCpl (w.part.setWidth 8) w.tag r.1
  | some v =>
    let g := f.regWrite w.part w.off.toNat v
    g.tunCpl (w.part.setWidth 8) w.tag (if w.off.toNat = 0x16118 then fldN (g.cmpItv 1) 0 else 0)
/-- Take a tunnelled access: at once, or once a halt ends; never where the sequencer does not run. -/
def takeTun (f : Field) (w : TunWait) : Field :=
  if f.seqRuns then f.runTun w
  else if f.coreOn && !f.sec.ucodeFail then { f with trn := { f.trn with tunWait := f.trn.tunWait ++ [w] } }
  else f
/-- Run what waited through a halt. -/
def tunReady (f : Field) : Field :=
  if f.seqRuns then f.trn.tunWait.foldl (fun (g : Field) w => g.runTun w) { f with trn := { f.trn with tunWait := [] } } else f

/-! ### PART reset (R386 to R388) -/

/-- Does a command hold up step 4 of R386? A waiting REQUEST capture does not. -/
def holdsReset (f : Field) (n : Part) (b : Busy) : Bool :=
  b.ref.part = n && !f.firn.capWait.any (fun w => w.ref = some b.ref)
/-- Step 5 of R386, with the partition's T fields: its records, waiting REQUEST captures and timers go. -/
def partClear (f : Field) (n : Part) : Field :=
  let gone (w : CapWait) : Bool := match w.ref with | some r => r.part = n | none => false
  let f1 := f.setEvq n { f.evq n with q := [], dropped := 0, heldDone := [] }
  let f2 := { f1 with
    firn := { f1.firn with capWait := f1.firn.capWait.filter (fun w => !gone w) },
    prt := { f1.prt with busy := f1.prt.busy.filter (fun b => b.ref.part ≠ n), logSel := tabDel f1.prt.logSel n.toNat,
                         block := tabDel f1.prt.block n.toNat, tlm := tabDel f1.prt.tlm n.toNat } }
  f2.timersOf n
/-- A data-class message of partition n is not covered by an ACK yet. -/
def keptOf (f : Field) (n : Part) : Bool :=
  f.trn.dat.kept.any (fun k => !bit k.2.part 7 && (bits k.2.part 0 2 : BitVec 2) = n)
/-- Steps 4 to 6 of R386 for partition n. -/
def partStep (f : Field) (n : Part) : Field :=
  let f1 := if bit f.prt.rstA n.toNat && !f.prt.busy.any (fun b => f.holdsReset n b) then
      let g := f.partClear n
      { g with prt := { g.prt with rstA := g.prt.rstA &&& ~~~((1 : BitVec 4) <<< n.toNat), rstB := g.prt.rstB ||| (1 : BitVec 4) <<< n.toNat } }
    else f
  if bit f1.prt.rstB n.toNat && f1.trn.st = .up && !f1.keptOf n then
    ({ f1 with prt := { f1.prt with rstB := f1.prt.rstB &&& ~~~((1 : BitVec 4) <<< n.toNat) } }).fstate .partDone 6 (n.setWidth 8)
  else f1
/-- What waits on the link goes on: halted accesses and commands, and PART resets. -/
def linkSteps (f : Field) : Field :=
  if !f.coreOn || f.sec.ucodeFail then f
  else ((([0, 1, 2, 3] : List Part).foldl (fun (g : Field) n => g.partStep n) ((f.tunReady).startReady)))

/-! ### Delivery (R359 to R364) -/

/-- Each partition's records follow an ACK: delivered ones leave the queue, and OVERFLOW or held records may enter
(R363, R400). -/
def ackRecs (f : Field) (seqs : List (BitVec 16)) : Field :=
  ([0, 1, 2, 3] : List Part).foldl (fun (g : Field) p =>
    let q := g.evq p
    let left := q.q.filter (fun r => match r.sent with | some s => !seqs.contains s | none => true)
    if left = q.q then g else ((g.setEvq p { q with q := left }).overflow p).pump p) f
/-- An ACK of a class. A publication whose last message it covers has finished (R235). -/
def takeLinkAck (f : Field) (cls : Bool) (ack : BitVec 16) : Field :=
  if cls then { f with trn := { f.trn with ctl := (ackHalf f.trn.ctl ack f.now).1 } }
  else
    let r := ackHalf f.trn.dat ack f.now
    ({ f with trn := { f.trn with dat := r.1 },
              prt := { f.prt with pubLast := f.prt.pubLast.filter (fun e => !r.2.contains e.2) } }).ackRecs r.2
/-- The half of a class. -/
def half (f : Field) (cls : Bool) : Half := if cls then f.trn.ctl else f.trn.dat
/-- Write the half of a class. -/
def setHalf (f : Field) (cls : Bool) (h : Half) : Field :=
  { f with trn := if cls then { f.trn with ctl := h } else { f.trn with dat := h } }
/-- A message discarded under R359. -/
def countBad (f : Field) : Field := { f with trn := { f.trn with badMsg := satAdd f.trn.badMsg 1 } }
/-- Take LINK_ACK or LINK_NAK, which carry no SEQ: broken, it is answered by LINK_NAK; not well formed, it is counted. -/
def hearLink (f : Field) (cls : Bool) (type : Byte) (h : LinkHdr) (go : Field → Field) : Field :=
  if !f.linkUp then f
  else if !h.good then f.emit (linkNakOut cls (f.half cls).expect)
  else if formOk h type cls then go f
  else f.countBad
/-- A message that arrives whole and in order is accepted and acknowledged (R360). -/
def heard (f : Field) (cls : Bool) (h : LinkHdr) : Field :=
  let f1 := f.setHalf cls { f.half cls with expect := (f.half cls).expect + 1 }
  ({ f1 with trn := { f1.trn with tLast := f1.now } }).emit (linkAckOut cls h.seq)
/-- Take a message of a class (R359, R360): out of order or broken, it is answered by LINK_NAK; else its ACK acts, it is
acknowledged, and go runs. One that is not well formed is accepted as R360 says, and does nothing but be counted: its SEQ is
spent, so that those after it go on (log entry 117). -/
def recv (f : Field) (cls : Bool) (type : Byte) (h : LinkHdr) (go : Field → Field) : Field :=
  if !f.linkUp then f
  else
    let x := f.half cls
    if !h.good || h.seq ≠ x.expect then f.emit (linkNakOut cls x.expect)
    else if formOk h type cls then (go ((f.heard cls h).takeLinkAck cls h.ack)).linkSteps
    else (f.heard cls h).countBad
/-- The partition a message names. -/
def partOf (h : LinkHdr) : Part := bits h.part 0 2
/-- LINK_ACK (R363). -/
def linkAckRow (f : Field) (cls : Bool) (h : LinkHdr) : Field :=
  f.hearLink cls 0x07 h (fun f => (f.takeLinkAck cls h.ack).linkSteps)
/-- Send messages again. -/
def resendMsgs (f : Field) (cls : Bool) (ks : List (BitVec 16 × Msg)) : Field :=
  ks.foldl (fun (g : Field) k => g.emit (msgOut cls ((f.half cls).expect - 1) k)) f
/-- The link leaves UP and trains; the commissioning state counts as closed (R482). -/
def retrain (f : Field) : Field := { f with trn := { f.trn with st := .train, trainSent := false }, sec := { f.sec with comm := false } }
/-- Send the oldest kept message again and those after it; the eighth time in a row starts a retraining (R361). -/
def resendAll (f : Field) (cls : Bool) : Field :=
  let x := f.half cls
  let f1 := (f.setHalf cls { x with tSent := f.now, resends := if x.resends = 7 then 0 else x.resends + 1 }).resendMsgs cls x.kept
  if x.resends = 7 then f1.retrain else f1
/-- LINK_NAK (R360): its ACK acts as any, and the messages from the expected SEQ on go again. -/
def linkNakRow (f : Field) (cls : Bool) (h : LinkHdr) (n : BitVec 16) : Field :=
  f.hearLink cls 0x08 h (fun f =>
    let f1 := f.takeLinkAck cls (n - 1)
    if keptFrom (f1.half cls) n ≠ [] then f1.resendAll cls else f1.linkSteps)
/-- How many messages a RESEND_TIMEOUT of the field die sends again. -/
def resendCount (f : Field) (cls : Bool) : Nat :=
  if f.linkUp && resendDue (f.half cls) f.now then (f.half cls).kept.length else 0
/-- How many messages a LINK_NAK makes the field die send again. -/
def nakCount (f : Field) (cls : Bool) (h : LinkHdr) (n : BitVec 16) : Nat :=
  if f.linkUp && h.good && formOk h 0x08 cls then (keptFrom (f.half cls) n).length else 0
/-- RESEND_TIMEOUT (R361). -/
def resendTimeout (f : Field) (cls : Bool) : Field :=
  if f.linkUp && resendDue (f.half cls) f.now then f.resendAll cls else f
/-- KEEPALIVE_LOSS (R364): 30 µs without an accepted message; the host die is declared unreachable. -/
def keepaliveLoss (f : Field) : Field :=
  if f.coreOn && (f.trn.st = .up || (f.trn.st = .down && f.mer.holdover)) && f.trn.tLast.toNat + 3000 ≤ f.now.toNat then
    ({ f with trn := { f.trn with losses := satAdd f.trn.losses 1 } }).retrain
  else f

/-! ### Training (R365, R317, R421, R488) -/

/-- Both sides discard what they keep and restart SEQ at 0 (R365); records go again from the event queue (R363). -/
def freshLink (f : Field) : Field :=
  { f with
    trn := { f.trn with ctl := Half.reset, dat := Half.reset, bulk := [], tunWait := [] },
    prt := { f.prt with
      block := [], pubLast := [], evq := tabMap EvQ.reset f.prt.evq (fun _ q => { q with q := q.q.map (fun r => { r with sent := none }) }) } }
/-- A lost behaviour lock takes the level of the host's TRAIN (R488). -/
def takeLevel (f : Field) (level : Byte) : Field :=
  let l : BitVec 4 := bits level 0 4
  if bit f.nvm.lost 1 && f.sec.bl = 0 && l ≠ 0 then
    ({ f with sec := { f.sec with bl := l, blForce := l, ucodeFail := !ucodeOk f.nvm.ucode l f.sec.life } }).imgStart 1 [l.setWidth 8]
  else f
/-- Each HOLDOVER event that the loss of Transit has held back (R317). -/
def tellHoldover (f : Field) : Field :=
  f.mer.holdOwed.foldl (fun (g : Field) t =>
    ([0, 1, 2, 3] : List Part).foldl (fun (g : Field) p => g.raiseAt p 0x38 0 t (le 8 t)) g) { f with mer := { f.mer with holdOwed := [] } }
/-- THM_RESTART after a THERMAL restart (R421). -/
def tellRestart (f : Field) : Field :=
  let r := f.lastThermal
  f.thmRecords [(0x56, [0, r.1] ++ le 2 r.2.1 ++ le 2 r.2.2 ++ [0, 0] ++ le 2 f.thm.shutCount)]
/-- Send what is queued for every partition. -/
def pumpAll (f : Field) : Field := ([0, 1, 2, 3] : List Part).foldl (fun (g : Field) p => g.pump p) f
/-- The level TRAIN carries. -/
def trainLevel (f : Field) : Byte := f.sec.bl.setWidth 8
/-- TRAIN as the field die sends it (R365). -/
def trainOut (f : Field) : Out :=
  msgOut true (f.trn.ctl.expect - 1) (0, { type := 0x06, part := 0x80, tag := 0, payload := trainPayload f.trn.fresh 0xFFF f.trainLevel })
/-- TRAIN at the field die (R365): the host die's FRESH, the lanes trained and its behaviour level. The exchange takes a TRAIN from
each die: where none of its own has gone out in this training, it goes first (log entry 117). -/
def trainRow (f : Field) (x : LinkHdr) (fresh : Bool) (masks : BitVec 12) (level : Byte) : Field :=
  let d : BitVec 10 := bits masks 0 10
  let c : BitVec 2 := bits masks 10 2
  if !f.coreOn || f.mer.holdover || f.trn.st = .down || !x.good then f
  else if !formOk x 0x06 true then f.countBad
  else if d = 0 || c = 0 then f
  else
    let own := f.trn.fresh
    let f0 := if f.trn.trainSent then f else f.emit f.trainOut
    let f1 := if fresh || own then f0.freshLink else f0
    let f2 := f1.takeLevel level
    let f3 := { f2 with trn := { f2.trn with
      st := .up, fresh := false, dataLanes := d, ctrlLanes := c, tLast := f2.now, trainSent := decide (f.trn.st = LinkState.up),
      ctl := { f2.trn.ctl with tSent := f2.now }, dat := { f2.trn.dat with tSent := f2.now } } }
    let f4 := (f3.resendMsgs true f3.trn.ctl.kept).resendMsgs false f3.trn.dat.kept
    let f5 := f4.fstate .trained (if own then f4.pwr.rstLast.setWidth 8 else 0) 0x80
    let f6 := if own && f5.pwr.rstLast = 5 then f5.tellRestart else f5
    (f6.tellHoldover.pumpAll).linkSteps
/-- TRAINING_REPEAT of the field die (R459): TRAIN goes out while training has not succeeded. -/
def trainingRepeat (f : Field) : Field :=
  if f.coreOn && !f.mer.holdover && f.trn.st = .train then
    ({ f with trn := { f.trn with trainSent := true } }).emit f.trainOut
  else f

/-! ### Device state from the host die (R377, R388, R418, R478, R482, R483, R491) -/

/-- RETURNED (R477 to R479): the safe state with reason SOFTWARE, every lane DISABLED, and the unconfirmed block. -/
def returned (f : Field) : Field :=
  let f1 := f.enterSafe 0x12 0 true
  let f2 := f1.lan.lane.foldl (fun (g : Field) e => g.laneOff (BitVec.ofNat 5 e.1)) f1
  if f2.saf.confirmed then (f2.unconfirm 0).imgStart 2 safNone else f2
/-- SEC_F_STATE as the host die writes it: lifecycle, commissioning state, and a level for the behaviour lock. Microcode that is not
signed for the new lifecycle state stops (R22). -/
def secState (f : Field) (v : Word) : Field :=
  let l : BitVec 3 := bits v 0 3
  let b : BitVec 4 := bits v 8 4
  let f1 := { f with sec := { f.sec with
    life := l, comm := bit v 3, ucodeFail := f.sec.ucodeFail || (f.sec.blForce ≠ 0 && !ucodeOk f.nvm.ucode f.sec.blForce l) } }
  let f2 := if b ≠ 0 && b ≠ f1.sec.bl then f1.imgStart 1 [b.setWidth 8] else f1
  if l = 4 && f.sec.life ≠ 4 then f2.returned else f2
/-- The TAP scope in force: without its bit 0 authorisation ends. -/
def dbgState (f : Field) (v : Word) : Field :=
  if bit v 0 then { f with sec := { f.sec with dbg := bits v 0 4 } } else f.debugEnd
/-- A thermal record of the host die: its type, site, reason and words. -/
def hostRecord (f : Field) (v : Word) : Field :=
  let ty : Byte := bits v 0 8
  let site : Byte := bits v 8 8
  if ty = 0x54 then f.thmRecords [(0x54, [1, site, bits v 16 8, 0] ++ le 2 (bits f.sec.recLo 0 16 : BitVec 16))]
  else if ty = 0x55 then f.thmRecords [(0x55, [1, site] ++ le 4 f.sec.recLo)]
  else if ty = 0x56 then f.thmRecords [(0x56, [1, site] ++ le 4 f.sec.recLo ++ [0, 0] ++ le 2 (bits f.sec.recHi 0 16 : BitVec 16))]
  else f
/-- A ring the host die has halted: RING_HALT for its partition (R395). -/
def ringHalt (f : Field) (v : Word) : Field :=
  f.raise (bits v 16 2) 0x3E 0 [bits v 0 8, bits v 8 8]
/-- A word of a partition's telemetry table: its base in two words, its first index, its count. -/
def tlmPut (t : Tlm) (k : Nat) (v : Word) : Tlm :=
  if k = 0 then { t with base := (t.base >>> 32).setWidth 32 ++ v }
  else if k = 1 then { t with base := v ++ (t.base.setWidth 32 : Word) }
  else if k = 2 then { t with first := bits v 0 17 }
  else { t with count := bits v 0 18 }
/-- Change what is held of a partition's telemetry table. -/
def modTlm (f : Field) (p : Part) (g : Tlm → Tlm) : Field :=
  { f with prt := { f.prt with tlm := tabSet Tlm.none f.prt.tlm p.toNat (g (tabGet Tlm.none f.prt.tlm p.toNat)) } }
/-- A TUN_WR with PART.DEVICE set, by offset (log entry 52). Security records of the host die and RING_HALT carry the Meridian count
of their arrival here, those held while Transit was down too: the host die has no Meridian to take R32's count from (log
entry 119). -/
def devWrite (f : Field) (o : Nat) (v : Word) : Field :=
  if 0x30200 ≤ o && o < 0x30210 && o % 4 = 0 then { f with prt := { f.prt with setup := tabSet 0 f.prt.setup ((o - 0x30200) / 4) v } }
  else if o = 0x30210 then ({ f with prt := { f.prt with hold := bits v 0 4 } }).pumpAll
  else if 0x30220 ≤ o && o < 0x30230 && o % 4 = 0 then
    ({ f with prt := { f.prt with block := tabSet 0 f.prt.block ((o - 0x30220) / 4) v } }).pumpAll
  else if 0x30240 ≤ o && o < 0x30280 && o % 4 = 0 then
    f.modTlm (BitVec.ofNat 2 ((o - 0x30240) / 16)) (fun t => tlmPut t ((o - 0x30240) % 16 / 4) v)
  else if o = 0x30318 then f.hostThermal v
  else if o = 0x3030C then { f with thm := { f.thm with hBroken := bits v 16 4 } }
  else if o = 0x30500 then f.secState v
  else if o = 0x30504 then f.dbgState v
  else if o = 0x30508 then f.ringHalt v
  else if o = 0x30510 then { f with sec := { f.sec with recLo := v } }
  else if o = 0x30514 then { f with sec := { f.sec with recHi := v } }
  else if o = 0x30518 then f.log (bits v 0 8) (le 4 f.sec.recLo ++ le 4 f.sec.recHi)
  else if o = 0x3051C then f.hostRecord v
  else f

/-! ### Image updates (R462 to R465) -/

/-- What an image in force brings: the level in the lock, or a safety block on its way (R440, R487). -/
def imageActs (f : Field) (item : Nat) (p : Bytes) : Field :=
  if item = 1 then { f with sec := { f.sec with bl := bits (u8 p 0) 0 4 } }
  else if item = 2 && f.saf.commit = some p then f.safCommitted p
  else f
/-- IMAGE_UPDATE of the field die: the first waiting update of an image is written to both copies. bad: a sector fails
verification twice, and a spare takes its place where one is left (R465). -/
def imageUpdate (f : Field) (item : Nat) (bad : Bool) : Field :=
  if !f.nvmOn then f
  else match takeUpd item f.nvm.upd with
    | none => f
    | some (u, rest) =>
      let f0 := { f with nvm := { f.nvm with upd := rest } }
      if bad && 32 ≤ f.nvm.spares.length then f0
      else
        let i := f0.img item
        let f1 := if bad then
            let s := 2 * item + i.first item
            ({ f0 with nvm := { f0.nvm with spares := f0.nvm.spares ++ [s] } }).retire s
          else f0
        let f2 := ((f1.setImg item (i.update item u.payload)).addErase (2 * item)).addErase (2 * item + 1)
        ({ f2 with nvm := { f2.nvm with lost := f2.nvm.lost &&& ~~~((1 : BitVec 4) <<< item) } }).imageActs item u.payload

/-! ### The messages -/

/-- CMD (R362). -/
def cmdRow (f : Field) (h : LinkHdr) (ring : BitVec 4) (desc : Bytes) : Field :=
  f.recv true 0x01 h (fun f => f.takeCmd (partOf h) h.tag ring desc)
/-- BULK (R362). -/
def bulkRow (f : Field) (h : LinkHdr) (off : Word) (data : Bytes) : Field :=
  f.recv false 0xC1 h (fun f => f.takeBulk h.tag off data)
/-- BULK_TIMEOUT (R362): 100 µs after the CMD the command completes with LINK_ERR. -/
def bulkTimeout (f : Field) (tag : BitVec 32) : Field :=
  match f.prt.busy.find? (fun b => b.linkTag = tag && !b.started) with
  | some b =>
    if f.bulkLate b then
      ((f.dropBulk tag).complete b.ref .linkErr 0).linkSteps
    else f
  | none => f
/-- TUN_RD (R368): with DEVICE, a read for the host die itself. -/
def tunRdRow (f : Field) (h : LinkHdr) (off : Word) : Field :=
  f.recv true 0x02 h (fun f =>
    if bit h.part 7 then (if f.sec.ucodeFail then f else (f.regRead 0 off.toNat).2.tunCpl h.part h.tag (f.regRead 0 off.toNat).1)
    else f.takeTun { part := partOf h, tag := h.tag, off := off, value := none })
/-- TUN_WR (R368, R377): with DEVICE, the sequencer takes device state from the host die, where it runs (R24, R486). -/
def tunWrRow (f : Field) (h : LinkHdr) (off v : Word) : Field :=
  f.recv true 0x03 h (fun f =>
    if bit h.part 7 then (if f.sec.ucodeFail then f else f.devWrite off.toNat v)
    else f.takeTun { part := partOf h, tag := h.tag, off := off, value := some v })
/-- PART_RST (R386): its steps begin; what has been accepted runs first. -/
def partRstRow (f : Field) (h : LinkHdr) : Field :=
  f.recv true 0x04 h (fun f => { f with prt := { f.prt with rstA := f.prt.rstA ||| (1 : BitVec 4) <<< (partOf h).toNat } })
/-- KEEPALIVE at the field die (R364). -/
def keepaliveRow (f : Field) (h : LinkHdr) : Field := f.recv true 0x05 h (fun f => f)

/-! ### The field TAP (R483 to R485) -/

/-- The TAP's private instructions are allowed: in BLANK, or within the authorised SCOPE; scope bit s. -/
def tapAllowed (f : Field) (s : Nat) : Bool := f.sec.life = 0 || (bit f.sec.dbg 0 && bit f.sec.dbg s)
/-- Run a register access with every role, for partition 0 (log entry 53). -/
def everyRole (f : Field) (g : Field → Field) : Field :=
  let old := tabGet 0 f.prt.setup 0
  let f1 := g { f with prt := { f.prt with setup := tabSet 0 f.prt.setup 0 (old ||| 7) } }
  { f1 with prt := { f1.prt with setup := tabSet 0 f1.prt.setup 0 old } }
/-- A TAP write: never a SAF register, and never an NVM image. -/
def tapWrite (f : Field) (o : Nat) (v : Word) : Field :=
  if 0x17000 ≤ o && o < 0x18000 then f
  else if isRwc o then (if f.sec.comm then f.rwcSet o v else f.logRwc (BitVec.ofNat 32 o) 0)
  else f.everyRole (fun g => g.regWrite 0 o v)
/-- An instruction through the field TAP (R484): in THERMAL-OFF none, in STANDBY the public ones. -/
def tapField (f : Field) (op : TapOp) : Field :=
  if f.pwr.st = .thermalOff then f
  else
    let f := { f with sec := { f.sec with extest := false } }
    match op with
    | .idcode => f.emit (.tap (idcode 0x8140))
    | .bypass => f
    | .sample => f
    | .read o => if f.coreOn && f.tapAllowed 0 then let r := f.regRead 0 o.toNat; r.2.emit (.tap r.1) else f
    | .write o v => if f.coreOn && f.tapAllowed 0 then f.tapWrite o.toNat v else f
    | .halt => if f.coreOn && f.tapAllowed 2 then { f with sec := { f.sec with halted := true } } else f
    | .resume => if f.coreOn && f.tapAllowed 2 then ({ f with sec := { f.sec with halted := false } }).linkSteps else f
    | .extest => if f.coreOn && (f.sec.life = 0 || (bit f.sec.dbg 0 && bit f.sec.dbg 3 && f.saf.safe)) then
        { f with sec := { f.sec with extest := true } } else f

/-- Codewords found uncorrectable within 1 ms of the last FIRN_UE event are told once it is over (R354). -/
def ueTick (f : Field) : Field := if f.coreOn then f.tellUe else f
/-- One tick of the field die: time passes for Meridian, the gate outputs, the lanes and what waits on the link (R310, R287, R309). -/
def tick (f : Field) : Field := ((((((f.merTick.deltaSigma).gateFall).injTick).offTick).ueTick).lanesTick).linkSteps

end Field
end Sys2Proof.Machine
end

