-- ==== Sys2Proof/Machine/StateHost.lean ====
section
/-! DEFINITION. The host die's state: its half of Transit (14), ports and partitions (15), rings and descriptors (16),
thermometry (17), power (19), NVM (20) and the security block (21). -/
namespace Sys2Proof.Machine

/-! ### Rings (16) -/

/-- A FENCE that waits (R403): its command, the rings waited for with the count of their entries that stand before it, and
the host tick at which it times out. -/
structure Fence where
  ref : CmdRef
  upTo : List (BitVec 4 × Nat)
  due : Option Count
  deriving DecidableEq, Repr

/-- A submission ring. -/
structure HSq where
  base : BitVec 64
  /-- SIZE_LOG2; 0 disabled. -/
  size : BitVec 5
  /-- SQ_HEAD, and SQ_TAIL of the last doorbell read. -/
  head : BitVec 16
  tail : BitVec 16
  halted : Bool
  /-- Entries fetched or passed over since the ring came up, for the order of R403. -/
  taken : Nat
  fence : Option Fence
  deriving DecidableEq, Repr
/-- A ring no one has set up. -/
def HSq.reset : HSq := { base := 0, size := 0, head := 0, tail := 0, halted := false, taken := 0, fence := none }

/-- A completion ring with its moderation (R401). -/
structure HCq where
  base : BitVec 64
  size : BitVec 5
  /-- CQ_TAIL, and CQ_HEAD of the last doorbell read. -/
  tail : BitVec 16
  head : BitVec 16
  phase : Bool
  halted : Bool
  vec : BitVec 6
  count : BitVec 8
  timer : BitVec 10
  /-- P of R401, and the host tick of the first record counted in it. -/
  p : Nat
  tP : Count
  deriving DecidableEq, Repr
/-- A ring no one has set up: COUNT 1. -/
def HCq.reset : HCq :=
  { base := 0, size := 0, tail := 0, head := 0, phase := true, halted := false, vec := 0, count := 1, timer := 0, p := 0, tP := 0 }

/-- How far a command in flight has come. -/
inductive Stage2 where
  /-- Its payload waits to be read: 32 requests of its port are out (R372). -/
  | queued
  /-- Its payload is being read (R362). -/
  | payload
  /-- Its payload is on its way, and a command before it in its ring still reads its own (R402). -/
  | ready
  /-- The field die has it, or will get it. -/
  | sent
  /-- A FENCE. -/
  | fence
  deriving DecidableEq, Repr

/-- A command fetched and not completed (R393). -/
structure InFlight where
  ref : CmdRef
  desc : Bytes
  /-- Its number among the entries taken from its ring. -/
  num : Nat
  stage : Stage2
  deriving DecidableEq, Repr

/-- A tunnelled access held by the host die (R369). -/
structure HTun where
  tag : BitVec 32
  off : Word
  /-- none: a read. -/
  value : Option Word
  sent : Bool
  /-- The host tick of the request. -/
  t : Count
  deriving DecidableEq, Repr

/-! ### Partitions (15, 16) -/

/-- An entry of the MSI-X table in BAR2: message address, message data, and the mask bit of its vector control. -/
structure Msix where
  addr : BitVec 64
  data : Word
  mask : Bool
  deriving DecidableEq, Repr
/-- An entry after reset: masked (R372, PCIe Base 3.0; log entry 118). -/
def Msix.reset : Msix := { addr := 0, data := 0, mask := true }

/-- What the host die keeps per partition: the port, its rings and its tunnel. -/
structure HPart where
  /-- HOST_PORT_STATUS. -/
  speed : BitVec 2
  width : BitVec 2
  d3 : Bool
  /-- The port's link is up; Bus Master Enable. -/
  linkUp : Bool
  bme : Bool
  /-- MSI-X Enable and Function Mask of the port's configuration space, the MSI-X table and the pending-bit array (R372, R374). -/
  msixOn : Bool
  msixMask : Bool
  msix : Tab Msix
  pba : BitVec 64
  /-- AER: an Unsupported Request is recorded as an advisory non-fatal error (R373). -/
  aerUr : Bool
  linkDowns : BitVec 8
  flrs : BitVec 8
  /-- A PART reset is in progress until FSTATE reports it done (R386). -/
  rstBusy : Bool
  dbBase : BitVec 64
  statBase : BitVec 64
  en : Bool
  route : Word
  lostQueue : BitVec 16
  lostDisabled : BitVec 16
  /-- LOST, POLLS and EVT_SEQ of the status page. -/
  lost : BitVec 32
  polls : BitVec 32
  evtSeq : BitVec 16
  /-- PSTATE.COLD_PENDING. -/
  coldPend : Bool
  sq : Tab HSq
  cq : Tab HCq
  inflight : List InFlight
  /-- The ring served last (R393). -/
  lastRing : BitVec 4
  /-- A doorbell read is out; the count of the last poll; a completion record was written since (R392). -/
  dbOut : Bool
  tPoll : Count
  dbAgain : Bool
  /-- Records that found no place (R393, R395), oldest first: the ring and the 32 bytes. -/
  waiting : List (BitVec 4 × Bytes)
  /-- What the field die has been told to hold back (log entry 54). -/
  block : Word
  /-- TRN_TUN_BASE.PAGE, TRN_TUN_ERR and the accesses held. -/
  page : BitVec 5
  tunTimeout : BitVec 16
  tunDropped : BitVec 16
  tun : List HTun
  tunNum : BitVec 16
  /-- PART_TLM registers. -/
  tlmBase : BitVec 64
  tlmFirst : BitVec 17
  tlmCount : BitVec 18
  tlmSkipped : BitVec 16
  /-- SEC_TOKEN and SEC_RESULT.LAST. -/
  token : Bytes
  result : BitVec 4
  deriving DecidableEq, Repr
/-- A partition after a host-die reset: its port's link is down. -/
def HPart.reset : HPart :=
  { speed := 0, width := 0, d3 := false, linkUp := false, bme := false, msixOn := false, msixMask := false, msix := [], pba := 0,
    aerUr := false, linkDowns := 0, flrs := 0, rstBusy := false, dbBase := 0,
    statBase := 0, en := false, route := 0, lostQueue := 0, lostDisabled := 0, lost := 0, polls := 0, evtSeq := 0, coldPend := true,
    sq := [], cq := [], inflight := [], lastRing := 15, dbOut := false, tPoll := 0, dbAgain := false, waiting := [], block := 0, page := 0,
    tunTimeout := 0, tunDropped := 0, tun := [], tunNum := 0, tlmBase := 0, tlmFirst := 0, tlmCount := 0, tlmSkipped := 0,
    token := [], result := 0 }

/-! ### Transit, host half (14) -/

/-- A data-class message that has been accepted and waits for the FSTATE of a FRESH training (R520; log entry 55). -/
inductive HeldMsg where
  | cpl (p : Part) (ring : BitVec 4) (b : Bytes)
  | evt (p : Part) (recs : List Bytes)
  | hwrite (p : Part) (addr : BitVec 64) (data : Bytes)
  deriving DecidableEq, Repr

/-- Transit as the host die sees it. -/
structure HTrn where
  ctl : Half
  dat : Half
  st : LinkState
  fresh : Bool
  /-- LAST_FRESH and the lanes trained (TRN_STATUS). -/
  lastFresh : Bool
  /-- The field die was FRESH at the last training and its FSTATE has not come yet (R520; log entry 55). -/
  fstWait : Bool
  /-- What has arrived in the data class meanwhile, oldest first. -/
  held : List HeldMsg
  dataLanes : BitVec 10
  ctrlLanes : BitVec 2
  corrected : BitVec 16
  resends : BitVec 8
  retrains : BitVec 4
  badMsg : BitVec 4
  /-- A training has completed since the host die's reset. -/
  trained : Bool
  tLast : Count
  /-- The count of the last KEEPALIVE sent. -/
  tKeep : Count
  /-- PART_RST messages owed at the next training (R386, R456). -/
  owed : BitVec 4
  /-- Device writes owed at the next training: RING_HALT and host records. -/
  devOwed : List (Word × Word)
  /-- The interval of CMP1 as last read from the field die, in ticks (16, polling). -/
  pollItv : Word
  /-- HOST_IDENT.FIELD_UP. -/
  fieldUp : Bool
  /-- TRAIN has gone out in the running training (R365). -/
  trainSent : Bool
  /-- The wake signal is sent: the tick of its start, and whether training has started since (R367). -/
  wake : Option (Count × Bool)
  deriving DecidableEq, Repr
/-- Transit after a host-die reset: DOWN (TRN_STATUS); its first TRAIN starts training. -/
def HTrn.reset : HTrn :=
  { ctl := Half.reset, dat := Half.reset, st := .down, fresh := true, lastFresh := false, fstWait := false, held := [], dataLanes := 0, ctrlLanes := 0,
    corrected := 0, resends := 0, retrains := 0, badMsg := 0, trained := false, tLast := 0, tKeep := 0, owed := 0xF, devOwed := [],
    pollItv := 400, fieldUp := false, trainSent := false, wake := none }

/-! ### Security (21) -/

/-- The actions that end with an image update (R478, R487). -/
inductive SecAct where
  | setOwner | field | sealed | ret | setBl (level : BitVec 4)
  deriving DecidableEq, Repr

/-- The security block. -/
structure HSec where
  life : BitVec 3
  bl : BitVec 4
  /-- The enrolled owner key; none enrolled. -/
  owner : Option Bytes
  keyLost : Bool
  /-- The commissioning state: the host tick at which it closes, and the partition that opened it. -/
  comm : Option (Count × Part)
  /-- Debug authorisation of each TAP: the tick at which it ends, and its SCOPE; 0: not authorised. -/
  dbgDueF : Count
  dbgDueH : Count
  dbgF : BitVec 4
  dbgH : BitVec 4
  /-- The challenge in force, by its draw, and the tick at which it was set (R475). -/
  chal : Nat
  tChal : Count
  /-- The refusal run, and the tick at which a lock-out ends (R476). -/
  run : Nat
  lockEnd : Option Count
  /-- The action that waits for its image, and the partition that started it. -/
  busy : Option (Part × SecAct)
  accepted : BitVec 16
  refused : BitVec 8
  logDrop : BitVec 8
  /-- Records held while Transit is down, at most 16 (R491). -/
  log : List (Byte × Bytes)
  extest : Bool
  deriving DecidableEq, Repr

/-! ### NVM and power of the host die (19, 20) -/

/-- The host NVM (R461): identity and keys, lifecycle, set-up, security counters. -/
structure HNvm where
  ident : Img
  life : Img
  setup : Img
  count : Img
  upd : List ImgUpd
  lost : BitVec 4
  spares : BitVec 3
  deriving DecidableEq, Repr
/-- PART_SETUP's values at their Reset column (15). -/
def setupDefault : List Word := [0x02000007, 0, 0, 0]
/-- The partition set-up as its image holds it. -/
def setupBytes (l : List Word) : Bytes := (l.map (fun w => le 4 w)).flatten
/-- The host NVM of a part as shipped: BLANK at BL1, no owner key (21). -/
def HNvm.reset : HNvm :=
  { ident := Img.both 0 [0], life := Img.both 1 [0, 1], setup := Img.both 2 (setupBytes setupDefault), count := Img.both 3 [0, 0, 0, 0],
    upd := [], lost := 0, spares := 0 }

/-- Host power states (19, R454), with a warm reset and the thermal shutdown (R418). -/
inductive HState where
  | run | standby | reset | off
  deriving DecidableEq, Repr

/-- The host die. -/
structure HDie where
  /-- REFCLK_H ticks of 10 ns. -/
  t : Count
  st : HState
  /-- A warm reset: its kind and the tick at which it ends at the earliest (R455). -/
  warm : Option (RstKind × Count)
  auto : Bool
  lastRst : BitVec 3
  stbyEntries : BitVec 8
  fieldStby : Bool
  /-- The tick since which no port has served. -/
  idleAt : Count
  trn : HTrn
  part : Tab HPart
  /-- PART_SETUP in force. -/
  setup : List Word
  sec : HSec
  thm : Thm
  /-- The tick of the next demand of the host sites (R407). -/
  tDemand : Count
  /-- Site and readings of a thermal shutdown, for THM_RESTART after it (R421). -/
  thmCause : Option (Byte × BitVec 16 × BitVec 16)
  nvm : HNvm
  /-- What the die has sent to its ports and its half of Transit, in order. -/
  out : List Out
  deriving DecidableEq, Repr

/-- The security block of a start whose images give the lifecycle, level, key and refusal run. -/
def HSec.start (life : BitVec 3) (bl : BitVec 4) (owner : Option Bytes) (chal run : Nat) (accepted : BitVec 16) (t : Count)
    (lock : Bool) : HSec :=
  { life := life, bl := bl, owner := owner, keyLost := false, comm := none, dbgDueF := 0, dbgDueH := 0, dbgF := 0, dbgH := 0, chal := chal,
    tChal := t, run := run, lockEnd := if lock then some (t + 6000000000) else none, busy := none, accepted := accepted, refused := 0,
    logDrop := 0, log := [], extest := false }
/-- The host die after its first POR, as shipped. -/
def HDie.reset : HDie :=
  { t := 0, st := .run, warm := none, auto := false, lastRst := 0, stbyEntries := 0, fieldStby := false, idleAt := 0,
    trn := HTrn.reset, part := [], setup := setupDefault, sec := HSec.start 0 1 none 0 0 0 0 false, thm := Thm.reset, tDemand := 25000, thmCause := none,
    nvm := HNvm.reset, out := [] }

end Sys2Proof.Machine
end

