-- ==== Sys2Proof/Machine/HostOps.lean ====
section
/-! DEFINITION. The host die's named operations: partitions and ports, Transit sending, log records, the rings and their
records (14 to 16, 21). -/
namespace Sys2Proof.Machine
namespace HDie

/-- A partition. -/
def hp (h : HDie) (p : Part) : HPart := tabGet HPart.reset h.part p.toNat
/-- Write a partition. -/
def setHp (h : HDie) (p : Part) (v : HPart) : HDie := { h with part := tabSet HPart.reset h.part p.toNat v }
/-- Change a partition. -/
def modHp (h : HDie) (p : Part) (g : HPart → HPart) : HDie := h.setHp p (g (h.hp p))
/-- Send something out of the die. -/
def emit (h : HDie) (o : Out) : HDie := { h with out := h.out ++ [o] }
/-- Every partition. -/
def parts : List Part := [0, 1, 2, 3]
/-- Apply g for every partition. -/
def forParts (h : HDie) (g : HDie → Part → HDie) : HDie := parts.foldl g h
/-- The roles in force of a partition (R375). -/
def roles (h : HDie) (p : Part) : BitVec 3 := bits (h.setup.getD p.toNat 0) 0 3
/-- OPERATOR or COMMISSIONER. -/
def operates (h : HDie) (p : Part) : Bool := bit (h.roles p) 0 || bit (h.roles p) 2
/-- The port serves its partition (R385). -/
def serves (v : HPart) : Bool := v.linkUp && v.bme && !v.d3 && !v.rstBusy
/-- The host die's core runs. -/
def on (h : HDie) : Bool := h.st = .run
/-- The host die's half of Transit is powered: in host RUN and host STANDBY (R454). -/
def linkOn (h : HDie) : Bool := h.st = .run || h.st = .standby

/-! ### Transit (14) -/

/-- Send a control-class message. -/
def sendCtl (h : HDie) (m : Msg) : HDie :=
  let r := Field.sendHalf h.trn.ctl m h.t
  let h1 := { h with trn := { h.trn with ctl := r.1 } }
  if h.trn.st = .up then h1.emit (msgOut true (r.1.expect - 1) (r.2, m)) else h1
/-- Send a data-class message. -/
def sendDat (h : HDie) (m : Msg) : HDie :=
  let r := Field.sendHalf h.trn.dat m h.t
  let h1 := { h with trn := { h.trn with dat := r.1 } }
  if h.trn.st = .up then h1.emit (msgOut false (r.1.expect - 1) (r.2, m)) else h1
/-- A TUN_WR with PART.DEVICE set (R377). -/
def devWr (h : HDie) (off v : Word) : HDie :=
  h.sendCtl { type := 0x03, part := 0x80, tag := 0, payload := le 4 off ++ le 4 v }
/-- A TUN_RD with PART.DEVICE set. -/
def devRd (h : HDie) (tag : BitVec 32) (off : Word) : HDie :=
  h.sendCtl { type := 0x02, part := 0x80, tag := tag, payload := le 4 off }
/-- Device writes that must not be lost: at once where the link is up, else after the next training. -/
def devKeep (h : HDie) (ws : List (Word × Word)) : HDie :=
  if h.trn.st = .up then ws.foldl (fun (g : HDie) w => g.devWr w.1 w.2) h
  else { h with trn := { h.trn with devOwed := h.trn.devOwed ++ ws } }
/-- The three writes that carry a log record of the host die (R491). -/
def recWrites (ty : Byte) (body : Bytes) : List (Word × Word) :=
  [(0x30510, u32 body 0), (0x30514, u32 body 4), (0x30518, ty.setWidth 32)]
/-- Write a log record: while Transit is down at most 16 wait, and the oldest beyond them is dropped and counted (R491). -/
def log (h : HDie) (ty : Byte) (body : Bytes) : HDie :=
  if h.trn.st = .up then (recWrites ty body).foldl (fun (g : HDie) w => g.devWr w.1 w.2) h
  else
    let l := h.sec.log ++ [(ty, body)]
    if 16 < l.length then { h with sec := { h.sec with log := l.drop 1, logDrop := satAdd h.sec.logDrop 1 } }
    else { h with sec := { h.sec with log := l } }
/-- SEC_F_STATE as the field die is told it; level 0 leaves its lock as it is. -/
def secWord (h : HDie) (level : BitVec 4) : Word := Field.word [fld h.sec.life 0, flag h.sec.comm.isSome 3, fld level 8]
/-- Tell the field die lifecycle, commissioning state and lock level (R482, R478). -/
def tellSec (h : HDie) (level : BitVec 4) : HDie := if h.trn.st = .up then h.devWr 0x30500 (h.secWord level) else h
/-- Tell the field die the TAP scope in force (R483). -/
def tellDbg (h : HDie) : HDie := if h.trn.st = .up then h.devWr 0x30504 (fld h.sec.dbgF 0) else h
/-- PART_F_HOLD's bits: ports that do not serve for a reason other than a PART reset (R388). -/
def holdBits (h : HDie) : Word :=
  Field.maskOf (fun n => let v := h.hp (BitVec.ofNat 2 n); !v.rstBusy && v.linkUp && (v.d3 || !v.bme)) 4
/-- Tell the field die which deliveries are held. -/
def tellHold (h : HDie) : HDie := if h.trn.st = .up then h.devWr 0x30210 h.holdBits else h

/-! ### The status page and records (R391, R397 to R401) -/

/-- Write bytes of the status page of a partition that has given one. -/
def statWr (h : HDie) (p : Part) (off : Nat) (b : Bytes) : HDie :=
  let a := (h.hp p).statBase
  if a = 0 then h else h.emit (.hostWrite p (a + BitVec.ofNat 64 off) b)
/-- ST[n]. -/
def statRing (h : HDie) (p : Part) (n : BitVec 4) : HDie :=
  let v := h.hp p
  h.statWr p (4 * n.toNat) (le 2 (tabGet HSq.reset v.sq n.toNat).head ++ le 2 (tabGet HCq.reset v.cq n.toNat).tail)
/-- PSTATE. -/
def statPstate (h : HDie) (p : Part) : HDie :=
  h.statWr p 76 (le 4 (flag h.trn.fieldUp 0 ||| flag (h.hp p).coldPend 1))
/-- EVT_SEQ with its reserved half. -/
def statEvt (h : HDie) (p : Part) : HDie := h.statWr p 68 (le 2 (h.hp p).evtSeq ++ [0, 0])
/-- A submission ring. -/
def sq (h : HDie) (p : Part) (n : BitVec 4) : HSq := tabGet HSq.reset (h.hp p).sq n.toNat
/-- A completion ring. -/
def cq (h : HDie) (p : Part) (n : BitVec 4) : HCq := tabGet HCq.reset (h.hp p).cq n.toNat
/-- Write a submission ring. -/
def setSq (h : HDie) (p : Part) (n : BitVec 4) (v : HSq) : HDie := h.modHp p (fun w => { w with sq := tabSet HSq.reset w.sq n.toNat v })
/-- Write a completion ring. -/
def setCq (h : HDie) (p : Part) (n : BitVec 4) (v : HCq) : HDie := h.modHp p (fun w => { w with cq := tabSet HCq.reset w.cq n.toNat v })
/-- N of a ring. -/
def ringN (size : BitVec 5) : Nat := if size = 0 then 0 else 2 ^ size.toNat
/-- Entries from index a up to index b of a ring of n entries. -/
def ringGap (n : Nat) (a b : BitVec 16) : Nat := if n = 0 then 0 else (b.toNat + n - a.toNat % n) % n
/-- Places reserved in a completion ring: one per command in flight of its pair (R393). -/
def reserved (h : HDie) (p : Part) (n : BitVec 4) : Nat := (h.hp p).inflight.countP (fun c => c.ref.ring = n)
/-- Places of a completion ring that no record and no command takes (R389, R393). -/
def places (h : HDie) (p : Part) (n : BitVec 4) : Nat :=
  let c := h.cq p n
  ringN c.size - 1 - ringGap (ringN c.size) c.head c.tail - h.reserved p n
/-- A record with PHASE. -/
def withPhase (b : Bytes) (ph : Bool) : Bytes := listSet b 1 (u8 b 1 ||| (if ph then 1 else 0))
/-- A vector's message goes out, or stays pending where the vector or the function is masked; none while MSI-X is not enabled
(R401; log entry 118). -/
def sendMsix (h : HDie) (p : Part) (vec : BitVec 6) : HDie :=
  let v := h.hp p
  let e := tabGet Msix.reset v.msix vec.toNat
  if !v.msixOn then h
  else if v.msixMask || e.mask then h.setHp p { v with pba := v.pba ||| (1 : BitVec 64) <<< vec.toNat }
  else (h.setHp p { v with pba := v.pba &&& ~~~((1 : BitVec 64) <<< vec.toNat) }).emit (.msix p vec e.addr e.data)
/-- Pending vectors that are no longer masked send their messages. -/
def msixUnmasked (h : HDie) (p : Part) : HDie :=
  (List.range 64).foldl (fun (g : HDie) i =>
    let v := g.hp p
    if bit v.pba i && v.msixOn && !v.msixMask && !(tabGet Msix.reset v.msix i).mask then g.sendMsix p (BitVec.ofNat 6 i) else g) h
/-- Count a record for moderation and send the message that falls due (R401). -/
def moderate (h : HDie) (p : Part) (n : BitVec 4) : HDie :=
  let c := h.cq p n
  let c1 := { c with p := c.p + 1, tP := if c.p = 0 then h.t else c.tP }
  if c1.count ≠ 0 && c1.count.toNat ≤ c1.p then (h.setCq p n { c1 with p := 0 }).sendMsix p c1.vec else h.setCq p n c1
/-- Write a record to a completion ring: the record, the status page, then any message (R398). -/
def putRecord (h : HDie) (p : Part) (n : BitVec 4) (b : Bytes) : HDie :=
  let c := h.cq p n
  let N := ringN c.size
  let t : BitVec 16 := if c.tail.toNat + 1 = N then 0 else c.tail + 1
  let h1 := h.emit (.hostWrite p (c.base + BitVec.ofNat 64 (32 * c.tail.toNat)) (withPhase b c.phase))
  let h2 := (h1.setCq p n { c with tail := t, phase := if t = 0 then !c.phase else c.phase }).modHp p (fun w => { w with dbAgain := w.dbAgain || u8 b 0 = 1 })
  (h2.statRing p n).moderate p n
/-- What the field die is to hold back: classes whose ring has no place or is halted, and halted rings (R393, R395). -/
def blockWord (h : HDie) (p : Part) : Word :=
  let v := h.hp p
  let cls (c : Nat) : Bool :=
    let n : BitVec 4 := bits v.route (4 * c) 4
    (h.cq p n).size ≠ 0 && ((h.cq p n).halted || h.places p n = 0)
  Field.maskOf (fun i => if i < 8 then cls i else decide (16 ≤ i) && (h.cq p (BitVec.ofNat 4 (i - 16))).halted) 32
/-- Tell the field die a change of that. -/
def syncBlock (h : HDie) (p : Part) : HDie :=
  let b := h.blockWord p
  if b = (h.hp p).block || h.trn.st ≠ .up then h
  else (h.modHp p (fun w => { w with block := b })).devWr (0x30220 + 4 * p.setWidth 32) b
/-- A record for a ring that is disabled is discarded and counted (R399). -/
def lostDisabled (h : HDie) (p : Part) : HDie := h.modHp p (fun w => { w with lostDisabled := satAdd w.lostDisabled 1 })
/-- An event record is written: EVT_SEQ follows it (16, status page). -/
def putEvent (h : HDie) (p : Part) (n : BitVec 4) (b : Bytes) : HDie :=
  ((h.modHp p (fun w => { w with evtSeq := u16 b 2 + 1 })).statEvt p).putRecord p n b
/-- A completion record for a ring: discarded where the ring is disabled, waiting where it is halted. -/
def toRing (h : HDie) (p : Part) (n : BitVec 4) (b : Bytes) : HDie :=
  let c := h.cq p n
  if c.size = 0 then h.lostDisabled p
  else if c.halted then h.modHp p (fun w => { w with waiting := w.waiting ++ [(n, b)] })
  else h.putRecord p n b
/-- The completion record the host die makes: T_DONE 0 (16, completion record). -/
def hostCpl (r : CmdRef) (s : Status) (detail : Nat) : Bytes :=
  Field.cplBytes { ref := r, status := s.code, detail := BitVec.ofNat 32 detail, noChange := false, handle := r.handle, tDone := 0 }
/-- A command in flight completes with a record: it leaves its place, and a QUIET command that ends OK writes nothing. -/
def finish (h : HDie) (r : CmdRef) (b : Bytes) : HDie :=
  let h1 := h.modHp r.part (fun w => { w with inflight := w.inflight.filter (fun c => c.ref ≠ r) })
  if r.quiet && u16 b 6 = 0 then h1 else h1.toRing r.part r.ring b
/-- The host die completes a command itself. -/
def complete (h : HDie) (r : CmdRef) (s : Status) (detail : Nat) : HDie := h.finish r (hostCpl r s detail)
/-- Write the records that waited for a place, oldest first, where there is one now (R393, R395). -/
def drain (h : HDie) (p : Part) : HDie :=
  (h.hp p).waiting.foldl (fun (g : HDie) e =>
    let c := g.cq p e.1
    let evt := u8 e.2 0 ≠ 1
    if c.size = 0 then g.lostDisabled p
    else if c.halted || (evt && g.places p e.1 = 0) then g.modHp p (fun w => { w with waiting := w.waiting ++ [e] })
    else if evt then g.putEvent p e.1 e.2 else g.putRecord p e.1 e.2) (h.modHp p (fun w => { w with waiting := [] }))
/-- An event record of a partition, to the ring of its class (R399). OVERFLOW carries the discards of R400. -/
def deliverEvt (h : HDie) (p : Part) (b : Bytes) : HDie :=
  let n : BitVec 4 := bits (h.hp p).route (4 * Field.evtClass (u8 b 0)) 4
  let h1 := if u8 b 0 = 0x3D then
      let k := leNat b 16 4
      let g := h.modHp p (fun w => { w with lostQueue := satAdd w.lostQueue k, lost := satAdd w.lost k })
      g.statWr p 72 (le 4 (g.hp p).lost)
    else h
  if (h1.cq p n).size = 0 then h1.lostDisabled p
  else if (h1.cq p n).halted || h1.places p n = 0 || (h1.hp p).waiting.any (fun e => e.1 = n) then
    h1.modHp p (fun w => { w with waiting := w.waiting ++ [(n, b)] })
  else h1.putEvent p n b

/-! ### PART resets and ports (R385, R386, R388, R454) -/

/-- No port serves from now on: host STANDBY counts from here (R454). -/
def noteIdle (h : HDie) : HDie := if parts.any (fun p => serves (h.hp p)) then { h with idleAt := h.t } else h
/-- PART_RST goes out, or is owed to the next training (R386). -/
def sendRst (h : HDie) (p : Part) : HDie :=
  if h.trn.st = .up then h.sendCtl { type := 0x04, part := p.setWidth 8, tag := 0, payload := [] }
  else { h with trn := { h.trn with owed := h.trn.owed ||| (1 : BitVec 4) <<< p.toNat } }
/-- Steps 1 to 3 of R386: the partition's T fields go, SPEED and WIDTH among them, its rings and outstanding requests with them,
and its configuration space, in which AER's status is sticky (R385; log entry 118). up: the link stays (FLR). -/
def clearPart (v : HPart) (up : Bool) : HPart :=
  { HPart.reset with linkDowns := v.linkDowns, flrs := v.flrs, coldPend := v.coldPend, rstBusy := true, linkUp := up && v.linkUp,
                     aerUr := v.aerUr }

end HDie
end Sys2Proof.Machine
end

