-- ==== Sys2Proof/Machine/HostRings.lean ====
section
/-! DEFINITION. Doorbells, descriptor fetch, FENCE, delivery and moderation at the host die (16). -/
namespace Sys2Proof.Machine
namespace HDie

/-! ### Descriptor checks A and B (R12, R405) -/

/-- The operand fields of an opcode: offset, size in bytes and stated bits; none: the opcode does not exist. BIND's stated
bits follow KIND. -/
def operandFields (op : Byte) : Option (List (Nat × Nat × Nat)) :=
  let rd : List (Nat × Nat × Nat) := [(16, 8, 64), (24, 4, 32)]
  match op.toNat with
  | 0x00 => some []
  | 0x01 => some [(16, 2, 16), (20, 4, 32)]
  | 0x10 => some [(16, 1, 2), (17, 1, 3), (18, 2, 12), (20, 4, 32), (24, 4, 17), (28, 4, 32), (32, 4, 24), (36, 2, 16), (40, 4, 32), (44, 4, 32)]
  | 0x11 => some []
  | 0x12 => some [(16, 1, 4), (17, 1, 1), (18, 2, 12), (20, 4, 32), (32, 4, 24), (36, 2, 16), (44, 4, 32)]
  | 0x13 => some [(16, 1, 1)]
  | 0x14 => some []
  | 0x15 => some []
  | 0x16 => some [(16, 1, 2), (17, 1, 3), (18, 1, 1)]
  | 0x20 => some rd
  | 0x21 => some (rd ++ [(28, 4, 17)])
  | 0x22 => some (rd ++ [(28, 2, 16)])
  | 0x23 => some rd
  | 0x24 => some (rd ++ [(28, 1, 1)])
  | 0x25 => some (rd ++ [(28, 2, 16), (30, 2, 16)])
  | 0x26 => some (rd ++ [(28, 2, 16), (32, 4, 32)])
  | 0x27 => some (rd ++ [(28, 1, 8)])
  | 0x30 => some (rd ++ [(28, 2, 16)])
  | 0x31 => some (rd ++ [(28, 1, 8)])
  | 0x32 => some rd
  | 0x33 => some []
  | 0x40 => some [(16, 8, 64), (24, 8, 64)]
  | 0x41 => some []
  | 0x42 => some [(16, 2, 16), (18, 2, 16)]
  | 0x43 => some [(16, 2, 16)]
  | _ => none
/-- The stated bits of the byte at an offset of the operands. -/
def statedByte (fs : List (Nat × Nat × Nat)) (o : Nat) : Byte :=
  match fs.find? (fun e => e.1 ≤ o && o < e.1 + e.2.1) with
  | some e => BitVec.ofNat 8 (2 ^ min 8 (e.2.2 - 8 * (o - e.1)) - 1)
  | none => 0
/-- Check B: the first byte that holds a reserved bit (R12). -/
def badByte (fs : List (Nat × Nat × Nat)) (d : Bytes) : Option Nat :=
  let bad (o : Nat) : Bool :=
    if o = 0 || (4 ≤ o && o < 16) then false
    else if o = 1 then (u8 d 1 &&& 0xFE) ≠ 0
    else if o < 4 then u8 d o ≠ 0
    else (u8 d o &&& ~~~ statedByte fs o) ≠ 0
      || (u8 d 0 = 0x10 && decide (Field.bindBad (Kind.ofCode (bits (u8 d 16) 0 2 : BitVec 2).toNat) (u32 d 28) = some o))
  firstNat bad 0 64

/-! ### FENCE (R403) -/

/-- Entries of ring s that stand before its recorded tail, as numbers of entries taken. -/
def tailNum (h : HDie) (p : Part) (s : BitVec 4) : Nat := (h.sq p s).taken + ringGap (ringN (h.sq p s).size) (h.sq p s).head (h.sq p s).tail
/-- A FENCE whose entry of its ring has the given number records what it waits for. -/
def fenceAt (h : HDie) (r : CmdRef) (num : Nat) (mask : BitVec 16) (timeout : Word) : HDie :=
  let ups : List (BitVec 4 × Nat) := (List.range 16).filterMap (fun i =>
    let s : BitVec 4 := BitVec.ofNat 4 i
    if s = r.ring then none else if bit mask i then some (s, h.tailNum r.part s) else none)
  let f : Fence := { ref := r, upTo := (r.ring, num) :: ups,
                     due := if timeout = 0 then none else some (h.t + timeout.setWidth 64 * 100) }
  h.setSq r.part r.ring { h.sq r.part r.ring with fence := some f }
/-- The number of the entry at an index of a ring that has been taken. -/
def entryNum (q : HSq) (pos : BitVec 16) : Nat := q.taken - ringGap (ringN q.size) pos q.head
/-- Is ring s still waited for, up to entry number n? Its fetched commands before n, completion records of such commands that wait for
a halted ring, and, while it is enabled and not halted, its entries before n not fetched yet. own: the FENCE's ring. -/
def fenceWaits (h : HDie) (p : Part) (own : BitVec 4) (e : BitVec 4 × Nat) : Bool :=
  let q := h.sq p e.1
  (h.hp p).inflight.any (fun c => c.ref.ring = e.1 && decide (c.num < e.2))
    || (h.hp p).waiting.any (fun w => w.1 = e.1 && u8 w.2 0 = 1 && decide (entryNum q (u16 w.2 2) < e.2))
    || (e.1 ≠ own && q.size ≠ 0 && !q.halted && decide (q.taken < e.2))
/-- The mask of the rings a FENCE still waits for. -/
def fenceMask (h : HDie) (p : Part) (f : Fence) : Nat :=
  (f.upTo.filter (fun e => h.fenceWaits p f.ref.ring e)).foldl (fun n e => n + 2 ^ e.1.toNat) 0
/-- A FENCE ends: its ring proceeds, and its completion is written. -/
def fenceEnd (h : HDie) (f : Fence) (s : Status) (detail : Nat) : HDie :=
  (h.setSq f.ref.part f.ref.ring { h.sq f.ref.part f.ref.ring with fence := none }).complete f.ref s detail
/-- FENCE_COMPLETE of ring n (R403, rule 2). -/
def fenceComplete (h : HDie) (p : Part) (n : BitVec 4) : HDie :=
  match (h.sq p n).fence with
  | some f => if h.on && h.fenceMask p f = 0 then h.fenceEnd f .ok 0 else h
  | none => h
/-- FENCE_TIMEOUT of ring n (R403, rule 5). -/
def fenceTimeout (h : HDie) (p : Part) (n : BitVec 4) : HDie :=
  match (h.sq p n).fence with
  | some f => match f.due with
    | some t => if h.on && t ≤ h.t && h.fenceMask p f ≠ 0 then h.fenceEnd f .fenceTimeout (h.fenceMask p f) else h
    | none => h
  | none => h

/-! ### Taking a descriptor (R393, R402, R405) -/

/-- The CMD message of a descriptor. -/
def cmdMsg (r : CmdRef) (d : Bytes) : Msg :=
  { type := 0x01, part := r.part.setWidth 8, tag := tagOf r.part r.ring r.sqPos, payload := [r.ring.setWidth 8, 0, 0, 0] ++ d }
/-- The BULK messages of a payload, at most 480 bytes each. n bounds them. -/
def sendBulk (r : CmdRef) (off : Nat) : Nat → Bytes → HDie → HDie
  | 0, _, h => h
  | n + 1, b, h =>
    if b = [] then h
    else sendBulk r (off + 480) n (b.drop 480)
      (h.sendDat { type := 0xC1, part := r.part.setWidth 8, tag := tagOf r.part r.ring r.sqPos, payload := toLe off 4 ++ b.take 480 })
/-- Something before command c in its ring has not been sent. -/
def unsentBefore (v : HPart) (c : InFlight) : Bool :=
  v.inflight.any (fun e => e.ref.ring = c.ref.ring && decide (e.num < c.num) && (e.stage = .queued || e.stage = .payload || e.stage = .ready))
/-- Send the CMD of each ready command that nothing before it in its ring holds back. -/
def flushReady (h : HDie) (p : Part) : HDie :=
  ((h.hp p).inflight.filter (fun c => c.stage = .ready)).foldl (fun (g : HDie) c =>
    if unsentBefore (g.hp p) c then g
    else (g.modHp p (fun w => { w with inflight := w.inflight.map (fun (e : InFlight) => if e.ref = c.ref then { e with stage := Stage2.sent } else e) })).sendCtl
      (cmdMsg c.ref c.desc)) h
/-- A command is in flight. -/
def addFlight (h : HDie) (r : CmdRef) (d : Bytes) (num : Nat) (st : Stage2) : HDie :=
  h.modHp r.part (fun w => { w with inflight := w.inflight ++ [{ ref := r, desc := d, num := num, stage := st }] })
/-- Non-posted requests of a port that are out: the doorbell read, and one per payload being read, whose requests of 512 B go one
after another (R372; log entry 118). -/
def requestsOut (v : HPart) : Nat := (if v.dbOut then 1 else 0) + v.inflight.countP (fun c => c.stage = .payload)
/-- Start the payload reads that wait, in order, while fewer than 32 requests are out. -/
def startReads (h : HDie) (p : Part) : HDie :=
  ((h.hp p).inflight.filter (fun c => c.stage = .queued)).foldl (fun (g : HDie) c =>
    if 32 ≤ requestsOut (g.hp p) then g
    else (g.modHp p (fun w => { w with inflight := w.inflight.map (fun (e : InFlight) => if e.ref = c.ref then { e with stage := Stage2.payload } else e) })).emit
      (.hostRead p (u64 c.desc 16) (leNat c.desc 24 4))) h
/-- What a fetched descriptor brings: checks A and B, BLANK (21, lifecycle), FENCE, a payload to read, or the CMD. -/
def takeDesc (h : HDie) (r : CmdRef) (d : Bytes) (num : Nat) : HDie :=
  let h1 := h.addFlight r d num .fence
  match operandFields r.opcode with
  | none => h1.complete r .badOpcode 0
  | some fs => match badByte fs d with
    | some o => h1.complete r .badDesc o
    | none =>
      if h.sec.life = 0 then h1.complete r (if r.opcode = 0 then .ok else .role) 0
      else if r.opcode = 1 then h1.fenceAt r num (u16 d 16) (u32 d 20)
      else if Field.carriesBulk r.opcode then (h.addFlight r d num .queued).startReads r.part
      else (h.addFlight r d num .ready).flushReady r.part
/-- FENCE as a command of its own: the entry is the next of its ring. -/
def fenceCmd (h : HDie) (c : CmdHdr) (mask : BitVec 16) (timeout : Word) : HDie :=
  let r := Field.refOf c 0x01
  let q := h.sq c.part c.ring
  if h.on && h.trn.fieldUp && h.roles c.part ≠ 0 && q.fence.isNone && decide ((h.hp c.part).inflight.length < 64)
      && decide (0 < h.places c.part c.ring) then
    let h1 := (h.setSq c.part c.ring { q with taken := q.taken + 1 }).addFlight r [] q.taken .fence
    if h.sec.life = 0 then h1.complete r .role 0 else h1.fenceAt r q.taken mask timeout
  else h

/-! ### Doorbells and fetching (R392 to R395) -/

/-- DOORBELL_POLL: at the poll interval, or once more after a record was written, one read of the doorbell page goes out (R392). -/
def doorbellPoll (h : HDie) (p : Part) : HDie :=
  let v := h.hp p
  let due : Bool := decide (v.tPoll.toNat + h.trn.pollItv.toNat ≤ h.t.toNat)
  if h.on && v.en && serves v && !v.dbOut && requestsOut v < 32 && (v.dbAgain || due) then
    (h.modHp p (fun w => { w with dbOut := true, tPoll := if due then h.t else w.tPoll, dbAgain := false })).emit (.hostRead p v.dbBase 64)
  else h
/-- A ring is halted: one RING_HALT event (R395). which: 0 submission, 1 completion. -/
def tellHalt (h : HDie) (p : Part) (n : BitVec 4) (which : Byte) : HDie :=
  h.devKeep [(0x30508, Field.word [fld n 0, fld which 8, fld p 16])]
/-- One doorbell word for pair n (R390, R395). -/
def takeDb (h : HDie) (p : Part) (n : BitVec 4) (w : Word) : HDie :=
  let q := h.sq p n
  let c := h.cq p n
  let t : BitVec 16 := bits w 0 16
  let k : BitVec 16 := bits w 16 16
  let h1 := if q.size = 0 || q.halted then h
    else if ringN q.size ≤ t.toNat then (h.setSq p n { q with halted := true }).tellHalt p n 0
    else h.setSq p n { q with tail := t }
  if c.size = 0 || c.halted then h1
  else if ringN c.size ≤ k.toNat then (h1.setCq p n { c with halted := true }).tellHalt p n 1
  else h1.setCq p n { c with head := k }
/-- May another descriptor of ring n be fetched (R393)? -/
def mayFetch (h : HDie) (p : Part) (n : BitVec 4) : Bool :=
  let q := h.sq p n
  q.size ≠ 0 && !q.halted && q.fence.isNone && decide (q.head ≠ q.tail) && decide ((h.hp p).inflight.length < 64) && decide (0 < h.places p n)
/-- Take at most k descriptors of ring n in one turn from what its read answers: a turn ends at a FENCE, and a read that fails
halts the ring (R393, R395). Answers what is left of the read. -/
def takeTurn (p : Part) (n : BitVec 4) : Nat → List Bytes → HDie → HDie × List Bytes
  | 0, ds, h => (h, ds)
  | k + 1, ds, h =>
    if !h.mayFetch p n then (h, ds)
    else
      let q := h.sq p n
      match ds with
      | [] => ((h.setSq p n { q with halted := true }).tellHalt p n 0, [])
      | d :: r =>
        let next : BitVec 16 := if q.head.toNat + 1 = ringN q.size then 0 else q.head + 1
        let h1 := h.setSq p n { q with head := next, taken := q.taken + 1 }
        let h2 := (h1.modHp p (fun w => { w with lastRing := n })).takeDesc (Field.refOfDesc p n q.head d) d q.taken
        takeTurn p n k r h2
/-- One round over the rings, from the one after the last served on, with what is left of each ring's read. -/
def takeRound (p : Part) (first : BitVec 4) (s : HDie × List RingRead) : HDie × List RingRead :=
  (List.range 16).foldl (fun (s : HDie × List RingRead) i =>
    let n : BitVec 4 := first + BitVec.ofNat 4 i
    if !s.1.mayFetch p n then s
    else
      let ds := match s.2.find? (fun r => r.ring = n) with | some r => r.descs | none => []
      let t := takeTurn p n 8 ds s.1
      (t.1.statRing p n, s.2.map (fun (r : RingRead) => if r.ring = n then { r with descs := t.2 } else r))) s
/-- Rounds until nothing more may be fetched; at most 64 commands are in flight, so 64 rounds are enough. -/
def takeRounds (p : Part) : Nat → HDie × List RingRead → HDie
  | 0, s => s.1
  | k + 1, s =>
    if (List.range 16).any (fun i => s.1.mayFetch p (BitVec.ofNat 4 i)) then takeRounds p k (takeRound p ((s.1.hp p).lastRing + 1) s)
    else s.1
/-- The poll from which the next one counts: polls that fell due while a read was out were merged with it (R392). -/
def pollMerged (tPoll : Count) (itv : Word) (now : Count) : Count :=
  tPoll + BitVec.ofNat 64 ((now.toNat - tPoll.toNat) / itv.toNat * itv.toNat)
/-- DESCRIPTOR_FETCH: the doorbell read completes with the page, and descriptors are fetched where they may be (R393, R394). -/
def descriptorFetch (h : HDie) (p : Part) (db : List Word) (reads : List RingRead) : HDie :=
  if !h.on || !(h.hp p).dbOut then h
  else
    let h1 := (h.modHp p (fun w => { w with dbOut := false, dbAgain := false, tPoll := pollMerged w.tPoll h.trn.pollItv h.t,
                                            polls := w.polls + 1 })).startReads p
    let h2 := h1.statWr p 64 (le 4 (h1.hp p).polls)
    let h3 := (List.range 16).foldl (fun (g : HDie) i => g.takeDb p (BitVec.ofNat 4 i) (db.getD i 0)) h2
    let h4 := h3.drain p
    let h5 := if h4.trn.fieldUp && h4.roles p ≠ 0 && (h4.hp p).en && serves (h4.hp p) then takeRounds p 64 (h4, reads) else h4
    h5.syncBlock p
/-- PAYLOAD_READ_DONE (R362, R396): BULK and then CMD, or BUF_ERR. -/
def payloadReadDone (h : HDie) (p : Part) (ring : BitVec 4) (pos : BitVec 16) (ok : Bool) (data : Bytes) : HDie :=
  match (h.hp p).inflight.find? (fun c => c.ref.ring = ring && c.ref.sqPos = pos && c.stage = .payload) with
  | none => h
  | some c =>
    let n := leNat c.desc 24 4
    if !h.on then h
    else if !ok || data.length < n then ((h.complete c.ref .bufErr 0).flushReady p).startReads p
    else
      let h1 := h.modHp p (fun w => { w with inflight := w.inflight.map (fun (e : InFlight) => if e.ref = c.ref then { e with stage := Stage2.ready } else e) })
      ((sendBulk c.ref 0 (n / 480 + 1) (data.take n) h1).flushReady p).startReads p
/-- MSIX_TIMER_EXPIRY of completion ring n (R401). -/
def msixTimer (h : HDie) (p : Part) (n : BitVec 4) : HDie :=
  let c := h.cq p n
  if h.on && c.size ≠ 0 && c.count ≠ 0 && c.timer ≠ 0 && c.p ≠ 0 && c.tP.toNat + 100 * c.timer.toNat ≤ h.t.toNat then
    (h.setCq p n { c with p := 0 }).sendMsix p c.vec
  else h

/-! ### Ring set-up (R397, HOST_SQ_CFG, HOST_CQ_CFG) -/

/-- Does a write of SIZE_LOG2 change the field? -/
def sizeOk (old new : BitVec 5) : Bool := new = 0 || (old = 0 && 6 ≤ new.toNat && new.toNat ≤ 16) || old = new
/-- A submission ring disabled: its unfetched entries count as passed for any FENCE (R403, rule 4). -/
def sqOff (q : HSq) : HSq := { HSq.reset with base := q.base, taken := q.taken + 65536, fence := q.fence }
/-- RING_CFG_WRITE: HOST_SQ_CFG or HOST_CQ_CFG of ring n. POLLS counts from the last enabling of a ring. -/
def ringCfg (h : HDie) (p : Part) (isCq : Bool) (n : BitVec 4) (v : Word) : HDie :=
  let s : BitVec 5 := bits v 0 5
  if !h.linkOn then h
  else if isCq then
    let c := h.cq p n
    if c.size = s || !sizeOk c.size s then h
    else if s = 0 then
      ((h.setCq p n { HCq.reset with base := c.base, vec := c.vec, count := c.count, timer := c.timer }).drain p).syncBlock p
    else
      let h1 := h.setCq p n { c with size := s, tail := 0, head := 0, phase := true, halted := false, p := 0 }
      ((h1.modHp p (fun w => { w with polls := 0 })).statRing p n).syncBlock p
  else
    let q := h.sq p n
    if q.size = s || !sizeOk q.size s then h
    else if s = 0 then h.setSq p n (sqOff q)
    else
      let h1 := h.setSq p n { q with size := s, head := 0, tail := 0, halted := false }
      (h1.modHp p (fun w => { w with polls := 0 })).statRing p n

end HDie
end Sys2Proof.Machine
end

