-- ==== Sys2Proof/Machine/HostLink.lean ====
section
/-! DEFINITION. Transit at the host die (14): delivery, training, the tunnelled window, FSTATE, and the records and data that
arrive for host memory (15, 16). -/
namespace Sys2Proof.Machine
namespace HDie

/-! ### Delivery (R359 to R361, R364) -/

/-- The host die's link works. -/
def linkUp (h : HDie) : Bool := h.linkOn && h.trn.st = .up
/-- The half of a class. -/
def half (h : HDie) (cls : Bool) : Half := if cls then h.trn.ctl else h.trn.dat
/-- Write the half of a class. -/
def setHalf (h : HDie) (cls : Bool) (v : Half) : HDie :=
  { h with trn := if cls then { h.trn with ctl := v } else { h.trn with dat := v } }
/-- PSTATE of every partition. -/
def tellPstate (h : HDie) : HDie := h.forParts (fun g p => g.statPstate p)
/-- The link leaves UP and trains: FIELD_UP reads 0 (R23, R364). -/
def retrain (h : HDie) : HDie := ({ h with trn := { h.trn with st := .train, fieldUp := false, trainSent := false } }).tellPstate
/-- An ACK of a class. -/
def takeLinkAck (h : HDie) (cls : Bool) (ack : BitVec 16) : HDie := h.setHalf cls (ackHalf (h.half cls) ack h.t).1
/-- Count the CORRECTED blocks of a message (R360). -/
def countCorrected (h : HDie) (x : LinkHdr) : HDie := { h with trn := { h.trn with corrected := satAdd h.trn.corrected x.corrected } }
/-- A message discarded under R359. -/
def countBad (h : HDie) : HDie := { h with trn := { h.trn with badMsg := satAdd h.trn.badMsg 1 } }
/-- Take LINK_ACK or LINK_NAK, as the field die does. -/
def hearLink (h : HDie) (cls : Bool) (type : Byte) (x : LinkHdr) (go : HDie → HDie) : HDie :=
  if !h.linkUp then h
  else
    let h0 := h.countCorrected x
    if !x.good then h0.emit (linkNakOut cls (h0.half cls).expect)
    else if formOk x type cls then go h0
    else h0.countBad
/-- A message that arrives whole and in order is accepted and acknowledged (R360). -/
def heard (h : HDie) (cls : Bool) (x : LinkHdr) : HDie :=
  let h1 := h.setHalf cls { h.half cls with expect := (h.half cls).expect + 1 }
  ({ h1 with trn := { h1.trn with tLast := h1.t } }).emit (linkAckOut cls x.seq)
/-- Take a message of a class: as the field die does (R359, R360). -/
def recv (h : HDie) (cls : Bool) (type : Byte) (x : LinkHdr) (go : HDie → HDie) : HDie :=
  if !h.linkUp then h
  else
    let h0 := h.countCorrected x
    let y := h0.half cls
    if !x.good || x.seq ≠ y.expect then h0.emit (linkNakOut cls y.expect)
    else if formOk x type cls then go ((h0.heard cls x).takeLinkAck cls x.ack)
    else (h0.heard cls x).countBad
/-- LINK_ACK at the host die. -/
def linkAckRow (h : HDie) (cls : Bool) (x : LinkHdr) : HDie := h.hearLink cls 0x07 x (fun g => g.takeLinkAck cls x.ack)
/-- Count messages sent again, of either direction (TRN_ERR.RESENDS). -/
def countResends (h : HDie) (n : Nat) : HDie := { h with trn := { h.trn with resends := satAdd h.trn.resends n } }
/-- Send messages again. -/
def resendMsgs (h : HDie) (cls : Bool) (ks : List (BitVec 16 × Msg)) : HDie :=
  (ks.foldl (fun (g : HDie) k => g.emit (msgOut cls ((h.half cls).expect - 1) k)) h).countResends ks.length
/-- Send the oldest kept message again and those after it, as the field die does (R361). -/
def resendAll (h : HDie) (cls : Bool) : HDie :=
  let x := h.half cls
  let h1 := (h.setHalf cls { x with tSent := h.t, resends := if x.resends = 7 then 0 else x.resends + 1 }).resendMsgs cls x.kept
  if x.resends = 7 then h1.retrain else h1
/-- LINK_NAK at the host die (R360). -/
def linkNakRow (h : HDie) (cls : Bool) (x : LinkHdr) (n : BitVec 16) : HDie :=
  h.hearLink cls 0x08 x (fun g =>
    let g1 := g.takeLinkAck cls (n - 1)
    if keptFrom (g1.half cls) n ≠ [] then g1.resendAll cls else g1)
/-- RESEND_TIMEOUT at the host die (R361). -/
def resendTimeout (h : HDie) (cls : Bool) : HDie :=
  if h.linkUp && resendDue (h.half cls) h.t then h.resendAll cls else h
/-- KEEPALIVE at the host die. -/
def keepaliveRow (h : HDie) (x : LinkHdr) : HDie := h.recv true 0x05 x (fun g => g)
/-- KEEPALIVE_LOSS at the host die (R364). -/
def keepaliveLoss (h : HDie) : HDie := if h.linkUp && h.trn.tLast.toNat + 3000 ≤ h.t.toNat then h.retrain else h
/-- KEEPALIVE goes out every 10 µs of REFCLK_H. -/
def keepaliveSend (h : HDie) : HDie :=
  if h.linkUp && h.trn.tKeep.toNat + 1000 ≤ h.t.toNat then
    ({ h with trn := { h.trn with tKeep := h.t } }).sendCtl { type := 0x05, part := 0x80, tag := 0, payload := le 8 (0 : Count) }
  else h

/-! ### The tunnelled window (R368 to R370) -/

/-- An earlier write of the partition has no TUN_CPL yet (R369). -/
def writeBefore (v : HPart) (a : HTun) : Bool := (v.tun.takeWhile (fun (b : HTun) => b.tag ≠ a.tag)).any (fun (b : HTun) => b.value.isSome)
/-- Something before an access has not been sent. -/
def unsentTun (v : HPart) (a : HTun) : Bool := (v.tun.takeWhile (fun (b : HTun) => b.tag ≠ a.tag)).any (fun (b : HTun) => !b.sent)
/-- The message of a tunnelled access. -/
def tunMsg (p : Part) (a : HTun) : Msg :=
  match a.value with
  | none => { type := 0x02, part := p.setWidth 8, tag := a.tag, payload := le 4 a.off }
  | some v => { type := 0x03, part := p.setWidth 8, tag := a.tag, payload := le 4 a.off ++ le 4 v }
/-- Send what may be sent of a partition's accesses, in their order (R369). -/
def pumpTun (h : HDie) (p : Part) : HDie :=
  if h.trn.st ≠ .up then h
  else ((h.hp p).tun.filter (fun a => !a.sent)).foldl (fun (g : HDie) a =>
    let v := g.hp p
    if unsentTun v a || (a.value.isNone && writeBefore v a) then g
    else (g.modHp p (fun w => { w with tun := w.tun.map (fun (b : HTun) => if b.tag = a.tag then { b with sent := true } else b) })).sendCtl
      (tunMsg p a)) h
/-- A tunnelled read that gets no value: 0xFFFF_FFFF, counted (R370). -/
def tunNoValue (h : HDie) (p : Part) : HDie :=
  (h.modHp p (fun w => { w with tunTimeout := satAdd w.tunTimeout 1 })).emit (.read p 0xFFFFFFFF)
/-- An access of a port at 0x8000 + w (R368, R370). -/
def tunAccess (h : HDie) (p : Part) (w : Word) (value : Option Word) : HDie :=
  let v := h.hp p
  if !h.trn.fieldUp || 8 ≤ v.tun.length then
    match value with
    | none => h.tunNoValue p
    | some _ => h.modHp p (fun w => { w with tunDropped := satAdd w.tunDropped 1 })
  else
    let a : HTun := { tag := (p.setWidth 8 : BitVec 8) ++ (0x40 : BitVec 8) ++ v.tunNum, off := v.page.setWidth 32 * 0x8000 + w,
                      value := value, sent := false, t := h.t }
    (h.modHp p (fun w => { w with tun := w.tun ++ [a], tunNum := w.tunNum + 1 })).pumpTun p
/-- TUNNEL_TIMEOUT: the oldest access of a partition that has waited 50 µs (R370). -/
def tunnelTimeout (h : HDie) (p : Part) : HDie :=
  match (h.hp p).tun.find? (fun a => a.t.toNat + 5000 ≤ h.t.toNat) with
  | none => h
  | some a =>
    let h1 := h.modHp p (fun w => { w with tun := w.tun.filter (fun b => b.tag ≠ a.tag) })
    (if a.value.isNone then h1.tunNoValue p else h1).pumpTun p
/-- A tunnelled write that the field die has taken: a new poll interval (16, polling), or the partition's bit of NEV_COLD_ACK
(PSTATE). -/
def tunWritten (h : HDie) (p : Part) (off v answer : Word) : HDie :=
  if off = 0x16118 && answer ≠ 0 then { h with trn := { h.trn with pollItv := answer } }
  else if off = 0x10010 && bit v p.toNat && h.roles p ≠ 0 then (h.modHp p (fun w => { w with coldPend := false })).statPstate p
  else h
/-- A TUN_CPL of the host die's own reads. -/
def devAnswer (h : HDie) (tag : BitVec 32) (v : Word) : HDie :=
  if tag = tagItv then { h with trn := { h.trn with pollItv := v } }
  else if tag = tagSkip then h.modHp (bits v 0 2) (fun w => { w with tlmSkipped := satAdd w.tlmSkipped 1 })
  else if tag = tagCold then h.forParts (fun g p => (g.modHp p (fun w => { w with coldPend := bit v p.toNat })).statPstate p)
  else h
/-- TUN_CPL (R369, R370): one that no held access awaits, or whose 50 µs have run out, is discarded. -/
def tunCplRow (h : HDie) (x : LinkHdr) (v : Word) : HDie :=
  h.recv true 0x41 x (fun g =>
    let p := Field.partOf x
    if bit x.part 7 then g.devAnswer x.tag v
    else match (g.hp p).tun.find? (fun a => a.tag = x.tag && a.sent && decide (g.t.toNat < a.t.toNat + 5000)) with
      | none => g
      | some a =>
        let g1 := g.modHp p (fun w => { w with tun := w.tun.filter (fun b => b.tag ≠ a.tag) })
        (match a.value with
          | none => g1.emit (.read p v)
          | some w => g1.tunWritten p a.off w v).pumpTun p)

/-! ### The end of debug authorisation of the field TAP by the field die (R483) -/

/-- Authorisation of the field TAP ends: cause by R483. -/
def endDbgF (h : HDie) (cause : Byte) : HDie :=
  if h.sec.dbgF = 0 then h else (({ h with sec := { h.sec with dbgF := 0 } }).log 0x24 [0, cause]).tellDbg
/-- Authorisation of the host TAP ends. -/
def endDbgH (h : HDie) (cause : Byte) : HDie :=
  if h.sec.dbgH = 0 then h else ({ h with sec := { h.sec with dbgH := 0, extest := false } }).log 0x24 [1, cause]

/-! ### FSTATE, records and data (R364, R366, R386, R398, R520) -/

/-- A cold start of the field die: every status page says so before any later record (R520). -/
def coldMark (h : HDie) : HDie :=
  h.forParts (fun g p => ((g.modHp p (fun w => { w with coldPend := true, evtSeq := 0 })).statPstate p).statEvt p)
/-- Act on a data-class message (R398, R399): the completion of the command in flight at its place, events, or data for host memory.
While a PART reset runs it is discarded (R386), and so is a record for no command in flight. -/
def takeData (h : HDie) (m : HeldMsg) : HDie :=
  match m with
  | .cpl p ring b =>
    if (h.hp p).rstBusy then h
    else match (h.hp p).inflight.find? (fun c => c.ref.ring = ring && c.ref.sqPos = u16 b 2) with
      | none => h
      | some c => (h.finish c.ref b).syncBlock p
  | .evt p recs => if (h.hp p).rstBusy then h else (recs.foldl (fun (k : HDie) b => k.deliverEvt p b) h).syncBlock p
  | .hwrite p addr data => if (h.hp p).rstBusy then h else h.emit (.hostWrite p addr data)
/-- A data-class message: after a training with a FRESH field die it waits for the FSTATE of that training, so that a cold start is
marked before any later record (R520; log entry 55). -/
def data (h : HDie) (m : HeldMsg) : HDie :=
  if h.trn.fstWait then { h with trn := { h.trn with held := h.trn.held ++ [m] } } else h.takeData m
/-- FSTATE (R364, R366). With the end of a PART reset a port that still does not serve holds delivery back (R388). -/
def fstateRow (h : HDie) (x : LinkHdr) (code : FCode) (kind power : Byte) : HDie :=
  h.recv true 0x43 x (fun g =>
    let g1 := if power = 3 then ({ g with fieldStby := true }).endDbgF 4 else if power = 4 then g.endDbgF 4 else g
    match code with
    | .resetEntry => (g1.endDbgF 3).retrain
    | .partDone => (g1.modHp (Field.partOf x) (fun w => { w with rstBusy := false })).tellHold
    | .trained =>
      let cold := g1.trn.fstWait && (kind = 0 || kind = 1 || kind = 5)
      let g2 := { g1 with trn := { g1.trn with fstWait := false, held := [] } }
      g1.trn.held.foldl (fun (k : HDie) m => k.takeData m) (if cold then g2.coldMark else g2)
    | .power => g1
    | .safe => g1)
/-- CPL (R398). -/
def cplRow (h : HDie) (x : LinkHdr) (ring : BitVec 4) (b : Bytes) : HDie :=
  h.recv false 0x81 x (fun g => g.data (.cpl (Field.partOf x) ring b))
/-- EVT (R398, R399). -/
def evtRow (h : HDie) (x : LinkHdr) (recs : List Bytes) : HDie := h.recv false 0x82 x (fun g => g.data (.evt (Field.partOf x) recs))
/-- HWRITE: data for host memory. -/
def hwriteRow (h : HDie) (x : LinkHdr) (addr : BitVec 64) (data : Bytes) : HDie :=
  h.recv false 0x83 x (fun g => g.data (.hwrite (Field.partOf x) addr data))

/-! ### Training (R365, R377, R418, R456, R482, R488, R491) -/

/-- THM_H_STATE's word (R418). -/
def thmWord (h : HDie) : Word := Field.word [flag h.thm.warn 0, flag h.thm.throttle 1, (fld (bits h.thm.hotSite 0 2 : BitVec 2) 2), fld h.thm.decision 16]
/-- The broken host sites, as a set. -/
def brokenSites (h : HDie) : BitVec 4 := (Field.maskOf (fun k => (h.thm.siteAt k).broken) 4).setWidth 4
/-- Tell the field die the host die's thermal state. -/
def tellThm (h : HDie) : HDie :=
  if h.trn.st = .up then (h.devWr 0x30318 h.thmWord).devWr 0x3030C (fld h.brokenSites 16) else h
/-- The set-up of one partition goes to the field die (R377). -/
def tellSetup (h : HDie) (n : Nat) : HDie :=
  if h.trn.st = .up then h.devWr (BitVec.ofNat 32 (0x30200 + 4 * n)) (h.setup.getD n 0) else h
/-- Commands lost with a field die that is FRESH (14): they took effect whole or not at all. -/
def fieldResets (h : HDie) (p : Part) : HDie :=
  ((h.hp p).inflight.filter (fun c => c.stage = .sent || c.stage = .ready)).foldl (fun (g : HDie) c => g.complete c.ref .fieldReset 0) h
/-- Both halves restart (R365). A PART_RST that was not answered yet is owed again (R386). -/
def freshLink (h : HDie) : HDie :=
  ({ h with trn := { h.trn with
      ctl := Half.reset, dat := Half.reset,
      owed := h.trn.owed ||| (Field.maskOf (fun n => (h.hp (BitVec.ofNat 2 n)).rstBusy) 4).setWidth 4 } }).forParts
    (fun g p => g.modHp p (fun w => { w with block := 0 }))
/-- The telemetry table of a partition goes to the field die (log entry 52): word k of base, first index and count. -/
def tlmWord (v : HPart) (k : Nat) : Word :=
  if k = 0 then v.tlmBase.setWidth 32 else if k = 1 then (v.tlmBase >>> 32).setWidth 32
  else if k = 2 then v.tlmFirst.setWidth 32 else v.tlmCount.setWidth 32
/-- One of those words. -/
def tellTlm (h : HDie) (p : Part) (k : Nat) : HDie :=
  if h.trn.st = .up then h.devWr (BitVec.ofNat 32 (0x30240 + 16 * p.toNat + 4 * k)) (tlmWord (h.hp p) k) else h
/-- All of a partition's table. -/
def tellTlms (h : HDie) (p : Part) : HDie := ((((h.tellTlm p 0).tellTlm p 1).tellTlm p 2).tellTlm p 3)
/-- What waited for the link goes out: PART_RST first, then the set-up (R456, R377). -/
def afterTrain (h : HDie) : HDie :=
  let h1 := ({ h with trn := { h.trn with owed := 0 } }).forParts (fun g p => if bit h.trn.owed p.toNat then g.sendRst p else g)
  let h2 := [0, 1, 2, 3].foldl (fun (g : HDie) n => g.tellSetup n) h1
  let h3 := ((h2.tellSec 0).tellDbg.tellHold).tellThm
  let h4 := h.trn.devOwed.foldl (fun (g : HDie) w => g.devWr w.1 w.2) { h3 with trn := { h3.trn with devOwed := [] } }
  let h5 := h.sec.log.foldl (fun (g : HDie) r => g.log r.1 r.2) { h4 with sec := { h4.sec with log := [] } }
  let h6 := (h5.devRd tagItv 0x16118).devRd tagCold 0x10010
  (h6.forParts (fun g p => ((g.syncBlock p).tellTlms p).pumpTun p))
/-- The behaviour level of the field die is authoritative (R488). -/
def takeLevel (h : HDie) (level : Byte) : HDie :=
  let l : BitVec 4 := bits level 0 4
  if l ≠ 0 && l ≠ h.sec.bl then
    ({ h with nvm := { h.nvm with upd := h.nvm.upd ++ [ImgUpd.mk 1 [h.sec.life.setWidth 8, l.setWidth 8]] } }).log 0x25
      [h.sec.bl.setWidth 8, l.setWidth 8]
  else h
/-- TRAIN as the host die sends it (R365). -/
def trainOut (h : HDie) : Out :=
  msgOut true (h.trn.ctl.expect - 1)
    (0, { type := 0x06, part := 0x80, tag := 0, payload := trainPayload h.trn.fresh 0xFFF (h.sec.bl.setWidth 8) })
/-- The wake signal stops when training starts, after 20 µs at the earliest (R367). -/
def wakeStops (h : HDie) (training : Bool) : HDie :=
  match h.trn.wake with
  | some (t, b) =>
    let b' := b || training
    { h with trn := { h.trn with wake := if b' && t.toNat + 2000 ≤ h.t.toNat then none else some (t, b') } }
  | none => h
/-- TRAIN at the host die (R365): the field die's FRESH, the lanes trained and its level; its own TRAIN goes first where none has gone
out in this training. -/
def trainRow (h : HDie) (x : LinkHdr) (fresh : Bool) (masks : BitVec 12) (level : Byte) : HDie :=
  let d : BitVec 10 := bits masks 0 10
  let c : BitVec 2 := bits masks 10 2
  if !h.linkOn || !x.good then h
  else if !formOk x 0x06 true then (h.countCorrected x).countBad
  else if d = 0 || c = 0 then h.countCorrected x
  else
    let h00 := (h.countCorrected x).wakeStops true
    let h01 := if h00.trn.trainSent then h00 else h00.emit h00.trainOut
    let h0 := if fresh then h01.endDbgF 3 else h01
    let h1 := if fresh || h0.trn.fresh then h0.freshLink else h0
    let h2 := if fresh then h1.forParts (fun g p => g.fieldResets p) else h1
    let h3 := { h2 with
      fieldStby := false,
      trn := { h2.trn with
        st := .up, fresh := false, lastFresh := fresh, fstWait := fresh || h2.trn.fstWait, dataLanes := d, ctrlLanes := c, tLast := h2.t,
        trained := true, trainSent := decide (h.trn.st = LinkState.up), ctl := { h2.trn.ctl with tSent := h2.t }, dat := { h2.trn.dat with tSent := h2.t },
        retrains := if h2.trn.trained then satAdd h2.trn.retrains 1 else h2.trn.retrains } }
    let h4 := ((h3.resendMsgs true h3.trn.ctl.kept).resendMsgs false h3.trn.dat.kept)
    let h5 := (h4.afterTrain).takeLevel level
    ({ h5 with trn := { h5.trn with fieldUp := true } }).tellPstate
/-- TRAINING_REPEAT of the host die (R459). -/
def trainingRepeat (h : HDie) : HDie :=
  if h.linkOn && h.trn.st ≠ .up then ({ h with trn := { h.trn with st := .train, trainSent := true } }).emit h.trainOut
  else h

end HDie
end Sys2Proof.Machine
end

