-- ==== Sys2Proof/Machine/HostSec.lean ====
section
/-! DEFINITION. The security block (21): tokens, the commissioning state, debug, lifecycle, behaviour level, attestation; and the
host die's NVM images (20). -/
namespace Sys2Proof.Machine

namespace HDie

/-! ### Images of the host NVM (20) -/

/-- An image by item: 0 identity and keys, 1 lifecycle, 2 partition set-up, 3 security counters. -/
def img (n : HNvm) (item : Nat) : Img :=
  if item = 0 then n.ident else if item = 1 then n.life else if item = 2 then n.setup else n.count
/-- Write an image. -/
def setImg (n : HNvm) (item : Nat) (i : Img) : HNvm :=
  { n with ident := if item = 0 then i else n.ident, life := if item = 1 then i else n.life,
           setup := if item = 2 then i else n.setup, count := if 3 ≤ item then i else n.count }
/-- Start an update of an image (R462). -/
def imgStart (h : HDie) (item : Nat) (p : Bytes) : HDie := { h with nvm := { h.nvm with upd := h.nvm.upd ++ [ImgUpd.mk item p] } }
/-- The identity image's payload for an owner key. -/
def identBytes (k : Option Bytes) : Bytes := match k with | some b => 1 :: pad 64 b | none => [0]
/-- The security counters' payload: accepted tokens and the refusal run (R475, R476). -/
def countBytes (s : HSec) : Bytes := le 2 s.accepted ++ [BitVec.ofNat 8 s.run, 0]
/-- Write the security counters. -/
def saveCounts (h : HDie) : HDie := h.imgStart 3 (countBytes h.sec)

/-! ### Results, the challenge, the commissioning state -/

/-- SEC_RESULT.LAST of a partition. -/
def setLast (h : HDie) (p : Part) (c : BitVec 4) : HDie := h.modHp p (fun w => { w with result := c })
/-- A new challenge (R475). -/
def newChal (h : HDie) : HDie := { h with sec := { h.sec with chal := h.sec.chal + 1, tChal := h.t } }
/-- The challenge's 16 bytes. -/
def chalBytes (h : HDie) : Bytes := pad 16 ((Config.challenge h.sec.chal).map (fun w => le 4 w)).flatten
/-- The commissioning state closes: cause by R481. -/
def closeComm (h : HDie) (cause : Byte) : HDie :=
  if h.sec.comm.isSome then (({ h with sec := { h.sec with comm := none } }).log 0x23 [cause]).tellSec 0 else h
/-- COMMISSIONER. -/
def commissioner (h : HDie) (p : Part) : Bool := bit (h.roles p) 2
/-- The first of some checks that fails. -/
def firstFail : List (Bool × BitVec 4) → Option (BitVec 4)
  | [] => none
  | (ok, c) :: r => if ok then firstFail r else some c

/-! ### Tokens (R474 to R477) -/

/-- The actions that present a token. -/
inductive TokAct where
  | commission | debug | ret
  deriving DecidableEq, Repr
/-- The KIND a token action wants. -/
def TokAct.kind : TokAct → Byte
  | .commission => 1 | .debug => 2 | .ret => 3
/-- The action is allowed in this lifecycle and state (check 4, with the conditions of R478 and R483). A lost identity image
accepts no token (R489; log entry 57). -/
def tokState (s : HSec) (a : TokAct) : Bool :=
  !s.keyLost && (match a with
    | .commission => decide (s.life = 1 ∨ s.life = 2)
    | .debug => decide (s.life = 1 ∨ s.life = 4) || (decide (s.life = 2) && s.comm.isSome)
    | .ret => (decide (s.life = 1 ∨ s.life = 2) && s.comm.isSome) || decide (s.life = 3))
/-- Check 5: KIND, SCOPE, MINUTES and the reserved bytes. -/
def tokFields (a : TokAct) (t : Bytes) : Bool :=
  let m := leNat t 2 2
  decide (u8 t 0 = a.kind) && decide (u8 t 1 &&& (if a = .debug then 0xF0 else 0xFF) = 0)
    && (if a = .ret then decide (m = 0) else decide (1 ≤ m ∧ m ≤ 480)) && decide (leNat t 28 4 = 0)
/-- Check 8: the signature under the key of its KIND. -/
def tokSig (s : HSec) (a : TokAct) (t : Bytes) : Bool :=
  match a with
  | .commission => (match s.owner with | some k => ecdsaVerify k (t.take 32) (slice t 32 64) | none => false)
  | .debug => ecdsaVerify Config.verluithKey (t.take 32) (slice t 32 64)
  | .ret => ecdsaVerify Config.verluithKey (t.take 32) (slice t 32 64)
/-- The checks of R474, in order, with their LAST codes. -/
def tokChecks (h : HDie) (p : Part) (a : TokAct) (t : Bytes) : List (Bool × BitVec 4) :=
  [(h.commissioner p || (decide (h.sec.life = 4) && decide (a = .debug)), 2), (h.sec.busy.isNone, 10), (h.sec.lockEnd.isNone, 9),
   (tokState h.sec a, 3), (tokFields a t, 4), (decide (slice t 4 8 = le 8 Config.serial), 5), (decide (slice t 12 16 = h.chalBytes), 6),
   (tokSig h.sec a t, 7)]
/-- A refusal at checks 6 to 8 adds to the run; at 8 presentation is locked out for 60 s (R476). -/
def countRefusal (h : HDie) (c : BitVec 4) : HDie :=
  if c = 5 || c = 6 || c = 7 then
    let n := h.sec.run + 1
    ({ h with sec := { h.sec with run := n, lockEnd := if 8 ≤ n then some (h.t + 6000000000) else h.sec.lockEnd } }).saveCounts
  else h
/-- A presentation: its checks, its record, the new challenge, and go where it is accepted (R474 to R476, R491). -/
def present (h : HDie) (p : Part) (a : TokAct) (go : HDie → Bytes → HDie) : HDie :=
  if !h.linkOn then h
  else
    let t := pad 128 (h.hp p).token
    match firstFail (h.tokChecks p a t) with
    | some c =>
      let h1 := { h with sec := { h.sec with refused := satAdd h.sec.refused 1 } }
      (((h1.countRefusal c).log 0x22 [u8 t 0, c.setWidth 8, p.setWidth 8]).newChal).setLast p c
    | none =>
      let h1 := ({ h with sec := { h.sec with accepted := satAdd h.sec.accepted 1, run := 0 } }).saveCounts
      go (h1.log 0x21 (t.take 4 ++ [p.setWidth 8])).newChal t
/-- MINUTES of a token in ticks of REFCLK_H. -/
def tokTicks (t : Bytes) : Count := BitVec.ofNat 64 (leNat t 2 2 * 6000000000)

/-- COMMISSION (R480, R481): opens the commissioning state, or replaces its expiry. -/
def commission (h : HDie) (p : Part) : HDie :=
  h.present p .commission (fun g t =>
    let who := match g.sec.comm with | some (_, q) => q | none => p
    (({ g with sec := { g.sec with comm := some (g.t + tokTicks t, who) } }).tellSec 0).setLast p 1)
/-- DEBUG (R483): the TAPs that SCOPE names are authorised for MINUTES. -/
def debug (h : HDie) (p : Part) : HDie :=
  h.present p .debug (fun g t =>
    let sc : BitVec 4 := bits (u8 t 1) 0 4
    let due := g.t + tokTicks t
    let s := g.sec
    (({ g with sec := { s with
        dbgF := if bit sc 0 then sc else s.dbgF, dbgDueF := if bit sc 0 then due else s.dbgDueF,
        dbgH := if bit sc 1 then sc else s.dbgH, dbgDueH := if bit sc 1 then due else s.dbgDueH } }).tellDbg).setLast p 1)
/-- A transition begins: the lifecycle image is written (R478). -/
def transition (h : HDie) (p : Part) (a : SecAct) (life : BitVec 3) (bl : BitVec 4) : HDie :=
  ({ h with sec := { h.sec with busy := some (p, a) } }).imgStart 1 [life.setWidth 8, bl.setWidth 8]
/-- RETURN (R478, R479). -/
def returnPart (h : HDie) (p : Part) : HDie := h.present p .ret (fun g _ => g.transition p .ret 4 g.sec.bl)

/-! ### Actions without a token (log entry 58: their checks run in the order of R474) -/

/-- An action without a token: its role, BUSY and its conditions; go where all hold. -/
def act (h : HDie) (p : Part) (role : Bool) (conds : List (Bool × BitVec 4)) (go : HDie → HDie) : HDie :=
  if !h.linkOn then h
  else match firstFail ([(role, 2), (h.sec.busy.isNone, 10)] ++ conds) with
    | some c => h.setLast p c
    | none => go h
/-- COMM_EXIT (R481), from the opening partition. -/
def commExit (h : HDie) (p : Part) : HDie :=
  let mine := match h.sec.comm with | some (_, q) => decide (q = p) | none => false
  h.act p true [(decide (h.sec.life = 1 ∨ h.sec.life = 2) && mine, 3)] (fun g => (g.closeComm 2).setLast p 1)
/-- DEBUG_END (R483). -/
def debugEnd (h : HDie) (p : Part) : HDie :=
  h.act p (h.commissioner p || decide (h.sec.life = 4)) [(decide (h.sec.life = 1 ∨ h.sec.life = 2 ∨ h.sec.life = 4), 3)]
    (fun g => ((g.endDbgF 2).endDbgH 2).setLast p 1)
/-- SET_OWNER (R478): the owner key in SEC_TOKEN words 0 to 15. -/
def setOwner (h : HDie) (p : Part) : HDie :=
  let k := pad 64 (h.hp p).token
  h.act p (h.commissioner p) [(decide (h.sec.life = 0) && decide (h.sec.bl ≠ 0) && !h.sec.keyLost, 3), (keyValid k, 4)]
    (fun g => (g.imgStart 0 (identBytes (some k))).transition p .setOwner 1 g.sec.bl)
/-- FIELD (R478); confirmed: SAF_STATUS.CONFIRMED of the field die. -/
def fieldAct (h : HDie) (p : Part) (confirmed : Bool) : HDie :=
  h.act p (h.commissioner p) [(decide (h.sec.life = 1) && h.sec.comm.isSome, 3), (confirmed, 11)]
    (fun g => g.transition p .field 2 g.sec.bl)
/-- SEAL (R478). -/
def sealAct (h : HDie) (p : Part) : HDie :=
  h.act p (h.commissioner p) [(decide (h.sec.life = 2) && h.sec.comm.isSome, 3)] (fun g => g.transition p .sealed 3 g.sec.bl)
/-- BL_SUPPORT: every part supports BL1 (R487). -/
def blSupport : Byte := 1
/-- SET_BL's conditions (R487, R488); safe: the safe state holds on the field die. -/
def blState (s : HSec) (safe : Bool) : Bool :=
  safe && ((decide (s.life = 1 ∨ s.life = 2) && s.comm.isSome) || (decide (s.bl = 0) && decide (s.life = 0)))
/-- SET_BL (R487): the level goes to the behaviour lock and to the host die's lifecycle image. -/
def setBl (h : HDie) (p : Part) (level : BitVec 4) (safe : Bool) : HDie :=
  h.act p (h.commissioner p)
    [(blState h.sec safe, 3), (decide (h.sec.bl < level) && decide (level.toNat ≤ 8) && bit blSupport (level.toNat - 1), 12)]
    (fun g => (g.devKeep [(0x30500, g.secWord level)]).transition p (.setBl level) g.sec.life level)
/-- The 64 bytes that ATTEST signs (R490); block: the safety parameter block in force. -/
def statement (h : HDie) (nonce block : Bytes) : Bytes :=
  le 8 Config.serial ++ [h.sec.life.setWidth 8, h.sec.bl.setWidth 8, 0] ++ zeros 5 ++ pad 16 nonce ++ pad 32 (sha256 block)
/-- ATTEST (R490), from any partition. -/
def attest (h : HDie) (p : Part) (block : Bytes) : HDie :=
  let s := h.statement ((h.hp p).token.take 16) block
  h.act p true [(!h.sec.keyLost, 3)]
    (fun g => (g.modHp p (fun w => { w with token := s ++ pad 64 (Config.ecdsaSign s) })).setLast p 1)

/-! ### Expiries -/

/-- COMMISSIONING_EXPIRY (R481). -/
def commExpiry (h : HDie) : HDie :=
  match h.sec.comm with
  | some (t, _) => if h.linkOn && t ≤ h.t then h.closeComm 1 else h
  | none => h
/-- DEBUG_EXPIRY (R483). -/
def debugExpiry (h : HDie) : HDie :=
  if !h.linkOn then h
  else
    let h1 := if h.sec.dbgDueF ≤ h.t then h.endDbgF 1 else h
    if h1.sec.dbgDueH ≤ h1.t then h1.endDbgH 1 else h1
/-- CHALLENGE_EXPIRY (R475): 480 min after it was set. -/
def challengeExpiry (h : HDie) : HDie := if h.linkOn && h.sec.tChal.toNat + 2880000000000 ≤ h.t.toNat then h.newChal else h
/-- LOCKOUT_END (R476). -/
def lockoutEnd (h : HDie) : HDie :=
  match h.sec.lockEnd with
  | some t => if h.linkOn && t ≤ h.t then ({ h with sec := { h.sec with lockEnd := none, run := 0 } }).saveCounts else h
  | none => h

/-! ### Image updates (R376, R462, R465, R478) -/

/-- The words of a partition set-up image. -/
def setupWords (b : Bytes) : List Word := [u32 b 0, u32 b 4, u32 b 8, u32 b 12]
/-- A set-up takes effect: the field die is told what changed (R377). -/
def newSetup (h : HDie) (l : List Word) : HDie :=
  [0, 1, 2, 3].foldl (fun (g : HDie) n => if h.setup.getD n 0 = l.getD n 0 then g else g.tellSetup n) { h with setup := l }
/-- The lifecycle image takes effect (R478, R479, R481, R483, R491). -/
def newLife (h : HDie) (life : BitVec 3) (bl : BitVec 4) : HDie :=
  let old := h.sec
  let who : Part := match old.busy with | some (p, _) => p | none => 0
  let h1 := { h with sec := { old with life := life, bl := bl } }
  let h2 := if life = old.life then h1 else h1.log 0x20 [old.life.setWidth 8, life.setWidth 8, who.setWidth 8]
  let h3 := if life = 3 && old.life ≠ 3 then ((h2.closeComm 5).endDbgF 5).endDbgH 5 else h2
  let h4 := if life = 4 && old.life ≠ 4 then
      let g := ({ h3 with sec := { h3.sec with owner := none } }).closeComm 5
      (((g.imgStart 0 (identBytes none)).imgStart 2 (zeros 16)).newSetup [0, 0, 0, 0])
    else h3
  let h5 := if life = old.life then h4 else h4.tellSec 0
  match old.busy with
  | some (p, .setBl _) => (({ h5 with sec := { h5.sec with busy := none } }).log 0x25 [old.bl.setWidth 8, bl.setWidth 8]).setLast p 1
  | some (p, _) => if life = old.life then h5 else ({ h5 with sec := { h5.sec with busy := none } }).setLast p 1
  | none => h5
/-- What an image in force brings. -/
def imageActs (h : HDie) (item : Nat) (b : Bytes) : HDie :=
  if item = 0 then { h with sec := { h.sec with owner := if u8 b 0 = 1 then some (slice b 1 64) else none } }
  else if item = 1 then h.newLife (bits (u8 b 0) 0 3) (bits (u8 b 1) 0 4)
  else if item = 2 then h.newSetup (setupWords b)
  else h
/-- An update that fails: an action that waits for it ends with NVM. -/
def imageFails (h : HDie) (item : Nat) : HDie :=
  match h.sec.busy with
  | some (p, a) =>
    if item = 1 || (item = 0 && a = SecAct.setOwner) then
      ({ h with sec := { h.sec with busy := none },
                nvm := { h.nvm with upd := h.nvm.upd.filter (fun u => u.item ≠ 1 || a ≠ SecAct.setOwner) } }).setLast p 13
    else h
  | none => h
/-- IMAGE_UPDATE of the host die: both copies are written (R462). bad: a sector fails twice, and a spare takes its place
where one of the four is left (R465). -/
def imageUpdate (h : HDie) (item : Nat) (bad : Bool) : HDie :=
  if !h.linkOn then h
  else match Field.takeUpd item h.nvm.upd with
    | none => h
    | some (u, rest) =>
      let h0 := { h with nvm := { h.nvm with upd := rest } }
      if bad && 4 ≤ h.nvm.spares.toNat then h0.imageFails item
      else
        let i := img h0.nvm item
        let s := 2 * item + i.first item
        let h1 := if bad then ({ h0 with nvm := { h0.nvm with spares := h0.nvm.spares + 1 } }).log 0x08 [BitVec.ofNat 8 s] else h0
        let n := setImg h1.nvm item (i.update item u.payload)
        ({ h1 with nvm := { n with lost := n.lost &&& ~~~((1 : BitVec 4) <<< item) } }).imageActs item u.payload

/-! ### The host TAP (R483 to R485) -/

/-- The host TAP's private instructions are allowed. -/
def tapAllowed (h : HDie) : Bool := h.sec.life = 0 || bit h.sec.dbgH 1

end HDie
end Sys2Proof.Machine
end

