-- ==== Sys2Proof/Machine/HostRegs.lean ====
section
/-! DEFINITION. The host window: what a read of each register returns and what a write does (22, host window; 08, 14 to 17, 19
to 21), and the host test access port. -/
namespace Sys2Proof.Machine
namespace HDie

/-! ### Reads -/

/-- HOST_IDENT (R23). -/
def identWord (h : HDie) : Word := 0x8140 ||| fld h.sec.bl 24 ||| flag h.trn.fieldUp 28
/-- HOST_PORT_STATUS without its counters. -/
def portWord (h : HDie) (p : Part) : Word :=
  let v := h.hp p
  Field.word [fld p 0, fld v.speed 2, fld v.width 4, flag v.d3 6, flag (serves v) 7, fld v.linkDowns 16, fld v.flrs 24]
/-- THM_HREAD of a site. -/
def hread (h : HDie) (k : Nat) : Word :=
  let s := h.thm.siteAt k
  Field.word [fld s.t 0, flag s.valid 16, flag s.subst 17, flag s.broken 18]
/-- A set-up message of partition p that no ACK covers is still on its way. -/
def setupOut (h : HDie) (p : Part) : Bool :=
  h.trn.ctl.kept.any (fun k => k.2.type = 0x03 && bit k.2.part 7 && leNat k.2.payload 0 4 = 0x30200 + 4 * p.toNat)
/-- PART_SELF. -/
def selfWord (h : HDie) (p : Part) : Word :=
  Field.word [fld p 0, fld (h.roles p) 2, flag (h.trn.fieldUp && !h.setupOut p) 5]
/-- TRN_STATUS. -/
def trnWord (h : HDie) : Word :=
  Field.word [fldN (match h.trn.st with | .down => 0 | .train => 1 | .up => 2) 0, fld h.trn.dataLanes 2, fld h.trn.ctrlLanes 12,
    flag h.trn.lastFresh 14]
/-- SEC_STATUS. -/
def secStatus (h : HDie) : Word :=
  let s := h.sec
  let c : Nat × Part := match s.comm with | some (t, p) => ((t.toNat - h.t.toNat) / 6000000000, p) | none => (0, 0)
  Field.word [fld s.life 0, flag s.comm.isSome 3, fld c.2 4, flag (s.dbgF ≠ 0) 6, flag (s.dbgH ≠ 0) 7, fld blSupport 8, flag s.keyLost 16,
    flag s.lockEnd.isSome 17, fldN c.1 18]
/-- SEC_RESULT. -/
def secResult (h : HDie) (p : Part) : Word :=
  let busy : Bool := match h.sec.busy with | some (q, _) => decide (q = p) | none => false
  Field.word [flag busy 0, fld (h.hp p).result 8]
/-- A submission ring's register. -/
def sqRead (q : HSq) (k : Nat) : Word :=
  if k = 0 then q.base.setWidth 32 else if k = 4 then (q.base >>> 32).setWidth 32
  else if k = 8 then fld q.size 0 ||| flag q.halted 16 else 0
/-- A completion ring's register. -/
def cqRead (c : HCq) (k : Nat) : Word :=
  if k = 0 then c.base.setWidth 32 else if k = 4 then (c.base >>> 32).setWidth 32
  else if k = 8 then fld c.size 0 ||| flag c.halted 16
  else Field.word [fld c.vec 0, fld c.count 8, fld c.timer 16]
/-- The registers of 0x000 to 0x1FF. -/
def readLow (h : HDie) (p : Part) (o : Nat) : Word × HDie :=
  if o = 0 then (h.identWord, h)
  else if o = 4 then (h.portWord p, h.modHp p (fun w => { w with linkDowns := 0, flrs := 0 }))
  else if o = 8 then (Field.word [flag h.thm.warn 0, flag h.thm.throttle 1, fld h.brokenSites 2, fld h.thm.shutCount 16], h)
  else if 0x10 ≤ o && o < 0x20 then (h.hread ((o - 0x10) / 4), h)
  else if o = 0x20 then (flag h.auto 0, h)
  else if o = 0x24 then (Field.word [flag h.fieldStby 0, fld h.lastRst 1, fld h.stbyEntries 8], { h with stbyEntries := 0 })
  else if o = 0x30 then (Field.word [flag (h.nvm.upd ≠ []) 0, fld h.nvm.lost 4, fld h.nvm.spares 8], h)
  else if 0x100 ≤ o && o < 0x110 then (h.setup.getD ((o - 0x100) / 4) 0, h)
  else if o = 0x110 then (h.selfWord p, h)
  else (0, h)
/-- Transit registers, 0x200 to 0x2FF. -/
def readTrn (h : HDie) (p : Part) (o : Nat) : Word × HDie :=
  if o = 0x200 then (fld (h.hp p).page 15, h)
  else if o = 0x204 then (h.trnWord, h)
  else if o = 0x208 then
    (Field.word [fld h.trn.corrected 0, fld h.trn.resends 16, fld h.trn.retrains 24, fld h.trn.badMsg 28],
     { h with trn := { h.trn with corrected := 0, resends := 0, retrains := 0, badMsg := 0 } })
  else if o = 0x20C then (Field.word [fld (h.hp p).tunTimeout 0, fld (h.hp p).tunDropped 16],
    h.modHp p (fun w => { w with tunTimeout := 0, tunDropped := 0 }))
  else (0, h)
/-- Security registers, 0x300 to 0x3FF. SEC_CMD is write-only and reads 0. -/
def readSec (h : HDie) (p : Part) (o : Nat) : Word × HDie :=
  if o = 0x300 then (h.secStatus, h)
  else if o = 0x308 then (h.secResult p, h)
  else if o = 0x30C then (Config.serial.setWidth 32, h)
  else if o = 0x310 then ((Config.serial >>> 32).setWidth 32, h)
  else if o = 0x314 then (Field.word [fld h.sec.accepted 0, fld h.sec.refused 16, fld h.sec.logDrop 24],
    { h with sec := { h.sec with refused := 0, logDrop := 0 } })
  else if 0x320 ≤ o && o < 0x330 then (u32 h.chalBytes (o - 0x320), h)
  else if 0x340 ≤ o && o < 0x3C0 then (u32 (h.hp p).token (o - 0x340), h)
  else if 0x3C0 ≤ o && o < 0x400 then (u32 Config.devKey (o - 0x3C0), h)
  else (0, h)
/-- Telemetry, rings and moderation, 0x400 to 0x7FF. -/
def readRings (h : HDie) (p : Part) (o : Nat) : Word × HDie :=
  let v := h.hp p
  if o = 0x400 then (v.tlmBase.setWidth 32, h)
  else if o = 0x404 then ((v.tlmBase >>> 32).setWidth 32, h)
  else if o = 0x408 then (fld v.tlmFirst 0, h)
  else if o = 0x40C then (fld v.tlmCount 0, h)
  else if o = 0x410 then (fld v.tlmSkipped 0, h.modHp p (fun w => { w with tlmSkipped := 0 }))
  else if o = 0x500 then (v.dbBase.setWidth 32, h)
  else if o = 0x504 then ((v.dbBase >>> 32).setWidth 32, h)
  else if o = 0x508 then (v.statBase.setWidth 32, h)
  else if o = 0x50C then ((v.statBase >>> 32).setWidth 32, h)
  else if o = 0x510 then (flag v.en 0 ||| fldN v.inflight.length 8, h)
  else if o = 0x514 then (v.route, h)
  else if o = 0x518 then (Field.maskOf (fun i => if i < 16 then (h.sq p (BitVec.ofNat 4 i)).halted else (h.cq p (BitVec.ofNat 4 (i - 16))).halted) 32, h)
  else if o = 0x51C then (Field.word [fld v.lostQueue 0, fld v.lostDisabled 16], h.modHp p (fun w => { w with lostQueue := 0, lostDisabled := 0 }))
  else if 0x600 ≤ o && o < 0x700 then (sqRead (h.sq p (BitVec.ofNat 4 ((o - 0x600) / 16))) (o % 16), h)
  else if 0x700 ≤ o && o < 0x800 then (cqRead (h.cq p (BitVec.ofNat 4 ((o - 0x700) / 16))) (o % 16), h)
  else (0, h)
/-- What a read of a host-window register returns, and the state with its RC fields cleared (R15, R373). -/
def regRead (h : HDie) (p : Part) (o : Nat) : Word × HDie :=
  if o < 0x200 then h.readLow p o
  else if o < 0x300 then h.readTrn p o
  else if o < 0x400 then h.readSec p o
  else h.readRings p o

/-! ### Writes -/

/-- The wake signal starts, while the field die is in STANDBY with its Transit PHYs off (R367). -/
def startWake (h : HDie) : HDie :=
  if h.fieldStby && h.trn.st ≠ .up then ({ h with trn := { h.trn with wake := some (h.t, false) } }).emit .wake else h
/-- WAKE_FIELD, from OPERATOR or COMMISSIONER. -/
def wakeField (h : HDie) (p : Part) : HDie := if h.linkOn && h.operates p then h.startWake else h
/-- PWR_H_CTRL. -/
def pwrCtrlWrite (h : HDie) (p : Part) (v : Word) : HDie :=
  let h1 := if h.operates p then { h with auto := bit v 0 } else h
  if bit v 1 then h1.wakeField p else h1
/-- The set-up words as the last waiting update leaves them. -/
def setupLast (h : HDie) : List Word :=
  (h.nvm.upd.filter (fun u => u.item = 2)).foldl (fun _ u => setupWords u.payload) h.setup
/-- PART_SETUP_WRITE of partition n (R376, R480, R16): from any port, in the commissioning state, which at its closing tick is closed
before the write is judged (R481). A QUOTA above 131,072 leaves the whole register unchanged. -/
def partSetupWrite (h : HDie) (p : Part) (n : Part) (v : Word) : HDie :=
  if !h.linkOn then h
  else
    let g := h.commExpiry
    if g.sec.comm.isNone then g.log 0x02 (le 4 (BitVec.ofNat 32 (0x100 + 4 * n.toNat)) ++ [p.setWidth 8])
    else if 131072 < (bits v 8 18 : BitVec 18).toNat then g
    else g.imgStart 2 (setupBytes (listSet g.setupLast n.toNat (v &&& 0x03FFFF07)))
/-- SEC_CMD: the action that ACTION names; the field die's confirmed and safe states, and its block in force. -/
def secCmd (h : HDie) (p : Part) (v : Word) (confirmed safe : Bool) (block : Bytes) : HDie :=
  match (bits v 0 4 : BitVec 4).toNat with
  | 1 => h.setOwner p
  | 2 => h.commission p
  | 3 => h.commExit p
  | 4 => h.debug p
  | 5 => h.debugEnd p
  | 6 => h.fieldAct p confirmed
  | 7 => h.sealAct p
  | 8 => h.returnPart p
  | 9 => h.setBl p (bits v 8 4) safe
  | 10 => h.attest p block
  | _ => h
/-- The low and high words of a 64-bit address register. -/
def setLo (a : BitVec 64) (v : Word) : BitVec 64 := (a >>> 32).setWidth 32 ++ (v &&& 0xFFFFFFC0)
/-- The high word. -/
def setHi (a : BitVec 64) (v : Word) : BitVec 64 := v ++ (a.setWidth 32 : Word)
/-- HOST_CQ_MOD. -/
def cqMod (h : HDie) (p : Part) (n : BitVec 4) (v : Word) : HDie :=
  h.setCq p n { h.cq p n with vec := bits v 0 6, count := bits v 8 8, timer := bits v 16 10 }
/-- A write of a submission ring's register. -/
def sqWrite (h : HDie) (p : Part) (n : BitVec 4) (k : Nat) (v : Word) : HDie :=
  let q := h.sq p n
  if k = 8 then h.ringCfg p false n v
  else if q.size ≠ 0 then h
  else if k = 0 then h.setSq p n { q with base := setLo q.base v }
  else if k = 4 then h.setSq p n { q with base := setHi q.base v }
  else h
/-- A write of a completion ring's register. -/
def cqWrite (h : HDie) (p : Part) (n : BitVec 4) (k : Nat) (v : Word) : HDie :=
  let c := h.cq p n
  if k = 8 then h.ringCfg p true n v
  else if k = 12 then h.cqMod p n v
  else if c.size ≠ 0 then h
  else if k = 0 then h.setCq p n { c with base := setLo c.base v }
  else if k = 4 then h.setCq p n { c with base := setHi c.base v }
  else h
/-- Telemetry, rings and moderation, 0x400 to 0x7FF. -/
def writeRings (h : HDie) (p : Part) (o : Nat) (v : Word) : HDie :=
  let w := h.hp p
  if o = 0x400 then (h.setHp p { w with tlmBase := setLo w.tlmBase v }).tellTlm p 0
  else if o = 0x404 then (h.setHp p { w with tlmBase := setHi w.tlmBase v }).tellTlm p 1
  else if o = 0x408 then (h.setHp p { w with tlmFirst := bits v 0 17 }).tellTlm p 2
  else if o = 0x40C then (h.setHp p { w with tlmCount := bits v 0 18 }).tellTlm p 3
  else if o = 0x500 then (if w.en then h else h.setHp p { w with dbBase := setLo w.dbBase v })
  else if o = 0x504 then (if w.en then h else h.setHp p { w with dbBase := setHi w.dbBase v })
  else if o = 0x508 then (if w.en then h else h.setHp p { w with statBase := setLo w.statBase v })
  else if o = 0x50C then (if w.en then h else h.setHp p { w with statBase := setHi w.statBase v })
  else if o = 0x510 then h.setHp p { w with en := bit v 0 }
  else if o = 0x514 then (h.setHp p { w with route := v }).syncBlock p
  else if 0x600 ≤ o && o < 0x700 then h.sqWrite p (BitVec.ofNat 4 ((o - 0x600) / 16)) (o % 16) v
  else if 0x700 ≤ o && o < 0x800 then h.cqWrite p (BitVec.ofNat 4 ((o - 0x700) / 16)) (o % 16) v
  else h
/-- A write of a host-window register outside SEC_CMD. -/
def regWrite (h : HDie) (p : Part) (o : Nat) (v : Word) : HDie :=
  if o = 0x20 then h.pwrCtrlWrite p v
  else if 0x100 ≤ o && o < 0x110 then h.partSetupWrite p (BitVec.ofNat 2 ((o - 0x100) / 4)) v
  else if o = 0x200 then h.modHp p (fun w => { w with page := bits v 15 5 })
  else if 0x340 ≤ o && o < 0x3C0 then h.modHp p (fun w => { w with token := splice (pad 128 w.token) (o - 0x340) (le 4 v) })
  else if 0x400 ≤ o then h.writeRings p o v
  else h
/-- A BAR0 or BAR2 write of another form is discarded and recorded (R373). -/
def badWrite (h : HDie) (p : Part) : HDie := h.modHp p (fun w => { w with aerUr := true })
/-- REGISTER_WRITE at a port's BAR0 (R368, R373). The field die's states serve SEC_CMD; a tunnelled write of the commissioning state's
closing tick goes behind the word that closes it (R481). -/
def writeReg (h : HDie) (p : Part) (o : Nat) (v : Word) (acc : Access) (confirmed safe : Bool) (block : Bytes) : HDie :=
  if !h.linkOn then h
  else if acc ≠ .dword || o % 4 ≠ 0 then h.badWrite p
  else if 0x8000 ≤ o && o < 0x10000 then (h.commExpiry).tunAccess p (BitVec.ofNat 32 (o - 0x8000)) (some v)
  else if o = 0x304 then h.secCmd p v confirmed safe block
  else h.regWrite p o v
/-- REGISTER_READ at a port's BAR0 (R15, R368, R373): the value goes to the port, or a TUN_RD to the field die. -/
def readReg (h : HDie) (p : Part) (o : Nat) (acc : Access) : HDie :=
  if !h.linkOn then h
  else if acc ≠ .dword || o % 4 ≠ 0 then h.emit (.unsupported p)
  else if 0x8000 ≤ o && o < 0x10000 then h.tunAccess p (BitVec.ofNat 32 (o - 0x8000)) none
  else (h.regRead p o).2.emit (.read p (h.regRead p o).1)

/-! ### BAR2: the MSI-X table and the pending-bit array (R372, R374) -/

/-- A word of BAR2. -/
def bar2Read (v : HPart) (o : Nat) : Word :=
  let e := tabGet Msix.reset v.msix (o / 16)
  if o < 0x400 then
    (if o % 16 < 4 then e.addr.setWidth 32 else if o % 16 < 8 then (e.addr >>> 32).setWidth 32 else if o % 16 < 12 then e.data
     else flag e.mask 0)
  else if o = 0x800 then v.pba.setWidth 32
  else if o = 0x804 then (v.pba >>> 32).setWidth 32
  else 0
/-- Write a word of BAR2: the pending-bit array and what is reserved do not change. -/
def bar2Write (h : HDie) (p : Part) (o : Nat) (v : Word) : HDie :=
  if 0x400 ≤ o then h
  else
    let w := h.hp p
    let e := tabGet Msix.reset w.msix (o / 16)
    let e' : Msix :=
      if o % 16 < 4 then { e with addr := (e.addr >>> 32).setWidth 32 ++ v }
      else if o % 16 < 8 then { e with addr := v ++ (e.addr.setWidth 32 : Word) }
      else if o % 16 < 12 then { e with data := v }
      else { e with mask := bit v 0 }
    (h.setHp p { w with msix := tabSet Msix.reset w.msix (o / 16) e' }).msixUnmasked p
/-- REGISTER_READ of BAR2: one aligned 32-bit or 64-bit access (R374). -/
def readBar2 (h : HDie) (p : Part) (o : Nat) (acc : Access) : HDie :=
  if !h.linkOn then h
  else if acc = .dword && o % 4 = 0 then h.emit (.read p (bar2Read (h.hp p) o))
  else if acc = .qword && o % 8 = 0 then h.emit (.readWide p (bar2Read (h.hp p) (o + 4) ++ bar2Read (h.hp p) o))
  else h.emit (.unsupported p)
/-- REGISTER_WRITE of BAR2. -/
def writeBar2 (h : HDie) (p : Part) (o : Nat) (lo hi : Word) (acc : Access) : HDie :=
  if !h.linkOn then h
  else if acc = .dword && o % 4 = 0 then h.bar2Write p o lo
  else if acc = .qword && o % 8 = 0 then (h.bar2Write p o lo).bar2Write p (o + 4) hi
  else h.badWrite p

/-! ### The host TAP (R484, log entry 53) -/

/-- A TAP write: never a token word, and never what writes an NVM image. -/
def tapWrite (h : HDie) (o : Nat) (v : Word) : HDie :=
  if (0x340 ≤ o && o < 0x3C0) || o = 0x304 || (0x100 ≤ o && o < 0x110) then h
  else if o = 0x20 then (if bit v 1 then { h with auto := bit v 0 }.startWake else { h with auto := bit v 0 })
  else h.regWrite 0 o v
/-- An instruction through the host TAP; safe: the safe state holds on the field die. -/
def tapHost (h : HDie) (op : TapOp) (safe : Bool) : HDie :=
  if !h.linkOn then h
  else
    let g := { h with sec := { h.sec with extest := false } }
    match op with
    | .idcode => g.emit (.tap (idcode 0x8141))
    | .bypass => g
    | .sample => g
    | .read o => if g.tapAllowed then (g.regRead 0 o.toNat).2.emit (.tap (g.regRead 0 o.toNat).1) else g
    | .write o v => if g.tapAllowed then g.tapWrite o.toNat v else g
    | .halt => g
    | .resume => g
    | .extest => if g.sec.life = 0 || (bit g.sec.dbgH 1 && bit g.sec.dbgH 3 && safe) then { g with sec := { g.sec with extest := true } } else g

end HDie
end Sys2Proof.Machine
end

