-- ==== Sys2Proof/Machine/HostPower.lean ====
section
/-! DEFINITION. Resets, ports, host STANDBY and thermometry of the host die (15, 17, 19), its clock, and telemetry publication
(08, R234). -/
namespace Sys2Proof.Machine
namespace HDie

/-! ### Starts and resets (R446, R447, R455, R456, R463, R464, R489) -/

/-- What the host NVM gives at a start: each image's payload, and the NVM after its repair. -/
def readNvm (n : HNvm) : (Option Bytes × Option Bytes × Option Bytes × Option Bytes) × HNvm :=
  let a := n.ident.start 0
  let b := n.life.start 1
  let c := n.setup.start 2
  let d := n.count.start 3
  ((a.1, b.1, c.1, d.1),
   { n with ident := a.2, life := b.2, setup := c.2, count := d.2, upd := [],
            lost := BitVec.ofBool d.1.isNone ++ BitVec.ofBool c.1.isNone ++ BitVec.ofBool b.1.isNone ++ BitVec.ofBool a.1.isNone })
/-- The security block of a start from the images: a lost lifecycle is SEALED, lost counters lock presentation for 60 s, a lock-out
starts its 60 s again (R476, R489). -/
def startSec (h : HDie) (im : Option Bytes × Option Bytes × Option Bytes × Option Bytes) : HSec :=
  let life : BitVec 3 := match im.2.1 with | some b => bits (u8 b 0) 0 3 | none => 3
  let bl : BitVec 4 := match im.2.1 with | some b => bits (u8 b 1) 0 4 | none => 0
  let owner : Option Bytes := match im.1 with | some b => (if u8 b 0 = 1 then some (slice b 1 64) else none) | none => none
  let run : Nat := match im.2.2.2 with | some b => (u8 b 2).toNat | none => 0
  let acc : BitVec 16 := match im.2.2.2 with | some b => u16 b 0 | none => 0
  { HSec.start life bl owner (h.sec.chal + 1) run acc h.t (decide (8 ≤ run) || im.2.2.2.isNone) with keyLost := im.1.isNone }
/-- The lost images' records (R491): KEY_LOST for the identity image. -/
def lostRecords (h : HDie) : HDie := if h.sec.keyLost then h.log 0x27 [0] else h
/-- The host die at the end of a start of a kind: W and T fields are clear, and with keep the P fields stay (R456, R458). -/
def start (h : HDie) (k : RstKind) (keep : Bool) : HDie :=
  let r := readNvm h.nvm
  let s := h.startSec r.1
  let h1 : HDie :=
    { t := h.t, st := .run, warm := none, auto := keep && h.auto, lastRst := BitVec.ofNat 3 k.ctorIdx,
      stbyEntries := if keep then h.stbyEntries else 0, fieldStby := false, idleAt := h.t, trn := HTrn.reset,
      part := [], setup := match r.1.2.2.1 with | some b => setupWords b | none => [0, 0, 0, 0],
      sec := { s with refused := if keep then h.sec.refused else 0, logDrop := if keep then h.sec.logDrop else 0,
                      log := if keep then h.sec.log else [] },
      thm := if keep then Field.warmThm h.thm else { Thm.reset with trim := h.thm.trim, shutCount := h.thm.shutCount },
      tDemand := h.tDemand, thmCause := none, nvm := r.2, out := h.out }
  h1.lostRecords
/-- THM_RESTART of the host die, for the next training (R418, R421). -/
def tellRestart (h : HDie) (c : Option (Byte × BitVec 16 × BitVec 16)) : HDie :=
  match c with
  | some (k, a, b) =>
    h.devKeep [(0x30510, Field.word [fld a 0, fld b 16]), (0x30514, fld h.thm.shutCount 0), (0x3051C, Field.word [0x56, fld k 8])]
  | none => h
/-- POR of the host die (R446). -/
def porHost (h : HDie) : HDie := h.start .por false
/-- BOR of the host die (R447). -/
def borHost (h : HDie) : HDie := h.start .bor false
/-- A warm reset of the host die begins, or begins again: its links drop, and it holds until its end (R455, R456). The
commissioning state and debug authorisation of the host TAP end (R481, R483). -/
def warmEntry (h : HDie) (k : RstKind) : HDie :=
  if h.st = .off then h
  else
    let due : Count := h.t + (if k = .pin then 100100 else 100000)
    let s := h.sec
    let recs : List (Byte × Bytes) := (if s.comm.isSome then [(0x23, [3])] else []) ++ (if s.dbgH ≠ 0 then [(0x24, [1, 3])] else [])
    { h with
      st := .reset, warm := some (k, due), trn := HTrn.reset, part := [], fieldStby := false,
      sec := { s with comm := none, dbgF := 0, dbgH := 0, extest := false, busy := none, log := (s.log ++ recs).drop (s.log.length + recs.length - 16),
                      logDrop := satAdd s.logDrop (s.log.length + recs.length - 16) } }
/-- PIN of the host die: RST_N_H is recognised low. -/
def pinHost (h : HDie) : HDie := h.warmEntry .pin
/-- WDT of the host die. -/
def wdtHost (h : HDie) : HDie := h.warmEntry .wdt
/-- HOST_WARM_RESET_END (R455). -/
def warmResetEnd (h : HDie) : HDie :=
  match h.warm with
  | some (k, due) => if h.st = .reset && due ≤ h.t then h.start k true else h
  | none => h

/-! ### Ports (R385, R386, R388) -/

/-- A PART reset of partition p begins (R386, R481): up, the link stays. -/
def partReset (h : HDie) (p : Part) (up : Bool) (v : HPart) : HDie :=
  let h1 := (h.noteIdle).setHp p (clearPart v up)
  let mine := match h.sec.comm with | some (_, q) => decide (q = p) | none => false
  (((if mine then h1.closeComm 4 else h1).sendRst p).tellHold)
/-- LINK_DOWN: DL_Down, or PERST asserted. -/
def linkDown (h : HDie) (p : Part) : HDie :=
  let v := h.hp p
  if h.linkOn && v.linkUp then h.partReset p false { v with linkDowns := satAdd v.linkDowns 1 } else h
/-- HOT_RESET: the port trains again. -/
def hotReset (h : HDie) (p : Part) : HDie :=
  let v := h.hp p
  if h.linkOn && v.linkUp then h.partReset p false { v with linkDowns := satAdd v.linkDowns 1 } else h
/-- FUNCTION_LEVEL_RESET: the link stays, and Bus Master Enable is 0 again. -/
def flr (h : HDie) (p : Part) : HDie :=
  let v := h.hp p
  if h.linkOn && v.linkUp then h.partReset p true { v with flrs := satAdd v.flrs 1 } else h
/-- DELIVERY_HOLD (R388): a port whose link is up, at the speed and width trained, is in D3hot or has Bus Master Enable 0. -/
def deliveryHold (h : HDie) (p : Part) (d3 : Bool) (speed width : BitVec 2) : HDie :=
  let v := h.hp p
  if h.on then
    ((h.noteIdle).setHp p { v with linkUp := true, speed := speed, width := width, d3 := d3 || v.d3, bme := d3 && v.bme }).tellHold
  else h
/-- DELIVERY_RESUME: the port's link is up, it is in D0, and Bus Master Enable is 1; the speed and width trained, and MSI-X Enable
and Function Mask as its configuration space has them (log entry 118). -/
def deliveryResume (h : HDie) (p : Part) (speed width msix : BitVec 2) : HDie :=
  if h.on then
    (((h.modHp p (fun w => { w with linkUp := true, bme := true, d3 := false, speed := speed, width := width, msixOn := bit msix 0,
                                     msixMask := bit msix 1 })).msixUnmasked p).tellHold).syncBlock p
  else h
/-- HOST_STANDBY_ENTRY (R454): no port has served for 100 ms, with AUTO set. -/
def standbyEntry (h : HDie) : HDie :=
  if h.on && h.auto && !parts.any (fun p => serves (h.hp p)) && h.idleAt.toNat + 10000000 ≤ h.t.toNat then
    { h with st := .standby, stbyEntries := satAdd h.stbyEntries 1 }
  else h
/-- HOST_STANDBY_EXIT (R454): a port starts link training or is set to D0. -/
def standbyExit (h : HDie) : HDie := if h.st = .standby then { h with st := .run, idleAt := h.t } else h

/-! ### Thermometry of the host die (R407 to R418) -/

/-- The sites are measured: in every state but a confirmed shutdown (R409). -/
def thmOn (h : HDie) : Bool := h.st ≠ .off
/-- The host die's thermal state goes to the field die where it has changed (R418). -/
def thmChanged (old : HDie) (h : HDie) : HDie :=
  if old.thm.warn = h.thm.warn && old.thm.throttle = h.thm.throttle && old.brokenSites = h.brokenSites then h else h.tellThm
/-- The records that the words of R418 do not carry: a broken site, an unconfirmed shutdown (log entry 52). -/
def thmRecord (h : HDie) (r : Byte × Bytes) : HDie :=
  let site : Word := (u8 r.2 1).setWidth 32 <<< 8
  if h.trn.st ≠ .up then h
  else if r.1 = 0x54 then
    (h.devWr 0x30510 (BitVec.ofNat 32 (leNat r.2 4 2))).devWr 0x3051C (0x54 ||| site ||| (u8 r.2 2).setWidth 32 <<< 16)
  else if r.1 = 0x55 then (h.devWr 0x30510 (u32 r.2 2)).devWr 0x3051C (0x55 ||| site)
  else h
/-- Thermal records of the host die. -/
def thmRecords (h : HDie) (rs : List (Byte × Bytes)) : HDie := rs.foldl (fun (g : HDie) r => g.thmRecord r) h
/-- THERMOMETRY_DEMAND of the host die, every 250 µs of REFCLK_H. -/
def thermoDemand (h : HDie) : HDie :=
  if h.thmOn && h.tDemand ≤ h.t then
    { h with tDemand := h.tDemand + 25000, thm := { h.thm with gate := some (h.t + 1000, h.thm.confirm.map (·.site)) } }
  else h
/-- THERMOMETRY_READING of the host die. -/
def thermoReading (h : HDie) (gates : List Gate) : HDie :=
  match h.thm.gate with
  | none => h
  | some (due, skip) =>
    if h.t < due || !h.thmOn then h
    else
      let r := Thm.judge .host h.thm h.t gates skip
      ((thmChanged h { h with thm := r.1 }).thmRecords r.2.1)
/-- A confirmed shutdown: every port's link stops, and the rails go off (R418). -/
def shutdown (h : HDie) (k : Byte) (a b : BitVec 16) : HDie :=
  { h with
    st := .off, warm := none, trn := HTrn.reset, part := [], thmCause := some (k, a, b),
    thm := { h.thm with shutCount := satAdd h.thm.shutCount 1, gate := none, confirm := [], offN := 0, offRun := 0, offT := 0 } }
/-- CONFIRMING_READING of a host site (R416). -/
def confirmingReading (h : HDie) (k : BitVec 4) (g : Gate) : HDie :=
  if !h.thmOn then h
  else
    let r := Thm.confirmJudge .host h.thm h.t k.toNat g
    let h1 := (thmChanged h { h with thm := r.1 }).thmRecords r.2.1
    match r.2.2 with
    | some (a, b) => h1.shutdown (k.setWidth 8) a b
    | none => h1
/-- HOST_THERMAL_OFF_MEASUREMENT (R418 with R417): one measurement of the four sites, every 10 ms; supplyOk: VINH is within its range. -/
def thermalOffMeasurement (h : HDie) (gates : List Gate) (supplyOk : Bool) : HDie :=
  if h.st ≠ .off || h.thm.offT < 1000000 * (h.thm.offN + 1) then h
  else
    let t := h.thm
    let good := supplyOk && (List.range 4).all (fun k => match gates[k]? with
      | some g => match reading (t.trimAt k) g with | some x => decide (x < t.shutLvl - 60) | none => false
      | none => false)
    let h1 := { h with thm := { t with offN := t.offN + 1, offRun := if good then t.offRun + 1 else 0 } }
    if 100000000 ≤ h1.thm.offT && 3 ≤ h1.thm.offRun then (h1.start .por false).tellRestart h.thmCause else h1

/-! ### The clock -/

/-- The keep-alive domain counts in a thermal shutdown (R417, R418). -/
def offTick (h : HDie) : HDie := if h.st = .off then { h with thm := { h.thm with offT := h.thm.offT + 1 } } else h
/-- One tick of REFCLK_H: KEEPALIVE every 10 µs, the end of the wake signal, and the time for which no port has served. -/
def tick (h : HDie) : HDie := (((({ h with t := h.t + 1 }).offTick).noteIdle).wakeStops false).keepaliveSend

end HDie

/-! ### Telemetry publication (R234, R235) -/

namespace Field
/-- The telemetry table of a partition as the host die has told it. -/
def tlmOf (f : Field) (p : Part) : Tlm := tabGet Tlm.none f.prt.tlm p.toNat
/-- A partition is published to now: it gives a count, it holds a role, and its records are delivered. -/
def tlmWants (f : Field) (p : Part) : Bool := (f.tlmOf p).count ≠ 0 && f.anyRole p && !bit f.prt.hold p.toNat
/-- TELEMETRY_PUBLICATION at a CMP4 fire: a table to each partition that wants one; where the last one has not finished, the
publication is skipped, and the host die is told (R234, R235; log entry 52). -/
def telemetry (f : Field) : Field :=
  match f.takeSys 4 with
  | none => f
  | some g =>
    if g.linkUp then
      ([0, 1, 2, 3] : List Part).foldl (fun (k : Field) p =>
        if !g.tlmWants p then k
        else if g.publishing p then k.tunCpl 0x80 tagSkip (p.setWidth 32)
        else k.publish p (g.tlmOf p).base (g.tlmOf p).first.toNat (g.tlmOf p).count.toNat) g
    else g
end Field
end Sys2Proof.Machine
end

