-- ==== Sys2Proof/Machine/State.lean ====
section
/-! DEFINITION. The state of the block: its two dies and the queue of commands that wait; the reasons to stop, and reset. -/
namespace Sys2Proof.Machine

/-- Reasons for the block to stop with a fault. No command of the table raises one: the spec gives each an effect. -/
inductive Fault where
  /-- Raised by nothing: the spec stops the block nowhere. Safe. -/
  | none
  deriving DecidableEq, Repr

/-- Reasons to refuse a command. -/
inductive Refusal where
  /-- A row of the opcode table without a meaning; no arm raises it. Safe: the model would stop where the hardware goes on. -/
  | notModelled (mnemonic : String)
  deriving DecidableEq, Repr

/-- The block: the commands that wait, oldest first, and the two dies (01, R25). -/
structure State where
  pending : List Instr
  f : Field
  h : HDie
  deriving DecidableEq, Repr

/-- The field die right after its first POR, as Verluith ships the part (00, R20; 19, start-up). -/
def Field.reset : Field := Field.coldStart .por FNvm.reset [] 0 0 0 []
/-- The block right after reset: both dies have left their first POR. -/
def State.reset : State := { pending := [], f := Field.reset, h := HDie.reset }

namespace State
/-- An effect on the field die alone. -/
def onField (s : State) (g : Field → Field) : Host.Outcome State Fault Refusal := .next { s with f := g s.f }
/-- An effect on the host die alone (R24, R25). -/
def onHost (s : State) (g : HDie → HDie) : Host.Outcome State Fault Refusal := .next { s with h := g s.h }
/-- An effect on the die that the command names. -/
def onDie (s : State) (d : Die) (gf : Field → Field) (gh : HDie → HDie) : Host.Outcome State Fault Refusal :=
  match d with
  | .field => s.onField gf
  | .host => s.onHost gh
end State

end Sys2Proof.Machine
end

