-- ==== Sys2Proof/Machine/RunAccess.lean ====
section
/-! DEFINITION. Meanings of register reads, training and the test access ports. -/
namespace Sys2Proof.Machine

/-- REGISTER_READ (R15). -/
def execRegisterRead (p : Part) (w : Window) (off : Word) (acc : Access) (s : State) : Host.Outcome State Fault Refusal :=
  match w with
  | .host => s.onHost (fun h => h.readReg p off.toNat acc)
  | .bar2 => s.onHost (fun h => h.readBar2 p off.toNat acc)
  | .field => if acc = .dword && off.toNat % 4 = 0 then s.onField (fun f => f.readReg p off.toNat)
    else s.onHost (fun h => h.emit (.unsupported p))
/-- TRAINING_REPEAT (R459). -/
def execTrainingRepeat (d : Die) (s : State) : Host.Outcome State Fault Refusal :=
  s.onDie d (fun f => f.trainingRepeat) (fun h => h.trainingRepeat)
/-- TAP_INSTRUCTION (R484). -/
def execTapInstruction (d : Die) (op : TapOp) (s : State) : Host.Outcome State Fault Refusal :=
  s.onDie d (fun f => f.tapField op) (fun h => h.tapHost op s.f.saf.safe)

end Sys2Proof.Machine
end

