-- ==== Sys2Proof/Machine/RunCommands.lean ====
section
/-! DEFINITION. Meanings of the ring commands. -/
namespace Sys2Proof.Machine

/-- NOP (R405). -/
def execNop (c : CmdHdr) (s : State) : Host.Outcome State Fault Refusal :=
  s.onField (fun f => f.command c 0x00 .nop)
/-- FENCE (R403). -/
def execFence (c : CmdHdr) (mask : BitVec 16) (timeout : Word) (s : State) : Host.Outcome State Fault Refusal :=
  s.onHost (fun h => h.fenceCmd c mask timeout)
/-- FENCE_COMPLETE (R403). -/
def execFenceComplete (p : Part) (ring : BitVec 4) (s : State) : Host.Outcome State Fault Refusal :=
  s.onHost (fun h => h.fenceComplete p ring)
/-- FENCE_TIMEOUT (R403). -/
def execFenceTimeout (p : Part) (ring : BitVec 4) (s : State) : Host.Outcome State Fault Refusal :=
  s.onHost (fun h => h.fenceTimeout p ring)
/-- CREATE (R515). -/
def execCreate (c : CmdHdr) (o : CreateOps) (s : State) : Host.Outcome State Fault Refusal :=
  s.onField (fun f => f.command c 0x10 (.create o))
/-- DESTROY (R58). -/
def execDestroy (c : CmdHdr) (s : State) : Host.Outcome State Fault Refusal :=
  s.onField (fun f => f.command c 0x11 .destroy)
/-- RECONFIGURE (R72). -/
def execReconfigure (c : CmdHdr) (o : ReconfOps) (s : State) : Host.Outcome State Fault Refusal :=
  s.onField (fun f => f.command c 0x12 (.reconfigure o))
/-- CLOSE (R70). -/
def execCloseCh (c : CmdHdr) (soft : Bool) (s : State) : Host.Outcome State Fault Refusal :=
  s.onField (fun f => f.command c 0x13 (.closeCh soft))
/-- OPEN (R70). -/
def execOpenCh (c : CmdHdr) (s : State) : Host.Outcome State Fault Refusal :=
  s.onField (fun f => f.command c 0x14 .openCh)
/-- RELEASE (R159). -/
def execRelease (c : CmdHdr) (s : State) : Host.Outcome State Fault Refusal :=
  s.onField (fun f => f.command c 0x15 .release)
/-- GRANT (R379). -/
def execGrant (c : CmdHdr) (grantee : Part) (mask : BitVec 3) (subtree : Bool) (s : State) : Host.Outcome State Fault Refusal :=
  s.onField (fun f => f.command c 0x16 (.grant grantee mask subtree))
/-- READ_CHANNEL (R86). -/
def execReadChannel (c : CmdHdr) (o : ReadOps) (s : State) : Host.Outcome State Fault Refusal :=
  s.onField (fun f => f.command c 0x20 (.readChannel o))
/-- READ_SUBTREE (R404). -/
def execReadSubtree (c : CmdHdr) (o : ReadOps) (first : BitVec 17) (s : State) : Host.Outcome State Fault Refusal :=
  s.onField (fun f => f.command c 0x21 (.readSubtree o first))
/-- READ_PROFILE (R88). -/
def execReadProfile (c : CmdHdr) (o : ReadOps) (profile : BitVec 16) (s : State) : Host.Outcome State Fault Refusal :=
  s.onField (fun f => f.command c 0x22 (.readProfile o profile))
/-- READ_CONTEXT (R215). -/
def execReadContext (c : CmdHdr) (o : ReadOps) (s : State) : Host.Outcome State Fault Refusal :=
  s.onField (fun f => f.command c 0x23 (.readContext o))
/-- READ_ENERGY (R226). -/
def execReadEnergy (c : CmdHdr) (o : ReadOps) (final : Bool) (s : State) : Host.Outcome State Fault Refusal :=
  s.onField (fun f => f.command c 0x24 (.readEnergy o final))
/-- READ_HISTORY (R229). -/
def execReadHistory (c : CmdHdr) (o : ReadOps) (start : BitVec 16) (count : BitVec 16) (s : State) : Host.Outcome State Fault Refusal :=
  s.onField (fun f => f.command c 0x25 (.readHistory o start count))
/-- READ_CAPTURE (R233). -/
def execReadCapture (c : CmdHdr) (o : ReadOps) (slot : BitVec 16) (off : Word) (s : State) : Host.Outcome State Fault Refusal :=
  s.onField (fun f => f.command c 0x26 (.readCapture o slot off))
/-- READ_LOOPSET (R189). -/
def execReadLoopset (c : CmdHdr) (o : ReadOps) (n : Byte) (s : State) : Host.Outcome State Fault Refusal :=
  s.onField (fun f => f.command c 0x27 (.readLoopset o n))
/-- WRITE_PROFILE (R514). -/
def execWriteProfile (c : CmdHdr) (profile : BitVec 16) (data : Bytes) (s : State) : Host.Outcome State Fault Refusal :=
  s.onField (fun f => f.command c 0x30 (.writeProfile profile data))
/-- WRITE_LOOPSET (R191). -/
def execWriteLoopset (c : CmdHdr) (n : Byte) (data : Bytes) (s : State) : Host.Outcome State Fault Refusal :=
  s.onField (fun f => f.command c 0x31 (.writeLoopset n data))
/-- CTX_BANK_WRITE (R200). -/
def execCtxBankWrite (c : CmdHdr) (data : Bytes) (s : State) : Host.Outcome State Fault Refusal :=
  s.onField (fun f => f.command c 0x32 (.bankWrite data))
/-- CTX_SWAP (R200). -/
def execCtxSwap (c : CmdHdr) (s : State) : Host.Outcome State Fault Refusal :=
  s.onField (fun f => f.command c 0x33 .ctxSwap)
/-- ENERGY_SET (R222). -/
def execEnergySet (c : CmdHdr) (imp : BitVec 64) (exp : BitVec 64) (s : State) : Host.Outcome State Fault Refusal :=
  s.onField (fun f => f.command c 0x40 (.energySet imp exp))
/-- DEMAND_RESET (R225). -/
def execDemandReset (c : CmdHdr) (s : State) : Host.Outcome State Fault Refusal :=
  s.onField (fun f => f.command c 0x41 .demandReset)
/-- CAPTURE (R232). -/
def execCapture (c : CmdHdr) (pre : BitVec 16) (post : BitVec 16) (s : State) : Host.Outcome State Fault Refusal :=
  s.onField (fun f => f.command c 0x42 (.capture pre post))
/-- CAPTURE_FREE (R233). -/
def execCaptureFree (c : CmdHdr) (slot : BitVec 16) (s : State) : Host.Outcome State Fault Refusal :=
  s.onField (fun f => f.command c 0x43 (.captureFree slot))

end Sys2Proof.Machine
end

