-- ==== Sys2Proof/Machine/RunConversions.lean ====
section
/-! DEFINITION. Meanings of the direct channels' and converters' events. -/
namespace Sys2Proof.Machine

/-- COMPARATOR_CROSSING (R290). -/
def execComparatorCrossing (n : BitVec 4) (x : Crossing) (s : State) : Host.Outcome State Fault Refusal :=
  s.onField (fun f => f.comparatorCrossing n x.run x.delay.lat x.delay.pres)
/-- HOLDOFF_EXPIRY (R291). -/
def execHoldoffExpiry (n : BitVec 4) (asserted : Bool) (s : State) : Host.Outcome State Fault Refusal :=
  s.onField (fun f => f.holdoffExpiry n asserted)
/-- HOLD_LIMIT_EXPIRY (R291). -/
def execHoldLimitExpiry (n : BitVec 4) (asserted : Bool) (s : State) : Host.Outcome State Fault Refusal :=
  s.onField (fun f => f.holdLimitExpiry n asserted)
/-- CLEAR_TIME_EXPIRY (R291). -/
def execClearTimeExpiry (n : BitVec 4) (s : State) : Host.Outcome State Fault Refusal :=
  s.onField (fun f => f.clearTimeExpiry n)
/-- DFB_LEVEL (R294). -/
def execDfbLevel (n : BitVec 4) (x : PinRun) (s : State) : Host.Outcome State Fault Refusal :=
  s.onField (fun f => f.dfbLevel n x.pin x.run)
/-- DRIVER_STUCK (R294). -/
def execDriverStuck (n : BitVec 4) (s : State) : Host.Outcome State Fault Refusal :=
  s.onField (fun f => f.driverStuck n)
/-- SCAN_SLOT_CONVERSION (R299). -/
def execScanSlotConversion (n : BitVec 4) (rawI : BitVec 16) (rawV : BitVec 16) (s : State) : Host.Outcome State Fault Refusal :=
  s.onField (fun f => f.scanSlot n rawI rawV)
/-- REF_READY (R302). -/
def execRefReady (s : State) : Host.Outcome State Fault Refusal :=
  s.onField (fun f => f.refReadyAt)
/-- ADC_CROSS_CHECK (R303). -/
def execAdcCrossCheck (t : Count) (rawA : BitVec 16) (rawB : BitVec 16) (s : State) : Host.Outcome State Fault Refusal :=
  s.onField (fun f => f.crossCheck t rawA rawB)
/-- ADC_CALIBRATION_STEP (R304). -/
def execAdcCalibrationStep (t : Count) (s : State) : Host.Outcome State Fault Refusal :=
  s.onField (fun f => f.calibrationStep t)
/-- ADC_REG_CONVERSION (R305). -/
def execAdcRegConversion (e : End) (raw : BitVec 16) (s : State) : Host.Outcome State Fault Refusal :=
  s.onField (fun f => f.regConversion e raw)
/-- ADC_INJ_TRIGGER (R306). -/
def execAdcInjTrigger (m : BitVec 2) (s : State) : Host.Outcome State Fault Refusal :=
  s.onField (fun f => f.injTrigger m)
/-- ADC_INJ_DONE (R308). -/
def execAdcInjDone (m : BitVec 2) (t : Count) (rawA : List (BitVec 16)) (rawB : List (BitVec 16)) (s : State) : Host.Outcome State Fault Refusal :=
  s.onField (fun f => f.injDone m t rawA rawB)

end Sys2Proof.Machine
end

