-- ==== Sys2Proof/Machine/RunInsertions.lean ====
section
/-! DEFINITION. Meanings of the insertion, context and stream events. -/
namespace Sys2Proof.Machine

/-- CONTEXT_CLAIM (R170). -/
def execContextClaim (s : State) : Host.Outcome State Fault Refusal :=
  s.onField (fun f => f.contextClaim)
/-- QUEUE_TIMEOUT (R171). -/
def execQueueTimeout (x : BitVec 17) (s : State) : Host.Outcome State Fault Refusal :=
  s.onField (fun f => f.queueTimeout x)
/-- STREAM_FAIL (R175). -/
def execStreamFail (x : BitVec 17) (s : State) : Host.Outcome State Fault Refusal :=
  s.onField (fun f => f.streamFail x)
/-- RAMP_TIMEOUT (R176). -/
def execRampTimeout (x : BitVec 17) (s : State) : Host.Outcome State Fault Refusal :=
  s.onField (fun f => f.rampTimeout x)
/-- SETTLE_FAIL (R180). -/
def execSettleFail (x : BitVec 17) (s : State) : Host.Outcome State Fault Refusal :=
  s.onField (fun f => f.settleFail x)
/-- LOOP_SAMPLE (R194). -/
def execLoopSample (n : BitVec 8) (rawI : BitVec 16) (rawV : BitVec 16) (lat : Nat) (s : State) : Host.Outcome State Fault Refusal :=
  s.onField (fun f => f.loopSample n.toNat rawI rawV lat)
/-- MISSING_PERIOD (R209). -/
def execMissingPeriod (n : BitVec 8) (s : State) : Host.Outcome State Fault Refusal :=
  s.onField (fun f => f.missingPeriod n.toNat)
/-- RAMP_OFF_STEP (R212). -/
def execRampOffStep (n : BitVec 8) (s : State) : Host.Outcome State Fault Refusal :=
  s.onField (fun f => f.rampOffStep n.toNat)
/-- CAPTURE_WAIT_EXPIRY (R232). -/
def execCaptureWaitExpiry (s : State) : Host.Outcome State Fault Refusal :=
  s.onField (fun f => f.captureWaitExpiry)
/-- PRETRIGGER_RELEASE (R300). -/
def execPretriggerRelease (n : BitVec 4) (s : State) : Host.Outcome State Fault Refusal :=
  s.onField (fun f => f.pretriggerRelease n)
/-- STREAM_SAMPLE (R193). -/
def execStreamSample (l : BitVec 5) (slot : BitVec 3) (pre : Bool) (seq : BitVec 4) (w : Word) (crcOk : Bool) (s : State) : Host.Outcome State Fault Refusal :=
  s.onField (fun f => f.streamSample l slot pre seq w crcOk)

end Sys2Proof.Machine
end

