-- ==== Sys2Proof/Machine/RunLaneEvents.lean ====
section
/-! DEFINITION. Meanings of the lane events. -/
namespace Sys2Proof.Machine

/-- WRAP (R246). -/
def execWrap (l : BitVec 5) (pos : BitVec 6) (west : Bool) (crcOk : Bool) (s : State) : Host.Outcome State Fault Refusal :=
  s.onField (fun f => f.wrap l pos west crcOk)
/-- RESTORED (R247). -/
def execRestored (l : BitVec 5) (pos : BitVec 6) (west : Bool) (crcOk : Bool) (s : State) : Host.Outcome State Fault Refusal :=
  s.onField (fun f => f.restored l pos west crcOk)
/-- LOSS_OF_SIGNAL (R244). -/
def execLossOfSignal (l : BitVec 5) (e : End) (s : State) : Host.Outcome State Fault Refusal :=
  s.onField (fun f => f.lossOfSignal l e)
/-- RECEIVER_LOCK (R242). -/
def execReceiverLock (l : BitVec 5) (e : End) (s : State) : Host.Outcome State Fault Refusal :=
  s.onField (fun f => f.receiverLock l e)
/-- LANE_TRAIN_TIMEOUT (R242). -/
def execLaneTrainTimeout (l : BitVec 5) (s : State) : Host.Outcome State Fault Refusal :=
  s.onField (fun f => f.laneTrainTimeout l)
/-- MARK_LOOP_FAIL (R246). -/
def execMarkLoopFail (l : BitVec 5) (s : State) : Host.Outcome State Fault Refusal :=
  s.onField (fun f => f.markLoopFail l)
/-- OUTSTATION_MISSING (R250). -/
def execOutstationMissing (l : BitVec 5) (pos : BitVec 6) (s : State) : Host.Outcome State Fault Refusal :=
  s.onField (fun f => f.outstationMissing l pos)
/-- HEALTH_POLL (R254). -/
def execHealthPoll (s : State) : Host.Outcome State Fault Refusal :=
  s.onField (fun f => f.healthPollRow)
/-- HEALTH_ANSWER (R251): an answer counts at whichever end it arrives. -/
def execHealthAnswer (l : BitVec 5) (_e : End) (cs : List LChar) (s : State) : Host.Outcome State Fault Refusal :=
  s.onField (fun f => f.healthAnswer l cs)
/-- HEALTH_POLL_TIMEOUT (R254). -/
def execHealthPollTimeout (l : BitVec 5) (pos : BitVec 6) (s : State) : Host.Outcome State Fault Refusal :=
  s.onField (fun f => f.healthPollTimeout l pos)
/-- ENERGY_ANSWER (R219): an answer counts at whichever end it arrives. -/
def execEnergyAnswer (l : BitVec 5) (_e : End) (cs : List LChar) (s : State) : Host.Outcome State Fault Refusal :=
  s.onField (fun f => f.energyAnswer l cs)
/-- COMMAND_RESEND (R277). -/
def execCommandResend (l : BitVec 5) (pos : BitVec 6) (s : State) : Host.Outcome State Fault Refusal :=
  s.onField (fun f => f.commandResend l pos)
/-- LANE_DEGRADED (R253). -/
def execLaneDegraded (l : BitVec 5) (cvA : Nat) (cvB : Nat) (s : State) : Host.Outcome State Fault Refusal :=
  s.onField (fun f => f.laneDegraded l cvA cvB)
/-- MARK_REACHES_END_B (R242). -/
def execMarkReachesEndB (l : BitVec 5) (ticks : BitVec 16) (s : State) : Host.Outcome State Fault Refusal :=
  s.onField (fun f => f.markReachesEndB l ticks)

end Sys2Proof.Machine
end

