-- ==== Sys2Proof/Machine/RunRegisters.lean ====
section
/-! DEFINITION. Meanings of the register accesses with rows of their own. -/
namespace Sys2Proof.Machine

/-- REGISTER_WRITE (R15). -/
def execRegisterWrite (p : Part) (w : Window) (off : Word) (v : BitVec 64) (acc : Access) (s : State) :
    Host.Outcome State Fault Refusal :=
  match w with
  | .host => s.onHost (fun h => h.writeReg p off.toNat (v.setWidth 32) acc s.f.saf.confirmed s.f.saf.safe s.f.saf.active)
  | .bar2 => s.onHost (fun h => h.writeBar2 p off.toNat (v.setWidth 32) (bits v 32 32) acc)
  | .field => if acc = .dword && off.toNat % 4 = 0 then s.onField (fun f => f.byPart p (fun g => g.regWrite p off.toNat (v.setWidth 32)))
    else s.onHost (fun h => h.badWrite p)
/-- WIDE_LO_READ (R313). -/
def execWideLoRead (p : Part) (r : WideReg) (s : State) : Host.Outcome State Fault Refusal :=
  s.onField (fun f => f.wideLoRow p r)
/-- HI_WRITE_COMMIT (R315). -/
def execHiWriteCommit (p : Part) (off : Word) (v : Word) (s : State) : Host.Outcome State Fault Refusal :=
  s.onField (fun f => f.byPart p (fun g => g.hiWriteCommit p off v))
/-- MER_SLEW (R321). -/
def execMerSlew (p : Part) (v : Word) (s : State) : Host.Outcome State Fault Refusal :=
  s.onField (fun f => f.byPart p (fun g => g.merSlew p v))
/-- SLEW_STEP (R321). -/
def execSlewStep (s : State) : Host.Outcome State Fault Refusal :=
  s.onField (fun f => f.slewStep)
/-- TIMER_CLAIM (R328). -/
def execTimerClaim (p : Part) (t : Timer) (s : State) : Host.Outcome State Fault Refusal :=
  s.onField (fun f => f.byPart p (fun g => g.timerClaim p t))
/-- TIMER_RELEASE (R328). -/
def execTimerRelease (p : Part) (t : Timer) (s : State) : Host.Outcome State Fault Refusal :=
  s.onField (fun f => f.byPart p (fun g => g.timerRelease p t))
/-- LOAD (R334). -/
def execLoad (p : Part) (k : BitVec 4) (ctl : Word) (s : State) : Host.Outcome State Fault Refusal :=
  s.onField (fun f => f.byPart p (fun g => g.dctLoad p k ctl))
/-- COLD_ACK_WRITE (R75). -/
def execColdAckWrite (p : Part) (v : Word) (s : State) : Host.Outcome State Fault Refusal :=
  s.onField (fun f => f.byPart p (fun g => g.coldAckWrite p v))
/-- LANE_ENABLE (R242). -/
def execLaneEnable (p : Part) (l : BitVec 5) (en : Bool) (s : State) : Host.Outcome State Fault Refusal :=
  s.onField (fun f => f.byPart p (fun g => g.laneEnable p l en))
/-- REENUM (R249). -/
def execReenum (p : Part) (l : BitVec 5) (s : State) : Host.Outcome State Fault Refusal :=
  s.onField (fun f => f.byPart p (fun g => g.reenum p l))
/-- HEAL (R247). -/
def execHeal (p : Part) (l : BitVec 5) (s : State) : Host.Outcome State Fault Refusal :=
  s.onField (fun f => f.byPart p (fun g => g.heal p l))
/-- HOLD_ALL (R155). -/
def execHoldAll (p : Part) (v : Bool) (s : State) : Host.Outcome State Fault Refusal :=
  s.onField (fun f => f.byPart p (fun g => g.holdAllWrite p v))
/-- HIST_CFG_WRITE (R229). -/
def execHistCfgWrite (p : Part) (v : Word) (s : State) : Host.Outcome State Fault Refusal :=
  s.onField (fun f => f.byPart p (fun g => g.histCfg p v))
/-- ADC_INJ_SWTRIG (R306). -/
def execAdcInjSwtrig (p : Part) (mask : BitVec 4) (s : State) : Host.Outcome State Fault Refusal :=
  s.onField (fun f => f.byPart p (fun g => g.injSwtrig p mask))
/-- REFBUF_EN (R302). -/
def execRefbufEn (p : Part) (b : Bool) (s : State) : Host.Outcome State Fault Refusal :=
  s.onField (fun f => f.byPart p (fun g => g.refbufEn p b))
/-- LOG_SELECT (R472). -/
def execLogSelect (p : Part) (seq : Word) (s : State) : Host.Outcome State Fault Refusal :=
  s.onField (fun f => f.byPart p (fun g => g.logSelect p seq))
/-- REQ_RUN_QUIET (R448). -/
def execReqRunQuiet (p : Part) (quiet : Bool) (s : State) : Host.Outcome State Fault Refusal :=
  s.onField (fun f => f.byPart p (fun g => g.reqRunQuiet p quiet))
/-- REQ_STANDBY (R449). -/
def execReqStandby (p : Part) (s : State) : Host.Outcome State Fault Refusal :=
  s.onField (fun f => f.byPart p (fun g => g.reqStandby p))
/-- STANDBY_ENTRY (R450). -/
def execStandbyEntry (s : State) : Host.Outcome State Fault Refusal :=
  s.onField (fun f => f.standbyEntry)
/-- SOFT (R454). -/
def execSoft (p : Part) (key : BitVec 16) (s : State) : Host.Outcome State Fault Refusal :=
  s.onField (fun f => f.byPart p (fun g => g.softReset p key))
/-- WAKE_FIELD (R367). -/
def execWakeField (p : Part) (s : State) : Host.Outcome State Fault Refusal :=
  s.onHost (fun h => h.wakeField p)
/-- ENTER (R444). -/
def execEnterSafe (p : Part) (v : Bool) (s : State) : Host.Outcome State Fault Refusal :=
  s.onField (fun f => f.byPart p (fun g => g.safEnter p v))
/-- SAF_CONFIRM (R440). -/
def execSafConfirm (p : Part) (v : Word) (s : State) : Host.Outcome State Fault Refusal :=
  s.onField (fun f => f.byPart p (fun g => g.safConfirm p v))
/-- PART_SETUP_WRITE (R376). -/
def execPartSetupWrite (p : Part) (n : Part) (v : Word) (s : State) : Host.Outcome State Fault Refusal :=
  s.onHost (fun h => h.partSetupWrite p n v)
/-- RING_CFG_WRITE (R397). -/
def execRingCfgWrite (p : Part) (isCq : Bool) (n : BitVec 4) (v : Word) (s : State) : Host.Outcome State Fault Refusal :=
  s.onHost (fun h => h.ringCfg p isCq n v)

end Sys2Proof.Machine
end

