-- ==== Sys2Proof/Machine/RunResets.lean ====
section
/-! DEFINITION. Meanings of the resets and wake sources. -/
namespace Sys2Proof.Machine

/-- POR (R446). -/
def execPor (d : Die) (s : State) : Host.Outcome State Fault Refusal :=
  s.onDie d (fun f => f.porField) (fun h => h.porHost)
/-- BOR (R447). -/
def execBor (d : Die) (s : State) : Host.Outcome State Fault Refusal :=
  s.onDie d (fun f => f.borField) (fun h => h.borHost)
/-- PIN (R455). -/
def execPin (d : Die) (s : State) : Host.Outcome State Fault Refusal :=
  s.onDie d (fun f => f.pinField) (fun h => h.pinHost)
/-- WDT (R455). -/
def execWdt (d : Die) (s : State) : Host.Outcome State Fault Refusal :=
  s.onDie d (fun f => f.wdtField) (fun h => h.wdtHost)
/-- WARM_RESET_END (R182). -/
def execWarmResetEnd (s : State) : Host.Outcome State Fault Refusal :=
  s.onField (fun f => f.warmResetEnd)
/-- HOST_WARM_RESET_END (R455). -/
def execHostWarmResetEnd (s : State) : Host.Outcome State Fault Refusal :=
  s.onHost (fun h => h.warmResetEnd)
/-- WAKE_PIN (R452). -/
def execWakePin (s : State) : Host.Outcome State Fault Refusal :=
  s.onField (fun f => f.wakePin)
/-- WAKE_TIME (R452). -/
def execWakeTime (s : State) : Host.Outcome State Fault Refusal :=
  s.onField (fun f => f.wakeTime)

end Sys2Proof.Machine
end

