-- ==== Sys2Proof/Machine/RunRings.lean ====
section
/-! DEFINITION. Meanings of the ring engines' and the ports' events. -/
namespace Sys2Proof.Machine

/-- DOORBELL_POLL (R392). -/
def execDoorbellPoll (p : Part) (s : State) : Host.Outcome State Fault Refusal :=
  s.onHost (fun h => h.doorbellPoll p)
/-- DESCRIPTOR_FETCH (R393). -/
def execDescriptorFetch (p : Part) (db : List Word) (reads : List RingRead) (s : State) : Host.Outcome State Fault Refusal :=
  s.onHost (fun h => h.descriptorFetch p db reads)
/-- PAYLOAD_READ_DONE (R362). -/
def execPayloadReadDone (p : Part) (ring : BitVec 4) (pos : BitVec 16) (ok : Bool) (data : Bytes) (s : State) : Host.Outcome State Fault Refusal :=
  s.onHost (fun h => h.payloadReadDone p ring pos ok data)
/-- MSIX_TIMER_EXPIRY (R401). -/
def execMsixTimerExpiry (p : Part) (ring : BitVec 4) (s : State) : Host.Outcome State Fault Refusal :=
  s.onHost (fun h => h.msixTimer p ring)
/-- LINK_DOWN (R385). -/
def execLinkDown (p : Part) (s : State) : Host.Outcome State Fault Refusal :=
  s.onHost (fun h => h.linkDown p)
/-- HOT_RESET (R385). -/
def execHotReset (p : Part) (s : State) : Host.Outcome State Fault Refusal :=
  s.onHost (fun h => h.hotReset p)
/-- FUNCTION_LEVEL_RESET (R385). -/
def execFunctionLevelReset (p : Part) (s : State) : Host.Outcome State Fault Refusal :=
  s.onHost (fun h => h.flr p)
/-- DELIVERY_HOLD (R388). -/
def execDeliveryHold (p : Part) (x : PortHold) (s : State) : Host.Outcome State Fault Refusal :=
  s.onHost (fun h => h.deliveryHold p x.d3 x.link.speed x.link.width)
/-- DELIVERY_RESUME (R388). -/
def execDeliveryResume (p : Part) (link : PortLink) (msix : BitVec 2) (s : State) :
    Host.Outcome State Fault Refusal :=
  s.onHost (fun h => h.deliveryResume p link.speed link.width msix)
/-- HOST_STANDBY_ENTRY (R454). -/
def execHostStandbyEntry (s : State) : Host.Outcome State Fault Refusal :=
  s.onHost (fun h => h.standbyEntry)
/-- HOST_STANDBY_EXIT (R454). -/
def execHostStandbyExit (s : State) : Host.Outcome State Fault Refusal :=
  s.onHost (fun h => h.standbyExit)

end Sys2Proof.Machine
end

