-- ==== Sys2Proof/Machine/RunSafetyEvents.lean ====
section
/-! DEFINITION. Meanings of the safety function's events. -/
namespace Sys2Proof.Machine

/-- EPO_LEVEL (R424). -/
def execEpoLevel (k : BitVec 2) (side : End) (lvl : Bool) (s : State) : Host.Outcome State Fault Refusal :=
  s.onField (fun f => f.epoLevel k side lvl)
/-- DISCREPANCY_EXPIRY (R429). -/
def execDiscrepancyExpiry (k : BitVec 2) (s : State) : Host.Outcome State Fault Refusal :=
  s.onField (fun f => f.discrepancyExpiry k)
/-- EPO_TEST_SCHEDULE (R431). -/
def execEpoTestSchedule (logicOk : Bool) (s : State) : Host.Outcome State Fault Refusal :=
  s.onField (fun f => f.epoTestRow logicOk)
/-- TEST_PULSE_START (R431). -/
def execTestPulseStart (ch : BitVec 3) (s : State) : Host.Outcome State Fault Refusal :=
  s.onField (fun f => f.testPulseStart ch)
/-- TEST_PULSE_END (R432). -/
def execTestPulseEnd (ch : BitVec 3) (s : State) : Host.Outcome State Fault Refusal :=
  s.onField (fun f => f.testPulseEnd ch)
/-- MASK_END (R432). -/
def execMaskEnd (ch : BitVec 3) (s : State) : Host.Outcome State Fault Refusal :=
  s.onField (fun f => f.maskEnd ch)
/-- OUTPUT_MISMATCH (R434). -/
def execOutputMismatch (pin : OutPin) (s : State) : Host.Outcome State Fault Refusal :=
  s.onField (fun f => f.outputMismatch pin)
/-- OUTPUT_MATCH (R434). -/
def execOutputMatch (pin : OutPin) (s : State) : Host.Outcome State Fault Refusal :=
  s.onField (fun f => f.outputMatch pin)
/-- PARAM_CHECK (R441). -/
def execParamCheck (flips : List (BitVec 9 × Byte)) (badA : Bool) (badB : Bool) (s : State) : Host.Outcome State Fault Refusal :=
  s.onField (fun f => f.paramCheck flips badA badB)
/-- REARM_PRESS (R435). -/
def execRearmPress (s : State) : Host.Outcome State Fault Refusal :=
  s.onField (fun f => f.rearmPress)
/-- REARM_RELEASE (R436). -/
def execRearmRelease (s : State) : Host.Outcome State Fault Refusal :=
  s.onField (fun f => f.rearmRelease)
/-- STUCK_REARM (R435). -/
def execStuckRearm (s : State) : Host.Outcome State Fault Refusal :=
  s.onField (fun f => f.stuckRearm)
/-- REARM_STUCK_CLEAR (R437). -/
def execRearmStuckClear (s : State) : Host.Outcome State Fault Refusal :=
  s.onField (fun f => f.rearmStuckClear)

end Sys2Proof.Machine
end

