-- ==== Sys2Proof/Machine/RunSamples.lean ====
section
/-! DEFINITION. Meanings of the superframe, sample, selectivity and retry events. -/
namespace Sys2Proof.Machine

/-- SUPERFRAME_MARK (R261). -/
def execSuperframeMark (s : State) : Host.Outcome State Fault Refusal :=
  s.onField (fun f => f.superframeMark)
/-- STREAM_CYCLE (R262). -/
def execStreamCycle (l : BitVec 5) (s : State) : Host.Outcome State Fault Refusal :=
  s.onField (fun f => f.streamCycle l)
/-- TELEMETRY_FRAME (R82). -/
def execTelemetryFrame (l : BitVec 5) (e : End) (cs : List LChar) (s : State) : Host.Outcome State Fault Refusal :=
  s.onField (fun f => f.telemetryFrame l e cs)
/-- TELEMETRY_MISSING (R82). -/
def execTelemetryMissing (l : BitVec 5) (pos : BitVec 6) (s : State) : Host.Outcome State Fault Refusal :=
  s.onField (fun f => f.telemetryMissing l pos)
/-- INGEST_UPDATE (R96). -/
def execIngestUpdate (x : BitVec 17) (s : State) : Host.Outcome State Fault Refusal :=
  s.onField (fun f => f.ingestRow x)
/-- MIRROR_UPDATE (R105). -/
def execMirrorUpdate (x : BitVec 17) (s : State) : Host.Outcome State Fault Refusal :=
  s.onField (fun f => f.mirrorUpdate x)
/-- RETRY_POLICY (R148). -/
def execRetryPolicy (x : BitVec 17) (s : State) : Host.Outcome State Fault Refusal :=
  s.onField (fun f => f.retryPolicy x)
/-- FALLBACK_UNSYNCED (R111). -/
def execFallbackUnsynced (x : BitVec 17) (s : State) : Host.Outcome State Fault Refusal :=
  s.onField (fun f => f.fallbackUnsynced x)
/-- FAULT_SEEN (R123). -/
def execFaultSeen (l : BitVec 5) (pos : BitVec 6) (pt : BitVec 6) (fnum : Byte) (opened : Bool) (crcOk : Bool) (delay : Delay) (s : State) : Host.Outcome State Fault Refusal :=
  s.onField (fun f => f.faultSeenRow l pos pt fnum opened crcOk delay.lat delay.pres)
/-- CLEARED (R128). -/
def execCleared (l : BitVec 5) (pos : BitVec 6) (pt : BitVec 6) (fnum : Byte) (crcOk : Bool) (s : State) : Host.Outcome State Fault Refusal :=
  s.onField (fun f => f.clearedSeen l pos pt fnum crcOk)
/-- GATHER_DEADLINE (R124). -/
def execGatherDeadline (n : BitVec 16) (s : State) : Host.Outcome State Fault Refusal :=
  s.onField (fun f => f.gatherRow n)
/-- BREAKER_FAILURE_EXPIRY (R129). -/
def execBreakerFailureExpiry (n : BitVec 16) (s : State) : Host.Outcome State Fault Refusal :=
  s.onField (fun f => f.bfRow n)
/-- STORM_QUIET_EXPIRY (R142). -/
def execStormQuietExpiry (node : BitVec 17) (code : Byte) (p : Part) (s : State) : Host.Outcome State Fault Refusal :=
  s.onField (fun f => f.stormQuiet node code p)
/-- DEPTH_REWRITE (R114). -/
def execDepthRewrite (x : BitVec 17) (s : State) : Host.Outcome State Fault Refusal :=
  s.onField (fun f => f.depthRewrite x)
/-- RETRY_DUE (R153). -/
def execRetryDue (x : BitVec 17) (lag : Nat) (s : State) : Host.Outcome State Fault Refusal :=
  s.onField (fun f => f.retryDue x lag)
/-- STABLE_DUE (R151). -/
def execStableDue (x : BitVec 17) (lag : Nat) (s : State) : Host.Outcome State Fault Refusal :=
  s.onField (fun f => f.stableDue x lag)

end Sys2Proof.Machine
end

