-- ==== Sys2Proof/Machine/RunSecurity.lean ====
section
/-! DEFINITION. Meanings of the security actions and their expiries. -/
namespace Sys2Proof.Machine

/-- SET_OWNER (R478). -/
def execSetOwner (p : Part) (s : State) : Host.Outcome State Fault Refusal :=
  s.onHost (fun h => h.setOwner p)
/-- COMMISSION (R480). -/
def execCommission (p : Part) (s : State) : Host.Outcome State Fault Refusal :=
  s.onHost (fun h => h.commission p)
/-- COMM_EXIT (R481). -/
def execCommExit (p : Part) (s : State) : Host.Outcome State Fault Refusal :=
  s.onHost (fun h => h.commExit p)
/-- DEBUG (R483). -/
def execDebug (p : Part) (s : State) : Host.Outcome State Fault Refusal :=
  s.onHost (fun h => h.debug p)
/-- DEBUG_END (R483). -/
def execDebugEnd (p : Part) (s : State) : Host.Outcome State Fault Refusal :=
  s.onHost (fun h => h.debugEnd p)
/-- FIELD (R478). -/
def execToFielded (p : Part) (s : State) : Host.Outcome State Fault Refusal :=
  s.onHost (fun h => h.fieldAct p s.f.saf.confirmed)
/-- SEAL (R478). -/
def execToSealed (p : Part) (s : State) : Host.Outcome State Fault Refusal :=
  s.onHost (fun h => h.sealAct p)
/-- RETURN (R479). -/
def execReturnPart (p : Part) (s : State) : Host.Outcome State Fault Refusal :=
  s.onHost (fun h => h.returnPart p)
/-- SET_BL (R487). -/
def execSetBl (p : Part) (level : BitVec 4) (s : State) : Host.Outcome State Fault Refusal :=
  s.onHost (fun h => h.setBl p level s.f.saf.safe)
/-- ATTEST (R490). -/
def execAttest (p : Part) (s : State) : Host.Outcome State Fault Refusal :=
  s.onHost (fun h => h.attest p s.f.saf.active)
/-- COMMISSIONING_EXPIRY (R481). -/
def execCommissioningExpiry (s : State) : Host.Outcome State Fault Refusal :=
  s.onHost (fun h => h.commExpiry)
/-- DEBUG_EXPIRY (R483). -/
def execDebugExpiry (s : State) : Host.Outcome State Fault Refusal :=
  s.onHost (fun h => h.debugExpiry)
/-- CHALLENGE_EXPIRY (R475). -/
def execChallengeExpiry (s : State) : Host.Outcome State Fault Refusal :=
  s.onHost (fun h => h.challengeExpiry)
/-- LOCKOUT_END (R476). -/
def execLockoutEnd (s : State) : Host.Outcome State Fault Refusal :=
  s.onHost (fun h => h.lockoutEnd)

end Sys2Proof.Machine
end

