-- ==== Sys2Proof/Machine/RunStores.lean ====
section
/-! DEFINITION. Meanings of the events of Firn, the Névé scrub and the NVM. -/
namespace Sys2Proof.Machine

/-- FIRN_READY (R343). -/
def execFirnReady (s : State) : Host.Outcome State Fault Refusal :=
  s.onField (fun f => f.firnReady)
/-- FILL_DONE (R342). -/
def execFillDone (s : State) : Host.Outcome State Fault Refusal :=
  s.onField (fun f => f.fillDone)
/-- CA_PARITY_ALERT (R344). -/
def execCaParityAlert (wcrc : Bool) (first : Bool) (s : State) : Host.Outcome State Fault Refusal :=
  s.onField (fun f => f.caParityAlert wcrc first)
/-- PLOUGH_BLOCK (R356). -/
def execPloughBlock (pats : List (BitVec 31 × Bytes)) (s : State) : Host.Outcome State Fault Refusal :=
  s.onField (fun f => f.ploughBlock pats)
/-- NEVE_SCRUB (R43). -/
def execNeveScrub (pats : List (BitVec 18 × Bytes)) (s : State) : Host.Outcome State Fault Refusal :=
  s.onField (fun f => f.neveScrub pats)
/-- NEVE_RECOVERY_DONE (R351). -/
def execNeveRecoveryDone (x : BitVec 17) (s : State) : Host.Outcome State Fault Refusal :=
  s.onField (fun f => f.neveRecoveryDone x)
/-- FIRN_DOWN_TIMEOUT (R343). -/
def execFirnDownTimeout (s : State) : Host.Outcome State Fault Refusal :=
  s.onField (fun f => f.firnDownTimeout)
/-- LOG_WRITE (R469). -/
def execLogWrite (bad : Bool) (s : State) : Host.Outcome State Fault Refusal :=
  s.onField (fun f => f.logWrite bad)
/-- SECTOR_ERASE_DONE (R469). -/
def execSectorEraseDone (bad : Bool) (s : State) : Host.Outcome State Fault Refusal :=
  s.onField (fun f => f.sectorEraseDone bad)
/-- IMAGE_UPDATE (R462). -/
def execImageUpdate (d : Die) (item : BitVec 2) (bad : Bool) (s : State) : Host.Outcome State Fault Refusal :=
  s.onDie d (fun f => f.imageUpdate item.toNat bad) (fun h => h.imageUpdate item.toNat bad)
/-- LOG_SCAN (R471). -/
def execLogScan (s : State) : Host.Outcome State Fault Refusal :=
  s.onField (fun f => f.logScan)
/-- TOKEN_REFILL (R468). -/
def execTokenRefill (s : State) : Host.Outcome State Fault Refusal :=
  s.onField (fun f => f.tokenRefill)

end Sys2Proof.Machine
end

