-- ==== Sys2Proof/Machine/RunTemperatures.lean ====
section
/-! DEFINITION. Meanings of the thermometry events. -/
namespace Sys2Proof.Machine

/-- THROTTLE_STEP2 (R38). -/
def execThrottleStep2 (s : State) : Host.Outcome State Fault Refusal :=
  s.onField (fun f => f.throttleStep2)
/-- DEFER_SPAN_CLOSE (R41). -/
def execDeferSpanClose (s : State) : Host.Outcome State Fault Refusal :=
  s.onField (fun f => f.deferSpanClose)
/-- THERMOMETRY_DEMAND (R407). -/
def execThermometryDemand (d : Die) (s : State) : Host.Outcome State Fault Refusal :=
  s.onDie d (fun f => f.thermoDemand) (fun h => h.thermoDemand)
/-- THERMOMETRY_READING (R414). -/
def execThermometryReading (d : Die) (gates : List Gate) (s : State) : Host.Outcome State Fault Refusal :=
  s.onDie d (fun f => f.thermoReading gates) (fun h => h.thermoReading gates)
/-- CONFIRMING_READING (R416). -/
def execConfirmingReading (d : Die) (k : BitVec 4) (g : Gate) (s : State) : Host.Outcome State Fault Refusal :=
  s.onDie d (fun f => f.confirmingReading k g) (fun h => h.confirmingReading k g)
/-- THERMAL_OFF_MEASUREMENT (R417). -/
def execThermalOffMeasurement (gates : List Gate) (supplyOk : Bool) (s : State) : Host.Outcome State Fault Refusal :=
  s.onField (fun f => f.thermalOffMeasurement gates supplyOk)
/-- HOST_THERMAL_OFF_MEASUREMENT (R418). -/
def execHostThermalOffMeasurement (gates : List Gate) (supplyOk : Bool) (s : State) : Host.Outcome State Fault Refusal :=
  s.onHost (fun h => h.thermalOffMeasurement gates supplyOk)

end Sys2Proof.Machine
end

