-- ==== Sys2Proof/Machine/RunTimebase.lean ====
section
/-! DEFINITION. Meanings of Meridian's events and of metering's timed ones. -/
namespace Sys2Proof.Machine

/-- COMPARE_FIRE (R324). -/
def execCompareFire (n : BitVec 5) (s : State) : Host.Outcome State Fault Refusal :=
  s.onField (fun f => f.compareFire n)
/-- PCMP_FIRE (R330). -/
def execPcmpFire (m : BitVec 3) (s : State) : Host.Outcome State Fault Refusal :=
  s.onField (fun f => f.pcmpFire m)
/-- DCT_ZERO (R333). -/
def execDctZero (k : BitVec 4) (s : State) : Host.Outcome State Fault Refusal :=
  s.onField (fun f => f.dctZero k)
/-- REFCLK_LOST (R316). -/
def execRefclkLost (s : State) : Host.Outcome State Fault Refusal :=
  s.onField (fun f => f.refclkLost)
/-- REFCLK_RESTORED (R318). -/
def execRefclkRestored (s : State) : Host.Outcome State Fault Refusal :=
  s.onField (fun f => f.refclkRestoredRow)
/-- PPS_EDGE (R319). -/
def execPpsEdge (s : State) : Host.Outcome State Fault Refusal :=
  s.onField (fun f => f.ppsEdge)
/-- PPS_LOST (R320). -/
def execPpsLost (s : State) : Host.Outcome State Fault Refusal :=
  s.onField (fun f => f.ppsLost)
/-- TELEMETRY_PUBLICATION (R234). -/
def execTelemetryPublication (s : State) : Host.Outcome State Fault Refusal :=
  s.onField (fun f => f.telemetry)
/-- DEMAND_INTERVAL_END (R224). -/
def execDemandIntervalEnd (s : State) : Host.Outcome State Fault Refusal :=
  s.onField (fun f => f.demandIntervalEnd)

end Sys2Proof.Machine
end

