-- ==== Sys2Proof/Machine/RunTransit.lean ====
section
/-! DEFINITION. Meanings of the Transit messages and of the link's timed events. -/
namespace Sys2Proof.Machine

/-- CMD (R362). -/
def execCmd (x : LinkHdr) (ring : BitVec 4) (desc : Bytes) (s : State) : Host.Outcome State Fault Refusal :=
  s.onField (fun f => f.cmdRow x ring desc)
/-- BULK (R362). -/
def execBulk (x : LinkHdr) (off : Word) (data : Bytes) (s : State) : Host.Outcome State Fault Refusal :=
  s.onField (fun f => f.bulkRow x off data)
/-- BULK_TIMEOUT (R362). -/
def execBulkTimeout (tag : BitVec 32) (s : State) : Host.Outcome State Fault Refusal :=
  s.onField (fun f => f.bulkTimeout tag)
/-- TUN_RD (R368). -/
def execTunRd (x : LinkHdr) (off : Word) (s : State) : Host.Outcome State Fault Refusal :=
  s.onField (fun f => f.tunRdRow x off)
/-- TUN_WR (R368). -/
def execTunWr (x : LinkHdr) (off : Word) (v : Word) (s : State) : Host.Outcome State Fault Refusal :=
  s.onField (fun f => f.tunWrRow x off v)
/-- TUN_CPL (R370). -/
def execTunCpl (x : LinkHdr) (v : Word) (s : State) : Host.Outcome State Fault Refusal :=
  s.onHost (fun h => h.tunCplRow x v)
/-- TUNNEL_TIMEOUT (R370). -/
def execTunnelTimeout (p : Part) (s : State) : Host.Outcome State Fault Refusal :=
  s.onHost (fun h => h.tunnelTimeout p)
/-- PART_RST (R386). -/
def execPartRst (x : LinkHdr) (s : State) : Host.Outcome State Fault Refusal :=
  s.onField (fun f => f.partRstRow x)
/-- KEEPALIVE (R364). -/
def execKeepalive (d : Die) (x : LinkHdr) (s : State) : Host.Outcome State Fault Refusal :=
  s.onDie d (fun f => f.keepaliveRow x) (fun h => h.keepaliveRow x)
/-- KEEPALIVE_LOSS (R364). -/
def execKeepaliveLoss (d : Die) (s : State) : Host.Outcome State Fault Refusal :=
  s.onDie d (fun f => f.keepaliveLoss) (fun h => h.keepaliveLoss)
/-- TRAIN (R365). -/
def execTrainLink (d : Die) (x : LinkHdr) (fresh : Bool) (b : TrainBody) (s : State) : Host.Outcome State Fault Refusal :=
  s.onDie d (fun f => f.trainRow x fresh b.masks b.level) (fun h => h.trainRow x fresh b.masks b.level)
/-- LINK_ACK (R363). -/
def execLinkAck (d : Die) (cls : Bool) (x : LinkHdr) (s : State) : Host.Outcome State Fault Refusal :=
  s.onDie d (fun f => f.linkAckRow cls x) (fun h => h.linkAckRow cls x)
/-- LINK_NAK (R360). -/
def execLinkNak (d : Die) (cls : Bool) (x : NakMsg) (s : State) : Host.Outcome State Fault Refusal :=
  match d with
  | .field => .next { s with f := s.f.linkNakRow cls x.hdr x.seq, h := s.h.countResends (s.f.nakCount cls x.hdr x.seq) }
  | .host => s.onHost (fun h => h.linkNakRow cls x.hdr x.seq)
/-- RESEND_TIMEOUT (R361). -/
def execResendTimeout (d : Die) (cls : Bool) (s : State) : Host.Outcome State Fault Refusal :=
  match d with
  | .field => .next { s with f := s.f.resendTimeout cls, h := s.h.countResends (s.f.resendCount cls) }
  | .host => s.onHost (fun h => h.resendTimeout cls)
/-- FSTATE (R366). -/
def execFstate (x : LinkHdr) (code : FCode) (kind : Byte) (power : Byte) (_safe : Bool) (s : State) : Host.Outcome State Fault Refusal :=
  s.onHost (fun h => h.fstateRow x code kind power)
/-- CPL (R398). -/
def execCpl (x : LinkHdr) (ring : BitVec 4) (b : Bytes) (s : State) : Host.Outcome State Fault Refusal :=
  s.onHost (fun h => h.cplRow x ring b)
/-- EVT (R398). -/
def execEvt (x : LinkHdr) (recs : List Bytes) (s : State) : Host.Outcome State Fault Refusal :=
  s.onHost (fun h => h.evtRow x recs)
/-- HWRITE (R398). -/
def execHwrite (x : LinkHdr) (addr : BitVec 64) (data : Bytes) (s : State) : Host.Outcome State Fault Refusal :=
  s.onHost (fun h => h.hwriteRow x addr data)
/-- WAKE_LINK (R452). -/
def execWakeLink (s : State) : Host.Outcome State Fault Refusal :=
  s.onField (fun f => f.wakeLink)

end Sys2Proof.Machine
end

