-- ==== Sys2Proof/Machine/Dispatch.lean ====
section
/-! DEFINITION. One arm per command: each calls its meaning. -/
namespace Sys2Proof.Machine

/-- The effect of a command on everything but the queue of waiting commands. -/
def exec (i : Instr) (s : State) : Host.Outcome State Fault Refusal :=
  match i with
  | .nop c => Sys2Proof.Machine.execNop c s
  | .fence c mask timeout => Sys2Proof.Machine.execFence c mask timeout s
  | .fenceComplete p ring => Sys2Proof.Machine.execFenceComplete p ring s
  | .fenceTimeout p ring => Sys2Proof.Machine.execFenceTimeout p ring s
  | .create c o => Sys2Proof.Machine.execCreate c o s
  | .destroy c => Sys2Proof.Machine.execDestroy c s
  | .reconfigure c o => Sys2Proof.Machine.execReconfigure c o s
  | .closeCh c soft => Sys2Proof.Machine.execCloseCh c soft s
  | .openCh c => Sys2Proof.Machine.execOpenCh c s
  | .release c => Sys2Proof.Machine.execRelease c s
  | .grant c grantee mask subtree => Sys2Proof.Machine.execGrant c grantee mask subtree s
  | .readChannel c o => Sys2Proof.Machine.execReadChannel c o s
  | .readSubtree c o first => Sys2Proof.Machine.execReadSubtree c o first s
  | .readProfile c o profile => Sys2Proof.Machine.execReadProfile c o profile s
  | .readContext c o => Sys2Proof.Machine.execReadContext c o s
  | .readEnergy c o final => Sys2Proof.Machine.execReadEnergy c o final s
  | .readHistory c o start count => Sys2Proof.Machine.execReadHistory c o start count s
  | .readCapture c o slot off => Sys2Proof.Machine.execReadCapture c o slot off s
  | .readLoopset c o n => Sys2Proof.Machine.execReadLoopset c o n s
  | .writeProfile c profile data => Sys2Proof.Machine.execWriteProfile c profile data s
  | .writeLoopset c n data => Sys2Proof.Machine.execWriteLoopset c n data s
  | .ctxBankWrite c data => Sys2Proof.Machine.execCtxBankWrite c data s
  | .ctxSwap c => Sys2Proof.Machine.execCtxSwap c s
  | .energySet c imp exp => Sys2Proof.Machine.execEnergySet c imp exp s
  | .demandReset c => Sys2Proof.Machine.execDemandReset c s
  | .capture c pre post => Sys2Proof.Machine.execCapture c pre post s
  | .captureFree c slot => Sys2Proof.Machine.execCaptureFree c slot s
  | .setOwner p => Sys2Proof.Machine.execSetOwner p s
  | .commission p => Sys2Proof.Machine.execCommission p s
  | .commExit p => Sys2Proof.Machine.execCommExit p s
  | .debug p => Sys2Proof.Machine.execDebug p s
  | .debugEnd p => Sys2Proof.Machine.execDebugEnd p s
  | .toFielded p => Sys2Proof.Machine.execToFielded p s
  | .toSealed p => Sys2Proof.Machine.execToSealed p s
  | .returnPart p => Sys2Proof.Machine.execReturnPart p s
  | .setBl p level => Sys2Proof.Machine.execSetBl p level s
  | .attest p => Sys2Proof.Machine.execAttest p s
  | .commissioningExpiry => Sys2Proof.Machine.execCommissioningExpiry s
  | .debugExpiry => Sys2Proof.Machine.execDebugExpiry s
  | .challengeExpiry => Sys2Proof.Machine.execChallengeExpiry s
  | .lockoutEnd => Sys2Proof.Machine.execLockoutEnd s
  | .registerWrite p w off v acc => Sys2Proof.Machine.execRegisterWrite p w off v acc s
  | .wideLoRead p r => Sys2Proof.Machine.execWideLoRead p r s
  | .hiWriteCommit p off v => Sys2Proof.Machine.execHiWriteCommit p off v s
  | .merSlew p v => Sys2Proof.Machine.execMerSlew p v s
  | .slewStep => Sys2Proof.Machine.execSlewStep s
  | .timerClaim p t => Sys2Proof.Machine.execTimerClaim p t s
  | .timerRelease p t => Sys2Proof.Machine.execTimerRelease p t s
  | .load p k ctl => Sys2Proof.Machine.execLoad p k ctl s
  | .coldAckWrite p v => Sys2Proof.Machine.execColdAckWrite p v s
  | .laneEnable p l en => Sys2Proof.Machine.execLaneEnable p l en s
  | .reenum p l => Sys2Proof.Machine.execReenum p l s
  | .heal p l => Sys2Proof.Machine.execHeal p l s
  | .holdAll p v => Sys2Proof.Machine.execHoldAll p v s
  | .histCfgWrite p v => Sys2Proof.Machine.execHistCfgWrite p v s
  | .adcInjSwtrig p mask => Sys2Proof.Machine.execAdcInjSwtrig p mask s
  | .refbufEn p b => Sys2Proof.Machine.execRefbufEn p b s
  | .logSelect p seq => Sys2Proof.Machine.execLogSelect p seq s
  | .reqRunQuiet p quiet => Sys2Proof.Machine.execReqRunQuiet p quiet s
  | .reqStandby p => Sys2Proof.Machine.execReqStandby p s
  | .standbyEntry => Sys2Proof.Machine.execStandbyEntry s
  | .soft p key => Sys2Proof.Machine.execSoft p key s
  | .wakeField p => Sys2Proof.Machine.execWakeField p s
  | .enterSafe p v => Sys2Proof.Machine.execEnterSafe p v s
  | .safConfirm p v => Sys2Proof.Machine.execSafConfirm p v s
  | .partSetupWrite p n v => Sys2Proof.Machine.execPartSetupWrite p n v s
  | .ringCfgWrite p isCq n v => Sys2Proof.Machine.execRingCfgWrite p isCq n v s
  | .cmd x ring desc => Sys2Proof.Machine.execCmd x ring desc s
  | .bulk x off data => Sys2Proof.Machine.execBulk x off data s
  | .bulkTimeout tag => Sys2Proof.Machine.execBulkTimeout tag s
  | .tunRd x off => Sys2Proof.Machine.execTunRd x off s
  | .tunWr x off v => Sys2Proof.Machine.execTunWr x off v s
  | .tunCpl x v => Sys2Proof.Machine.execTunCpl x v s
  | .tunnelTimeout p => Sys2Proof.Machine.execTunnelTimeout p s
  | .partRst x => Sys2Proof.Machine.execPartRst x s
  | .keepalive d x => Sys2Proof.Machine.execKeepalive d x s
  | .keepaliveLoss d => Sys2Proof.Machine.execKeepaliveLoss d s
  | .trainLink d x fresh b => Sys2Proof.Machine.execTrainLink d x fresh b s
  | .linkAck d cls x => Sys2Proof.Machine.execLinkAck d cls x s
  | .linkNak d cls x => Sys2Proof.Machine.execLinkNak d cls x s
  | .resendTimeout d cls => Sys2Proof.Machine.execResendTimeout d cls s
  | .fstate x code kind power safe => Sys2Proof.Machine.execFstate x code kind power safe s
  | .cpl x ring b => Sys2Proof.Machine.execCpl x ring b s
  | .evt x recs => Sys2Proof.Machine.execEvt x recs s
  | .hwrite x addr data => Sys2Proof.Machine.execHwrite x addr data s
  | .wakeLink => Sys2Proof.Machine.execWakeLink s
  | .doorbellPoll p => Sys2Proof.Machine.execDoorbellPoll p s
  | .descriptorFetch p db reads => Sys2Proof.Machine.execDescriptorFetch p db reads s
  | .payloadReadDone p ring pos ok data => Sys2Proof.Machine.execPayloadReadDone p ring pos ok data s
  | .msixTimerExpiry p ring => Sys2Proof.Machine.execMsixTimerExpiry p ring s
  | .linkDown p => Sys2Proof.Machine.execLinkDown p s
  | .hotReset p => Sys2Proof.Machine.execHotReset p s
  | .functionLevelReset p => Sys2Proof.Machine.execFunctionLevelReset p s
  | .deliveryHold p x => Sys2Proof.Machine.execDeliveryHold p x s
  | .deliveryResume p link msix => Sys2Proof.Machine.execDeliveryResume p link msix s
  | .hostStandbyEntry => Sys2Proof.Machine.execHostStandbyEntry s
  | .hostStandbyExit => Sys2Proof.Machine.execHostStandbyExit s
  | .superframeMark => Sys2Proof.Machine.execSuperframeMark s
  | .streamCycle l => Sys2Proof.Machine.execStreamCycle l s
  | .telemetryFrame l e cs => Sys2Proof.Machine.execTelemetryFrame l e cs s
  | .telemetryMissing l pos => Sys2Proof.Machine.execTelemetryMissing l pos s
  | .ingestUpdate x => Sys2Proof.Machine.execIngestUpdate x s
  | .mirrorUpdate x => Sys2Proof.Machine.execMirrorUpdate x s
  | .retryPolicy x => Sys2Proof.Machine.execRetryPolicy x s
  | .fallbackUnsynced x => Sys2Proof.Machine.execFallbackUnsynced x s
  | .faultSeen l pos pt fnum opened crcOk delay => Sys2Proof.Machine.execFaultSeen l pos pt fnum opened crcOk delay s
  | .cleared l pos pt fnum crcOk => Sys2Proof.Machine.execCleared l pos pt fnum crcOk s
  | .gatherDeadline n => Sys2Proof.Machine.execGatherDeadline n s
  | .breakerFailureExpiry n => Sys2Proof.Machine.execBreakerFailureExpiry n s
  | .stormQuietExpiry node code p => Sys2Proof.Machine.execStormQuietExpiry node code p s
  | .depthRewrite x => Sys2Proof.Machine.execDepthRewrite x s
  | .retryDue x lag => Sys2Proof.Machine.execRetryDue x lag s
  | .stableDue x lag => Sys2Proof.Machine.execStableDue x lag s
  | .contextClaim => Sys2Proof.Machine.execContextClaim s
  | .queueTimeout x => Sys2Proof.Machine.execQueueTimeout x s
  | .streamFail x => Sys2Proof.Machine.execStreamFail x s
  | .rampTimeout x => Sys2Proof.Machine.execRampTimeout x s
  | .settleFail x => Sys2Proof.Machine.execSettleFail x s
  | .loopSample n rawI rawV lat => Sys2Proof.Machine.execLoopSample n rawI rawV lat s
  | .missingPeriod n => Sys2Proof.Machine.execMissingPeriod n s
  | .rampOffStep n => Sys2Proof.Machine.execRampOffStep n s
  | .captureWaitExpiry => Sys2Proof.Machine.execCaptureWaitExpiry s
  | .pretriggerRelease n => Sys2Proof.Machine.execPretriggerRelease n s
  | .streamSample l slot pre seq w crcOk => Sys2Proof.Machine.execStreamSample l slot pre seq w crcOk s
  | .wrap l pos west crcOk => Sys2Proof.Machine.execWrap l pos west crcOk s
  | .restored l pos west crcOk => Sys2Proof.Machine.execRestored l pos west crcOk s
  | .lossOfSignal l e => Sys2Proof.Machine.execLossOfSignal l e s
  | .receiverLock l e => Sys2Proof.Machine.execReceiverLock l e s
  | .laneTrainTimeout l => Sys2Proof.Machine.execLaneTrainTimeout l s
  | .markLoopFail l => Sys2Proof.Machine.execMarkLoopFail l s
  | .outstationMissing l pos => Sys2Proof.Machine.execOutstationMissing l pos s
  | .healthPoll => Sys2Proof.Machine.execHealthPoll s
  | .healthAnswer l e cs => Sys2Proof.Machine.execHealthAnswer l e cs s
  | .healthPollTimeout l pos => Sys2Proof.Machine.execHealthPollTimeout l pos s
  | .energyAnswer l e cs => Sys2Proof.Machine.execEnergyAnswer l e cs s
  | .commandResend l pos => Sys2Proof.Machine.execCommandResend l pos s
  | .laneDegraded l cvA cvB => Sys2Proof.Machine.execLaneDegraded l cvA cvB s
  | .comparatorCrossing n x => Sys2Proof.Machine.execComparatorCrossing n x s
  | .holdoffExpiry n asserted => Sys2Proof.Machine.execHoldoffExpiry n asserted s
  | .holdLimitExpiry n asserted => Sys2Proof.Machine.execHoldLimitExpiry n asserted s
  | .clearTimeExpiry n => Sys2Proof.Machine.execClearTimeExpiry n s
  | .dfbLevel n x => Sys2Proof.Machine.execDfbLevel n x s
  | .refReady => Sys2Proof.Machine.execRefReady s
  | .adcCrossCheck t rawA rawB => Sys2Proof.Machine.execAdcCrossCheck t rawA rawB s
  | .adcCalibrationStep t => Sys2Proof.Machine.execAdcCalibrationStep t s
  | .adcRegConversion e raw => Sys2Proof.Machine.execAdcRegConversion e raw s
  | .adcInjTrigger m => Sys2Proof.Machine.execAdcInjTrigger m s
  | .adcInjDone m t rawA rawB => Sys2Proof.Machine.execAdcInjDone m t rawA rawB s
  | .compareFire n => Sys2Proof.Machine.execCompareFire n s
  | .pcmpFire m => Sys2Proof.Machine.execPcmpFire m s
  | .dctZero k => Sys2Proof.Machine.execDctZero k s
  | .refclkLost => Sys2Proof.Machine.execRefclkLost s
  | .refclkRestored => Sys2Proof.Machine.execRefclkRestored s
  | .ppsEdge => Sys2Proof.Machine.execPpsEdge s
  | .ppsLost => Sys2Proof.Machine.execPpsLost s
  | .telemetryPublication => Sys2Proof.Machine.execTelemetryPublication s
  | .demandIntervalEnd => Sys2Proof.Machine.execDemandIntervalEnd s
  | .throttleStep2 => Sys2Proof.Machine.execThrottleStep2 s
  | .deferSpanClose => Sys2Proof.Machine.execDeferSpanClose s
  | .thermometryDemand d => Sys2Proof.Machine.execThermometryDemand d s
  | .thermometryReading d gates => Sys2Proof.Machine.execThermometryReading d gates s
  | .confirmingReading d k g => Sys2Proof.Machine.execConfirmingReading d k g s
  | .thermalOffMeasurement gates supplyOk => Sys2Proof.Machine.execThermalOffMeasurement gates supplyOk s
  | .epoLevel k side lvl => Sys2Proof.Machine.execEpoLevel k side lvl s
  | .discrepancyExpiry k => Sys2Proof.Machine.execDiscrepancyExpiry k s
  | .epoTestSchedule logicOk => Sys2Proof.Machine.execEpoTestSchedule logicOk s
  | .testPulseStart ch => Sys2Proof.Machine.execTestPulseStart ch s
  | .testPulseEnd ch => Sys2Proof.Machine.execTestPulseEnd ch s
  | .maskEnd ch => Sys2Proof.Machine.execMaskEnd ch s
  | .outputMismatch pin => Sys2Proof.Machine.execOutputMismatch pin s
  | .outputMatch pin => Sys2Proof.Machine.execOutputMatch pin s
  | .paramCheck flips badA badB => Sys2Proof.Machine.execParamCheck flips badA badB s
  | .rearmPress => Sys2Proof.Machine.execRearmPress s
  | .rearmRelease => Sys2Proof.Machine.execRearmRelease s
  | .stuckRearm => Sys2Proof.Machine.execStuckRearm s
  | .rearmStuckClear => Sys2Proof.Machine.execRearmStuckClear s
  | .por d => Sys2Proof.Machine.execPor d s
  | .bor d => Sys2Proof.Machine.execBor d s
  | .pin d => Sys2Proof.Machine.execPin d s
  | .wdt d => Sys2Proof.Machine.execWdt d s
  | .warmResetEnd => Sys2Proof.Machine.execWarmResetEnd s
  | .wakePin => Sys2Proof.Machine.execWakePin s
  | .wakeTime => Sys2Proof.Machine.execWakeTime s
  | .firnReady => Sys2Proof.Machine.execFirnReady s
  | .fillDone => Sys2Proof.Machine.execFillDone s
  | .caParityAlert wcrc first => Sys2Proof.Machine.execCaParityAlert wcrc first s
  | .ploughBlock pats => Sys2Proof.Machine.execPloughBlock pats s
  | .neveScrub pats => Sys2Proof.Machine.execNeveScrub pats s
  | .neveRecoveryDone x => Sys2Proof.Machine.execNeveRecoveryDone x s
  | .logWrite bad => Sys2Proof.Machine.execLogWrite bad s
  | .sectorEraseDone bad => Sys2Proof.Machine.execSectorEraseDone bad s
  | .imageUpdate d item bad => Sys2Proof.Machine.execImageUpdate d item bad s
  | .logScan => Sys2Proof.Machine.execLogScan s
  | .tokenRefill => Sys2Proof.Machine.execTokenRefill s
  | .registerRead p w off acc => Sys2Proof.Machine.execRegisterRead p w off acc s
  | .hostWarmResetEnd => Sys2Proof.Machine.execHostWarmResetEnd s
  | .firnDownTimeout => Sys2Proof.Machine.execFirnDownTimeout s
  | .markReachesEndB l ticks => Sys2Proof.Machine.execMarkReachesEndB l ticks s
  | .scanSlotConversion n rawI rawV => Sys2Proof.Machine.execScanSlotConversion n rawI rawV s
  | .driverStuck n => Sys2Proof.Machine.execDriverStuck n s
  | .hostThermalOffMeasurement gates supplyOk => Sys2Proof.Machine.execHostThermalOffMeasurement gates supplyOk s
  | .trainingRepeat d => Sys2Proof.Machine.execTrainingRepeat d s
  | .tapInstruction d op => Sys2Proof.Machine.execTapInstruction d op s

end Sys2Proof.Machine
end

