-- ==== Sys2Proof/Machine/Step.lean ====
section
/-! DEFINITION. One step of the block: the command at the front of the queue, or one tick of both clocks. -/
namespace Sys2Proof.Machine

/-- A tick of 10 ns on both dies, with no command (R310; log entry 1). -/
def State.tick (s : State) : State := { s with f := s.f.tick, h := s.h.tick }
/-- Take the command at the front of the queue and run it with the queue's rest; on an empty queue time passes. -/
def step (s : State) : Host.Outcome State Fault Refusal :=
  match s.pending with
  | [] => .next s.tick
  | i :: r => exec i { s with pending := r }
/-- The state with the command that a word spells at the front of its queue: the table gives no word. -/
def State.withFetchWord (s : State) (nbits w : Nat) : State :=
  match decodeTableWord nbits w with
  | some i => { s with pending := i :: s.pending }
  | none => s

end Sys2Proof.Machine
end

