-- ==== Sys2Proof/Safety.lean ====
section
/-! DEFINITION. What claims about a run speak of: which die a command acts on, what a completed command leaves, and the bounds
that the host die keeps. -/
namespace Sys2Proof.Machine

/-- The field die holds a completion of command r with status s, on its way to its ring (16, R363). -/
def Field.answered (f : Field) (r : CmdRef) (s : Status) : Bool :=
  (f.evq r.part).q.any (fun q => match q.r with | .cpl c => decide (c.ref = r) && decide (c.status = s.code) | .evt _ => false)
/-- The field die holds an event of a type for a partition, with a channel's handle or 0. -/
def Field.told (f : Field) (p : Part) (rtype : Byte) (h : Word) : Bool :=
  (f.evq p).q.any (fun q => match q.r with | .evt e => decide (e.rtype = rtype) && decide (e.handle = h) | .cpl _ => false)
/-- The field die takes command c now, and nothing makes it wait (R343, R405, R477). -/
def Field.takesNow (f : Field) (c : CmdHdr) (op : Byte) : Bool := f.admits && f.linkUp && !f.behindWaiting (Field.refOf c op)
/-- The command descriptor names a channel that exists, and the partition's cold start is acknowledged (R53, checks 1 to 3). -/
def Field.names (f : Field) (c : CmdHdr) : Bool := !bit f.nev.coldAck c.part.toNat && handleForm c.handle && f.handleLive c.handle
/-- The bounds of what the host die holds: 64 commands in flight and 8 tunnelled accesses per partition, 16 log records
(R369, R393, R491). -/
def HDie.Bounded (h : HDie) : Prop :=
  (∀ p : Part, (h.hp p).inflight.length ≤ 64 ∧ (h.hp p).tun.length ≤ 8) ∧ h.sec.log.length ≤ 16

/-- A command ends in a next state that P holds of. -/
def State.ends (s : State) (c : Instr) (P : State → Prop) : Prop := ∃ t : State, exec c s = .next t ∧ P t
/-- A command ends in a next state with a field die that P holds of; the host die and the queue stay as they are. -/
def State.endsField (s : State) (c : Instr) (P : Field → Prop) : Prop := ∃ g : Field, exec c s = .next { s with f := g } ∧ P g
/-- A command ends in a next state with a host die that P holds of; the field die and the queue stay as they are. -/
def State.endsHost (s : State) (c : Instr) (P : HDie → Prop) : Prop := ∃ g : HDie, exec c s = .next { s with h := g } ∧ P g
/-- The field die holds a completion of command r with status s, DETAIL d and handle h. -/
def Field.answeredAs (f : Field) (r : CmdRef) (s : Status) (d : Nat) (h : Word) : Bool :=
  (f.evq r.part).q.any (fun q => match q.r with
    | .cpl c => decide (c.ref = r) && decide (c.status = s.code) && decide (c.detail = BitVec.ofNat 32 d) && decide (c.handle = h)
    | .evt _ => false)
/-- The field die f with the records, the commands in flight and the data-class messages of g: all that a completion or an event
changes. -/
def Field.withRecords (f g : Field) : Field :=
  { f with trn := { f.trn with dat := g.trn.dat }, prt := { f.prt with evq := g.prt.evq, busy := g.prt.busy }, out := g.out }
/-- A data-class message is kept for delivery to the host die (R361). -/
def Field.keeps (f : Field) (m : Msg) : Prop := ∃ q : BitVec 16, (q, m) ∈ f.trn.dat.kept
/-- No codeword of the stores holds an error, poison or another word than the one written: every read gives what was written (13). -/
def Field.intact (f : Field) : Bool :=
  decide (f.nev.errs = []) && decide (f.firn.errs = []) && decide (f.firn.poisoned = []) && decide (f.firn.alien = [])
/-- The command's reference, from its header and opcode. -/
abbrev CmdHdr.as (c : CmdHdr) (op : Byte) : CmdRef := Field.refOf c op

/-- An event for a partition enters its queue at once: none is held or owed, and more than 256 entries stay free for it (R400). -/
def Field.roomFor (f : Field) (p : Part) : Bool :=
  decide ((f.evq p).dropped = 0) && decide ((f.evq p).heldDone = []) && decide (272 < f.unreserved p)
/-- A register write of partition p reaches the register: the sequencer runs, and the partition has a role (R375, R484, R486). -/
def Field.writes (f : Field) (p : Part) : Bool := f.seqRuns && f.anyRole p

/-- The channel is bound to a point of an identity (R54). -/
def Chan.boundTo (c : Chan) (id : BitVec 64) (pt : BitVec 6) : Bool :=
  match c.fr.bind with | .point _ _ q i => decide (i = id) && decide (q = pt) | _ => false

/-- The field die g stands right after a cold start of a kind from f (R446, R458, R425): no channel, count 0, every lane DISABLED, every
gate OFF, Transit training, the safe state with reason START; the N-class counts and the NVM go on. -/
def Field.coldFrom (g f : Field) (k : RstKind) : Bool :=
  decide (g.pwr.rstLast = BitVec.ofNat 3 k.ctorIdx) && g.coreOn && g.saf.safe && decide (g.saf.reason = 0x11) &&
    decide (g.nev.ch = []) && decide (g.nev.coldAck = 0xF) && decide (g.mer.count = 0) && decide (g.lan.lane = []) &&
    (List.range 16).all (fun n => decide ((g.dchan (BitVec.ofNat 4 n)).mode = .off)) && decide (g.trn.st = .train) &&
    decide (g.thm.shutCount = f.thm.shutCount) && decide (g.nvm.boot = f.nvm.boot + 1) && decide (g.hel.ctx = []) &&
    decide (g.prt.grants = [])
/-- Nothing waits at the field die for its sequencer or for a PART reset. -/
def Field.unburdened (f : Field) : Bool :=
  decide (f.prt.busy = []) && decide (f.trn.tunWait = []) && decide (f.prt.rstA = 0) && decide (f.prt.rstB = 0)
/-- A message of a class reaches the field die whole and in its place (R359, R360). -/
def Field.hears (f : Field) (cls : Bool) (x : LinkHdr) : Bool := f.linkUp && x.good && decide (x.seq = (f.half cls).expect)
/-- A message of a class reaches the host die whole and in its place. -/
def HDie.hears (h : HDie) (cls : Bool) (x : LinkHdr) : Bool :=
  h.linkUp && x.good && decide (x.seq = (h.half cls).expect)
/-- The host die has written a completion of command r with status s to its partition's memory (R398). -/
def HDie.completed (h : HDie) (r : CmdRef) (s : Status) : Bool :=
  h.out.any (fun o => match o with
    | .hostWrite p _ b => decide (p = r.part) && decide (u8 b 0 = 1) && decide (u16 b 2 = r.sqPos) && decide (u16 b 6 = s.code)
    | _ => false)
/-- The state after n steps, as far as they go. -/
def State.after (s : State) : Nat → State
  | 0 => s
  | n + 1 => match step s with | .next t => t.after n | _ => s

/-- The dies whose state a command may change: the die it reaches (01, R25). A register access that is not one aligned word stays
at its port (R368, R374); the field die's resends count at the host die too (R361). -/
def actsOn (d : Die) (i : Instr) : Bool :=
  match i with
  | .linkNak e _ _ | .resendTimeout e _ => decide (e = .field) || decide (d = e)
  | .registerWrite _ w off _ acc | .registerRead _ w off acc =>
    decide (d = if w = .field && acc = .dword && decide (off.toNat % 4 = 0) then Die.field else Die.host)
  | .imageUpdate e _ _ | .trainingRepeat e | .tapInstruction e _ | .por e | .bor e | .pin e | .wdt e
  | .thermometryDemand e | .thermometryReading e _ | .confirmingReading e _ _ | .keepalive e _ | .keepaliveLoss e
  | .trainLink e _ _ _ | .linkAck e _ _ => decide (d = e)
  | .fence _ _ _ | .fenceComplete _ _ | .fenceTimeout _ _ | .hostWarmResetEnd | .hostThermalOffMeasurement _ _
  | .setOwner _ | .commission _ | .commExit _ | .debug _ | .debugEnd _ | .toFielded _ | .toSealed _ | .returnPart _
  | .setBl _ _ | .attest _ | .commissioningExpiry | .debugExpiry | .challengeExpiry | .lockoutEnd | .tunCpl _ _
  | .tunnelTimeout _ | .fstate _ _ _ _ _ | .cpl _ _ _ | .evt _ _ | .hwrite _ _ _ | .wakeField _
  | .partSetupWrite _ _ _ | .ringCfgWrite _ _ _ _ | .doorbellPoll _ | .descriptorFetch _ _ _
  | .payloadReadDone _ _ _ _ _ | .msixTimerExpiry _ _ | .linkDown _ | .hotReset _ | .functionLevelReset _
  | .deliveryHold _ _ | .deliveryResume _ _ _ | .hostStandbyEntry | .hostStandbyExit => decide (d = .host)
  | .superframeMark | .streamCycle _ | .telemetryFrame _ _ _ | .telemetryMissing _ _ | .ingestUpdate _
  | .mirrorUpdate _ | .retryPolicy _ | .fallbackUnsynced _ | .faultSeen _ _ _ _ _ _ _ | .cleared _ _ _ _ _
  | .gatherDeadline _ | .breakerFailureExpiry _ | .stormQuietExpiry _ _ _ | .depthRewrite _ | .retryDue _ _
  | .stableDue _ _ | .wrap _ _ _ _ | .restored _ _ _ _ | .lossOfSignal _ _ | .receiverLock _ _ | .laneTrainTimeout _
  | .markLoopFail _ | .outstationMissing _ _ | .healthPoll | .healthAnswer _ _ _ | .healthPollTimeout _ _
  | .energyAnswer _ _ _ | .commandResend _ _ | .laneDegraded _ _ _ | .markReachesEndB _ _ | .firnReady | .fillDone
  | .caParityAlert _ _ | .ploughBlock _ | .neveScrub _ | .neveRecoveryDone _ | .firnDownTimeout | .logWrite _
  | .sectorEraseDone _ | .logScan | .tokenRefill | .nop _ | .create _ _ | .destroy _ | .reconfigure _ _
  | .closeCh _ _ | .openCh _ | .release _ | .grant _ _ _ _ | .readChannel _ _ | .readSubtree _ _ _
  | .readProfile _ _ _ | .readContext _ _ | .readEnergy _ _ _ | .readHistory _ _ _ _ | .readCapture _ _ _ _
  | .readLoopset _ _ _ | .writeProfile _ _ _ | .writeLoopset _ _ _ | .ctxBankWrite _ _ | .ctxSwap _
  | .energySet _ _ _ | .demandReset _ | .capture _ _ _ | .captureFree _ _ | .contextClaim | .queueTimeout _
  | .streamFail _ | .rampTimeout _ | .settleFail _ | .loopSample _ _ _ _ | .missingPeriod _ | .rampOffStep _
  | .captureWaitExpiry | .pretriggerRelease _ | .streamSample _ _ _ _ _ _ | .compareFire _ | .pcmpFire _ | .dctZero _
  | .refclkLost | .refclkRestored | .ppsEdge | .ppsLost | .telemetryPublication | .demandIntervalEnd | .comparatorCrossing _ _
  | .holdoffExpiry _ _ | .holdLimitExpiry _ _ | .clearTimeExpiry _ | .dfbLevel _ _ | .driverStuck _
  | .scanSlotConversion _ _ _ | .refReady | .adcCrossCheck _ _ _ | .adcCalibrationStep _ | .adcRegConversion _ _
  | .adcInjTrigger _ | .adcInjDone _ _ _ _ | .epoLevel _ _ _ | .discrepancyExpiry _ | .epoTestSchedule _
  | .testPulseStart _ | .testPulseEnd _ | .maskEnd _ | .outputMismatch _ | .outputMatch _ | .paramCheck _ _ _
  | .rearmPress | .rearmRelease | .stuckRearm | .rearmStuckClear | .warmResetEnd | .wakePin | .wakeTime
  | .throttleStep2 | .deferSpanClose | .thermalOffMeasurement _ _ | .cmd _ _ _ | .bulk _ _ _ | .bulkTimeout _
  | .tunRd _ _ | .tunWr _ _ _ | .partRst _ | .wakeLink | .wideLoRead _ _ | .hiWriteCommit _ _ _ | .merSlew _ _
  | .slewStep | .timerClaim _ _ | .timerRelease _ _ | .load _ _ _ | .coldAckWrite _ _ | .laneEnable _ _ _
  | .reenum _ _ | .heal _ _ | .holdAll _ _ | .histCfgWrite _ _ | .adcInjSwtrig _ _ | .refbufEn _ _ | .logSelect _ _
  | .reqRunQuiet _ _ | .reqStandby _ | .standbyEntry | .soft _ _ | .enterSafe _ _ | .safConfirm _ _ => decide (d = .field)

end Sys2Proof.Machine
end

