-- ==== Sys2Proof/WellFormed.lean ====
section
/-! DEFINITION. Which commands are well formed: each run of bytes has the length its layout gives, each list as many entries as
there are sites or doorbells, and each operand that the spec bounds lies in its range. -/
namespace Sys2Proof
open Sys2Proof.Machine

/-- One gate for every site of a die (17, sites). -/
def gatesOk (d : Die) (gates : List Gate) : Bool := decide (gates.length = match d with | .field => 12 | .host => 4)
/-- A ring read answers whole descriptors, at most the 64 that may be in flight (16, R389, R393). -/
def readOk (r : RingRead) : Bool := decide (r.descs.length ≤ 64) && r.descs.all (fun d => decide (d.length = 64))
/-- A PROFILE operand has 12 bits (16, operand layouts). -/
def profileOk (p : BitVec 16) : Bool := decide (p.toNat < 4096)
/-- Error patterns are over 36-byte codewords (13, R338). -/
def patsOk {n : Nat} (l : List (BitVec n × Bytes)) : Bool := l.all (fun e => decide (e.2.length = 36))

/-- A command is well formed. -/
def Instr.wf : Instr → Bool
  | .readProfile _ _ p => profileOk p
  | .writeProfile _ p d => profileOk p && decide (d.length = 256)
  | .writeLoopset _ _ d => decide (d.length = 128)
  | .ctxBankWrite _ d => decide (d.length = 128)
  | .cmd _ _ d => decide (d.length = 64)
  | .bulk _ _ d => decide (d.length ≤ 480)
  | .cpl _ _ b => decide (b.length = 32)
  | .evt _ bs => decide (1 ≤ bs.length) && decide (bs.length ≤ 14) && bs.all (fun b => decide (b.length = 32))
  | .hwrite _ _ d => decide (d.length ≤ 468)
  | .descriptorFetch _ db rs => decide (db.length = 16) && rs.all readOk
  | .streamSample _ s _ _ _ _ => decide (s.toNat < 6)
  | .adcInjDone _ _ a b => decide (a.length ≤ 4) && decide (b.length ≤ 4)
  | .compareFire n => decide (n.toNat < 24)
  | .thermometryReading d g => gatesOk d g
  | .confirmingReading d k _ => decide (k.toNat < match d with | .field => 12 | .host => 4)
  | .thermalOffMeasurement g _ => gatesOk .field g
  | .hostThermalOffMeasurement g _ => gatesOk .host g
  | .ploughBlock ps => patsOk ps
  | .neveScrub ps => patsOk ps
  | .nop _ | .fence _ _ _ | .fenceComplete _ _ | .fenceTimeout _ _ | .create _ _ | .destroy _ | .reconfigure _ _ | .closeCh _ _
  | .openCh _ | .release _ | .grant _ _ _ _ | .readChannel _ _ | .readSubtree _ _ _ | .readContext _ _ | .readEnergy _ _ _
  | .readHistory _ _ _ _ | .readCapture _ _ _ _ | .readLoopset _ _ _ | .ctxSwap _ | .energySet _ _ _ | .demandReset _
  | .capture _ _ _ | .captureFree _ _ | .setOwner _ | .commission _ | .commExit _ | .debug _ | .debugEnd _ | .toFielded _
  | .toSealed _ | .returnPart _ | .setBl _ _ | .attest _ | .commissioningExpiry | .debugExpiry | .challengeExpiry | .lockoutEnd
  | .registerWrite _ _ _ _ _ | .wideLoRead _ _ | .hiWriteCommit _ _ _ | .merSlew _ _ | .slewStep | .timerClaim _ _
  | .timerRelease _ _ | .load _ _ _ | .coldAckWrite _ _ | .laneEnable _ _ _ | .reenum _ _ | .heal _ _ | .holdAll _ _
  | .histCfgWrite _ _ | .adcInjSwtrig _ _ | .refbufEn _ _ | .logSelect _ _ | .reqRunQuiet _ _ | .reqStandby _ | .standbyEntry
  | .soft _ _ | .wakeField _ | .enterSafe _ _ | .safConfirm _ _ | .partSetupWrite _ _ _ | .ringCfgWrite _ _ _ _ | .bulkTimeout _
  | .tunRd _ _ | .tunWr _ _ _ | .tunCpl _ _ | .tunnelTimeout _ | .partRst _ | .keepalive _ _ | .keepaliveLoss _
  | .trainLink _ _ _ _ | .linkAck _ _ _ | .linkNak _ _ _ | .resendTimeout _ _ | .fstate _ _ _ _ _ | .wakeLink | .doorbellPoll _
  | .payloadReadDone _ _ _ _ _ | .msixTimerExpiry _ _ | .linkDown _ | .hotReset _ | .functionLevelReset _ | .deliveryHold _ _
  | .deliveryResume _ _ _ | .hostStandbyEntry | .hostStandbyExit | .superframeMark | .streamCycle _ | .telemetryMissing _ _ | .telemetryFrame _ _ _
  | .healthAnswer _ _ _ | .energyAnswer _ _ _
  | .ingestUpdate _ | .mirrorUpdate _ | .retryPolicy _ | .fallbackUnsynced _ | .faultSeen _ _ _ _ _ _ _ | .cleared _ _ _ _ _
  | .gatherDeadline _ | .breakerFailureExpiry _ | .stormQuietExpiry _ _ _ | .depthRewrite _ | .retryDue _ _ | .stableDue _ _
  | .contextClaim | .queueTimeout _ | .streamFail _ | .rampTimeout _ | .settleFail _ | .loopSample _ _ _ _ | .missingPeriod _
  | .rampOffStep _ | .captureWaitExpiry | .pretriggerRelease _ | .wrap _ _ _ _ | .restored _ _ _ _ | .lossOfSignal _ _
  | .receiverLock _ _ | .laneTrainTimeout _ | .markLoopFail _ | .outstationMissing _ _ | .healthPoll | .healthPollTimeout _ _
  | .commandResend _ _ | .laneDegraded _ _ _ | .comparatorCrossing _ _ | .holdoffExpiry _ _ | .holdLimitExpiry _ _
  | .clearTimeExpiry _ | .dfbLevel _ _ | .refReady | .adcCrossCheck _ _ _ | .adcCalibrationStep _ | .adcRegConversion _ _
  | .adcInjTrigger _ | .pcmpFire _ | .dctZero _ | .refclkLost | .refclkRestored | .ppsEdge | .ppsLost | .telemetryPublication
  | .demandIntervalEnd | .throttleStep2 | .deferSpanClose | .thermometryDemand _ | .epoLevel _ _ _ | .discrepancyExpiry _
  | .epoTestSchedule _ | .testPulseStart _ | .testPulseEnd _ | .maskEnd _ | .outputMismatch _ | .outputMatch _
  | .paramCheck _ _ _ | .rearmPress | .rearmRelease | .stuckRearm | .rearmStuckClear | .por _ | .bor _ | .pin _ | .wdt _
  | .warmResetEnd | .wakePin | .wakeTime | .firnReady | .fillDone | .caParityAlert _ _ | .neveRecoveryDone _ | .logWrite _
  | .sectorEraseDone _ | .imageUpdate _ _ _ | .logScan | .tokenRefill | .registerRead _ _ _ _ | .hostWarmResetEnd
  | .firnDownTimeout | .markReachesEndB _ _ | .scanSlotConversion _ _ _ | .driverStuck _ | .trainingRepeat _
  | .tapInstruction _ _ => true

end Sys2Proof
end

