-- ==== Sys2Proof/Certificates/Slice0/Obligations.lean ====
section
/-! DEFINITION. The statements for the provers, one definition each: what every command does, what it leaves alone, and what every
step keeps. -/
open Sys2Proof Sys2Proof.Machine

/-- The block is a queue: a step runs the command at its front on the state with the queue's rest. (With nothing in the queue a
tick of 10 ns passes on both dies: the model's choice, log entry 1.) -/
def Obligations.StepRunsFront : Prop :=
  (∀ (s : State) (c : Instr) (r : List Instr), s.pending = c :: r → step s = exec c { s with pending := r }) ∧
  (∀ s : State, s.pending = [] → step s = .next s.tick)

/-- NOP (R405): a partition with a role gets a completion OK and nothing else changes; one without gets ROLE. -/
def Obligations.NopOnlyCompletes : Prop :=
  ∀ (s : State) (c : CmdHdr), s.f.takesNow c 0x00 = true →
    s.endsField (.nop c) (fun g => g = s.f.withRecords g ∧
      (s.f.anyRole c.part = true → g.answeredAs (c.as 0x00) .ok 0 c.handle = true) ∧
      (s.f.anyRole c.part = false → g.answeredAs (c.as 0x00) .role 0 c.handle = true))

/-- CREATE (R55, R56): with its checks passed, the channel at the requested index, or at the head of the free list, has the
kind, owner, profile and gains of the descriptor and enters OPEN or CLOSED; the completion carries its handle. No other channel
changes. -/
def Obligations.CreateMakesChannel : Prop :=
  ∀ (s : State) (c : CmdHdr) (o : CreateOps), s.f.takesNow c 0x10 = true →
    firstFail (s.f.createFirst c.part o) = none → firstFail (s.f.createChecks c.part o) = none →
    ∃ x : BitVec 17, (o.reqIndex = true → x = o.index) ∧
      (o.reqIndex = false → ∀ (i : Nat) (r : List Span), Field.spanHead s.f.nev.freeList = some (i, r) → x = BitVec.ofNat 17 i) ∧
      s.endsField (.create c o) (fun g =>
        let e := (g.chan x).nev
        e.kind = Kind.ofCode o.kind.toNat ∧ e.owner = c.part ∧ e.profile = o.profile ∧ e.igain = o.igain ∧ e.vgain = o.vgain ∧
        e.gen = (s.f.chan x).nev.gen ∧ g.parentOf x = (if o.root then none else some (Field.idx o.parent)) ∧
        (e.kind = .sense ∨ e.kind = .virt → e.state = .closed) ∧ (e.kind = .direct → e.state = .opened) ∧
        (e.kind = .switched → o.adopt = false → e.state = .opened) ∧
        (∀ y, y ≠ x → g.chan y = s.f.chan y) ∧ g.answeredAs (c.as 0x10) .ok 0 (g.handle x) = true)

/-- DESTROY (R49, R51, R58, R349): with its checks passed, the index is FREE with the next generation and goes to the tail of the free
list. The energy totals stay readable, and codeword 1 of the record keeps its fields. -/
def Obligations.DestroyFreesIndex : Prop :=
  ∀ (s : State) (c : CmdHdr), s.f.takesNow c 0x11 = true → s.f.firnOn = true →
    firstFail (s.f.destroyChecks (c.as 0x11)) = none →
    s.endsField (.destroy c) (fun g =>
      let x := Field.idx c.handle
      (g.chan x).nev = Nev.free ((s.f.chan x).nev.gen + 1) ∧ (g.chan x).fr.bind = .none ∧ (g.chan x).fr.wheel = .none ∧
      (g.chan x).fr.cause = (s.f.chan x).fr.cause ∧ (g.chan x).fr.rcount = (s.f.chan x).fr.rcount ∧
      (g.chan x).fr.thermSnap = (s.f.chan x).fr.thermSnap ∧
      (g.chan x).met.imp = (s.f.chan x).met.imp ∧ (g.chan x).met.exp = (s.f.chan x).met.exp ∧
      g.nev.freeList = Field.spanAppend x.toNat s.f.nev.freeList ∧ g.handleLive c.handle = false ∧
      g.answeredAs (c.as 0x11) .ok 0 c.handle = true)

/-- RECONFIGURE (R72) completes: with its checks passed, the completion is OK and each selected group has the descriptor's value; a command
that selects nothing completes OK with no change. No other channel's entry or binding changes. -/
def Obligations.ReconfigureTakesGroups : Prop :=
  ∀ (s : State) (c : CmdHdr) (o : ReconfOps), s.f.takesNow c 0x12 = true → s.f.firnOn = true →
    firstFail (s.f.checks15 c.part c.handle (s.f.operator c.part) none ++ s.f.reconfFields (Field.idx c.handle) o) = none →
    (o.selects = false → s.endsField (.reconfigure c o) (fun g => g = s.f.withRecords g ∧
      g.answeredAs (c.as 0x12) .ok 0 c.handle = true)) ∧
    (o.selects = true → firstFail (s.f.reconfChecks (Field.idx c.handle) o) = none → s.endsField (.reconfigure c o) (fun g =>
      let x := Field.idx c.handle
      (o.profileSel = true → (g.chan x).nev.profile = o.profile) ∧
      (o.gainsSel = true → (g.chan x).nev.igain = o.igain ∧ (g.chan x).nev.vgain = o.vgain) ∧
      (o.parentSel = true → g.parentOf x = if o.root then none else some (Field.idx o.parent)) ∧
      (o.mirrorSel = true → (g.chan x).fr.mirror = if o.mirror = 0 then none else some (Field.idx o.mirror)) ∧
      (o.profileSel = false → (g.chan x).nev.profile = (s.f.chan x).nev.profile) ∧
      (∀ y, y ≠ x → (g.chan y).nev = (s.f.chan y).nev ∧ (g.chan y).fr = (s.f.chan y).fr) ∧
      g.answeredAs (c.as 0x12) .ok 0 c.handle = true))

/-- CLOSE (R69, R71, R165): a switched channel in OPEN, TRIPPED or RETRY_WAIT whose checks pass enters INSERTING and the
insertion queue, and its wheel entry goes; in INSERTING or CLOSED nothing changes. -/
def Obligations.CloseStartsInsertion : Prop :=
  ∀ (s : State) (c : CmdHdr) (soft : Bool), s.f.takesNow c 0x13 = true → s.f.firnOn = true →
    firstFail (s.f.switchChecks (c.as 0x13) 0) = none →
    let x := Field.idx c.handle
    let st := (s.f.chan x).nev.state
    (st = .inserting ∨ st = .closed → s.endsField (.closeCh c soft) (fun g => g = s.f.withRecords g ∧
      g.answeredAs (c.as 0x13) .ok 0 c.handle = true)) ∧
    (st = .opened ∨ st = .tripped ∨ st = .retryWait → firstFail (s.f.closeChecks x soft) = none →
      s.endsField (.closeCh c soft) (fun g =>
        (g.chan x).nev.state = .inserting ∧ (g.chan x).fr.wheel = .none ∧
        g.hel = { s.f.hel with queue := s.f.hel.queue ++ [{ ch := x, origin := if soft then .soft else .close, tJoin := s.f.now }] } ∧
        (∀ y, y ≠ x → g.chan y = s.f.chan y) ∧ g = { s.f.heal2 x 1 with nev := g.nev, hel := g.hel }.withRecords g ∧
        g.answeredAs (c.as 0x13) .ok 0 c.handle = true))

/-- OPEN (R69, R70): from CLOSED, TRIPPED and RETRY_WAIT the channel enters OPEN, its retry count is 0 and its wheel entry goes; a
direct channel's gate is off and the command completes at once. In OPEN nothing changes. A queued insertion ends; one that holds a
context leaves it by ramp-off, or in HANDOVER at once. -/
def Obligations.OpenOpensChannel : Prop :=
  ∀ (s : State) (c : CmdHdr), s.f.takesNow c 0x14 = true → s.f.firnOn = true →
    firstFail (s.f.switchChecks (c.as 0x14) 1) = none →
    let x := Field.idx c.handle
    let st := (s.f.chan x).nev.state
    (st = .opened → s.endsField (.openCh c) (fun g => g = s.f.withRecords g ∧ g.answeredAs (c.as 0x14) .ok 0 c.handle = true)) ∧
    (st = .closed ∨ st = .tripped ∨ st = .retryWait → s.endsField (.openCh c) (fun g =>
      (g.chan x).nev.state = .opened ∧ (g.chan x).fr.rcount = 0 ∧ (g.chan x).fr.wheel = .none ∧
      (∀ n, s.f.directOf x = some n → (g.dchan n).mode = .off ∧ (g.dchan n).dg = false ∧
        g.answeredAs (c.as 0x14) .ok 0 c.handle = true))) ∧
    (st = .inserting → s.f.insCtx x = none → s.endsField (.openCh c) (fun g =>
      (g.chan x).nev.state = .opened ∧ (g.chan x).fr.rcount = 0 ∧ (∀ e ∈ g.hel.queue, e.ch ≠ x) ∧
      g.answeredAs (c.as 0x14) .ok 0 c.handle = true)) ∧
    (∀ (n : Nat) (k : Ctx), st = .inserting → s.f.insCtx x = some (n, k) → tabLook s.f.hel.ctx n = some k →
      (k.phase ≠ .handover → s.endsField (.openCh c) (fun g =>
        (g.chan x).nev.state = .opened ∧ (g.chan x).fr.rcount = 0 ∧ (∃ j, tabLook g.hel.ctx n = some j ∧ j.phase = .rampOff) ∧
        g.answeredAs (c.as 0x14) .ok 0 c.handle = true)) ∧
      (k.phase = .handover → s.endsField (.openCh c) (fun g =>
        (g.chan x).nev.state = .opened ∧ (g.chan x).fr.rcount = 0 ∧ tabLook g.hel.ctx n = none)))

/-- RELEASE (R159): a LOCKED_OUT channel enters OPEN with its retry count 0; no other channel changes. A partition without OPERATOR
and without a grant for release is refused with ROLE. -/
def Obligations.ReleaseEndsLockout : Prop :=
  ∀ (s : State) (c : CmdHdr), s.f.takesNow c 0x15 = true → s.f.firnOn = true → s.f.names c = true →
    let x := Field.idx c.handle
    let held := s.f.granted c.part x 2
    ((s.f.operator c.part = true ∧ (s.f.chan x).nev.owner = c.part) ∨ held = true → (s.f.chan x).nev.kind.switches = true →
      (s.f.chan x).nev.state = .lockedOut → s.endsField (.release c) (fun g =>
        (g.chan x).nev.state = .opened ∧ (g.chan x).fr.rcount = 0 ∧ (g.chan x).fr.wheel = .none ∧
        (∀ y, y ≠ x → g.chan y = s.f.chan y) ∧ g = { s.f.heal2 x 1 with nev := g.nev }.withRecords g ∧
        g.answeredAs (c.as 0x15) .ok 0 c.handle = true)) ∧
    (s.f.operator c.part = false → held = false → s.endsField (.release c) (fun g =>
      g = s.f.withRecords g ∧ g.answeredAs (c.as 0x15) .role 0 c.handle = true))

/-- GRANT (R379, R380): a mask other than 0 replaces the pair's grant, and the grantee then holds each granted bit; mask 0 takes
the grant away. -/
def Obligations.GrantGivesAndTakes : Prop :=
  ∀ (s : State) (c : CmdHdr) (p : Part) (m : BitVec 3) (sub : Bool), s.f.takesNow c 0x16 = true →
    firstFail (s.f.grantChecks (c.as 0x16) p m sub) = none →
    s.endsField (.grant c p m sub) (fun g =>
      let x := Field.idx c.handle
      (m ≠ 0 → g.prt.grants = s.f.prt.grants.filter (fun e => !Field.grantPairs x p e) ++ [Grant.mk x p m sub] ∧
        ∀ b, b < 3 → bit m b = true → g.granted p x b = true) ∧
      (m = 0 → g.prt.grants = s.f.prt.grants.filter (fun e => !Field.grantPairs x p e)) ∧
      g = { s.f with prt := { s.f.prt with grants := g.prt.grants } }.withRecords g ∧
      g.answeredAs (c.as 0x16) .ok 0 c.handle = true)

/-- READ_CHANNEL, READ_PROFILE, READ_CONTEXT, READ_ENERGY and READ_LOOPSET (R86, R88, R189, R215, R226): with the checks passed and
intact stores, the record goes to host memory at BUF in one message and the command completes; nothing else changes. READ_CHANNEL of an
entry with errors gives what stands once they are corrected, or the entry's recovery begins (R350). -/
def Obligations.FixedReadsAnswer : Prop :=
  ∀ (s : State) (c : CmdHdr) (o : ReadOps),
    (s.f.takesNow c 0x20 = true → firstFail (s.f.checksRead c.part c.handle ++ Field.readArgs o 32) = none →
      s.endsField (.readChannel c o) (fun g => g = (s.f.readEntry (Field.idx c.handle)).withRecords g ∧
        g.answeredAs (c.as 0x20) .ok 0 c.handle = true ∧
        g.keeps (Field.hwriteMsg c.part o.buf.toNat (nevBytes ((s.f.readEntry (Field.idx c.handle)).chan (Field.idx c.handle)).nev)))) ∧
    (s.f.intact = true →
    (s.f.takesNow c 0x20 = true → firstFail (s.f.checksRead c.part c.handle ++ Field.readArgs o 32) = none →
      s.endsField (.readChannel c o) (fun g => g = s.f.withRecords g ∧ g.answeredAs (c.as 0x20) .ok 0 c.handle = true ∧
        g.keeps (Field.hwriteMsg c.part o.buf.toNat (nevBytes (s.f.chan (Field.idx c.handle)).nev)))) ∧
    (∀ p : BitVec 16, s.f.takesNow c 0x22 = true → p.toNat ≤ 4095 → firstFail (s.f.readTableChecks (c.as 0x22) o 256) = none →
      s.endsField (.readProfile c o p) (fun g => g = s.f.withRecords g ∧ g.answeredAs (c.as 0x22) .ok 0 c.handle = true ∧
        g.keeps (Field.hwriteMsg c.part o.buf.toNat (pad 256 (s.f.prof (bits p 0 12)))))) ∧
    (∀ (n : Nat) (k : Ctx) (r : List (Nat × Ctx)), s.f.takesNow c 0x23 = true → firstFail (s.f.readContextChecks (c.as 0x23) o) = none →
      s.f.ctxsOf (Field.idx c.handle) = (n, k) :: r →
      s.endsField (.readContext c o) (fun g => g = s.f.withRecords g ∧ g.answeredAs (c.as 0x23) .ok 0 c.handle = true ∧
        g.keeps (Field.hwriteMsg c.part o.buf.toNat (ctxBytes n k)))) ∧
    (∀ fin : Bool, s.f.takesNow c 0x24 = true → s.f.firnOn = true → firstFail (s.f.readEnergyChecks (c.as 0x24) o fin) = none →
      (s.f.chan (Field.idx c.handle)).met.recordLost = false →
      s.endsField (.readEnergy c o fin) (fun g => g = s.f.withRecords g ∧ g.answeredAs (c.as 0x24) .ok 0 c.handle = true ∧
        g.keeps (Field.hwriteMsg c.part o.buf.toNat (Field.energyRecord c.handle
          (if fin then (s.f.chan (Field.idx c.handle)).met.elsb2 else s.f.elsbOf (Field.idx c.handle))
          (s.f.chan (Field.idx c.handle)).met fin)))) ∧
    (∀ n : Byte, s.f.takesNow c 0x27 = true → firstFail (s.f.readTableChecks (c.as 0x27) o 128) = none →
      s.endsField (.readLoopset c o n) (fun g => g = s.f.withRecords g ∧ g.answeredAs (c.as 0x27) .ok 0 c.handle = true ∧
        g.keeps (Field.hwriteMsg c.part o.buf.toNat (pad 128 (s.f.loopSet n))))))

/-- READ_SUBTREE, READ_HISTORY and READ_CAPTURE (R229, R233, R404): with the checks passed and intact stores the command completes
OK; DETAIL counts the entries or records delivered. The free values a capture read takes past the slot's entries aside,
nothing else changes. -/
def Obligations.ListReadsAnswer : Prop :=
  ∀ (s : State) (c : CmdHdr) (o : ReadOps),
    (∀ first : BitVec 17, s.f.takesNow c 0x21 = true → firstFail (s.f.checksRead c.part c.handle ++ Field.readArgs o 0) = none →
      s.endsField (.readSubtree c o first) (fun g => g = s.f.withRecords g ∧
        g.answeredAs (c.as 0x21) .ok
          (min (o.len.toNat / 8) ((s.f.descendants (Field.idx c.handle)).filter (fun y => first ≤ y)).length) c.handle = true)) ∧
    (∀ start count : BitVec 16, s.f.takesNow c 0x25 = true → s.f.firnOn = true → s.f.intact = true →
      firstFail (s.f.checksRead c.part c.handle ++ Field.readArgs o 0) = none →
      s.endsField (.readHistory c o start count) (fun g => g = s.f.withRecords g ∧
        g.answeredAs (c.as 0x25) .ok (min (o.len.toNat / 32) ((s.f.chan (Field.idx c.handle)).hist.ring.filter
          (fun h => decide ((h.seq - start).toNat < count.toNat))).length) c.handle = true)) ∧
    (∀ (slot : BitVec 16) (off : Word), s.f.takesNow c 0x26 = true → s.f.firnOn = true → s.f.intact = true →
      firstFail (s.f.readCaptureChecks (c.as 0x26) o slot off) = none →
      s.endsField (.readCapture c o slot off) (fun g => g = { s.f with freeN := g.freeN }.withRecords g ∧
        g.answeredAs (c.as 0x26) .ok 0 c.handle = true))

/-- WRITE_PROFILE and WRITE_LOOPSET (R89 to R91, R190, R191): with the checks passed, the table holds the written bytes, a
profile with its writer as OWNER; no other profile or loop set changes. -/
def Obligations.TableWritesStore : Prop :=
  ∀ (s : State) (c : CmdHdr) (data : Bytes), s.f.firnOn = true →
    (∀ p : BitVec 16, s.f.takesNow c 0x30 = true → firstFail (s.f.writeProfileChecks (c.as 0x30) p data) = none →
      s.endsField (.writeProfile c p data) (fun g =>
        g.prof (bits p 0 12) = Field.ownedProfile c.part data ∧ (∀ q, q ≠ bits p 0 12 → g.prof q = s.f.prof q) ∧
        g.nev.loops = s.f.nev.loops ∧ g.answeredAs (c.as 0x30) .ok 0 c.handle = true)) ∧
    (∀ n : Byte, s.f.takesNow c 0x31 = true → firstFail (s.f.writeLoopsetChecks (c.as 0x31) n data) = none →
      s.endsField (.writeLoopset c n data) (fun g =>
        g.loopSet n = data ∧ (∀ m, m ≠ n → g.loopSet m = s.f.loopSet m) ∧
        g.nev = { s.f.nev with loops := g.nev.loops, errs := g.nev.errs } ∧
        g = { s.f with nev := g.nev, firn := { s.f.firn with poisoned := g.firn.poisoned, errs := g.firn.errs,
                                                             alien := g.firn.alien } }.withRecords g ∧
        g.answeredAs (c.as 0x31) .ok 0 c.handle = true))

/-- CTX_BANK_WRITE fills the inactive bank of the channel's running context and completes; CTX_SWAP makes a swap pending, which
completes only when a good sample takes it (R200, R201, R204). -/
def Obligations.BankCommandsAct : Prop :=
  ∀ (s : State) (c : CmdHdr) (n : Nat) (k : Ctx),
    s.f.runningCtx (Field.idx c.handle) = some (n, k) → tabLook s.f.hel.ctx n = some k →
    (∀ data : Bytes, s.f.takesNow c 0x32 = true → firstFail (s.f.bankWriteChecks (c.as 0x32) data) = none →
      s.endsField (.ctxBankWrite c data) (fun g =>
        tabLook g.hel.ctx n = some (if k.activeB then { k with bankA := data, swapTaken := false }
          else { k with bankB := data, swapTaken := false }) ∧
        (∀ m, m ≠ n → tabLook g.hel.ctx m = tabLook s.f.hel.ctx m) ∧ g = { s.f with hel := { s.f.hel with ctx := g.hel.ctx } }.withRecords g ∧
        g.answeredAs (c.as 0x32) .ok 0 c.handle = true)) ∧
    (s.f.takesNow c 0x33 = true → firstFail (s.f.swapChecks (c.as 0x33)) = none →
      s.endsField (.ctxSwap c) (fun g =>
        tabLook g.hel.ctx n = some { k with swap := some (c.as 0x33) } ∧
        (∀ m, m ≠ n → tabLook g.hel.ctx m = tabLook s.f.hel.ctx m) ∧
        g = { s.f.begun (c.as 0x33) with hel := { s.f.hel with ctx := g.hel.ctx } }))

/-- ENERGY_SET (R222) writes both totals and marks them as set by the host; DEMAND_RESET (R225) clears the peak alone. (Stores with errors
are read, and corrected or recovered, first: RecordsAreRecovered.) -/
def Obligations.EnergyCommandsWrite : Prop :=
  ∀ (s : State) (c : CmdHdr), s.f.firnOn = true → s.f.intact = true →
    (∀ imp exp : BitVec 64, s.f.takesNow c 0x40 = true →
      firstFail (s.f.checks15 c.part c.handle (s.f.commissioner c.part) none) = none →
      s.endsField (.energySet c imp exp) (fun g =>
        let m := (g.chan (Field.idx c.handle)).met
        m.imp = imp ∧ m.exp = exp ∧ m.setByHost = true ∧ m.demPeak = (s.f.chan (Field.idx c.handle)).met.demPeak ∧
        (g.chan (Field.idx c.handle)).nev = (s.f.chan (Field.idx c.handle)).nev ∧
        (∀ y, y ≠ Field.idx c.handle → g.chan y = s.f.chan y) ∧ g.answeredAs (c.as 0x40) .ok 0 c.handle = true)) ∧
    (s.f.takesNow c 0x41 = true → firstFail (s.f.checks15 c.part c.handle (s.f.operator c.part) none) = none →
      s.endsField (.demandReset c) (fun g =>
        (g.chan (Field.idx c.handle)).met = { (s.f.chan (Field.idx c.handle)).met with demPeak := 0 } ∧
        (∀ y, y ≠ Field.idx c.handle → g.chan y = s.f.chan y) ∧ g = { s.f with nev := g.nev }.withRecords g ∧
        g.answeredAs (c.as 0x41) .ok 0 c.handle = true))

/-- CAPTURE (R230, R232): admitted, with a context and a slot free, it holds both and completes; the slot is the channel's and is
kept for the partition. CAPTURE_FREE (R233) frees a slot. -/
def Obligations.CaptureCommandsHoldSlots : Prop :=
  ∀ (s : State) (c : CmdHdr),
    (∀ (pre post : BitVec 16) (n sl : Nat), s.f.takesNow c 0x42 = true → s.f.firnOn = true →
      firstFail (s.f.captureChecks (c.as 0x42) pre post) = none → s.f.capAdmits (Field.idx c.handle) = true →
      s.f.firn.capWait.any (fun w => s.f.capAdmits w.ch) = false →
      s.f.freeCtx = some n → s.f.freeSlot = some sl →
      s.endsField (.capture c pre post) (fun g =>
        (∃ k, g.slot? sl = some k ∧ k.kind = .request ∧ k.running = true ∧ k.dest = c.part ∧ k.left = post.toNat ∧
          k.handle = s.f.handle (Field.idx c.handle)) ∧
        (∃ k, tabLook g.hel.ctx n = some k ∧ k.ch = Field.idx c.handle ∧ k.capSlot = some sl) ∧
        g.answeredAs (c.as 0x42) .ok 0 c.handle = true)) ∧
    (∀ slot : BitVec 16, s.f.takesNow c 0x43 = true → firstFail (s.f.captureFreeChecks (c.as 0x43) slot) = none →
      s.endsField (.captureFree c slot) (fun g => g.slot? slot.toNat = none ∧
        (∀ m, m ≠ slot.toNat → s.f.hel.ctx = [] → g.slot? m = s.f.slot? m) ∧ g.answeredAs (c.as 0x43) .ok 0 c.handle = true))

/-- REGISTER_READ (R15, R18, R373, R493): while the sequencer runs, a whole aligned read of the field window sends the register's
value to the partition that reads, and changes no more than clearing fields and latches. A read of the field window that is not one
whole aligned word gets Unsupported Request. -/
def Obligations.RegisterReadsAnswer : Prop :=
  ∀ (s : State) (p : Part) (off : Word),
    (s.f.seqRuns = true → off.toNat % 4 = 0 → s.endsField (.registerRead p .field off .dword) (fun g =>
      g.out = s.f.out ++ [Out.read p (s.f.regRead p off.toNat).1] ∧
      g.nev.ch = s.f.nev.ch ∧ g.nev.prof = s.f.nev.prof ∧ g.nev.loops = s.f.nev.loops ∧ g.hel.ctx = s.f.hel.ctx ∧
      g.hel.queue = s.f.hel.queue ∧ g.prt = s.f.prt ∧ g.trn.dat = s.f.trn.dat ∧ g.trn.ctl = s.f.trn.ctl ∧
      g.nvm.log = s.f.nvm.log ∧ g.sec = s.f.sec ∧ g.mer.count = s.f.mer.count ∧ g.saf.safe = s.f.saf.safe ∧
      g.pwr.st = s.f.pwr.st ∧
      (off = 0x10104 → g = { s.f with nev := { s.f.nev with missed := 0 }, out := s.f.out ++ [Out.read p s.f.nev.missed] }) ∧
      (off = 0x10100 → g = { s.f with out := s.f.out ++ [Out.read p s.f.nev.sfn] }) ∧
      (off = 0x16008 → g = { s.f with out := s.f.out ++ [Out.read p (bits s.f.mer.count 32 32)] }) ∧
      (off.toNat < 0x10000 → g = { s.f with out := s.f.out ++ [Out.read p 0] }))) ∧
    (∀ acc : Access, acc ≠ .dword ∨ off.toNat % 4 ≠ 0 → s.endsHost (.registerRead p .field off acc) (fun k =>
      k = { s.h with out := s.h.out ++ [Out.unsupported p] }))

/-- WIDE_LO_READ (R313): the read answers bits 31 to 0 of the count, of station time or of the PPS latch, and bits 63 to 32 go to
the HI latch of the reading partition and of no other. A read of the HI register answers that latch. -/
def Obligations.WideReadsLatch : Prop :=
  ∀ (s : State) (p : Part) (r : WideReg), s.f.seqRuns = true →
    s.endsField (.wideLoRead p r) (fun g =>
      let v : BitVec 64 := match r with | .cnt => s.f.mer.count | .stn => s.f.mer.count + s.f.mer.sto | .pps => s.f.mer.pps
      let m := s.f.merPart p
      g.out = s.f.out ++ [Out.read p (bits v 0 32)] ∧
      g.merPart p = (match r with
        | .cnt => { m with cntHi := bits v 32 32 } | .stn => { m with stnHi := bits v 32 32 } | .pps => { m with ppsHi := bits v 32 32 }) ∧
      (∀ q, q ≠ p → g.merPart q = s.f.merPart q) ∧
      g = { s.f with mer := { s.f.mer with part := g.mer.part }, out := g.out }) ∧
    s.endsField (.registerRead p .field (match r with | .cnt => 0x16004 | .stn => 0x16020 | .pps => 0x16028) .dword) (fun g =>
      let m := s.f.merPart p
      g = { s.f with out := s.f.out ++ [Out.read p (match r with | .cnt => m.cntHi | .stn => m.stnHi | .pps => m.ppsHi)] })

/-- REGISTER_WRITE (R16, R375, R384): a partition without a role changes nothing; SEL_CTRL takes its fields from a COMMISSIONER;
an RWC register stays as it is outside the commissioning state, and THM_LIMIT takes a legal value within it. A write of another form is
discarded and recorded as an Unsupported Request (R373). -/
def Obligations.RegisterWritesAct : Prop :=
  ∀ (s : State) (p : Part) (v hi : Word), s.f.seqRuns = true →
    (∀ off : Word, off.toNat % 4 = 0 → s.f.anyRole p = false → s.endsField (.registerWrite p .field off (hi ++ v) .dword) (fun g => g = s.f)) ∧
    (s.f.commissioner p = true → s.endsField (.registerWrite p .field 0x11000 (hi ++ v) .dword) (fun g =>
      g = { s.f with sel := { s.f.sel with enable := bit v 0, stormN := bits v 8 8, stormQuiet := bits v 16 4 } })) ∧
    (∀ off : Word, off = 0x13100 ∨ off = 0x30304 → s.f.anyRole p = true → s.f.sec.comm = false →
      s.endsField (.registerWrite p .field off (hi ++ v) .dword) (fun g => g = { s.f with nvm := g.nvm })) ∧
    (s.f.commissioner p = true → s.f.sec.comm = true → Field.limitOk v = true →
      s.endsField (.registerWrite p .field 0x30304 (hi ++ v) .dword) (fun g => g.thm = { s.f.thm with limit := v &&& 0x00FFFFFF })) ∧
    (∀ (off : Word) (acc : Access), acc ≠ .dword ∨ off.toNat % 4 ≠ 0 → s.endsHost (.registerWrite p .field off (hi ++ v) acc) (fun k =>
      k.hp p = { s.h.hp p with aerUr := true } ∧ (∀ q, q ≠ p → k.hp q = s.h.hp q) ∧ k = { s.h with part := k.part }))

/-- COLD_ACK_WRITE (R75), HOLD_ALL (R155), HIST_CFG_WRITE (R229) and LOG_SELECT (R472): each changes its own field. A partition
clears its own PENDING bit alone; a history depth that fits empties every channel's ring, any other sets FIT_ERR alone. -/
def Obligations.ConfigurationWritesAct : Prop :=
  ∀ (s : State) (p : Part), s.f.writes p = true →
    (∀ v : Word, bit v p.toNat = true → s.endsField (.coldAckWrite p v) (fun g =>
      bit g.nev.coldAck p.toNat = false ∧ (∀ q : Part, q ≠ p → bit g.nev.coldAck q.toNat = bit s.f.nev.coldAck q.toNat) ∧
      g = { s.f with nev := { s.f.nev with coldAck := g.nev.coldAck } })) ∧
    (∀ b : Bool, s.f.commissioner p = true → s.endsField (.holdAll p b) (fun g =>
      g = { s.f with sel := { s.f.sel with holdAll := b } })) ∧
    (∀ v : Word, s.f.commissioner p = true →
      let d := (bits v 0 5 : BitVec 5).toNat
      (d = 0 ∨ (8 ≤ d ∧ d ≤ 16 ∧ 4 * 2 ^ d ≤ s.f.firn.capGib.toNat * 1024 - 256) → s.endsField (.histCfgWrite p v) (fun g =>
        g.firn = { s.f.firn with depth := bits v 0 5, fitErr := false } ∧
        (∀ x, (s.f.chan x).nev.state ≠ .free → (g.chan x).hist.ring = []) ∧ (∀ x, (g.chan x).nev = (s.f.chan x).nev))) ∧
      (d ≠ 0 ∧ (d < 8 ∨ 16 < d ∨ s.f.firn.capGib.toNat * 1024 - 256 < 4 * 2 ^ d) → s.endsField (.histCfgWrite p v) (fun g =>
        g = { s.f with firn := { s.f.firn with fitErr := true } }))) ∧
    (∀ q : Word, s.endsField (.logSelect p q) (fun g =>
      g = { s.f with prt := { s.f.prt with logSel := g.prt.logSel } } ∧ tabGet 0 g.prt.logSel p.toNat = q ∧
      (∀ r : Part, r ≠ p → tabGet 0 g.prt.logSel r.toNat = tabGet 0 s.f.prt.logSel r.toNat)))

/-- HI_WRITE_COMMIT (R315): a HI write commits the 64-bit value of MER_STO, of an owned compare channel, of a pin compare or of
PWR_WAKE, with the low word that the partition staged, else the one in force. A commit of MER_STO ends any slew (R321). -/
def Obligations.StagedWritesCommit : Prop :=
  ∀ (s : State) (p : Part) (v : Word), s.f.writes p = true →
    (s.f.commissioner p = true → s.endsField (.hiWriteCommit p 0x16014 v) (fun g =>
      g.mer = { s.f.mer with sto := v ++ (s.f.merPart p).stoLo.getD (bits s.f.mer.sto 0 32), slew := 0, part := g.mer.part } ∧
      g.merPart p = { s.f.merPart p with stoLo := none } ∧ (∀ q, q ≠ p → g.merPart q = s.f.merPart q))) ∧
    (∀ n : Nat, 8 ≤ n → n < 24 → (s.f.cmp n).owner = some p →
      s.endsField (.hiWriteCommit p (BitVec.ofNat 32 (0x16104 + 16 * n)) v) (fun g =>
        g.cmp n = { s.f.cmp n with v := v ++ (tabLook (s.f.merPart p).cmpLo n).getD (bits (s.f.cmp n).v 0 32) } ∧
        tabLook (g.merPart p).cmpLo n = none ∧ (∀ m, m ≠ n → g.cmp m = s.f.cmp m) ∧
        g = { s.f with mer := { s.f.mer with cmp := g.mer.cmp, part := g.mer.part } })) ∧
    (∀ m : Nat, m < 8 → s.f.commissioner p = true →
      s.endsField (.hiWriteCommit p (BitVec.ofNat 32 (0x16304 + 16 * m)) v) (fun g =>
        g.pcmp m = { s.f.pcmp m with v := v ++ (tabLook (s.f.merPart p).pcmpLo m).getD (bits (s.f.pcmp m).v 0 32) } ∧
        (∀ k, k ≠ m → g.pcmp k = s.f.pcmp k) ∧ g = { s.f with mer := { s.f.mer with pcmp := g.mer.pcmp, part := g.mer.part } })) ∧
    (s.f.operator p = true ∨ s.f.commissioner p = true → s.endsField (.hiWriteCommit p 0x3000C v) (fun g =>
      g.pwr = { s.f.pwr with wakeAt := v ++ (tabLook s.f.pwr.wakeLo p.toNat).getD (bits s.f.pwr.wakeAt 0 32), wakeLo := g.pwr.wakeLo } ∧
      g = { s.f with pwr := g.pwr }))

/-- MER_SLEW (R321): a COMMISSIONER's write replaces the amount that remains. SLEW_STEP (R321): at a count that is a multiple of
10,000 one tick moves from the amount that remains into the offset, and nothing else changes. -/
def Obligations.SlewMovesStation : Prop :=
  ∀ s : State,
    (∀ (p : Part) (v : Word), s.f.seqRuns = true → s.f.commissioner p = true → s.endsField (.merSlew p v) (fun g =>
      g = { s.f with mer := { s.f.mer with slew := v } })) ∧
    (s.f.pwr.st ≠ .thermalOff → s.f.mer.slew ≠ 0 → s.f.mer.count.toNat % 10000 = 0 → s.f.mer.slewAt ≠ some s.f.mer.count →
      s.endsField .slewStep (fun g =>
        (s.f.mer.slew.toInt < 0 → g.mer.sto = s.f.mer.sto - 1 ∧ g.mer.slew = s.f.mer.slew + 1) ∧
        (0 < s.f.mer.slew.toInt → g.mer.sto = s.f.mer.sto + 1 ∧ g.mer.slew = s.f.mer.slew - 1) ∧
        g = { s.f with mer := { s.f.mer with sto := g.mer.sto, slew := g.mer.slew, slewAt := some s.f.mer.count } }))

/-- TIMER_CLAIM and TIMER_RELEASE (R328): an unowned compare channel or down-counter goes to the partition that claims it, and its
owner gives it up stopped. LOAD (R334): the owner's write copies RELOAD to COUNT and takes the control fields. No other timer
changes. -/
def Obligations.TimersAreClaimed : Prop :=
  ∀ (s : State) (p : Part), s.f.writes p = true →
    (s.f.operator p = true ∨ s.f.commissioner p = true →
      (∀ n : BitVec 5, 8 ≤ n.toNat → n.toNat < 24 → (s.f.cmp n.toNat).owner = none → s.endsField (.timerClaim p (.cmp n)) (fun g =>
        g.cmp n.toNat = { s.f.cmp n.toNat with owner := some p } ∧ (∀ m, m ≠ n.toNat → g.cmp m = s.f.cmp m) ∧
        g = { s.f with mer := { s.f.mer with cmp := g.mer.cmp } })) ∧
      (∀ k : BitVec 4, (s.f.dct k.toNat).owner = none → s.endsField (.timerClaim p (.dct k)) (fun g =>
        g.dct k.toNat = { s.f.dct k.toNat with owner := some p } ∧ (∀ m, m ≠ k.toNat → g.dct m = s.f.dct m) ∧
        g = { s.f with mer := { s.f.mer with dct := g.mer.dct } }))) ∧
    (∀ n : BitVec 5, (s.f.cmp n.toNat).owner = some p → s.endsField (.timerRelease p (.cmp n)) (fun g =>
      g.cmp n.toNat = { s.f.cmp n.toNat with owner := none, en := false } ∧ (∀ m, m ≠ n.toNat → g.cmp m = s.f.cmp m) ∧
      g = { s.f with mer := { s.f.mer with cmp := g.mer.cmp } })) ∧
    (∀ k : BitVec 4, (s.f.dct k.toNat).owner = some p → s.endsField (.timerRelease p (.dct k)) (fun g =>
      g.dct k.toNat = { s.f.dct k.toNat with owner := none, run := false } ∧ (∀ m, m ≠ k.toNat → g.dct m = s.f.dct m) ∧
      g = { s.f with mer := { s.f.mer with dct := g.mer.dct } })) ∧
    (∀ (k : BitVec 4) (ctl : Word), (s.f.dct k.toNat).owner = some p → bit ctl 30 = false →
      (bits ctl 10 6 : BitVec 6).toNat ≠ k.toNat → (bits ctl 10 6 : BitVec 6).toNat ≤ 32 →
      ((bits ctl 8 2 : BitVec 2) = 2 → (bits ctl 10 6 : BitVec 6).toNat ≤ 15) → s.endsField (.load p k ctl) (fun g =>
        (g.dct k.toNat).count = (s.f.dct k.toNat).reload ∧ (g.dct k.toNat).reload = (s.f.dct k.toNat).reload ∧
        (g.dct k.toNat).run = bit ctl 0 ∧ (g.dct k.toNat).auto = bit ctl 1 ∧ (g.dct k.toNat).mode = bits ctl 8 2 ∧
        (g.dct k.toNat).owner = some p ∧ (∀ m, m ≠ k.toNat → g.dct m = s.f.dct m) ∧
        g = { s.f with mer := { s.f.mer with dct := g.mer.dct } }))

/-- COMPARE_FIRE (R322, R324, R325): a channel whose value lies at or behind the count sets FIRED; with an interval, V moves past
the count by whole intervals and MISSED counts the periods skipped; without one, EN is cleared. A system compare makes its activity
due; a data-class compare with EVT_EN tells its owner. PCMP_FIRE (R330): the same for a pin, whose level takes the action.
DCT_ZERO (R333): ZERO is set, and a counter with EVT_EN tells its owner. -/
def Obligations.ComparesFire : Prop :=
  ∀ s : State, s.f.pwr.st ≠ .thermalOff →
    (∀ n : BitVec 5, (s.f.cmp n.toNat).en = true → (s.f.cmp n.toNat).v ≤ s.f.mer.count →
      s.endsField (.compareFire n) (fun g =>
        let c := s.f.cmp n.toNat
        let itv := s.f.cmpItv n.toNat
        let k := (s.f.mer.count.toNat - c.v.toNat) / itv
        (itv ≠ 0 → g.cmp n.toNat = { c with
          v := BitVec.ofNat 64 (c.v.toNat + itv * (k + 1)), missed := satAdd c.missed k, fired := true }) ∧
        (itv = 0 → g.cmp n.toNat = { c with en := false, fired := true, missed := satAdd c.missed 0 }) ∧
        (∀ m, m ≠ n.toNat → g.cmp m = s.f.cmp m) ∧ g.mer.count = s.f.mer.count ∧
        (n.toNat < 7 → s.f.coreOn = true → bit g.mer.sysDue n.toNat = true) ∧
        (∀ p, 8 ≤ n.toNat → c.owner = some p → c.evtEn = true → s.f.coreOn = true → s.f.roomFor p = true →
          g.told p 0x30 0 = true))) ∧
    (∀ m : BitVec 3, (s.f.pcmp m.toNat).en = true → (s.f.pcmp m.toNat).v ≤ s.f.mer.count →
      s.endsField (.pcmpFire m) (fun g =>
        let c := s.f.pcmp m.toNat
        (g.pcmp m.toNat).fired = true ∧
        (c.action = 0 → (g.pcmp m.toNat).level = true) ∧ (c.action = 1 → (g.pcmp m.toNat).level = false) ∧
        (c.action = 2 → (g.pcmp m.toNat).level = !c.level) ∧ (c.itv = 0 → (g.pcmp m.toNat).en = false) ∧
        (∀ k, k ≠ m.toNat → g.pcmp k = s.f.pcmp k) ∧ g = { s.f with mer := { s.f.mer with pcmp := g.mer.pcmp } })) ∧
    (∀ k : BitVec 4, (s.f.dct k.toNat).fireDue = true → s.endsField (.dctZero k) (fun g =>
      (g.dct k.toNat).zero = true ∧ (g.dct k.toNat).fireDue = false ∧ (g.dct k.toNat).count = (s.f.dct k.toNat).count ∧
      g.mer.count = s.f.mer.count ∧
      (∀ p, (s.f.dct k.toNat).owner = some p → (s.f.dct k.toNat).evtEn = true → s.f.coreOn = true → s.f.roomFor p = true →
        g.told p 0x31 0 = true)))

/-- REFCLK_LOST and REFCLK_RESTORED (R316 to R318): holdover begins, is counted, and takes Transit down; a loss in holdover starts the
1 ms of R318 again; 1 ms after the last one holdover ends, and (with no command waiting for Firn, which would run in the same step)
Transit and every enabled lane start training. PPS_EDGE and PPS_LOST (R319, R320): an edge latches the count, or is counted as bad
within 1 ms of the last; its absence clears PPS_OK and tells every partition once. -/
def Obligations.ReferencesAreWatched : Prop :=
  ∀ s : State, s.f.pwr.st ≠ .thermalOff →
    (s.f.mer.holdover = false → s.endsField .refclkLost (fun g =>
      g.mer = { s.f.mer with holdover := true, holdEntries := satAdd s.f.mer.holdEntries 1, holdAt := s.f.mer.count,
                             holdOwed := s.f.mer.holdOwed ++ [s.f.mer.count] } ∧
      (s.f.trn.st = .up → g.trn.st = .down) ∧ g.sec.comm = false ∧ g.nev = s.f.nev ∧ g.saf = s.f.saf ∧ g.pwr = s.f.pwr)) ∧
    (s.f.mer.holdover = true → s.endsField .refclkLost (fun g => g = { s.f with mer := { s.f.mer with holdAt := s.f.mer.count } })) ∧
    (s.f.mer.holdover = true → s.f.mer.holdAt.toNat + 100000 ≤ s.f.mer.count.toNat → s.f.coreOn = true →
      s.f.firn.waiting = [] → s.endsField .refclkRestored (fun g => g.mer = { s.f.mer with holdover := false } ∧ g.trn.st = .train ∧
        (∀ l, (s.f.lane l).en = true → (g.lane l).st = .train) ∧ (s.f.intact = true → ∀ l, (∀ e ∈ s.f.lan.lane, e.2.en = true → BitVec.ofNat 5 e.1 ≠ l) → g.lane l = s.f.lane l))) ∧
    (s.f.mer.ppsEn = true →
      (s.f.mer.ppsEdges = 0 ∨ 100000 < s.f.mer.count.toNat - s.f.mer.pps.toNat → s.endsField .ppsEdge (fun g =>
        g.mer.pps = s.f.mer.count ∧ g.mer.ppsFrom = s.f.mer.count ∧ g.mer.ppsLost = false ∧
        (g.mer.ppsOk = true ↔ s.f.mer.ppsEdges ≠ 0 ∧ 100000000 ≤ s.f.mer.count.toNat - s.f.mer.pps.toNat + s.f.ppsTol ∧
          s.f.mer.count.toNat - s.f.mer.pps.toNat ≤ 100000000 + s.f.ppsTol))) ∧
      (s.f.mer.ppsEdges ≠ 0 → s.f.mer.count.toNat - s.f.mer.pps.toNat ≤ 100000 → s.endsField .ppsEdge (fun g =>
        g = { s.f with mer := { s.f.mer with ppsBad := satAdd s.f.mer.ppsBad 1 } })) ∧
      (s.f.mer.ppsLost = false → s.f.mer.ppsFrom.toNat + 100000000 + s.f.ppsTol ≤ s.f.mer.count.toNat → s.endsField .ppsLost (fun g =>
        g.mer = { s.f.mer with ppsOk := false, ppsLost := true } ∧
        (∀ p, s.f.coreOn = true → s.f.roomFor p = true → g.told p 0x39 0 = true))))

/-- COMPARATOR_CROSSING, HOLDOFF_EXPIRY, HOLD_LIMIT_EXPIRY and CLEAR_TIME_EXPIRY (R290 to R292) complete: an output asserted at more
samples in a row than CMP_FILT is recognised, and reported where the comparator has been clear since the last report: with IMMEDIATE the
gate goes OFF and is counted, else the hold-off starts. At the end of a hold-off or hold the gate goes OFF where the comparator is
asserted, and a CLOSED channel trips with LOCAL_TRIP. Once the clear time has passed since the last assertion the comparator is
clear. -/
def Obligations.ComparatorsAct : Prop :=
  ∀ (s : State) (n : BitVec 4) (x : BitVec 17), (s.f.dchan n).bound = some x →
    (∀ run lat pres, (s.f.dchan n).thresh ≠ 0 → run ≠ 0 → (s.f.dchan n).mode = .off ∨ run ≤ (s.f.dchan n).cmpFilt.toNat →
      s.endsField (.comparatorCrossing n ⟨run, lat, pres⟩) (fun g =>
        g.dchan n = { s.f.dchan n with clear := false, tAssert := s.f.now } ∧
        (∀ m, m ≠ n → g.dchan m = s.f.dchan m) ∧ g = { s.f with dch := g.dch })) ∧
    (∀ run lat pres, (s.f.dchan n).thresh ≠ 0 → (s.f.dchan n).mode ≠ .off → (s.f.dchan n).cmpFilt.toNat < run →
      (s.f.dchan n).mayReport = false → s.endsField (.comparatorCrossing n ⟨run, lat, pres⟩) (fun g =>
        g.dchan n = { s.f.dchan n with cmp := true, clear := false, tAssert := s.f.now,
                                       preFrozen := some ((s.f.dchan n).preFrozen.getD s.f.now) } ∧
        (∀ m, m ≠ n → g.dchan m = s.f.dchan m) ∧ g = { s.f with dch := g.dch })) ∧
    (∀ run lat pres, (s.f.dchan n).thresh ≠ 0 → (s.f.dchan n).mode ≠ .off → (s.f.dchan n).cmpFilt.toNat < run →
      (s.f.dchan n).mayReport = true → (s.f.dchan n).immediate = true → s.endsField (.comparatorCrossing n ⟨run, lat, pres⟩) (fun g =>
        (g.dchan n).mode = .off ∧ (g.dchan n).dg = false ∧ (g.dchan n).cmp = true ∧ (g.dchan n).mayReport = false ∧
        (g.dchan n).reports = satAdd (s.f.dchan n).reports 1 ∧ (g.dchan n).cmpOpen = satAdd (s.f.dchan n).cmpOpen 1 ∧
        (g.chan x).aux.localTrip = true)) ∧
    (∀ run lat pres, (s.f.dchan n).thresh ≠ 0 → (s.f.dchan n).mode ≠ .off → (s.f.dchan n).cmpFilt.toNat < run →
      (s.f.dchan n).mayReport = true → (s.f.dchan n).immediate = false → s.f.coreOn = false →
      s.endsField (.comparatorCrossing n ⟨run, lat, pres⟩) (fun g =>
        g.dchan n = { s.f.dchan n with
          cmp := true, clear := false, tAssert := s.f.now, preFrozen := some ((s.f.dchan n).preFrozen.getD s.f.now),
          mayReport := false, reports := satAdd (s.f.dchan n).reports 1,
          timer := .holdoff (s.f.now + BitVec.ofNat 64 (100 * (s.f.dchan n).holdoffUs)) } ∧
        (∀ m, m ≠ n → g.dchan m = s.f.dchan m) ∧ g = { s.f with dch := g.dch })) ∧
    (∀ d, (s.f.dchan n).timer = .holdoff d → d ≤ s.f.now → (s.f.dchan n).mode ≠ .off → s.f.coreOn = true →
      (s.f.chan x).nev.state = .closed → s.endsField (.holdoffExpiry n true) (fun g =>
        (g.dchan n).mode = .off ∧ (g.dchan n).dg = false ∧ (g.dchan n).timer = .idle ∧ (g.chan x).nev.state = .tripped ∧
        (g.chan x).fr.cause = 0x07)) ∧
    (∀ d, (s.f.dchan n).timer = .hold d → d ≤ s.f.now → (s.f.dchan n).mode ≠ .off → s.f.coreOn = true →
      (s.f.chan x).nev.state = .closed → s.endsField (.holdLimitExpiry n true) (fun g =>
        (g.dchan n).mode = .off ∧ (g.dchan n).dg = false ∧ (g.dchan n).timer = .idle ∧ (g.chan x).nev.state = .tripped ∧
        (g.chan x).fr.cause = 0x07)) ∧
    (∀ d, (s.f.dchan n).timer = .holdoff d → d ≤ s.f.now → s.endsField (.holdoffExpiry n false) (fun g =>
      g.dchan n = { s.f.dchan n with timer := .idle, cmp := false } ∧ (∀ m, m ≠ n → g.dchan m = s.f.dchan m) ∧
      g = { s.f with dch := g.dch })) ∧
    (((s.f.dchan n).clear = false ∨ (s.f.dchan n).mayReport = false) →
      (s.f.dchan n).tAssert.toNat + 100 * (s.f.dchan n).clearUs ≤ s.f.now.toNat → s.endsField (.clearTimeExpiry n) (fun g =>
        (g.dchan n).clear = true ∧ (g.dchan n).mayReport = true ∧ (g.dchan n).cmp = false ∧ (g.dchan n).timer = .idle ∧
        (g.dchan n).mode = (s.f.dchan n).mode ∧ g.saf = s.f.saf ∧ g.mer = s.f.mer)) ∧
    (s.f.now.toNat < (s.f.dchan n).tAssert.toNat + 100 * (s.f.dchan n).clearUs → s.endsField (.clearTimeExpiry n) (fun g => g = s.f))

/-- DFB_LEVEL and DRIVER_STUCK (R294) complete: a level of DFBn that has stood for DFB_FILT samples is recognised, inverted where DFB_POL
says so, and one that has not changes nothing; a driver that falls while its channel is CLOSED opens it and is
counted; a driver still high DFB_T after its gate went OFF is reported once. SCAN_SLOT_CONVERSION (R295, R298, R299): at its
slot of the cycle a bound channel's results join the sums of the running superframe, once. -/
def Obligations.DriversAreWatched : Prop :=
  ∀ (s : State) (n : BitVec 4),
    (∀ pin run, run < max 1 (s.f.dchan n).dfbFilt.toNat → s.endsField (.dfbLevel n ⟨pin, run⟩) (fun g => g = s.f)) ∧
    (∀ pin run, max 1 (s.f.dchan n).dfbFilt.toNat ≤ run → s.f.pwr.st ≠ .thermalOff → s.endsField (.dfbLevel n ⟨pin, run⟩) (fun g =>
      let lvl := pin != (s.f.dchan n).dfbPol
      (g.dchan n).dfb = lvl ∧ ((s.f.dchan n).bound = none → g.dchan n = { s.f.dchan n with dfb := lvl } ∧ g = { s.f with dch := g.dch }) ∧
      (∀ x, (s.f.dchan n).bound = some x → lvl = false → s.f.coreOn = true → (s.f.chan x).nev.state = .closed →
        (g.dchan n).mode = .off ∧ (g.dchan n).dg = false ∧ (g.dchan n).drvFault = satAdd (s.f.dchan n).drvFault 1 ∧
        (g.chan x).nev.state = .tripped ∧ (g.chan x).fr.cause = 0x14))) ∧
    (∀ x, (s.f.dchan n).bound = some x → s.f.coreOn = true → (s.f.dchan n).mode = .off → (s.f.dchan n).dfb = true →
      (s.f.dchan n).dfbT ≠ 0 → (s.f.dchan n).stuck = false →
      (s.f.dchan n).tOff.toNat + 100 * (s.f.dchan n).dfbT.toNat ≤ s.f.now.toNat → s.endsField (.driverStuck n) (fun g =>
        g.dchan n = { s.f.dchan n with stuck := true } ∧ (g.chan x).aux.lastElem = 0x15 ∧ (g.chan x).nev = (s.f.chan x).nev ∧
        (∀ m, m ≠ n → g.dchan m = s.f.dchan m))) ∧
    (∀ rawI rawV, (s.f.dchan n).bound.isSome = true → s.f.pwr.st ≠ .standby → s.f.pwr.st ≠ .thermalOff →
      s.f.now.toNat % 2000 = 50 * Field.scanOf n → (s.f.dchan n).tScan ≠ some s.f.now →
      s.endsField (.scanSlotConversion n rawI rawV) (fun g =>
      (g.dchan n).n = (s.f.dchan n).n + 1 ∧ (g.dchan n).sumI = (s.f.dchan n).sumI + (s.f.convert (2 * n.toNat) rawI).1.toInt ∧
      (g.dchan n).sumV = (s.f.dchan n).sumV + (s.f.convert (2 * n.toNat + 1) rawV).1.toInt ∧
      (g.dchan n).mode = (s.f.dchan n).mode ∧ (∀ m, m ≠ n → g.dchan m = s.f.dchan m) ∧ g = { s.f with dch := g.dch }))

/-- REFBUF_EN and REF_READY (R302): the buffer goes on not ready, and is ready 20,000 ticks later; it goes off only where no DIRECT
channel exists. ADC_CROSS_CHECK (R303): the difference of both converters is judged against TOL; three failures in a row set XCHK_FAIL
and tell every partition, three passes clear it. ADC_CALIBRATION_STEP (R304): slot 39 of another cycle calibrates. A pending
injected entry that wants slot 39 takes it from either and is counted. -/
def Obligations.ReferenceIsChecked : Prop :=
  ∀ s : State,
    (∀ (p : Part) (b : Bool), s.f.seqRuns = true → s.f.commissioner p = true →
      (b = true → s.f.adc.refEn = false → s.endsField (.refbufEn p b) (fun g =>
        g = { s.f with adc := { s.f.adc with refEn := true, refReady := false, tRef := s.f.now } })) ∧
      (b = false → s.f.nev.cntDirect = 0 → s.endsField (.refbufEn p b) (fun g =>
        g = { s.f with adc := { s.f.adc with refEn := false, refReady := false } })) ∧
      (b = false → s.f.nev.cntDirect ≠ 0 → s.endsField (.refbufEn p b) (fun g => g = s.f))) ∧
    (s.f.adc.refEn = true → s.f.adc.refReady = false → s.f.pwr.st ≠ .standby → s.f.pwr.st ≠ .thermalOff → s.f.adc.tRef.toNat + 20000 ≤ s.f.now.toNat → s.endsField .refReady (fun g =>
      g = { s.f with adc := { s.f.adc with refReady := true } })) ∧
    (∀ (t : Count) (rawA rawB : BitVec 16), s.f.at39 t = true → s.f.xchkDue = true → s.f.yields = false →
      s.endsField (.adcCrossCheck t rawA rawB) (fun g =>
        let d := (s.f.convert 32 rawA).1.toInt - (s.f.convert 32 rawB).1.toInt
        let fails : Prop := (s.f.adc.tol.toNat : Int) < d.natAbs
        (-32768 ≤ d → d ≤ 32767 → g.adc.lastDiff = BitVec.ofInt 16 d) ∧
        g.adc.xchkAt = s.f.now.toNat / 2000 ∧ g.adc.slot39 = some s.f.now ∧ g.adc.yieldRun = 0 ∧
        (fails → g.adc.xchkBad = satAdd s.f.adc.xchkBad 1 ∧ g.adc.failRun = min (s.f.adc.failRun + 1) 3 ∧ g.adc.passRun = 0) ∧
        (¬fails → g.adc.xchkBad = s.f.adc.xchkBad ∧ g.adc.failRun = 0 ∧ g.adc.passRun = min (s.f.adc.passRun + 1) 3) ∧
        (fails → s.f.adc.failRun = 2 → g.adc.xchkFail = true) ∧ (¬fails → s.f.adc.passRun = 2 → g.adc.xchkFail = false) ∧
        (fails → s.f.adc.failRun = 2 → s.f.adc.xchkFail = false → ∀ p, s.f.roomFor p = true → g.told p 0x3C 0 = true) ∧
        g = { s.f with adc := g.adc, freeN := g.freeN }.withRecords g)) ∧
    (∀ t, s.f.at39 t = true → s.f.xchkDue = false → s.f.yields = false → s.endsField (.adcCalibrationStep t) (fun g =>
      g = { s.f with adc := { s.f.adc with calSteps := s.f.adc.calSteps + 1, yieldRun := 0, slot39 := some s.f.now } })) ∧
    (∀ (t : Count) (c : Instr), c = .adcCalibrationStep t ∧ s.f.xchkDue = false ∨ (∃ rawA rawB, c = .adcCrossCheck t rawA rawB) ∧ s.f.xchkDue = true →
      s.f.at39 t = true → s.f.yields = true → s.endsField c (fun g =>
        g.adc.yields = satAdd s.f.adc.yields 1 ∧ g.adc.yieldRun = s.f.adc.yieldRun + 1 ∧ g.adc.slot39 = some s.f.now ∧
        g.adc.injSlot = some s.f.now ∧ g.adc.calSteps = s.f.adc.calSteps ∧ g.adc.xchkAt = s.f.adc.xchkAt ∧
        g = { s.f with adc := g.adc }))

/-- ADC_REG_CONVERSION (R305): the next regular entry of a converter takes the conversion's result, a pass taking up the configuration
at its start, in a host slot that no injected entry has taken. ADC_INJ_SWTRIG, ADC_INJ_TRIGGER and ADC_INJ_DONE (R306, R308): a trigger
starts an idle sequence, counts OVERRUN on a busy one and EMPTY on one without entries; once every entry has had its slot the sequence
holds DONE and its start count, and tells the partition the run was configured with where its EVT_EN is 1. -/
def Obligations.SequencesConvert : Prop :=
  ∀ s : State,
    (∀ (e : End) (raw : BitVec 16), s.f.coreOn = true →
      let a := s.f.adc
      let k := if e = .a then a.nextA else a.nextB
      let place := if e = .a then k else 16 + k
      let len := (if k = 0 then (if e = .a then a.lenA else a.lenB) else (if e = .a then a.lenNowA else a.lenNowB)).toNat
      k < 16 → len ≠ 0 → s.f.regSlot e = true → s.endsField (.adcRegConversion e raw) (fun g =>
        tabGet AdcRes.reset g.adc.res place = s.f.hostRes (tabGet 0 (if k = 0 then a.ent else a.entNow) place).toNat raw ∧
        (e = .a → g.adc.nextA = (if len ≤ k + 1 then 0 else k + 1) ∧ g.adc.nextB = a.nextB ∧
          g.adc.passesA = (if len ≤ k + 1 then a.passesA + 1 else a.passesA) ∧ g.adc.passesB = a.passesB) ∧
        (e = .b → g.adc.nextB = (if len ≤ k + 1 then 0 else k + 1) ∧ g.adc.nextA = a.nextA ∧
          g.adc.passesB = (if len ≤ k + 1 then a.passesB + 1 else a.passesB) ∧ g.adc.passesA = a.passesA) ∧
        g = { s.f with adc := g.adc } ∧ g.adc.inj = a.inj ∧ g.adc.corr = a.corr ∧ g.adc.ent = a.ent)) ∧
    (∀ (p : Part) (mask : BitVec 4), s.f.seqRuns = true → s.f.operator p = true ∨ s.f.commissioner p = true →
      s.endsField (.adcInjSwtrig p mask) (fun g =>
        (∀ m : Nat, m < 4 → bit mask m = true → (s.f.inj m).src = 1 →
          ((s.f.inj m).busy = false → (s.f.inj m).lenA ≠ 0 ∨ (s.f.inj m).lenB ≠ 0 → (g.inj m).busy = true ∧
            (g.inj m).runEntA = (s.f.inj m).entA ∧ (g.inj m).runEntB = (s.f.inj m).entB) ∧
          ((s.f.inj m).busy = false → (s.f.inj m).lenA = 0 → (s.f.inj m).lenB = 0 →
            (g.inj m).busy = false ∧ (g.inj m).empty = satAdd (s.f.inj m).empty 1) ∧
          ((s.f.inj m).busy = true → (g.inj m).overrun = satAdd (s.f.inj m).overrun 1)) ∧
        (∀ m : Nat, bit mask m = false ∨ (s.f.inj m).src ≠ 1 → g.inj m = s.f.inj m) ∧
        g = { s.f with adc := { s.f.adc with inj := g.adc.inj } })) ∧
    (∀ (m : BitVec 2) (t : Count), s.f.coreOn = true → (s.f.inj m.toNat).trig = some t → s.endsField (.adcInjTrigger m) (fun g =>
      (g.inj m.toNat).trig = none ∧
      ((s.f.inj m.toNat).busy = false → (s.f.inj m.toNat).lenA ≠ 0 ∨ (s.f.inj m.toNat).lenB ≠ 0 →
        (g.inj m.toNat).busy = true ∧ (g.inj m.toNat).tRecog = t) ∧
      ((s.f.inj m.toNat).busy = true → (g.inj m.toNat).overrun = satAdd (s.f.inj m.toNat).overrun 1) ∧
      (∀ k, k ≠ m.toNat → g.inj k = s.f.inj k) ∧ g = { s.f with adc := { s.f.adc with inj := g.adc.inj } })) ∧
    (∀ (m : BitVec 2) (rawA rawB : List (BitVec 16)), s.f.coreOn = true → (s.f.inj m.toNat).busy = true →
      Field.injNeed (s.f.inj m.toNat) ≤ (s.f.inj m.toNat).conv.length → s.endsField (.adcInjDone m (s.f.inj m.toNat).tStart rawA rawB) (fun g =>
        (g.inj m.toNat).busy = false ∧ (g.inj m.toNat).done = true ∧
        (g.inj m.toNat).t = (s.f.inj m.toNat).tStart.setWidth 32 ∧
        (∀ k, k ≠ m.toNat → g.inj k = s.f.inj k) ∧
        ((s.f.inj m.toNat).runEvtEn = true → s.f.roomFor (s.f.inj m.toNat).runPart = true →
          g.told (s.f.inj m.toNat).runPart 0x32 0 = true) ∧
        g = { s.f with adc := { s.f.adc with inj := g.adc.inj } }.withRecords g))

/-- CONTEXT_CLAIM (R168, R170, R192): with a context free and an entry eligible, the entry leaves the queue, and the context holds its
channel in PREPARE with the profile's insertion block and the loop set's bank in both banks, every stage fresh. No other context
changes. Where that loop set has lost VALID (R350), the insertion fails with STREAM_FAIL instead. The first two clauses are of stores
whose codewords hold no error. QUEUE_TIMEOUT (R171): an entry that has waited QUEUE_TO trips its channel and is counted. -/
def Obligations.ContextsAreClaimed : Prop :=
  ∀ s : State,
    (∀ (n : Nat) (e : InsEnt), s.f.intact = true → s.f.freeCtx = some n → s.f.claimNext = some e →
      bit (u8 (s.f.loopSet (u8 (s.f.profOf e.ch) 178)) 1) 0 = true → s.endsField .contextClaim (fun g =>
      g.hel.queue = s.f.hel.queue.erase e ∧
      (∃ c : Ctx, tabLook g.hel.ctx n = some c ∧ c.ch = e.ch ∧ c.origin = e.origin ∧ c.phase = .prepare ∧ c.claimT = s.f.now ∧
        c.gOut = 0 ∧ c.handle = s.f.handle e.ch ∧ c.ins = slice (s.f.profOf e.ch) 176 64 ∧
        c.bankA = pad 128 (s.f.loopSet (u8 (s.f.profOf e.ch) 178)) ∧ c.bankB = c.bankA ∧ c.stages = freshStages c.bankA) ∧
      (∀ m, m ≠ n → tabLook g.hel.ctx m = tabLook s.f.hel.ctx m) ∧ g.nev = s.f.nev ∧ g.saf = s.f.saf)) ∧
    (∀ (n : Nat) (e : InsEnt), s.f.intact = true → s.f.freeCtx = some n → s.f.claimNext = some e →
      bit (u8 (s.f.loopSet (u8 (s.f.profOf e.ch) 178)) 1) 0 = false → s.endsField .contextClaim (fun g =>
        (g.chan e.ch).nev.state = .tripped ∧ (g.chan e.ch).fr.cause = 0x19 ∧ (∀ q ∈ g.hel.queue, q.ch ≠ e.ch) ∧
        g.hel.fails = listSet s.f.hel.fails 1 (satAdd (s.f.hel.fails.getD 1 0) 1))) ∧
    (∀ (x : BitVec 17) (e : InsEnt), s.f.hel.queue.find? (fun q => decide (q.ch = x)) = some e → 0 < s.f.queueTo x →
      s.f.queueTo x ≤ s.f.now.toNat - e.tJoin.toNat → s.endsField (.queueTimeout x) (fun g =>
        (g.chan x).nev.state = .tripped ∧ (g.chan x).fr.cause = 0x18 ∧ (∀ q ∈ g.hel.queue, q.ch ≠ x) ∧
        g.hel.fails = listSet s.f.hel.fails 0 (satAdd (s.f.hel.fails.getD 0 0) 1)))

/-- STREAM_FAIL (R175), RAMP_TIMEOUT (R176) and SETTLE_FAIL (R180) complete: an insertion past the time of its phase, SETTLE_FAIL's also
1 ms into HANDOVER, trips its channel with the failure's code and is counted. CAPTURE_WAIT_EXPIRY (R232): a capture that has waited 100 ms is dropped, a REQUEST with NO_CONTEXT.
PRETRIGGER_RELEASE (R300): the buffer runs again 100 ms after it froze. -/
def Obligations.InsertionsTimeOut : Prop :=
  ∀ s : State,
    (∀ (x : BitVec 17) (n : Nat) (c : Ctx), tabLook s.f.hel.ctx n = some c → c.ch = x →
      (s.f.insIn x .prepare = some (n, c) →
        c.tPhase.toNat + (if leNat c.ins 20 2 = 0 then 20 else leNat c.ins 20 2) * 10000 ≤ s.f.now.toNat →
        s.endsField (.streamFail x) (fun g => (g.chan x).nev.state = .tripped ∧ (g.chan x).fr.cause = 0x19 ∧
          g.hel.fails = listSet s.f.hel.fails 1 (satAdd (s.f.hel.fails.getD 1 0) 1))) ∧
      (s.f.insIn x .ramp = some (n, c) →
        c.tPhase.toNat + (if trajVolt c then rampTicks c else leNat c.ins 4 2 * 1000) * (if leNat c.ins 24 2 = 0 then 200 else leNat c.ins 24 2) / 100 ≤ s.f.now.toNat →
        s.endsField (.rampTimeout x) (fun g => (g.chan x).nev.state = .tripped ∧ (g.chan x).fr.cause = 0x1A ∧
          g.hel.fails = listSet s.f.hel.fails 2 (satAdd (s.f.hel.fails.getD 2 0) 1))) ∧
      (s.f.insIn x .settle = some (n, c) → c.tPhase.toNat + 4 * leNat c.ins 18 2 * 1000 ≤ s.f.now.toNat →
        s.endsField (.settleFail x) (fun g => (g.chan x).nev.state = .tripped ∧ (g.chan x).fr.cause = 0x1F ∧
          g.hel.fails = listSet s.f.hel.fails 7 (satAdd (s.f.hel.fails.getD 7 0) 1))) ∧
      (s.f.insIn x .settle = none → s.f.insIn x .handover = some (n, c) → c.phase = .handover →
        c.tPhase.toNat + 100000 ≤ s.f.now.toNat →
        s.endsField (.settleFail x) (fun g => (g.chan x).nev.state = .tripped ∧ (g.chan x).fr.cause = 0x1F ∧
          g.hel.fails = listSet s.f.hel.fails 7 (satAdd (s.f.hel.fails.getD 7 0) 1)))) ∧
    (∀ (w : CapWait) (r : List CapWait), s.f.firn.capWait = w :: r → w.t.toNat + 10000000 ≤ s.f.now.toNat →
      (w.ref = none → s.endsField .captureWaitExpiry (fun g =>
        g = { s.f with firn := { s.f.firn with capWait := r, dropNoCtx := satAdd s.f.firn.dropNoCtx 1 } })) ∧
      (∀ q, w.ref = some q → s.endsField .captureWaitExpiry (fun g =>
        g = { s.f with firn := { s.f.firn with capWait := r } }.withRecords g ∧ g.answeredAs q .noContext 0 q.handle = true))) ∧
    (∀ (n : BitVec 4) (t : Count), (s.f.dchan n).preFrozen = some t → t.toNat + 10000000 ≤ s.f.now.toNat →
      s.endsField (.pretriggerRelease n) (fun g => g.dchan n = { s.f.dchan n with preFrozen := none } ∧
        (∀ m, m ≠ n → g.dchan m = s.f.dchan m) ∧ g = { s.f with dch := g.dch }))

/-- STREAM_SAMPLE (R193): a good sample of a stream, numbered for the running period, waits for its context's core, and the first one
starts the periods. LOOP_SAMPLE (R194, R198): a remote context's waiting sample is taken, where no earlier one waits for the same core: in PREPARE it counts towards the eight good samples, and in RAMP the chain of the active bank gives the gate reference from
the trajectory's error, where no supervision of R177, R207 or R210 ends the insertion and no swap is pending. -/
def Obligations.SamplesAreTaken : Prop :=
  ∀ (s : State) (n : Nat) (c : Ctx), tabLook s.f.hel.ctx n = some c →
    (∀ (l : BitVec 5) (sl : BitVec 3) (q : BitVec 4) (w : Word), s.f.mer.holdover = false → s.f.ctxOfSlot l sl = some (n, c) →
      c.sample = none → c.capSlot = none →
      q.toNat = (if c.firstGood.isSome then Field.periodSeq c c.periods.toNat else ((s.f.lane l).cyc - 1) % 16) → Field.wordSat w = false → Field.wordInv w = false →
      (∀ d, Field.deadline c = some d → s.f.now.toNat ≤ d) → s.endsField (.streamSample l sl false q w true) (fun g =>
        tabLook g.hel.ctx n = some { c with
          sample := some (w, s.f.now), firstGood := some (c.firstGood.getD s.f.now),
          cyc0 := if c.firstGood.isSome then c.cyc0 else (s.f.lane l).cyc - 1 } ∧
        (∀ m, m ≠ n → tabLook g.hel.ctx m = tabLook s.f.hel.ctx m) ∧ g = { s.f with hel := { s.f.hel with ctx := g.hel.ctx } })) ∧
    (∀ (k : BitVec 8) (rawI rawV : BitVec 16) (lat : Nat) (w : Word) (t : Count), k.toNat = n → s.f.directOf c.ch = none →
      c.sample = some (w, t) → s.f.coreBusy c t = false → bit (u8 c.ins 28) 0 = false → Field.overNext c (smpOf (s.f.chan c.ch).nev w) < (u8 c.ins 12).toNat →
      (c.phase = .prepare → c.goodRun.toNat < 7 → s.endsField (.loopSample k rawI rawV lat) (fun g =>
        ∃ d : Ctx, tabLook g.hel.ctx n = some d ∧ d.phase = .prepare ∧ d.sample = none ∧ d.goodRun = c.goodRun + 1 ∧
          d.periods = c.periods + 1 ∧ d.v = Field.normV w (s.f.chan c.ch).nev.vgain ∧ d.gOut = c.gOut ∧ d.stages = c.stages ∧
          (∀ m, m ≠ n → tabLook g.hel.ctx m = tabLook s.f.hel.ctx m) ∧ g.nev = s.f.nev)) ∧
      (c.phase = .ramp → c.frz.toNat < 7 → c.swap = none → trajVolt c = true → rampAt (c.k + 1) < rampSpan c →
        s.endsField (.loopSample k rawI rawV lat) (fun g =>
          ∃ d : Ctx, tabLook g.hel.ctx n = some d ∧ d.phase = .ramp ∧ d.sample = none ∧ d.k = c.k + 1 ∧ d.periods = c.periods + 1 ∧
            d.ref = BitVec.ofInt 16 (trajRef c (c.k + 1)) ∧
            d.gOut = BitVec.ofNat 12 (loopStep (Field.activeBank c) c.stages
              (trajRef c (c.k + 1) - (Field.normV w (s.f.chan c.ch).nev.vgain).toNat)
              (Field.bumpAt c.delta c.bumpJ (bumpN (Field.activeBank c))) c.gOut.toNat none).g.toNat ∧
            (∀ m, m ≠ n → tabLook g.hel.ctx m = tabLook s.f.hel.ctx m) ∧ g.nev = s.f.nev)))

/-- MISSING_PERIOD (R197, R209): a first missing period of a ramp is counted, the trajectory's reference advances and the gate holds
its level; a second one in a row
fails the insertion with FEEDBACK_LOST. RAMP_OFF_STEP (R212): the reference falls by RAMPOFF a period, and at 0 the context ends. -/
def Obligations.GatesHoldAndFall : Prop :=
  ∀ (s : State) (n : BitVec 8) (c : Ctx), tabLook s.f.hel.ctx n.toNat = some c →
    (∀ d, Field.deadline c = some d → d ≤ s.f.now.toNat → c.sample = none → c.phase = .ramp →
      (c.missCnt = 0 → s.endsField (.missingPeriod n) (fun g =>
        ∃ k : Ctx, tabLook g.hel.ctx n.toNat = some k ∧ k.missCnt = 1 ∧ k.holding = true ∧ k.gOut = c.gOut ∧ k.stages = c.stages ∧
          k.k = c.k + 1 ∧ k.ref = BitVec.ofInt 16 (trajRef c (c.k + 1)) ∧ k.periods = c.periods + 1 ∧ k.phase = .ramp ∧ (∀ m, m ≠ n.toNat → tabLook g.hel.ctx m = tabLook s.f.hel.ctx m) ∧
          g.nev = s.f.nev)) ∧
      (c.missCnt = 1 → c.loopSlot = none → s.endsField (.missingPeriod n) (fun g =>
        (g.chan c.ch).nev.state = .tripped ∧ (g.chan c.ch).fr.cause = 0x1C ∧
        g.hel.fails = listSet s.f.hel.fails 4 (satAdd (s.f.hel.fails.getD 4 0) 1) ∧
        ∃ k : Ctx, tabLook g.hel.ctx n.toNat = some k ∧ k.phase = .rampOff ∧ k.lostPend = true))) ∧
    (c.phase = .rampOff → c.tPhase.toNat + Field.periodTicks c ≤ s.f.now.toNat → c.lostPend = false →
      (rampOff (Field.activeBank c) < c.gOut.toNat → s.endsField (.rampOffStep n) (fun g =>
        tabLook g.hel.ctx n.toNat = some { c with
          gOut := c.gOut - BitVec.ofNat 12 (rampOff (Field.activeBank c)), tPhase := c.tPhase + BitVec.ofNat 64 (Field.periodTicks c) } ∧
        (∀ m, m ≠ n.toNat → tabLook g.hel.ctx m = tabLook s.f.hel.ctx m) ∧ g.nev = s.f.nev)) ∧
      (c.gOut.toNat ≤ rampOff (Field.activeBank c) → c.capSlot = none → s.f.ctxsOf c.ch = [(n.toNat, c)] →
        (∀ d, s.f.directOf c.ch = some d → (s.f.dchan d).bound = some c.ch) → s.endsField (.rampOffStep n) (fun g =>
        tabLook g.hel.ctx n.toNat = none ∧ (∀ m, m ≠ n.toNat → tabLook g.hel.ctx m = tabLook s.f.hel.ctx m) ∧
        (∀ d, s.f.directOf c.ch = some d → (g.dchan d).mode = .off ∧ (g.dchan d).dg = false))))

/-- TELEMETRY_FRAME (R82, R83, R257, R271) completes: the characters of one whole frame are received as it, and then a good frame at an
end of a lane marks its outstation's place, and every fresh word of a point bound to one channel waits for an ingest pipe; a frame that
fails its CRC, and units that break, are counted and do nothing else. TELEMETRY_MISSING (R82): the place counts
as missed, and every channel of the outstation gets an arrival of class missing. -/
def Obligations.TelemetryArrives : Prop :=
  ∀ (s : State) (l : BitVec 5), s.f.laneHears l = true →
    (∀ b : Bytes, b.length = 284 → u8 b 0 = 0xFB → u8 b 1 = 0xBC →
      receive (teleChars b) = { opened := [], ord := 0, exp := 0, done := [(true, b)] }) ∧
    (∀ (e : End) (cs : List LChar) (b : Bytes) (o : Outst), receive cs = { opened := [], ord := 0, exp := 0, done := [(true, b)] } →
      crc32c (slice b 2 278) = u32 b 280 → u8 b 2 = 1 →
      bit (u8 b 5) 3 = false → bit (u8 b 3) 7 = false → tabLook (s.f.lane l).os (bits (u8 b 3) 0 6 : BitVec 6).toNat = some o →
      o.missing = false → (e = .a → o.seenA = false) → (e = .b → o.seenB = false) → s.endsField (.telemetryFrame l e cs) (fun g =>
        (∃ k : Outst, tabLook (g.lane l).os (bits (u8 b 3) 0 6 : BitVec 6).toNat = some k ∧ k.missCnt = 0 ∧ k.id = o.id ∧
          (e = .a → k.seenA = true) ∧ (e = .b → k.seenB = true)) ∧
        (∀ (x : BitVec 17) (pt : Nat), pt < min (bits (u8 b 7) 0 7 : BitVec 7).toNat 64 →
          s.f.chanAt o.id (BitVec.ofNat 6 pt) = some x →
          (∀ c ∈ s.f.existing, c.1 = x ↔ c.2.boundTo o.id (BitVec.ofNat 6 pt) = true) → s.f.classify x (u8 b 4) (u32 b (8 + 4 * pt)) = .fresh →
          ∃ a ∈ g.nev.arrivals, a.ch = x ∧ a.arr.cls = .fresh ∧ a.arr.word = u32 b (8 + 4 * pt) ∧ a.arr.sfn = u8 b 4) ∧
        g.mer = s.f.mer ∧ g.saf = s.f.saf ∧ g.pwr = s.f.pwr)) ∧
    (∀ (e : End) (cs : List LChar) (b : Bytes), receive cs = { opened := [], ord := 0, exp := 0, done := [(true, b)] } →
      crc32c (slice b 2 278) ≠ u32 b 280 ∨ u8 b 2 ≠ 1 → s.endsField (.telemetryFrame l e cs) (fun g =>
      g.lane l = { s.f.lane l with crcOrd := satAdd (s.f.lane l).crcOrd 1 } ∧ (∀ k, k ≠ l → g.lane k = s.f.lane k) ∧
      g = { s.f with lan := g.lan })) ∧
    (∀ (e : End) (cs : List LChar), (receive cs).done = [] → s.endsField (.telemetryFrame l e cs) (fun g =>
      g.lane l = { s.f.lane l with crcOrd := satAdd (s.f.lane l).crcOrd (receive cs).ord,
                                   crcExp := satAdd (s.f.lane l).crcExp (receive cs).exp } ∧
      (∀ k, k ≠ l → g.lane k = s.f.lane k) ∧ g = { s.f with lan := g.lan })) ∧
    (∀ (pos : BitVec 6) (o : Outst), tabLook (s.f.lane l).os pos.toNat = some o → o.seenA = false → o.seenB = false →
      o.judged = false → s.endsField (.telemetryMissing l pos) (fun g =>
        tabLook (g.lane l).os pos.toNat = some { o with missCnt := o.missCnt + 1, judged := true } ∧
        (∀ x ∈ s.f.chansOf o.id, ∃ a ∈ g.nev.arrivals, a.ch = x ∧ a.arr.cls = .missing) ∧ (∀ x, (g.chan x).nev = (s.f.chan x).nev)))

/-- INGEST_UPDATE and MIRROR_UPDATE (R84, R86, R95, R101): a fresh arrival of an existing channel outside FALLBACK leaves the queue and
writes I_LAST, V_LAST and SFN_LOW, advances the thermal memory and clears MISS. INST (R96 to R98): a CLOSED SWITCHED channel whose count
reaches N trips with cause INST. A mirror update yields to the point updates that wait (R107). The clauses are of stores whose codewords
hold no error. -/
def Obligations.UpdatesMeasure : Prop :=
  ∀ (s : State) (x : BitVec 17) (a : Arrival) (r : List Waiting), a.cls = .fresh → s.f.nev.recovering.contains x = false →
    (s.f.chan x).nev.state ≠ .free → (s.f.chan x).nev.state ≠ .fallback → s.f.intact = true →
    let e := (s.f.chan x).nev
    let i := Field.normI a.word e.igain
    let measured (g : Field) : Prop :=
      (g.chan x).nev.iLast = i ∧ (g.chan x).nev.vLast = Field.normV a.word e.vgain ∧ (g.chan x).nev.sfnLow = a.sfn ∧
      (g.chan x).nev.miss = 0 ∧ (g.chan x).nev.therm = Field.thermNext (s.f.prof e.profile) { e with iLast := i } ∧
      (g.chan x).nev.status = bits a.word 28 4 ∧ (g.chan x).nev.profile = e.profile ∧ (g.chan x).nev.owner = e.owner
    (Field.takeWaiting x s.f.nev.arrivals = some (a, r) → s.endsField (.ingestUpdate x) (fun g =>
      measured g ∧ g.nev.arrivals = r ∧
      (e.kind = .switched → e.state = .closed → Field.wordSw a.word = true → Field.wordLocal a.word = false →
        u8 (s.f.prof e.profile) 8 = 2 → leNat (s.f.prof e.profile) 10 2 ≤ i.toNat → (u8 (s.f.prof e.profile) 9).toNat ≤ 7 →
        (u8 (s.f.prof e.profile) 9).toNat ≤ e.instCnt.toNat + 1 → bit e.pickup 0 = false →
        (g.chan x).nev.state = .tripped ∧ (g.chan x).fr.cause = 0x01 ∧ bit (g.chan x).nev.pickup 0 = true))) ∧
    (Field.takeWaiting x s.f.nev.mirrorQ = some (a, r) → s.f.nev.arrivals = [] → s.endsField (.mirrorUpdate x) (fun g =>
      measured g ∧ g.nev.arrivals = [])) ∧
    (s.f.nev.arrivals ≠ [] → s.endsField (.mirrorUpdate x) (fun g => g = s.f))

/-- SUPERFRAME_MARK (R81, R261): at a CMP0 fire the superframe number advances and every enabled lane's cycles start again. In
STANDBY only that number moves, and the direct sums start again. STREAM_CYCLE (R262, R274): a lane's cycle that has fallen due is
counted, and an abandoned slot is free after its last idle cycle. -/
def Obligations.SuperframesAdvance : Prop :=
  ∀ s : State,
    (bit s.f.mer.sysDue 0 = true → s.f.coreOn = true → s.endsField .superframeMark (fun g =>
      g.nev.sfn = s.f.nev.sfn + 1 ∧ g.nev.sfCount = s.f.nev.sfCount + 1 ∧ g.lan.tMark = s.f.now ∧
      g.mer = { s.f.mer with sysDue := s.f.mer.sysDue &&& ~~~(1 : BitVec 8) } ∧
      (∀ l, (s.f.lane l).st ≠ .disabled → (g.lane l).cyc = 0) ∧ g.saf = s.f.saf)) ∧
    (bit s.f.mer.sysDue 0 = true → s.f.pwr.st = .standby → s.endsField .superframeMark (fun g =>
      g = { s.f with nev := { s.f.nev with sfn := s.f.nev.sfn + 1, sfCount := s.f.nev.sfCount + 1 },
                     mer := { s.f.mer with sysDue := s.f.mer.sysDue &&& ~~~(1 : BitVec 8) }, dch := g.dch } ∧
      (∀ n, g.dchan n = { s.f.dchan n with sumI := 0, sumV := 0, n := 0, ovr := false, inval := false }))) ∧
    (∀ l : BitVec 5, Field.laneUp (s.f.lane l) = true → (s.f.lane l).cyc < 25 → s.f.cycleDue l = true → s.endsField (.streamCycle l) (fun g =>
      (g.lane l).cyc = (s.f.lane l).cyc + 1 ∧ (∀ k, k ≠ l → g.lane k = s.f.lane k) ∧
      (∀ i : Nat, (s.f.lane l).slots[i]? = some .active → (g.lane l).slots[i]? = some .active) ∧
      (∀ i : Nat, (s.f.lane l).slots[i]? = some (.gap 1) → (g.lane l).slots[i]? = some .idle) ∧
      (∀ i k : Nat, (s.f.lane l).slots[i]? = some (.gap (k + 2)) → (g.lane l).slots[i]? = some (.gap (k + 1))) ∧
      g = { s.f with lan := g.lan, out := g.out }))

/-- FAULT_SEEN (R122, R123): a report that no point's channel answers is counted and ignored (the model's choice, log entry 120); the
report of a fault that its point has opened itself opens a committed event with that channel as candidate, whose breaker-failure time
runs from the end of the resolve (R125). CLEARED (R128): it closes the one event whose candidate, not in FALLBACK (R134), has cleared.
GATHER_DEADLINE (R124): the candidate is tripped and the event committed, its time running from the presentation of the TRIP, or from the
deadline where none is presented (R125). BREAKER_FAILURE_EXPIRY (R129): an event without a backup closes and is counted, one with a
backup trips it. -/
def Obligations.ReportsResolve : Prop :=
  ∀ s : State,
    (∀ (l : BitVec 5) (pos pt : BitVec 6) (fnum : Byte) (op : Bool) (lat pres : Nat), s.f.laneHears l = true →
      s.f.seenBefore l pos pt fnum false = false →
      (s.f.reporter l pos pt = none → s.endsField (.faultSeen l pos pt fnum op true ⟨lat, pres⟩) (fun g =>
        g.sel = { s.f.sel with reports := satAdd s.f.sel.reports 1, ignored := satAdd s.f.sel.ignored 1, seen := g.sel.seen } ∧
        g = { s.f with sel := g.sel })) ∧
      (∀ n : BitVec 17, s.f.reporter l pos pt = some n → s.f.sel.enable = true → (s.f.chan n).nev.kind.switches = true →
        (s.f.chan n).nev.state ≠ .free → (s.f.chan n).nev.state ≠ .fallback → s.f.sel.events = [] → op = true →
        s.endsField (.faultSeen l pos pt fnum op true ⟨lat, pres⟩) (fun g =>
          g.sel.reports = satAdd s.f.sel.reports 1 ∧ g.sel.openedCnt = satAdd s.f.sel.openedCnt 1 ∧
          g.sel.nextNum = s.f.sel.nextNum + 1 ∧
          (∃ e : SelEv, g.sel.events = [e] ∧ e.num = s.f.sel.nextNum ∧ e.cand = n ∧ e.held = [] ∧ e.path = s.f.path n ∧
            e.st = .committed (s.f.now + BitVec.ofNat 64 (min lat 360) + BitVec.ofNat 64 (100 * Field.bfUs (s.f.profOf n)))) ∧
          (∀ y, g.chan y = s.f.chan y)))) ∧
    (∀ (l : BitVec 5) (pos pt : BitVec 6) (fnum : Byte) (n : BitVec 17) (e : SelEv) (d : Count),
      s.f.laneHears l = true → s.f.seenBefore l pos pt fnum true = false → s.f.reporter l pos pt = some n →
      (s.f.chan n).nev.state ≠ .fallback →
      s.f.sel.events = [e] → e.cand = n → e.st = .committed d → s.endsField (.cleared l pos pt fnum true) (fun g =>
        g.sel.events = [] ∧ g.sel.reports = satAdd s.f.sel.reports 1 ∧ (∀ y, g.chan y = s.f.chan y))) ∧
    (∀ (n : BitVec 16) (e : SelEv) (d : Count), s.f.ev? n = some e → e.st = .gather d → d ≤ s.f.now →
      s.endsField (.gatherDeadline n) (fun g =>
        ((s.f.chan e.cand).nev.state = .closed → (g.chan e.cand).nev.state = .tripped ∧ (g.chan e.cand).fr.cause = 0x10) ∧
        ((∀ m y, (s.f.dchan m).bound = some y → y ∉ Field.members e) → ∃ k ∈ g.sel.events, k.num = n ∧ k.cand = e.cand ∧
          k.st = .committed ((if (s.f.selTrip e.cand 0x10 0x02).2 then s.f.now else d)
            + BitVec.ofNat 64 (100 * Field.bfUs (s.f.profOf e.cand)))))) ∧
    (∀ (n : BitVec 16) (e : SelEv) (d : Count), s.f.ev? n = some e → e.st = .committed d → d ≤ s.f.now →
      (s.f.backupOf e = none → s.endsField (.breakerFailureExpiry n) (fun g =>
        (∀ k ∈ g.sel.events, k.num ≠ n) ∧ g.sel.rNoBackup = satAdd s.f.sel.rNoBackup 1)) ∧
      (∀ m, s.f.backupOf e = some m → (s.f.chan m).nev.state = .closed → s.endsField (.breakerFailureExpiry n) (fun g =>
        (g.chan m).nev.state = .tripped ∧ (g.chan m).fr.cause = 0x11)))

/-- STORM_QUIET_EXPIRY (R142): a storm quiet for STORM_QUIET superframes closes and is told. DEPTH_REWRITE (R114): the entry of a moved
channel takes its depth. FALLBACK_UNSYNCED (R111): a fallback configuration not acknowledged after 100 ms raises the event once. -/
def Obligations.StormsDepthsAndSync : Prop :=
  ∀ s : State,
    (∀ (node : BitVec 17) (code : Byte) (p : Part) (k : Storm), s.f.stormOf node code p = some k → k.opened = true →
      (if s.f.sel.stormQuiet = 0 then 1 else s.f.sel.stormQuiet.toNat) ≤ k.quiet →
      s.endsField (.stormQuietExpiry node code p) (fun g =>
        g = { s.f with sel := { s.f.sel with storms := s.f.sel.storms.erase k } }.withRecords g ∧
        (s.f.roomFor p = true → g.told p 0x1C (s.f.handle node) = true))) ∧
    (∀ x, (s.f.chan x).aux.depthPend = true → s.endsField (.depthRewrite x) (fun g =>
      (g.chan x).nev = { (s.f.chan x).nev with depth := BitVec.ofNat 4 ((s.f.path x).length - 1) } ∧
      (g.chan x).aux.depthPend = false ∧ (∀ y, y ≠ x → g.chan y = s.f.chan y) ∧ g = { s.f with nev := g.nev })) ∧
    (∀ x t, (s.f.chan x).aux.fbQueued = some t → (s.f.chan x).nev.state ≠ .free → (s.f.chan x).nev.fbSync = false →
      (s.f.chan x).aux.fbRaised = false → t + 10000000 ≤ s.f.now → s.endsField (.fallbackUnsynced x) (fun g =>
        (g.chan x).aux.fbRaised = true ∧ (g.chan x).aux.lastElem = 0x0C ∧ (g.chan x).nev = (s.f.chan x).nev ∧
        (∀ y, y ≠ x → g.chan y = s.f.chan y)))

/-- RETRY_POLICY (R148, R152, R156, R158): a TRIPPED channel whose switch is confirmed open waits for a retry, with RCOUNT raised and a wheel
entry placed, locks out where its class forbids retry or its count is used up, or stays TRIPPED. RETRY_DUE (R153 to R155): a due retry,
first by due count and then by index of all entries due, enters INSERTING and the queue; under HOLD_ALL it stays. STABLE_DUE (R151): RCOUNT goes to 0. No other channel changes. -/
def Obligations.RetriesFollowPolicy : Prop :=
  ∀ (s : State) (x : BitVec 17),
    ((s.f.chan x).nev.state = .tripped → (s.f.chan x).aux.confirmed = true → (s.f.chan x).aux.policyApplied = false →
      let pol := Field.policyOf (s.f.profOf x) (Field.causeClass (s.f.chan x).fr.cause)
      s.endsField (.retryPolicy x) (fun g =>
        (pol.1 = 0 → (g.chan x).nev.state = .tripped ∧ (g.chan x).aux.policyApplied = true) ∧
        (1 < pol.1 → (g.chan x).nev.state = .lockedOut ∧ (g.chan x).fr.lockReason = 1 ∧
          g.sel.lForbidden = satAdd s.f.sel.lForbidden 1) ∧
        (pol.1 = 1 → pol.2.2.1 ≤ (s.f.chan x).fr.rcount.toNat → (g.chan x).nev.state = .lockedOut ∧ (g.chan x).fr.lockReason = 2 ∧
          g.sel.lExhausted = satAdd s.f.sel.lExhausted 1) ∧
        (pol.1 = 1 → (s.f.chan x).fr.rcount.toNat < pol.2.2.1 → (g.chan x).nev.state = .retryWait ∧
          (g.chan x).fr.rcount = (s.f.chan x).fr.rcount + 1 ∧
          (g.chan x).fr.wheel = .retry (Field.dueAt s.f.now
            (Field.retryDelay (s.f.profOf x) x pol.2.2.2 ((s.f.chan x).fr.rcount.toNat + 1)))) ∧
        (∀ y, y ≠ x → g.chan y = s.f.chan y))) ∧
    (∀ (d : Count) (lag : Nat), (s.f.chan x).fr.wheel = .retry d → d ≤ s.f.now → s.f.wheelFirst x d = true → s.f.coreOn = true →
      (s.f.chan x).nev.state = .retryWait →
      (s.f.sel.holdAll = false → Field.rateMax (s.f.profOf x) = 0 ∨ (s.f.chan x).nev.tok ≠ 0 → s.f.saf.safe = false →
        s.f.hel.queue.length < 1024 → s.endsField (.retryDue x lag) (fun g =>
          (g.chan x).nev.state = .inserting ∧ (g.chan x).fr.wheel = .none ∧
          g.hel = { s.f.hel with queue := s.f.hel.queue ++ [{ ch := x, origin := .retry, tJoin := s.f.now }] } ∧
          g.sel.retries = satAdd s.f.sel.retries 1 ∧ (∀ y, y ≠ x → g.chan y = s.f.chan y))) ∧
      (s.f.sel.holdAll = true → s.endsField (.retryDue x lag) (fun g =>
        (g.chan x).nev = (s.f.chan x).nev ∧ (g.chan x).fr.wheel = .retry s.f.nextSlot ∧ g.hel = s.f.hel ∧
        (∀ y, y ≠ x → g.chan y = s.f.chan y)))) ∧
    (∀ (d : Count) (lag : Nat), (s.f.chan x).fr.wheel = .stable d → d ≤ s.f.now → s.f.wheelFirst x d = true → s.f.coreOn = true →
      s.endsField (.stableDue x lag) (fun g =>
        (g.chan x).fr = { (s.f.chan x).fr with rcount := 0, wheel := .none } ∧ (g.chan x).nev = (s.f.chan x).nev ∧
        (∀ y, y ≠ x → g.chan y = s.f.chan y)))

/-- LANE_ENABLE (R242): a DISABLED lane starts training, or an enabled one goes to DISABLED with its outstations missing. RECEIVER_LOCK,
LOSS_OF_SIGNAL, MARK_REACHES_END_B, LANE_TRAIN_TIMEOUT and MARK_LOOP_FAIL (R242, R244, R246): a lane in TRAIN with both receivers locked
and the mark seen at end B within 10 ms enters RING and asks for enumeration; after 10 ms it enters SPLIT or ISOLATED; a lost receiver or a mark that
does not arrive splits a ring. -/
def Obligations.LanesChangeState : Prop :=
  ∀ (s : State) (l : BitVec 5),
    (∀ p, s.f.writes p = true → s.f.commissioner p = true →
      ((s.f.lane l).st = .disabled → s.f.sec.life ≠ 4 → s.endsField (.laneEnable p l true) (fun g =>
        (g.lane l).en = true ∧ (g.lane l).st = .train ∧ (∀ k, k ≠ l → g.lane k = s.f.lane k) ∧ g = { s.f with lan := g.lan })) ∧
      ((s.f.lane l).st ≠ .disabled → s.endsField (.laneEnable p l false) (fun g =>
        (g.lane l).en = false ∧ (g.lane l).st = .disabled ∧ (∀ o ∈ (g.lane l).os, tabRises none (g.lane l).os = true → o.2.missing = true)))) ∧
    (∀ e : End, s.f.mer.holdover = false → (s.f.lane l).st = .train → (s.f.lane l).loopSeen = true →
      s.f.now.toNat ≤ (s.f.lane l).tState.toNat + 1000000 →
      (e = .a → (s.f.lane l).lockB = true) → (e = .b → (s.f.lane l).lockA = true) → s.endsField (.receiverLock l e) (fun g =>
        (g.lane l).st = .ring ∧ (g.lane l).lockA = true ∧ (g.lane l).lockB = true ∧ (g.lane l).enumPh ≠ .idle ∧
        (∀ k, k ≠ l → g.lane k = s.f.lane k))) ∧
    (∀ e : End, s.f.mer.holdover = false → (s.f.lane l).st = .ring → s.endsField (.lossOfSignal l e) (fun g =>
      ((g.lane l).st = .split ∨ (g.lane l).st = .isolated) ∧ (g.lane l).splits = satAdd (s.f.lane l).splits 1 ∧
      (e = .a → (g.lane l).lockA = false) ∧ (e = .b → (g.lane l).lockB = false) ∧ (∀ p, s.f.roomFor p = true → g.told p 0x28 0 = true))) ∧
    (∀ ticks, s.f.mer.holdover = false → (s.f.lane l).st = .ring → (s.f.lane l).loopTicks = 0 → s.endsField (.markReachesEndB l ticks) (fun g =>
      g.lane l = { s.f.lane l with loopSeen := true, loopTicks := ticks } ∧ (∀ k, k ≠ l → g.lane k = s.f.lane k) ∧
      g = { s.f with lan := g.lan })) ∧
    (∀ ticks, s.f.mer.holdover = false → (s.f.lane l).st = .train → (s.f.lane l).lockA = true → (s.f.lane l).lockB = true →
      s.f.now.toNat ≤ (s.f.lane l).tState.toNat + 1000000 → s.endsField (.markReachesEndB l ticks) (fun g =>
        (g.lane l).st = .ring ∧ (g.lane l).loopTicks = ticks ∧ (g.lane l).enumPh ≠ .idle)) ∧
    ((s.f.lane l).st = .train → (s.f.lane l).tState.toNat + 1000000 ≤ s.f.now.toNat → s.endsField (.laneTrainTimeout l) (fun g =>
      ((s.f.lane l).lockA = true ∨ (s.f.lane l).lockB = true → (g.lane l).st = .split ∧ (g.lane l).enumPh ≠ .idle) ∧
      ((s.f.lane l).lockA = false → (s.f.lane l).lockB = false → (g.lane l).st = .isolated))) ∧
    ((s.f.lane l).st = .ring → (s.f.lane l).loopSeen = false →
      s.f.lan.tMark.toNat + (s.f.lane l).loopTicks.toNat + 200 ≤ s.f.now.toNat → s.endsField (.markLoopFail l) (fun g =>
        (g.lane l).st = .split ∧ (g.lane l).tState = s.f.now ∧ (g.lane l).splits = satAdd (s.f.lane l).splits 1 ∧
        (∀ k, k ≠ l → g.lane k = s.f.lane k)))

/-- WRAP and RESTORED (R246, R247): a notice records the side of the break and splits a ring, or records that it has mended; one whose CRC
fails is counted and does nothing else. REENUM and HEAL (R247, R249): a COMMISSIONER asks for enumeration of a lane that is up, and for the heal of a mended
one. OUTSTATION_MISSING (R250): an outstation silent for OS_MISS superframes is declared missing. LANE_DEGRADED (R253): violations
are counted, and DEGRADED is set and told once those of the running second pass the limit at an end. -/
def Obligations.BreaksAreRecorded : Prop :=
  ∀ (s : State) (l : BitVec 5),
    (∀ (pos : BitVec 6) (west : Bool), s.f.notices l = true →
      ((s.f.lane l).eastValid = false → west = true → s.endsField (.wrap l pos west true) (fun g =>
        (g.lane l).st = (if (s.f.lane l).st = .ring then .split else (s.f.lane l).st) ∧ (g.lane l).westPos = pos ∧ (g.lane l).westValid = true ∧ (g.lane l).restWest = false ∧
        (∀ k, k ≠ l → g.lane k = s.f.lane k))) ∧
      ((s.f.lane l).westValid = false → west = false → s.endsField (.wrap l pos west true) (fun g =>
        (g.lane l).st = (if (s.f.lane l).st = .ring then .split else (s.f.lane l).st) ∧ (g.lane l).eastPos = pos ∧ (g.lane l).eastValid = true ∧ (g.lane l).restEast = false ∧
        (∀ k, k ≠ l → g.lane k = s.f.lane k))) ∧
      (s.endsField (.wrap l pos west false) (fun g =>
        g.lane l = { s.f.lane l with crcExp := satAdd (s.f.lane l).crcExp 1 } ∧ (∀ k, k ≠ l → g.lane k = s.f.lane k) ∧
        g = { s.f with lan := g.lan })) ∧
      (west = true → (s.f.lane l).westValid = true → (s.f.lane l).westPos = pos → s.endsField (.restored l pos west true) (fun g =>
        g.lane l = { s.f.lane l with restWest := true } ∧ (∀ k, k ≠ l → g.lane k = s.f.lane k) ∧ g = { s.f with lan := g.lan })) ∧
      (west = false → (s.f.lane l).eastValid = true → (s.f.lane l).eastPos = pos → s.endsField (.restored l pos west true) (fun g =>
        g.lane l = { s.f.lane l with restEast := true } ∧ (∀ k, k ≠ l → g.lane k = s.f.lane k) ∧ g = { s.f with lan := g.lan }))) ∧
    (∀ p, s.f.writes p = true → s.f.commissioner p = true →
      (Field.laneUp (s.f.lane l) = true → s.endsField (.reenum p l) (fun g =>
        ((s.f.lane l).enumPh = .idle → g.lane l = { s.f.lane l with enumPh := .pending false, enumAns := [] }) ∧
        ((s.f.lane l).enumPh ≠ .idle → g.lane l = { s.f.lane l with enumHeld := true }) ∧
        (∀ k, k ≠ l → g.lane k = s.f.lane k) ∧ g = { s.f with lan := g.lan })) ∧
      ((s.f.lane l).st = .split → Field.mended (s.f.lane l) = true → s.endsField (.heal p l) (fun g =>
        g.lane l = { s.f.lane l with healAsked := true } ∧ (∀ k, k ≠ l → g.lane k = s.f.lane k) ∧ g = { s.f with lan := g.lan }))) ∧
    (∀ (pos : BitVec 6) (o : Outst), tabLook (s.f.lane l).os pos.toNat = some o → o.missing = false →
      (if (s.f.lane l).osMiss = 0 then 6 else (s.f.lane l).osMiss.toNat) ≤ o.missCnt → s.endsField (.outstationMissing l pos) (fun g =>
        tabLook (g.lane l).os pos.toNat = some { o with missing := true, missCnt := 0 } ∧
        (∀ x ∈ s.f.chansOf o.id, (s.f.chan x).nev.state ≠ .free → (g.chan x).nev.state = .fallback ∧ (g.chan x).aux.osMissing = true))) ∧
    (∀ cvA cvB : Nat, s.f.mer.holdover = false →
      let lim := (s.f.lane l).cvLimit.toNat
      let a := (s.f.lane l).secA + cvA
      let b := (s.f.lane l).secB + cvB
      s.endsField (.laneDegraded l cvA cvB) (fun g =>
        (g.lane l).cvA = satAdd (s.f.lane l).cvA cvA ∧ (g.lane l).cvB = satAdd (s.f.lane l).cvB cvB ∧
        (g.lane l).secA = a ∧ (g.lane l).secB = b ∧
        ((g.lane l).degraded = true ↔ (s.f.lane l).degraded = true ∨ (lim ≠ 0 ∧ (lim < a ∨ lim < b))) ∧
        (∀ p, lim ≠ 0 → lim < a ∨ lim < b → (s.f.lane l).degraded = false → s.f.roomFor p = true → g.told p 0x2A 0 = true) ∧
        (∀ k, k ≠ l → g.lane k = s.f.lane k) ∧ g.nev = s.f.nev))

/-- HEALTH_POLL, HEALTH_ANSWER and HEALTH_POLL_TIMEOUT (R251, R254, R264): a CMP6 fire polls a lane that is up with an outstation: at once
where the wire has room for the poll and its answer, else the poll waits. The characters of one whole frame are received as it (R257), and
an answer to an outstanding poll ends it and takes PRESENT and SWITCHED; one whose CRC fails is counted. An unanswered poll is counted
after 200 us. ENERGY_ANSWER (R219): an answer to an outstanding energy read ends it. COMMAND_RESEND (R277): commands two superframes old
are to go again, in order, and the first does so where the wire has room. -/
def Obligations.PollsAndAnswers : Prop :=
  ∀ s : State,
    (bit s.f.mer.sysDue 6 = true → s.endsField .healthPoll (fun g =>
      bit g.mer.sysDue 6 = false ∧ g.nev = s.f.nev ∧ g.saf = s.f.saf ∧
      (∀ (l : BitVec 5) (v : Lane) (p : BitVec 6) (e : Bool), s.f.lan.lane = [(l.toNat, v)] → Field.laneUp v = true →
        Field.pollNext v = some p → Field.endOf v p = some e → v.pollQ = [] → s.f.mer.holdover = false →
        (s.f.wireFree l e = true → s.f.fits l e 96 0 = true →
          (g.lane l).polls = v.polls ++ [(p, false, s.f.now)] ∧ (g.lane l).pollQ = [] ∧ (g.lane l).pollPos = some p) ∧
        (s.f.wireFree l e = false ∨ s.f.fits l e 96 0 = false →
          (g.lane l).polls = v.polls ∧ (g.lane l).pollQ = [(p, false)] ∧ (g.lane l).pollPos = some p)))) ∧
    (∀ b : Bytes, b.length = 10 + (u8 b 4).toNat → u8 b 0 = 0xFB → u8 b (b.length - 1) = 0xFD →
      receive (frameChars b) = { opened := [], ord := 0, exp := 0, done := [(false, b)] }) ∧
    (∀ (l : BitVec 5) (e : End) (cs : List LChar) (b : Bytes), s.f.laneHears l = true →
      receive cs = { opened := [], ord := 0, exp := 0, done := [(false, b)] } →
      let pos : BitVec 6 := bits (u8 b 2) 0 6
      let len := (u8 b 4).toNat
      let crcOk : Prop := crc32c (slice b 1 (4 + len)) = u32 b (5 + len)
      (¬crcOk → ∀ c, c = Instr.healthAnswer l e cs ∨ c = Instr.energyAnswer l e cs → s.endsField c (fun g =>
        g.lane l = { s.f.lane l with crcOrd := satAdd (s.f.lane l).crcOrd 1 } ∧ (∀ k, k ≠ l → g.lane k = s.f.lane k) ∧
        g = { s.f with lan := g.lan })) ∧
      (crcOk → u8 b 1 = 0xB0 → len = 75 → ∀ (q : BitVec 6 × Bool × Count) (o : Outst),
        (s.f.lane l).polls.find? (fun k => decide (k.1 = pos)) = some q → tabLook (s.f.lane l).os pos.toNat = some o →
        o.missing = false → u64 (slice b 5 75) 0 = o.id → s.endsField (.healthAnswer l e cs) (fun g =>
          (g.lane l).polls = (s.f.lane l).polls.erase q ∧
          tabLook (g.lane l).os pos.toNat = some { o with
            present := u64 (slice b 5 75) 32, switched := u64 (slice b 5 75) 40, healthy := true } ∧
          (∀ k, k ≠ l → g.lane k = s.f.lane k) ∧ g = { s.f with lan := g.lan })) ∧
      (crcOk → u8 b 1 = 0xA8 → len = 14 →
        let d := slice b 5 14
        let pt : BitVec 6 := BitVec.ofNat 6 (u8 d 0).toNat
        (s.f.lane l).eReads.any (fun r => decide (r.1 = pos) && decide (r.2.1 = pt)) = true → s.endsField (.energyAnswer l e cs) (fun g =>
          (∀ r ∈ (g.lane l).eReads, ¬(r.1 = pos ∧ r.2.1 = pt)) ∧ (∀ k, k ≠ l → g.lane k = s.f.lane k) ∧
          (∀ (o : Outst) (x : BitVec 17) (c : Chan), tabLook (s.f.lane l).os pos.toNat = some o → s.f.firnOn = true →
            s.f.intact = true → s.f.nev.ch = [(x.toNat, c)] → c.nev.state ≠ .free → c.boundTo o.id pt = true →
            s.f.metered x = [x] → c.met.sync = .baseWait → (g.chan x).met = { c.met with
              imgImp := BitVec.ofNat 48 (leNat d 2 6), imgExp := BitVec.ofNat 48 (leNat d 8 6), sync := .ok,
              lastSf := s.f.nev.sfCount }) ∧
          (∀ y, (g.chan y).nev = (s.f.chan y).nev)))) ∧
    (∀ (l : BitVec 5) (pos : BitVec 6) (q : BitVec 6 × Bool × Count),
      (s.f.lane l).polls.find? (fun k => decide (k.1 = pos) && decide (k.2.2.toNat + 20000 ≤ s.f.now.toNat)) = some q →
      s.endsField (.healthPollTimeout l pos) (fun g =>
        (g.lane l).polls = (s.f.lane l).polls.erase q ∧ (g.lane l).pollsLost = satAdd (s.f.lane l).pollsLost 1 ∧
        (∀ k, k ≠ l → g.lane k = s.f.lane k) ∧ g = { s.f with lan := g.lan })) ∧
    (∀ (l : BitVec 5) (pos : BitVec 6) (o : Outst) (k : Sent) (ks : List Sent) (w : BitVec 5 × BitVec 6 × Bool),
      tabRises none s.f.lan.lane = true → tabLook (s.f.lane l).os pos.toNat = some o → (s.f.lane l).eReads = [] →
      s.f.mer.holdover = false → (s.f.link o.id).sent = k :: ks → (s.f.link o.id).wait = [] → (s.f.link o.id).anew = false →
      k.sf + 2 ≤ s.f.nev.sfCount → s.f.served o.id = some w → (∀ q ∈ k :: ks, Field.LCmd.streams q.cmd = false) →
      (∀ q ∈ ks, q.cnum ≠ k.cnum) →
      (s.f.mayLeaveEnd w.1 w.2.2 k.cmd = true → s.endsField (.commandResend l pos) (fun g =>
        (g.link o.id).sent = { k with due := false, sf := s.f.nev.sfCount, rep := s.f.nev.sfCount } ::
          ks.map (fun q => { q with due := true }) ∧
        (g.lane w.1).resent = satAdd (s.f.lane w.1).resent 1 ∧ g.nev = s.f.nev)) ∧
      (s.f.mayLeaveEnd w.1 w.2.2 k.cmd = false → s.endsField (.commandResend l pos) (fun g =>
        (g.link o.id).sent = (k :: ks).map (fun q => { q with due := true }) ∧ (∀ m, g.lane m = s.f.lane m) ∧
        g = { s.f with lan := g.lan })))

/-- ENTER (R444): an OPERATOR or COMMISSIONER brings the safe state in, with reason 0x12, every gate OFF and SAFEOUT low. SAF_CONFIRM (R440):
a staging block that passes goes to NVM; a refused one is told by LAST, and one outside the commissioning state is not judged (R16).
PARAM_CHECK (R441), once a second: an unchanged block stays; a changed one latches PARAM, enters the safe state, and is replaced by a good
NVM copy, else by the default block, unconfirmed. -/
def Obligations.SafetyTakesParameters : Prop :=
  ∀ s : State,
    (∀ p, s.f.writes p = true → s.f.operator p = true ∨ s.f.commissioner p = true → s.endsField (.enterSafe p true) (fun g =>
      g.saf.safe = true ∧ g.saf.lastReason = 0x12 ∧ g.saf.tReason = s.f.now ∧
      (s.f.saf.safe = false → g.saf.reason = 0x12 ∧ g.saf.safeout = 0 ∧ g.saf.aoSeq = s.f.saf.aoSeq + 1 ∧
        g.saf.entries = satAdd s.f.saf.entries 1 ∧ (∀ n, (g.dchan n).mode = .off) ∧
        (∀ x, (g.chan x).nev.kind.switches = true → (g.chan x).nev.state ≠ .closed ∧ (g.chan x).nev.state ≠ .inserting)))) ∧
    (∀ (p : Part) (v : Word), s.f.writes p = true →
      (s.f.sec.comm = false → s.endsField (.safConfirm p v) (fun g => g.saf = s.f.saf ∧ g.nev = s.f.nev ∧ g.nvm.upd = s.f.nvm.upd)) ∧
      (s.f.sec.comm = true → s.f.commissioner p = true →
        (s.f.saf.safe = false → s.endsField (.safConfirm p v) (fun g => g.saf.last = 2 ∧ g.saf.active = s.f.saf.active)) ∧
        (s.f.saf.safe = true → v ≠ crc32c s.f.saf.staging → s.endsField (.safConfirm p v) (fun g =>
          g.saf.last = 3 ∧ g.saf.active = s.f.saf.active ∧ g.nvm.upd = s.f.nvm.upd)) ∧
        (∀ o, s.f.saf.safe = true → v = crc32c s.f.saf.staging → Field.safBadOffset s.f.saf.staging = some o →
          s.endsField (.safConfirm p v) (fun g => g.saf.last = 4 ∧ g.saf.offset = BitVec.ofNat 9 o ∧ g.saf.active = s.f.saf.active)) ∧
        (s.f.saf.safe = true → v = crc32c s.f.saf.staging → Field.safBadOffset s.f.saf.staging = none →
          s.endsField (.safConfirm p v) (fun g => g = { s.f with
            saf := { s.f.saf with commit := some s.f.saf.staging },
            nvm := { s.f.nvm with upd := s.f.nvm.upd ++ [ImgUpd.mk 2 s.f.saf.staging] } })))) ∧
    (∀ flips badA badB, s.f.now < s.f.saf.paramDue → s.endsField (.paramCheck flips badA badB) (fun g => g = s.f)) ∧
    (s.f.pwr.st ≠ .thermalOff → ¬ s.f.now < s.f.saf.paramDue →
      (∀ badA badB, crc32c s.f.saf.active = s.f.saf.activeCrc → s.endsField (.paramCheck [] badA badB) (fun g =>
        g = { s.f with saf := { s.f.saf with paramDue := s.f.now + 100000000 } })) ∧
      (∀ flips : List (BitVec 9 × Byte),
        let b := flips.foldl (fun (b : Bytes) e => listSet b e.1.toNat (u8 b e.1.toNat ^^^ e.2)) s.f.saf.active
        crc32c b ≠ s.f.saf.activeCrc →
        (∀ c, Field.safGoodCopy s.f.nvm.safety s.f.saf.activeCrc = some c →
          s.endsField (.paramCheck flips false false) (fun g => g.saf.active = c ∧ g.saf.fParam = false ∧
            g.saf.confirmed = s.f.saf.confirmed ∧ (s.f.saf.fParam = false → g.saf.safe = true ∧ g.saf.lastReason = 0x0C))) ∧
        s.endsField (.paramCheck flips true true) (fun g => g.saf.active = safDefault ∧ g.saf.activeCrc = crc32c safDefault ∧
          g.saf.confirmed = false ∧ g.saf.fParam = true ∧ (s.f.saf.fParam = false → g.saf.safe = true ∧ g.saf.lastReason = 0x0C))))

/-- EPO_LEVEL and DISCREPANCY_EXPIRY (R424, R425, R429): a new level of a channel is taken; a demand of an enabled, unmasked pair brings the
safe state in with the pair's reason; a pair that differs for D latches DISC. EPO_TEST_SCHEDULE, TEST_PULSE_START, TEST_PULSE_END and
MASK_END (R431 to R433, R438): a round lays its pulses 50,000 ticks apart; a pulse drives EPOT low under a mask; a channel that shows no dip
latches TEST, and one that dips and returns clears it. -/
def Obligations.EmergencyInputsAct : Prop :=
  ∀ s : State, s.f.pwr.st ≠ .thermalOff →
    (∀ (k : BitVec 2) (side : End) (lvl : Bool), let ch := 2 * k.toNat + side.ctorIdx
      (bit s.f.saf.epo ch = lvl → s.endsField (.epoLevel k side lvl) (fun g => g = s.f)) ∧
      (bit s.f.saf.epo ch ≠ lvl → s.endsField (.epoLevel k side lvl) (fun g =>
        bit g.saf.epo ch = lvl ∧ (∀ j, j ≠ ch → bit g.saf.epo j = bit s.f.saf.epo j) ∧ (s.f.saf.safe = true → g.saf.safe = true) ∧
        (s.f.saf.epot = 0xFF → bit s.f.saf.masked ch = false → Field.pairEn s.f.saf k.toNat = true →
          Field.isDemand s.f.saf ch lvl = true → Field.pairDemand s.f.saf k.toNat = false →
          g.saf.safe = true ∧ g.saf.lastReason = BitVec.ofNat 8 (k.toNat + 1) ∧
          (s.f.saf.safe = false → g.saf.reason = BitVec.ofNat 8 (k.toNat + 1)))))) ∧
    (∀ (k : BitVec 2) (t : Count), tabLook s.f.saf.disc k.toNat = some t → Field.pairDiffers s.f.saf k.toNat = true →
      t.toNat + Field.discTicks s.f.saf k.toNat ≤ s.f.now.toNat → s.endsField (.discrepancyExpiry k) (fun g =>
        bit g.saf.fDisc k.toNat = true ∧ tabLook g.saf.disc k.toNat = none ∧ tabGet .none g.saf.cycle k.toNat = .waitRun ∧
        (bit s.f.saf.fDisc k.toNat = false → g.saf.safe = true ∧ g.saf.lastReason = 0x08))) ∧
    (∀ ok : Bool, bit s.f.mer.sysDue 5 = true → s.endsField (.epoTestSchedule ok) (fun g =>
      bit g.mer.sysDue 5 = false ∧ g.saf.roundCross = false ∧
      (∀ ch : BitVec 3, bit g.saf.roundLeft ch.toNat = Field.tested s.f.saf ch.toNat ∧ tabLook g.saf.pulseDue ch.toNat =
        if Field.tested s.f.saf ch.toNat then some (BitVec.ofNat 64 (s.f.now.toNat + ch.toNat * 50000)) else none) ∧
      (ok = true → g.saf.fLogic = s.f.saf.fLogic ∧ g.saf.safe = s.f.saf.safe) ∧
      (ok = false → g.saf.fLogic = true ∧ (s.f.saf.fLogic = false → g.saf.safe = true ∧ g.saf.lastReason = 0x0D)))) ∧
    (∀ (ch : BitVec 3) (t : Count), tabLook s.f.saf.pulseDue ch.toNat = some t → t.toNat ≤ s.f.now.toNat →
      s.endsField (.testPulseStart ch) (fun g =>
        bit g.saf.epot ch.toNat = false ∧ bit g.saf.masked ch.toNat = true ∧ bit g.saf.held ch.toNat = bit s.f.saf.epo ch.toNat ∧
        tabLook g.saf.pulseAt ch.toNat = some s.f.now ∧ tabLook g.saf.pulseDue ch.toNat = none ∧
        (∀ j, j ≠ ch.toNat → bit g.saf.epot j = bit s.f.saf.epot j ∧ bit g.saf.masked j = bit s.f.saf.masked j) ∧
        g = { s.f with saf := g.saf })) ∧
    (∀ (ch : BitVec 3) (t : Count), tabLook s.f.saf.pulseAt ch.toNat = some t →
      (bit s.f.saf.epot ch.toNat = false → t.toNat + 20000 ≤ s.f.now.toNat → s.endsField (.testPulseEnd ch) (fun g =>
        bit g.saf.epot ch.toNat = true ∧ g.saf.epo = s.f.saf.epo ∧
        (let fails := !Field.isDemand s.f.saf ch.toNat (bit s.f.saf.held ch.toNat) &&
            !(bit s.f.saf.dipped ch.toNat || Field.isDemand s.f.saf ch.toNat (bit s.f.saf.epo ch.toNat))
         g.saf.fTest = (if fails then s.f.saf.fTest ||| (1#8 <<< ch.toNat) else s.f.saf.fTest) ∧
         (fails = true → bit s.f.saf.fTest ch.toNat = false → g.saf.safe = true ∧ g.saf.lastReason = 0x09)))) ∧
      (bit s.f.saf.epot ch.toNat = true → t.toNat + 25000 ≤ s.f.now.toNat → s.endsField (.maskEnd ch) (fun g =>
        bit g.saf.masked ch.toNat = false ∧ tabLook g.saf.pulseAt ch.toNat = none ∧ g.saf.epo = s.f.saf.epo ∧
        (let pass := !Field.isDemand s.f.saf ch.toNat (bit s.f.saf.held ch.toNat) && bit s.f.saf.dipped ch.toNat &&
            !Field.isDemand s.f.saf ch.toNat (bit s.f.saf.epo ch.toNat)
         g.saf.fTest = (if pass then s.f.saf.fTest &&& ~~~(1#8 <<< ch.toNat) else s.f.saf.fTest)))))

/-- OUTPUT_MISMATCH and OUTPUT_MATCH (R434): a pin that differs from its command is latched and brings the safe state in; one that matches
again is released. REARM_PRESS, REARM_RELEASE, STUCK_REARM and REARM_STUCK_CLEAR (R435 to R437): a press of 50 ms to 3 s leaves the safe
state where the conditions of R436 hold, else it is refused; a longer one latches STUCK_REARM until REARM has been released for 1 s. -/
def Obligations.RearmLeavesSafeState : Prop :=
  ∀ s : State, s.f.pwr.st ≠ .thermalOff →
    (∀ q : OutPin,
      (s.f.saf.outPins.contains q = false → s.endsField (.outputMismatch q) (fun g =>
        g.saf.outPins = s.f.saf.outPins ++ [q] ∧ g.saf.safe = true ∧ g.saf.lastReason = 0x0B)) ∧
      (s.f.saf.outPins.contains q = true → s.endsField (.outputMatch q) (fun g =>
        g.saf.outPins = s.f.saf.outPins.filter (· ≠ q) ∧ g.saf.safe = s.f.saf.safe ∧ g.nev = s.f.nev))) ∧
    (s.f.saf.rearm = false → s.endsField .rearmPress (fun g =>
      g.saf.rearm = true ∧ g.saf.rearmSeen = true ∧ g.saf.tRearm = s.f.now ∧ g.saf.safe = s.f.saf.safe ∧ g.nev = s.f.nev ∧
      (s.f.saf.rearmSeen = true ∨ 200000 ≤ s.f.now.toNat → g.saf.fStuck = s.f.saf.fStuck ∧ g.saf.pressStuck = false))) ∧
    (s.f.saf.rearm = true → s.f.saf.pressStuck = false →
      let d := s.f.now.toNat - s.f.saf.tRearm.toNat
      (5000000 ≤ d → d ≤ 300000000 → s.f.saf.safe = true → Field.faulted s.f.saf = false →
        (∀ k : BitVec 2, Field.pairDemand s.f.saf k.toNat = false) → s.f.saf.tReason ≠ s.f.now → s.f.sec.life ≠ 4 →
        s.endsField .rearmRelease (fun g =>
          g.saf.safe = false ∧ g.saf.rearm = false ∧ g.saf.safeout = bits (u8 s.f.saf.active 3) 0 4 ∧ g.saf.refused = s.f.saf.refused)) ∧
      (5000000 ≤ d → d ≤ 300000000 → (s.f.saf.safe = false ∨ Field.faulted s.f.saf = true ∨
          ∃ k : BitVec 2, Field.pairDemand s.f.saf k.toNat = true) → s.endsField .rearmRelease (fun g =>
        g.saf.safe = s.f.saf.safe ∧ g.saf.rearm = false ∧ g.saf.refused = satAdd s.f.saf.refused 1 ∧ g.nev = s.f.nev)) ∧
      (d < 5000000 → s.endsField .rearmRelease (fun g => g = { s.f with
        saf := { s.f.saf with rearm := false, tRearm := s.f.now, short := satAdd s.f.saf.short 1 } })) ∧
      (300000000 < d → s.endsField .rearmRelease (fun g => g.saf.fStuck = true ∧ g.saf.safe = s.f.saf.safe ∧ g.nev = s.f.nev))) ∧
    (s.f.saf.rearm = true → s.f.saf.pressStuck = false → s.f.saf.tRearm.toNat + 300000001 ≤ s.f.now.toNat →
      s.endsField .stuckRearm (fun g => g.saf.fStuck = true ∧ g.saf.pressStuck = true ∧ g.saf.safe = s.f.saf.safe ∧ g.nev = s.f.nev)) ∧
    (s.f.saf.fStuck = true → s.f.saf.rearm = false → s.f.saf.tRearm.toNat + 100000000 ≤ s.f.now.toNat →
      s.endsField .rearmStuckClear (fun g => g.saf.fStuck = false ∧ g.saf.safe = s.f.saf.safe ∧ g.nev = s.f.nev))

/-- THERMOMETRY_DEMAND, THERMOMETRY_READING and CONFIRMING_READING of the field die (R407 to R416): a demand gates every site for 1,000
ticks; its readings judge each site, SENSOR throttle and throttle; a confirmed reading at SHUT takes the die to THERMAL-OFF with the safe
state. THERMAL_OFF_MEASUREMENT (R417): every 10 ms one measurement, and after 1 s and three good ones a cold start. THROTTLE_STEP2,
DEFER_SPAN_CLOSE (R38, R41) and DEMAND_INTERVAL_END (R224), of a core that runs and stores without errors. -/
def Obligations.TemperaturesAreJudged : Prop :=
  ∀ s : State,
    (bit s.f.mer.sysDue 2 = true → s.f.pwr.st ≠ .thermalOff → s.endsField (.thermometryDemand .field) (fun g =>
      bit g.mer.sysDue 2 = false ∧
      g = { s.f with mer := { s.f.mer with sysDue := g.mer.sysDue },
                     thm := { s.f.thm with gate := some (s.f.now + 1000, s.f.thm.confirm.map (·.site)) } })) ∧
    (∀ (gates : List Gate) (due : Count) (skip : List Nat), s.f.thm.gate = some (due, skip) → ¬ s.f.now < due →
      s.f.pwr.st ≠ .thermalOff → s.endsField (.thermometryReading .field gates) (fun g =>
        g.thm.gate = none ∧ (g.thm.sensorDue = true → g.thm.sensor = true) ∧
        (∀ k : BitVec 4, k.toNat < 12 → skip.contains k.toNat = false →
          ((gates[k.toNat]?).bind (reading (s.f.thm.trimAt k.toNat)) = none →
            (g.thm.siteAt k.toNat).badRun = (s.f.thm.siteAt k.toNat).badRun + 1 ∧ (g.thm.siteAt k.toNat).valid = false) ∧
          (∀ x, (gates[k.toNat]?).bind (reading (s.f.thm.trimAt k.toNat)) = some x →
            (g.thm.siteAt k.toNat).badRun = 0 ∧ (g.thm.siteAt k.toNat).valid = true ∧ (g.thm.siteAt k.toNat).last = ofInt 16 x) ∧
          (4 ≤ (g.thm.siteAt k.toNat).badRun → (g.thm.siteAt k.toNat).broken = true)) ∧
        (g.thm.noDecision = false → s.f.thm.throtLvl ≤ g.thm.decision.toInt → s.f.thm.hot = false → 1 ≤ s.f.thm.thrIn →
          g.thm.throttle = true ∧
          (s.f.thm.throttle = false → g.pwr.step1 = true ∧ (s.f.pwr.st = .run → g.pwr.st = .trim))))) ∧
    (∀ (k : BitVec 4) (v : Gate) (c : Confirm) (x : Int), s.f.pwr.st ≠ .thermalOff →
      s.f.thm.confirm.find? (fun c => decide (c.site = k.toNat)) = some c → reading (s.f.thm.trimAt k.toNat) v = some x →
      (s.f.now < c.due → s.endsField (.confirmingReading .field k v) (fun g => g = s.f)) ∧ (¬ s.f.now < c.due →
      s.f.thm.shutLvl ≤ x → s.endsField (.confirmingReading .field k v) (fun g =>
        g.pwr.st = .thermalOff ∧ g.saf.safe = true ∧ g.saf.lastReason = 0x10 ∧ g.thm.shutCount = satAdd s.f.thm.shutCount 1 ∧
        g.trn.st = .down ∧ g.sec.comm = false)) ∧
      (¬ s.f.now < c.due → x < s.f.thm.shutLvl → s.endsField (.confirmingReading .field k v) (fun g =>
        g.thm.unconfirmed = satAdd s.f.thm.unconfirmed 1 ∧ (∀ e ∈ g.thm.confirm, e.site ≠ k.toNat) ∧ g.saf.safe = s.f.saf.safe))) ∧
    (∀ (gates : List Gate) (supplyOk : Bool), s.f.pwr.st = .thermalOff →
      (s.f.thm.offT < 1000000 * (s.f.thm.offN + 1) → s.endsField (.thermalOffMeasurement gates supplyOk) (fun g => g = s.f)) ∧
      (1000000 * (s.f.thm.offN + 1) ≤ s.f.thm.offT → s.f.thm.offT < 100000000 →
        s.endsField (.thermalOffMeasurement gates supplyOk) (fun g =>
        g.thm.offN = s.f.thm.offN + 1 ∧ g = { s.f with thm := { s.f.thm with offN := g.thm.offN, offRun := g.thm.offRun } } ∧
        (supplyOk = false → g.thm.offRun = 0))) ∧
      (1000000 * (s.f.thm.offN + 1) ≤ s.f.thm.offT → 100000000 ≤ s.f.thm.offT → 2 ≤ s.f.thm.offRun → supplyOk = true → (∀ k : BitVec 4, k.toNat < 12 → ∃ v x, gates[k.toNat]? = some v ∧
          reading (s.f.thm.trimAt k.toNat) v = some x ∧ x < s.f.thm.shutLvl - 60) →
        s.endsField (.thermalOffMeasurement gates supplyOk) (fun g => g.coldFrom s.f .thermal = true))) ∧
    (s.f.thm.throttle = true → s.f.pwr.step1 = true → s.f.pwr.step2 = false → s.f.pwr.st ≠ .thermalOff →
      s.f.pwr.tThrottle.toNat + 1000000000 ≤ s.f.now.toNat → s.f.thm.noDecision = false →
      s.f.thm.throtLvl ≤ s.f.thm.decision.toInt → s.endsField .throttleStep2 (fun g =>
        g.pwr = { s.f.pwr with step2 := true, tSpan := s.f.now } ∧ (∀ x, (g.chan x).nev = (s.f.chan x).nev) ∧ g.saf = s.f.saf ∧
        (s.f.coreOn = true → g.firn.histSf = 0) ∧ (s.f.coreOn = false → g = { s.f with pwr := g.pwr }))) ∧
    (s.f.pwr.step2 = true → s.f.pwr.tSpan.toNat + 6553500000000 ≤ s.f.now.toNat → s.endsField .deferSpanClose (fun g =>
      g.pwr = { s.f.pwr with tSpan := s.f.pwr.tSpan + 6553500000000 } ∧ g.firn.histSf = 0 ∧ g.saf = s.f.saf)) ∧
    (s.f.coreOn = true → s.f.intact = true → s.f.station.toNat / Field.demandTicks ≠ s.f.firn.demIdx → s.endsField .demandIntervalEnd (fun g =>
      g.firn.demIdx = s.f.station.toNat / Field.demandTicks ∧
      (∀ x, (s.f.select (fun _ => true)).count x = 1 → (g.chan x).met.demImp = (s.f.chan x).met.runImp ∧
        (g.chan x).met.demExp = (s.f.chan x).met.runExp ∧ (g.chan x).met.runImp = 0 ∧ (g.chan x).met.runExp = 0 ∧
        ((s.f.chan x).met.short = false → (s.f.chan x).met.demPeak < (s.f.chan x).met.runImp →
          (g.chan x).met.demPeak = (s.f.chan x).met.runImp) ∧ (g.chan x).met.imp = (s.f.chan x).met.imp)))

/-- REQ_RUN_QUIET, REQ_STANDBY and STANDBY_ENTRY (R448 to R450): the requested power state is entered, or STANDBY is refused with its code; its
entry stops the lanes, Firn and Transit. WAKE_PIN, WAKE_TIME and WAKE_LINK (R452, R453): an enabled source ends STANDBY and is shown. -/
def Obligations.PowerStatesChange : Prop :=
  ∀ s : State,
    (∀ p, s.f.writes p = true → s.f.operator p = true ∨ s.f.commissioner p = true → s.f.pwr.entry = none →
      (∀ quiet, s.endsField (.reqRunQuiet p quiet) (fun g =>
        g.pwr = { s.f.pwr with req := if quiet then 1 else 0,
                               st := if quiet then .quiet else if s.f.pwr.step1 then .trim else .run } ∧
        g.nev = s.f.nev ∧ g.saf = s.f.saf)) ∧
      ((s.f.dch.any (fun e => decide (e.2.mode ≠ .off))) = true → s.endsField (.reqStandby p) (fun g =>
        g = { s.f with pwr := { s.f.pwr with refuse := 1 } })) ∧
      ((∀ e ∈ s.f.dch, e.2.mode = .off) → (∀ e ∈ s.f.existing, e.2.nev.state ≠ .inserting) → s.f.hel.ctx = [] →
        s.f.firn.capWait = [] → s.f.firn.st = .ready → (s.f.pwr.wakePin = true ∨ s.f.pwr.wakeLink = true) →
        s.endsField (.reqStandby p) (fun g =>
          g = { s.f with pwr := { s.f.pwr with req := 2, entry := some s.f.now, wakeHeld := 0, tCheck := s.f.now } }))) ∧
    (s.f.coreOn = true → s.f.pwr.entry.isSome = true → s.f.nvm.log.erasing = none → s.f.pwr.wakeHeld = 0 →
      s.endsField .standbyEntry (fun g =>
        g.pwr.st = .standby ∧ g.pwr.entry = none ∧ g.pwr.stbyEntries = satAdd s.f.pwr.stbyEntries 1 ∧ g.trn.st = .down ∧
        (∀ l, (g.lane l).st = .disabled) ∧ (s.f.firn.st ≠ .failed → g.firn.st = .selfRefresh) ∧ g.adc.refReady = false ∧
        g.nev = s.f.nev ∧ g.saf = s.f.saf)) ∧
    (s.f.pwr.st = .standby →
      let wakes (src : BitVec 3) (g : Field) : Prop :=
        g.pwr.st = (if s.f.thm.throttle then .trim else .run) ∧ g.pwr.wake = src ∧ g.pwr.req = 0 ∧ g.trn.st = .train ∧
        (s.f.firn.st = .selfRefresh → g.firn.st = .train)
      (s.f.pwr.wakePin = true → s.endsField .wakePin (wakes 1)) ∧
      (s.f.pwr.wakeTime = true → s.f.pwr.tCheck < s.f.pwr.wakeAt → s.f.pwr.wakeAt ≤ s.f.now → s.endsField .wakeTime (wakes 2)) ∧
      (s.f.now < s.f.pwr.wakeAt → s.endsField .wakeTime (fun g => g = s.f)) ∧
      (s.f.pwr.wakeLink = true → s.endsField .wakeLink (wakes 3)) ∧
      (s.f.pwr.wakePin = false → s.endsField .wakePin (fun g => g = s.f)) ∧
      (s.f.pwr.wakeLink = false → s.endsField .wakeLink (fun g => g = s.f)))

/-- POR and BOR of the field die (R446, R447): a cold start. PIN, WDT and SOFT (R455, R182): a warm reset begins, with every context, the
queue and the commands in flight gone and Transit down; in THERMAL-OFF a PIN does nothing (R457). WARM_RESET_END (R455, R182): the core runs
again, the reset is counted with its kind, and no channel is left in INSERTING. -/
def Obligations.FieldResets : Prop :=
  ∀ s : State,
    s.endsField (.por .field) (fun g => g.coldFrom s.f .por = true) ∧
    s.endsField (.bor .field) (fun g => g.coldFrom s.f .bor = true) ∧
    (let begins (k : RstKind) (n : Nat) (g : Field) : Prop :=
      g.pwr.st = .reset ∧ g.pwr.warm = some (k, s.f.now + BitVec.ofNat 64 n) ∧ g.trn.st = .down ∧ g.hel.ctx = [] ∧ g.hel.queue = [] ∧
      g.prt.busy = [] ∧ g.nev.prof = s.f.nev.prof ∧ g.saf.safe = s.f.saf.safe ∧ g.sec.comm = false
     (s.f.pwr.st ≠ .thermalOff → s.f.pwr.st ≠ .reset → s.endsField (.pin .field) (begins .pin 100100)) ∧
     (s.f.coreOn = true → s.endsField (.wdt .field) (begins .wdt 100000)) ∧
     (∀ p, s.f.writes p = true → s.f.commissioner p = true → s.endsField (.soft p 0x50F7) (begins .soft 100000))) ∧
    (∀ p (key : BitVec 16), s.f.commissioner p = false ∨ key ≠ 0x50F7 → s.endsField (.soft p key) (fun g => g = s.f)) ∧
    (s.f.pwr.st = .thermalOff → s.endsField (.pin .field) (fun g => g = s.f)) ∧
    (∀ (k : RstKind) (due : Count), s.f.pwr.st = .reset → s.f.pwr.warm = some (k, due) → ¬ s.f.now < due →
      s.endsField .warmResetEnd (fun g =>
        g.pwr.st = (if s.f.thm.throttle then .trim else .run) ∧ g.pwr.warm = none ∧ g.pwr.rstLast = BitVec.ofNat 3 k.ctorIdx ∧
        g.pwr.rstWarm = satAdd s.f.pwr.rstWarm 1 ∧
        g.pwr.rstWdt = (if k = .wdt then satAdd s.f.pwr.rstWdt 1 else s.f.pwr.rstWdt) ∧ g.trn.st = .train ∧
        (s.f.firn.st = .selfRefresh → g.firn.st = .train) ∧ (∀ x, (g.chan x).nev.state ≠ .inserting)))

/-- FIRN_READY, FILL_DONE, CA_PARITY_ALERT and FIRN_DOWN_TIMEOUT (R340, R342 to R344) complete: Firn's training ends, its filling ends, a
rejected access is counted where its check is enabled and the fourth one retrains, and a command that has waited 30 ms completes with
FIRN_DOWN. PLOUGH_BLOCK (R346, R354 to R356): a CMP3 fire patrols one block; a corrected and an uncorrectable codeword are counted, and a
correction is written back. NEVE_SCRUB and NEVE_RECOVERY_DONE (R43, R350, R351): the scrub moves on once its next place is due; a lost
entry is rebuilt from its record. -/
def Obligations.FirnKeepsItsContent : Prop :=
  ∀ s : State,
    (s.f.coreOn = true → s.f.firn.st = .train → s.f.firn.waiting = [] → s.f.intact = true → s.endsField .firnReady (fun g =>
      g.firn.st = .ready ∧ g.firn.trainFails = 0 ∧ (∀ x, (g.chan x).nev = (s.f.chan x).nev) ∧ g.saf = s.f.saf)) ∧
    (s.f.firn.st = .ready → s.f.mer.holdover = false → s.endsField .fillDone (fun g =>
      g = { s.f with firn := { s.f.firn with filled := true } })) ∧
    (∀ wcrc first, (if wcrc then s.f.firn.wrCrcNow else s.f.firn.caParNow) = true →
      (s.f.firn.st = .ready →
        let n := (if first then 0 else s.f.firn.accFails) + 1
        (n < 4 → s.endsField (.caParityAlert wcrc first) (fun g => g = { s.f with firn := { s.f.firn with
          accFails := n, caRetry := if wcrc then s.f.firn.caRetry else satAdd s.f.firn.caRetry 1,
          wcRetry := if wcrc then satAdd s.f.firn.wcRetry 1 else s.f.firn.wcRetry } })) ∧
        (4 ≤ n → s.endsField (.caParityAlert wcrc first) (fun g => g.firn.st = .train ∧ g.firn.caRetry = s.f.firn.caRetry ∧
          g.firn.wcRetry = s.f.firn.wcRetry ∧ g = { s.f with firn := g.firn }))) ∧
      (s.f.firn.st = .train → s.endsField (.caParityAlert wcrc first) (fun g =>
        g.firn.st = (if s.f.firn.trainFails = 0 then .train else .failed) ∧ g = { s.f with firn := g.firn }))) ∧
    (∀ wcrc first, (if wcrc then s.f.firn.wrCrcNow else s.f.firn.caParNow) = false →
      s.endsField (.caParityAlert wcrc first) (fun g => g = s.f)) ∧
    (∀ w, s.f.firn.waiting = [w] → w.t.toNat + 3000000 ≤ s.f.now.toNat → s.endsField .firnDownTimeout (fun g =>
      g.answered w.ref .firnDown = true ∧ g.firn.waiting = [] ∧ g.nev = s.f.nev ∧ g.saf = s.f.saf)) ∧
    (bit s.f.mer.sysDue 3 = true → s.f.firn.st = .ready → s.f.mer.holdover = false → s.f.firn.filled = true →
      let last := s.f.firn.capGib.toNat * 262144 ≤ s.f.firn.block.toNat + 1
      (∀ pats, s.endsField (.ploughBlock pats) (fun g =>
        bit g.mer.sysDue 3 = false ∧ g.firn.block = (if last then 0 else s.f.firn.block + 1) ∧
        g.firn.passes = (if last then s.f.firn.passes + 1 else s.f.firn.passes) ∧ g.saf = s.f.saf)) ∧
      (∀ (cw : BitVec 31) (pat : Bytes), s.f.intact = true → s.f.firn.failedDev = [] → cw.toNat < s.f.firnCws →
        cw.toNat / 128 = s.f.firn.block.toNat →
        (∀ es, rsDecode (pad 36 pat) = .corrected es → s.endsField (.ploughBlock [(cw, pat)]) (fun g =>
          g.firn.ce = satAdd s.f.firn.ce 1 ∧ g.firn.uncorr = s.f.firn.uncorr ∧ g.firn.poisoned = [] ∧
          (Field.changed (pad 36 pat) es = zeros 36 → g.firn.errs = []))) ∧
        (rsDecode (pad 36 pat) = .uncorrectable → s.endsField (.ploughBlock [(cw, pat)]) (fun g =>
          g.firn.uncorr = satAdd s.f.firn.uncorr 1 ∧ g.firn.ueValid = true ∧ g.firn.ueAddr = cw ∧ g.firn.ce = s.f.firn.ce)))) ∧
    (s.f.coreOn = true →
      let on : Nevs := { s.f.nev with
        scrubPos := (s.f.nev.scrubPos + 1) % 135168,
        scrubFrom := if s.f.nev.scrubPos + 1 = 135168 then s.f.nev.scrubFrom + 100000000 else s.f.nev.scrubFrom }
      let due := s.f.nev.scrubFrom + BitVec.ofNat 64 (s.f.nev.scrubPos * 100000000 / 135168)
      (s.f.now < due → s.endsField (.neveScrub []) (fun g => g = s.f)) ∧
      (due ≤ s.f.now → s.f.intact = true → s.endsField (.neveScrub []) (fun g => g = { s.f with nev := on })) ∧
      (∀ pat : Bytes, due ≤ s.f.now → s.f.intact = true → s.f.nev.scrubPos < 131072 →
        let x : BitVec 17 := BitVec.ofNat 17 s.f.nev.scrubPos
        (s.f.chan x).nev.state ≠ .free → s.f.nev.recovering.contains x = false →
        (∀ es, rsDecode (pad 36 pat) = .corrected es →
          s.endsField (.neveScrub [(BitVec.ofNat 18 s.f.nev.scrubPos, pat)]) (fun g =>
            g = { s.f with nev := { on with eccCorr := satAdd s.f.nev.eccCorr 1, errs := g.nev.errs } } ∧
            (Field.changed (pad 36 pat) es = zeros 36 → g.nev.errs = []))) ∧
        (rsDecode (pad 36 pat) = .uncorrectable → s.endsField (.neveScrub [(BitVec.ofNat 18 s.f.nev.scrubPos, pat)]) (fun g =>
          g = { s.f with nev := { on with recovering := s.f.nev.recovering ++ [x], errs := g.nev.errs } })))) ∧
    (∀ x : BitVec 17, s.f.nev.recovering.contains x = true → s.f.firn.st = .ready → s.f.mer.holdover = false → s.f.intact = true →
      s.endsField (.neveRecoveryDone x) (fun g =>
        g.nev.recovering.contains x = false ∧ g.nev.eccRecov = satAdd s.f.nev.eccRecov 1 ∧
        (g.chan x).nev.state = (s.f.chan x).nev.state ∧ (g.chan x).nev.gen = (s.f.chan x).nev.gen ∧
        (g.chan x).nev.profile = (s.f.chan x).nev.profile ∧ (g.chan x).nev.therm = (s.f.chan x).fr.thermSnap ∧
        (g.chan x).nev.fbSync = false ∧ (g.chan x).nev.miss = 0 ∧ (∀ y, y ≠ x → g.chan y = s.f.chan y)))

/-- LOG_WRITE (R467 to R470): an emergency record, else an ordinary one, is programmed at the next place with the next SEQ. SECTOR_ERASE_DONE
(R465, R469): the sector is erased and headed, or retired. LOG_SCAN (R471): an empty log gets its BOOT record. TOKEN_REFILL (R468): a token
every 500 ms, and a LOST entry after drops. IMAGE_UPDATE (R462): the first waiting update of an image is in both copies, on either die. -/
def Obligations.RecordsReachTheLog : Prop :=
  ∀ s : State, s.f.pwr.st ≠ .thermalOff →
    let l := s.f.nvm.log
    (∀ r rs, l.ready = true → r.conts = [] →
      let written (g : Field) : Prop :=
        tabLook g.nvm.log.place l.next = some (recPlace l.seq r.type (logEmerg r.type) 0 s.f.nvm.boot r.t r.body) ∧
        g.nvm.log.seq = seqNext l.seq ∧ (∀ p, p ≠ l.next → tabLook g.nvm.log.place p = tabLook l.place p) ∧
        g = { s.f with nvm := { s.f.nvm with log := g.nvm.log } }
      (l.emerg = r :: rs → 1 ≤ l.room → s.endsField (.logWrite false) (fun g => written g ∧ g.nvm.log.emerg = rs ∧ g.nvm.log.ord = l.ord)) ∧
      (l.emerg = [] → l.ord = r :: rs → l.erasing = none → 65 ≤ l.room → s.endsField (.logWrite false) (fun g =>
        written g ∧ g.nvm.log.emerg = [] ∧ g.nvm.log.ord = rs)) ∧
      (l.emerg = [] → l.ord = r :: rs → l.room < 65 → s.endsField (.logWrite false) (fun g =>
        g.nvm.log.place = l.place ∧ g.nvm.log.ord = l.ord ∧ g.nvm.log.seq = l.seq))) ∧
    (∀ n, l.erasing = some n →
      s.endsField (.sectorEraseDone false) (fun g =>
        (∀ p, p / 127 = n → tabLook g.nvm.log.place p = none) ∧ (∀ p, p / 127 ≠ n → tabLook g.nvm.log.place p = tabLook l.place p) ∧
        tabGet 0 g.nvm.log.erases n = tabGet 0 l.erases n + 1 ∧ g.nvm.log.badHdr.contains n = false ∧ g.nvm.log.seq = l.seq) ∧
      s.endsField (.sectorEraseDone true) (fun g =>
        g.nvm.log.retired = n :: l.retired ∧ g.nvm.log.erasing = none ∧ g.nvm.retired = satAdd s.f.nvm.retired 1)) ∧
    (l.ready = false → s.f.pwr.st ≠ .reset → s.endsField .logScan (fun g =>
      g.nvm.log.ready = true ∧ g = { s.f with nvm := g.nvm } ∧
      (l.place = [] → l.badHdr = [] → l.erasing = none → 65 ≤ l.room → g.nvm.log.tokens = l.tokens - 1 ∧ g.nvm.torn = satAdd s.f.nvm.torn 0 ∧ g.nvm.log.seq = seqNext l.seq ∧
        g.nvm.log.place = [(l.next, recPlace l.seq 0x01 false 0 s.f.nvm.boot s.f.now [s.f.pwr.rstLast.setWidth 8])]))) ∧
    (¬ s.f.now < l.tToken → s.endsField .tokenRefill (fun g =>
      g.nvm.log.tokens = min (l.tokens + 1) 256 ∧ g.nvm.log.tToken = l.tToken + 50000000 ∧ g.nvm.log.lostN = 0 ∧
      (l.lostN = 0 → g.nvm.log.ord = l.ord) ∧
      (l.lostN ≠ 0 → ∃ r, g.nvm.log.ord = l.ord ++ [r] ∧ r.type = 0x07 ∧ r.t = s.f.now ∧ r.body = toLe l.lostN 4 ++ [l.lostType]))) ∧
    (∀ (item : BitVec 2) (u : ImgUpd) (rest : List ImgUpd),
      (Field.takeUpd item.toNat s.f.nvm.upd = some (u, rest) → s.endsField (.imageUpdate .field item false) (fun g =>
        g.img item.toNat = (s.f.img item.toNat).update item.toNat u.payload ∧ g.nvm.upd = rest ∧ bit g.nvm.lost item.toNat = false ∧
        (item = 1 → g.sec.bl = bits (u8 u.payload 0) 0 4) ∧
        (item = 2 → s.f.saf.commit = some u.payload → g.saf.active = u.payload ∧ g.saf.confirmed = true ∧ g.saf.last = 1))) ∧
      (Field.takeUpd item.toNat s.h.nvm.upd = some (u, rest) → s.h.linkOn = true → item ≠ 1 → s.endsHost (.imageUpdate .host item false)
        (fun g => HDie.img g.nvm item.toNat = (HDie.img s.h.nvm item.toNat).update item.toNat u.payload ∧ g.nvm.upd = rest ∧
          bit g.nvm.lost item.toNat = false ∧ (item = 2 → g.setup = HDie.setupWords u.payload))))

/-- CMD, BULK, TUN_RD, TUN_WR, PART_RST and KEEPALIVE at the field die (R359 to R364, R368, R369, R377, R386) complete: a message that
arrives whole and in order is acknowledged and SEQ moves on; another is answered by LINK_NAK and does nothing, and one that is not well
formed is counted and does nothing else (its SEQ is spent: the model's choice, log entry 117). A command with what it needs runs as its
own row does, one whose payload is not there waits, and the BULK that completes the payload runs it. A tunnelled read is answered by a
TUN_CPL with the register's value, a tunnelled write by one once the register is written. A PART reset empties the partition's queue. -/
def Obligations.MessagesReachTheField : Prop :=
  ∀ (s : State) (x : LinkHdr),
    let took (cls : Bool) : Field := (s.f.heard cls x).takeLinkAck cls x.ack
    let refused (cls : Bool) (g : Field) : Prop := g = { s.f with out := s.f.out ++ [linkNakOut cls (s.f.half cls).expect] }
    let bad (cls : Bool) (g : Field) : Prop :=
      (g.half cls).expect = (s.f.half cls).expect + 1 ∧ g.trn.badMsg = satAdd s.f.trn.badMsg 1 ∧
      g = { s.f with trn := g.trn, out := s.f.out ++ [linkAckOut cls x.seq] }
    let p := Field.partOf x
    (s.f.linkUp = true → s.f.hears true x = false →
      (∀ ring desc, s.endsField (.cmd x ring desc) (refused true)) ∧ (∀ off, s.endsField (.tunRd x off) (refused true)) ∧
      (∀ off v, s.endsField (.tunWr x off v) (refused true)) ∧ s.endsField (.partRst x) (refused true) ∧
      s.endsField (.keepalive .field x) (refused true)) ∧
    (s.f.linkUp = true → s.f.hears false x = false → ∀ off data, s.endsField (.bulk x off data) (refused false)) ∧
    (s.f.hears true x = true →
      (formOk x 0x01 true = false → ∀ ring desc, s.endsField (.cmd x ring desc) (bad true)) ∧
      (formOk x 0x02 true = false → ∀ off, s.endsField (.tunRd x off) (bad true)) ∧
      (formOk x 0x03 true = false → ∀ off v, s.endsField (.tunWr x off v) (bad true)) ∧
      (formOk x 0x04 true = false → s.endsField (.partRst x) (bad true)) ∧
      (formOk x 0x05 true = false → s.endsField (.keepalive .field x) (bad true))) ∧
    (s.f.hears false x = true → formOk x 0xC1 false = false → ∀ off data, s.endsField (.bulk x off data) (bad false)) ∧
    (s.f.hears true x = true → s.f.unburdened = true → s.f.sec.ucodeFail = false →
      (formOk x 0x01 true = true → ∀ (ring : BitVec 4) (desc : Bytes),
        let r := Field.refOfDesc p ring (bits x.tag 0 16) desc
        let b (need : Nat) (started : Bool) : Busy :=
          { ref := r, ops := desc, linkTag := x.tag, need := need, t := s.f.now, started := started }
        (∀ c, s.f.admits = true → Field.carriesBulk (u8 desc 0) = false → Field.fcmdOf desc [] = some c →
          s.endsField (.cmd x ring desc) (fun g =>
            let t : Field := { took true with prt := { (took true).prt with busy := [b 0 true] } }
            g = (([0, 1, 2, 3] : List Part).foldl (fun (h : Field) n => h.partStep n) ((t.dropBulk x.tag).runCmd r c)))) ∧
        (s.f.admits = true → s.f.anyRole p = true → u8 desc 0 = 0 → s.f.behindWaiting r = false →
          s.endsField (.cmd x ring desc) (fun g => g.answered r .ok = true ∧ g.prt.busy = [])) ∧
        (s.f.admits = true → Field.carriesBulk (u8 desc 0) = true → (s.f.bulkOf x.tag).length < leNat desc 24 4 →
          s.endsField (.cmd x ring desc) (fun g =>
            g = { took true with prt := { (took true).prt with busy := [b (leNat desc 24 4) false] } })) ∧
        (s.f.takesCmds = true → s.f.sec.halted = true → s.endsField (.cmd x ring desc) (fun g =>
          ∃ need, g = { took true with prt := { (took true).prt with busy := [b need false] } })) ∧
        (s.f.takesCmds = false → s.endsField (.cmd x ring desc) (fun g => g = took true))) ∧
      (formOk x 0x02 true = true → bit x.part 7 = false → s.f.seqRuns = true → ∀ off, s.endsField (.tunRd x off) (fun g =>
        let r := (took true).regRead p off.toNat
        g = (r.2.tunCpl (p.setWidth 8) x.tag r.1).linkSteps)) ∧
      (formOk x 0x03 true = true →
        (bit x.part 7 = false → s.f.seqRuns = true → ∀ off v, s.endsField (.tunWr x off v) (fun g =>
          let t := (took true).regWrite p off.toNat v
          g = (t.tunCpl (p.setWidth 8) x.tag (if off.toNat = 0x16118 then fldN (t.cmpItv 1) 0 else 0)).linkSteps)) ∧
        (bit x.part 7 = true → ∀ (n : Part) (v : Word), s.endsField (.tunWr x (BitVec.ofNat 32 (0x30200 + 4 * n.toNat)) v) (fun g =>
          tabGet 0 g.prt.setup n.toNat = v ∧ (∀ m : Part, m ≠ n → tabGet 0 g.prt.setup m.toNat = tabGet 0 s.f.prt.setup m.toNat)))) ∧
      (formOk x 0x04 true = true → s.endsField (.partRst x) (fun g =>
        (g.evq p).q = [] ∧ (g.evq p).dropped = 0 ∧ (g.evq p).heldDone = [] ∧ bit g.prt.rstA p.toNat = false ∧ g.nev = s.f.nev)) ∧
      (formOk x 0x05 true = true → s.endsField (.keepalive .field x) (fun g => g = took true ∧ g.trn.tLast = s.f.now ∧
        g.trn.ctl.expect = s.f.trn.ctl.expect + 1 ∧ g.out = s.f.out ++ [linkAckOut true x.seq]))) ∧
    (s.f.hears false x = true → formOk x 0xC1 false = true → s.f.trn.tunWait = [] → s.f.prt.rstA = 0 → s.f.prt.rstB = 0 →
      ∀ (off : Word) (data : Bytes),
        let held (t : Field) : List (BitVec 32 × Nat × Bytes) := t.trn.bulk ++ [(x.tag, off.toNat, data)]
        (s.f.prt.busy = [] → s.endsField (.bulk x off data) (fun g =>
          g = { took false with trn := { (took false).trn with bulk := held (took false) } })) ∧
        (∀ (b : Busy) (c : FCmd), s.f.prt.busy = [b] → b.linkTag = x.tag → b.started = false → s.f.bulkLate b = false →
          s.f.admits = true →
          let t : Field := { took false with trn := { (took false).trn with bulk := held (took false) } }
          b.need ≤ (t.bulkOf x.tag).length → Field.fcmdOf b.ops ((t.bulkOf x.tag).take b.need) = some c →
          s.endsField (.bulk x off data) (fun g =>
            let u : Field := { t with prt := { t.prt with busy := [{ b with started := true }] } }
            g = (([0, 1, 2, 3] : List Part).foldl (fun (h : Field) n => h.partStep n) ((u.dropBulk x.tag).runCmd b.ref c)))))

/-- Transit's recovery on either die (R360, R361, R364, R365, R459) completes: an ACK frees what it covers; a LINK_NAK and a resend timeout
send what is kept again, the eighth time in a row with a retraining; a LINK_ACK or LINK_NAK that is broken is answered by LINK_NAK; 30 us
without a message take the link down; a TRAIN brings it up, after the die's own where none had gone out. BULK_TIMEOUT (R362): a command
whose payload does not come completes with LINK_ERR. TAP_INSTRUCTION (R484): IDCODE is read at any time but in THERMAL-OFF; the field
sequencer halts and resumes where it is allowed. -/
def Obligations.TheLinkRecovers : Prop :=
  ∀ s : State,
    (∀ (cls : Bool) (x : LinkHdr) (m : Msg) (a b : List (BitVec 16 × Msg)), x.good = true → formOk x 0x07 cls = true →
      (∀ k ∈ a, k.1 ≠ x.ack) →
      (s.f.linkUp = true → s.f.unburdened = true → (s.f.half cls).kept = a ++ (x.ack, m) :: b → s.endsField (.linkAck .field cls x)
        (fun g =>
          (cls = true → g.trn.ctl = { s.f.trn.ctl with kept := b, tSent := s.f.now, resends := 0 } ∧ g.prt = s.f.prt) ∧
          (cls = false → ∃ c, g.trn.dat.kept = b ++ c))) ∧
      (s.h.linkUp = true → (s.h.half cls).kept = a ++ (x.ack, m) :: b → s.endsHost (.linkAck .host cls x) (fun g =>
        g.half cls = { s.h.half cls with kept := b, tSent := s.h.t, resends := 0 } ∧ g.half (!cls) = s.h.half (!cls) ∧
        g.trn.corrected = satAdd s.h.trn.corrected x.corrected ∧ g = { s.h with trn := g.trn }))) ∧
    (∀ (cls : Bool) (x : LinkHdr) (n : BitVec 16) (m : Msg) (a b : List (BitVec 16 × Msg)), x.good = true → formOk x 0x08 cls = true →
      (∀ k ∈ a, k.1 ≠ n) → (∀ k ∈ b, k.1 ≠ n - 1) →
      (a = [] ∨ (cls = true ∧ ∃ c j, a = c ++ [(n - 1, j)] ∧ ∀ k ∈ c, k.1 ≠ n - 1)) →
      (s.f.linkUp = true → (s.f.half cls).kept = a ++ (n, m) :: b →
        let r := if a = [] then (s.f.half cls).resends else 0
        s.ends (.linkNak .field cls ⟨x, n⟩) (fun t =>
          t.f.out = s.f.out ++ ((n, m) :: b).map (msgOut cls ((s.f.half cls).expect - 1)) ∧ (t.f.half cls).kept = (n, m) :: b ∧
          (t.f.half cls).tSent = s.f.now ∧ (t.f.half cls).resends = (if r = 7 then 0 else r + 1) ∧
          t.f.trn.st = (if r = 7 then .train else .up) ∧
          t.f = { s.f with trn := t.f.trn, out := t.f.out, sec := t.f.sec } ∧
          t.h = { s.h with trn := { s.h.trn with resends := satAdd s.h.trn.resends (b.length + 1) } } ∧ t.pending = s.pending)) ∧
      (s.h.linkUp = true → (s.h.half cls).kept = a ++ (n, m) :: b →
        let r := if a = [] then (s.h.half cls).resends else 0
        s.endsHost (.linkNak .host cls ⟨x, n⟩) (fun g =>
          g.trn.resends = satAdd s.h.trn.resends (b.length + 1) ∧ (g.half cls).kept = (n, m) :: b ∧ (g.half cls).tSent = s.h.t ∧
          (g.half cls).resends = (if r = 7 then 0 else r + 1) ∧ g.trn.st = (if r = 7 then .train else .up) ∧
          (r ≠ 7 → g.out = s.h.out ++ ((n, m) :: b).map (msgOut cls ((s.h.half cls).expect - 1)))))) ∧
    (∀ (cls : Bool) (x : LinkHdr) (n : BitVec 16), x.good = false →
      (s.f.linkUp = true →
        s.endsField (.linkAck .field cls x) (fun g => g = { s.f with out := s.f.out ++ [linkNakOut cls (s.f.half cls).expect] }) ∧
        s.ends (.linkNak .field cls ⟨x, n⟩) (fun t =>
          t.f = { s.f with out := s.f.out ++ [linkNakOut cls (s.f.half cls).expect] } ∧ t.pending = s.pending)) ∧
      (s.h.linkUp = true → ∀ c, c = Instr.linkAck .host cls x ∨ c = Instr.linkNak .host cls ⟨x, n⟩ → s.endsHost c (fun g =>
        g = { s.h with out := s.h.out ++ [linkNakOut cls (s.h.half cls).expect],
                       trn := { s.h.trn with corrected := satAdd s.h.trn.corrected x.corrected } }))) ∧
    (∀ cls : Bool,
      (s.f.linkUp = true → resendDue (s.f.half cls) s.f.now = true → s.ends (.resendTimeout .field cls) (fun t =>
        t.f.out = s.f.out ++ (s.f.half cls).kept.map (msgOut cls ((s.f.half cls).expect - 1)) ∧ (t.f.half cls).tSent = s.f.now ∧
        t.h.trn.resends = satAdd s.h.trn.resends (s.f.half cls).kept.length ∧
        ((s.f.half cls).resends = 7 → t.f.trn.st = .train ∧ t.f.sec.comm = false ∧ (t.f.half cls).resends = 0) ∧
        ((s.f.half cls).resends ≠ 7 → t.f.trn.st = s.f.trn.st ∧ (t.f.half cls).resends = (s.f.half cls).resends + 1))) ∧
      (s.h.linkUp = true → resendDue (s.h.half cls) s.h.t = true → s.endsHost (.resendTimeout .host cls) (fun g =>
        g.trn.resends = satAdd s.h.trn.resends (s.h.half cls).kept.length ∧ (g.half cls).tSent = s.h.t ∧
        ((s.h.half cls).resends = 7 → g.trn.st = .train ∧ g.trn.fieldUp = false) ∧
        ((s.h.half cls).resends ≠ 7 → g.out = s.h.out ++ (s.h.half cls).kept.map (msgOut cls ((s.h.half cls).expect - 1)) ∧
          g.trn.st = .up ∧ (g.half cls).resends = (s.h.half cls).resends + 1)))) ∧
    (s.f.coreOn = true → (s.f.trn.st = .up ∨ (s.f.trn.st = .down ∧ s.f.mer.holdover = true)) →
      s.f.trn.tLast.toNat + 3000 ≤ s.f.now.toNat → s.endsField (.keepaliveLoss .field) (fun g =>
        g = { s.f with trn := { s.f.trn with losses := satAdd s.f.trn.losses 1, st := .train, trainSent := false },
                       sec := { s.f.sec with comm := false } })) ∧
    (s.h.linkUp = true → s.h.trn.tLast.toNat + 3000 ≤ s.h.t.toNat → s.endsHost (.keepaliveLoss .host) (fun g =>
      g.trn = { s.h.trn with st := .train, fieldUp := false, trainSent := false } ∧ g = { s.h with trn := g.trn, out := g.out })) ∧
    (∀ x : LinkHdr, s.h.hears true x = true → formOk x 0x05 true = true → (∀ k ∈ s.h.trn.ctl.kept, k.1 ≠ x.ack) →
      s.endsHost (.keepalive .host x) (fun g => g.trn.tLast = s.h.t ∧ g.trn.ctl = { s.h.trn.ctl with expect := s.h.trn.ctl.expect + 1 } ∧
        g.out = s.h.out ++ [linkAckOut true x.seq] ∧ g = { s.h with trn := g.trn, out := g.out })) ∧
    (∀ (x : LinkHdr) (fresh : Bool) (masks : BitVec 12) (level : Byte), x.good = true → formOk x 0x06 true = true →
      (bits masks 0 10 : BitVec 10) ≠ 0 → (bits masks 10 2 : BitVec 2) ≠ 0 →
      (s.f.coreOn = true → s.f.mer.holdover = false → s.f.trn.st ≠ .down → s.f.trn.tunWait = [] → s.f.prt.busy = [] →
        s.endsField (.trainLink .field x fresh ⟨masks, level⟩) (fun g =>
          g.trn.st = .up ∧ g.trn.fresh = false ∧ g.trn.dataLanes = bits masks 0 10 ∧ g.trn.ctrlLanes = bits masks 10 2 ∧
          g.trn.tLast = s.f.now ∧ (fresh = true → g.trn.ctl.expect = 0 ∧ g.trn.dat.expect = 0) ∧
          (s.f.trn.trainSent = false → s.f.trainOut ∈ g.out) ∧
          (∃ q m, (q, m) ∈ g.trn.ctl.kept ∧ m.type = 0x43 ∧ u8 m.payload 0 = 4) ∧ g.nev = s.f.nev)) ∧
      (s.h.linkOn = true → s.endsHost (.trainLink .host x fresh ⟨masks, level⟩) (fun g =>
        g.trn.st = .up ∧ g.trn.fieldUp = true ∧ g.trn.fresh = false ∧ g.trn.lastFresh = fresh ∧
        g.trn.fstWait = (fresh || s.h.trn.fstWait) ∧
        g.trn.dataLanes = bits masks 0 10 ∧ g.trn.ctrlLanes = bits masks 10 2 ∧ g.trn.owed = 0 ∧ g.fieldStby = false ∧
        (s.h.trn.trainSent = false → s.h.trainOut ∈ g.out) ∧
        (fresh = true → ∀ (p : Part) (c : InFlight), c ∈ (s.h.hp p).inflight → c.ref.part = p → c.stage = .sent →
          c ∉ (g.hp p).inflight)))) ∧
    (∀ (x : LinkHdr) (fresh : Bool) (masks : BitVec 12) (level : Byte), x.good = false →
      s.endsField (.trainLink .field x fresh ⟨masks, level⟩) (fun g => g = s.f) ∧
      s.endsHost (.trainLink .host x fresh ⟨masks, level⟩) (fun g => g = s.h)) ∧
    (∀ (tag : BitVec 32) (b : Busy), s.f.prt.busy = [b] → b.linkTag = tag → b.started = false → (s.f.bulkOf tag).length < b.need →
      b.t.toNat + 10000 ≤ s.f.now.toNat → s.f.trn.tunWait = [] → s.f.prt.rstA = 0 → s.endsField (.bulkTimeout tag) (fun g =>
        g.answered b.ref .linkErr = true ∧ g.prt.busy = [] ∧ g.bulkOf tag = [] ∧ g.nev = s.f.nev)) ∧
    (s.f.coreOn = true → s.f.mer.holdover = false → s.f.trn.st = .train → s.endsField (.trainingRepeat .field) (fun g =>
      g = { s.f with out := s.f.out ++ [s.f.trainOut], trn := { s.f.trn with trainSent := true } })) ∧
    (s.h.linkOn = true → s.h.trn.st ≠ .up → s.endsHost (.trainingRepeat .host) (fun g =>
      g = { s.h with out := s.h.out ++ [s.h.trainOut], trn := { s.h.trn with st := .train, trainSent := true } })) ∧
    (s.f.pwr.st ≠ .thermalOff → s.endsField (.tapInstruction .field .idcode) (fun g =>
      g = { s.f with sec := { s.f.sec with extest := false }, out := s.f.out ++ [Out.tap (idcode 0x8140)] })) ∧
    (s.f.coreOn = true → s.f.tapAllowed 2 = true →
      s.endsField (.tapInstruction .field .halt) (fun g => g = { s.f with sec := { s.f.sec with halted := true, extest := false } }) ∧
      (s.f.unburdened = true → s.endsField (.tapInstruction .field .resume) (fun g =>
        g = { s.f with sec := { s.f.sec with halted := false, extest := false } }))) ∧
    (∀ off, s.f.pwr.st ≠ .thermalOff → s.f.tapAllowed 0 = false → s.endsField (.tapInstruction .field (.read off)) (fun g =>
      g = { s.f with sec := { s.f.sec with extest := false } })) ∧
    (s.h.linkOn = true → s.endsHost (.tapInstruction .host .idcode) (fun g =>
      g = { s.h with sec := { s.h.sec with extest := false }, out := s.h.out ++ [Out.tap (idcode 0x8141)] }))

/-- FENCE, FENCE_COMPLETE and FENCE_TIMEOUT (R403): a FENCE holds its ring for the tails of the rings of its mask, and completes once they
are done or its time is over. DOORBELL_POLL, DESCRIPTOR_FETCH and PAYLOAD_READ_DONE (R392 to R396): the page is read, counted and taken; a
payload goes to the field die, or its command ends with BUF_ERR. MSIX_TIMER_EXPIRY (R401) sends its message, or leaves its vector pending
where the function or the vector is masked (R372, R374; log entry 118). RING_CFG_WRITE (R397) enables
and disables a ring. CPL, EVT and HWRITE (R398, R399): a record or data reaches host memory; after a
training with a FRESH field die it waits for the FSTATE of that training (R520; log entry 55). Each completes so. -/
def Obligations.RingsAreServed : Prop :=
  ∀ (s : State) (p : Part),
    (∀ (c : CmdHdr) (mask : BitVec 16) (timeout : Word), c.part = p → s.h.st = .run → s.h.trn.fieldUp = true → s.h.roles p ≠ 0 →
      (s.h.sq p c.ring).fence = none → (s.h.hp p).inflight.length < 64 → 0 < s.h.places p c.ring → s.h.sec.life ≠ 0 →
      s.endsHost (.fence c mask timeout) (fun g =>
        (∃ F : Fence, (g.sq p c.ring).fence = some F ∧ F.ref = c.as 0x01 ∧ (c.ring, (s.h.sq p c.ring).taken) ∈ F.upTo ∧
          F.due = (if timeout = 0 then none else some (s.h.t + timeout.setWidth 64 * 100)) ∧
          (∀ n, n ≠ c.ring → bit mask n.toNat = true → (n, s.h.tailNum p n) ∈ F.upTo)) ∧
        (g.sq p c.ring).taken = (s.h.sq p c.ring).taken + 1 ∧
        (g.hp p).inflight = (s.h.hp p).inflight ++ [⟨c.as 0x01, [], (s.h.sq p c.ring).taken, .fence⟩] ∧
        (∀ q, q ≠ p → g.hp q = s.h.hp q))) ∧
    (∀ (n : BitVec 4) (F : Fence), (s.h.sq p n).fence = some F → F.ref.part = p → F.ref.ring = n → s.h.st = .run →
      let ends (st : Status) (g : HDie) : Prop :=
        (g.sq p n).fence = none ∧ (∀ c ∈ (g.hp p).inflight, c.ref ≠ F.ref) ∧
        (F.ref.quiet = false → (s.h.cq p n).size ≠ 0 → (s.h.cq p n).halted = false → g.completed F.ref st = true)
      (s.h.fenceMask p F = 0 → s.endsHost (.fenceComplete p n) (ends .ok)) ∧
      (s.h.fenceMask p F ≠ 0 → s.endsHost (.fenceComplete p n) (fun g => g = s.h)) ∧
      (∀ t, s.h.fenceMask p F ≠ 0 → F.due = some t → t ≤ s.h.t → s.endsHost (.fenceTimeout p n) (ends .fenceTimeout))) ∧
    (s.h.st = .run → (s.h.hp p).en = true → HDie.serves (s.h.hp p) = true → (s.h.hp p).dbOut = false →
      HDie.requestsOut (s.h.hp p) < 32 → (s.h.hp p).dbAgain = true ∨ (s.h.hp p).tPoll.toNat + s.h.trn.pollItv.toNat ≤ s.h.t.toNat → s.endsHost (.doorbellPoll p) (fun g =>
        g.hp p = { s.h.hp p with dbOut := true, tPoll := if (s.h.hp p).tPoll.toNat + s.h.trn.pollItv.toNat ≤ s.h.t.toNat then s.h.t else (s.h.hp p).tPoll, dbAgain := false } ∧
        g.out = s.h.out ++ [Out.hostRead p (s.h.hp p).dbBase 64] ∧ (∀ q, q ≠ p → g.hp q = s.h.hp q))) ∧
    (∀ (db : List Word) (reads : List RingRead), s.h.st = .run → (s.h.hp p).dbOut = true → s.endsHost (.descriptorFetch p db reads)
      (fun g => (g.hp p).dbOut = false ∧ (g.hp p).polls = (s.h.hp p).polls + 1 ∧
        ((s.h.hp p).inflight.length ≤ 64 → (g.hp p).inflight.length ≤ 64) ∧
        (∀ n : BitVec 4, (s.h.sq p n).size ≠ 0 → (s.h.sq p n).halted = false →
          HDie.ringN (s.h.sq p n).size ≤ (bits (db.getD n.toNat 0) 0 16 : BitVec 16).toNat → (g.sq p n).halted = true))) ∧
    (∀ (ring : BitVec 4) (pos : BitVec 16) (ok : Bool) (data : Bytes) (c : InFlight), s.h.st = .run → (s.h.hp p).inflight = [c] →
      c.ref.part = p → c.ref.ring = ring → c.ref.sqPos = pos → c.stage = .payload →
      (ok = false ∨ data.length < leNat c.desc 24 4 → s.endsHost (.payloadReadDone p ring pos ok data) (fun g =>
        (g.hp p).inflight = [] ∧
        (c.ref.quiet = false → (s.h.cq p ring).size ≠ 0 → (s.h.cq p ring).halted = false → g.completed c.ref .bufErr = true))) ∧
      (ok = true → leNat c.desc 24 4 ≤ data.length → s.endsHost (.payloadReadDone p ring pos ok data) (fun g =>
        (g.hp p).inflight = [{ c with stage := .sent }] ∧ ∃ q, (q, HDie.cmdMsg c.ref c.desc) ∈ g.trn.ctl.kept))) ∧
    (∀ n : BitVec 4, let c := s.h.cq p n
      let e := tabGet Msix.reset (s.h.hp p).msix c.vec.toNat
      s.h.st = .run → c.size ≠ 0 → c.count ≠ 0 → c.timer ≠ 0 → c.p ≠ 0 → c.tP.toNat + 100 * c.timer.toNat ≤ s.h.t.toNat →
      s.endsHost (.msixTimerExpiry p n) (fun g => g.cq p n = { c with p := 0 } ∧ (∀ q, q ≠ p → g.hp q = s.h.hp q) ∧
        ((s.h.hp p).msixOn = true → (s.h.hp p).msixMask = false → e.mask = false →
          g.out = s.h.out ++ [Out.msix p c.vec e.addr e.data] ∧ bit (g.hp p).pba c.vec.toNat = false) ∧
        ((s.h.hp p).msixOn = true → (s.h.hp p).msixMask = true ∨ e.mask = true →
          g.out = s.h.out ∧ bit (g.hp p).pba c.vec.toNat = true) ∧
        ((s.h.hp p).msixOn = false → g.out = s.h.out ∧ (g.hp p).pba = (s.h.hp p).pba))) ∧
    (∀ (n : BitVec 4) (v : Word), let z : BitVec 5 := bits v 0 5
      s.h.linkOn = true →
      (6 ≤ z.toNat → z.toNat ≤ 16 →
        ((s.h.sq p n).size = 0 → s.endsHost (.ringCfgWrite p false n v) (fun g =>
          g.sq p n = { s.h.sq p n with size := z, head := 0, tail := 0, halted := false } ∧ (g.hp p).polls = 0)) ∧
        ((s.h.cq p n).size = 0 → s.endsHost (.ringCfgWrite p true n v) (fun g =>
          g.cq p n = { s.h.cq p n with size := z, tail := 0, head := 0, phase := true, halted := false, p := 0 } ∧ (g.hp p).polls = 0)) ∧
        ((s.h.sq p n).size ≠ 0 → (s.h.sq p n).size ≠ z → s.endsHost (.ringCfgWrite p false n v) (fun g => g = s.h))) ∧
      (z = 0 → (s.h.sq p n).size ≠ 0 → s.endsHost (.ringCfgWrite p false n v) (fun g =>
        (g.sq p n).size = 0 ∧ (g.sq p n).fence = (s.h.sq p n).fence ∧ (g.sq p n).base = (s.h.sq p n).base))) ∧
    (∀ (x : LinkHdr) (ring : BitVec 4) (b : Bytes), s.h.hears false x = true → formOk x 0x81 false = true → s.h.trn.fstWait = true →
      s.endsHost (.cpl x ring b) (fun g => g.trn.held = s.h.trn.held ++ [HeldMsg.cpl (Field.partOf x) ring b] ∧ g.part = s.h.part ∧
        g.out = s.h.out ++ [linkAckOut false x.seq])) ∧
    (∀ x : LinkHdr, s.h.hears false x = true → Field.partOf x = p → (s.h.hp p).rstBusy = false → s.h.trn.fstWait = false →
      (∀ (ring : BitVec 4) (b : Bytes) (c : InFlight), formOk x 0x81 false = true →
        (s.h.hp p).inflight.find? (fun c => decide (c.ref.ring = ring) && decide (c.ref.sqPos = u16 b 2)) = some c → c.ref.part = p →
        s.endsHost (.cpl x ring b) (fun g =>
          (∀ e ∈ (g.hp p).inflight, e.ref ≠ c.ref) ∧
          ((c.ref.quiet = false ∨ u16 b 6 ≠ 0) → (s.h.cq p ring).size ≠ 0 → (s.h.cq p ring).halted = false →
            Out.hostWrite p ((s.h.cq p ring).base + BitVec.ofNat 64 (32 * (s.h.cq p ring).tail.toNat))
              (HDie.withPhase b (s.h.cq p ring).phase) ∈ g.out))) ∧
      (∀ b : Bytes, formOk x 0x82 false = true → u8 b 0 ≠ 0x3D →
        let n : BitVec 4 := bits (s.h.hp p).route (4 * Field.evtClass (u8 b 0)) 4
        ((s.h.cq p n).size = 0 → s.endsHost (.evt x [b]) (fun g => (g.hp p).lostDisabled = satAdd (s.h.hp p).lostDisabled 1)) ∧
        ((s.h.cq p n).size ≠ 0 → (s.h.cq p n).halted = false → s.h.places p n ≠ 0 → (∀ e ∈ (s.h.hp p).waiting, e.1 ≠ n) →
          s.endsHost (.evt x [b]) (fun g => (g.hp p).evtSeq = u16 b 2 + 1 ∧
            Out.hostWrite p ((s.h.cq p n).base + BitVec.ofNat 64 (32 * (s.h.cq p n).tail.toNat))
              (HDie.withPhase b (s.h.cq p n).phase) ∈ g.out)) ∧
        ((s.h.cq p n).size ≠ 0 → (s.h.cq p n).halted = true → s.endsHost (.evt x [b]) (fun g =>
          (g.hp p).waiting = (s.h.hp p).waiting ++ [(n, b)]))) ∧
      (∀ (addr : BitVec 64) (data : Bytes), formOk x 0x83 false = true → s.endsHost (.hwrite x addr data) (fun g =>
        g.out = s.h.out ++ [linkAckOut false x.seq, Out.hostWrite p addr data] ∧ g.part = s.h.part)))

/-- REGISTER_READ and REGISTER_WRITE in the host window (R15, R23, R368 to R373): a whole, aligned access reads or writes a register,
another is an Unsupported Request, and the upper half of the window is tunnelled. In BAR2 they read and write the MSI-X table, and read the
pending-bit array, 32 or 64 bits wide (R374). PART_SETUP_WRITE (R376, R480): only in the commissioning state. WAKE_FIELD (R367): the wake
signal starts while the field die is in STANDBY. TUN_CPL and TUNNEL_TIMEOUT (R369, R370): a held access ends with its value, or with
0xFFFF_FFFF. FSTATE (R364, R366, R386, R520). Each completes so. -/
def Obligations.HostWindowAnswers : Prop :=
  ∀ (s : State) (p : Part), s.h.linkOn = true →
    (s.endsHost (.registerRead p .host 0 .dword) (fun g =>
      g = { s.h with out := s.h.out ++ [Out.read p (0x8140 ||| fld s.h.sec.bl 24 ||| flag s.h.trn.fieldUp 28)] })) ∧
    (∀ (off v hi : Word) (acc : Access), acc ≠ .dword ∨ off.toNat % 4 ≠ 0 →
      s.endsHost (.registerRead p .host off acc) (fun g => g = { s.h with out := s.h.out ++ [Out.unsupported p] }) ∧
      s.endsHost (.registerWrite p .host off (hi ++ v) acc) (fun g => g.hp p = { s.h.hp p with aerUr := true } ∧
        (∀ q, q ≠ p → g.hp q = s.h.hp q) ∧ g = { s.h with part := g.part })) ∧
    (∀ v hi : Word, s.endsHost (.registerWrite p .host 0x408 (hi ++ v) .dword) (fun g =>
      g.hp p = { s.h.hp p with tlmFirst := bits v 0 17 } ∧ (∀ q, q ≠ p → g.hp q = s.h.hp q) ∧
      g = { s.h with part := g.part, trn := { s.h.trn with ctl := g.trn.ctl }, out := g.out } ∧
      (s.h.trn.st ≠ .up → g.trn = s.h.trn ∧ g.out = s.h.out) ∧
      (s.h.trn.st = .up → ∃ q, (q, Msg.mk 0x03 0x80 0
        (le 4 (BitVec.ofNat 32 (0x30240 + 16 * p.toNat + 8)) ++ le 4 ((bits v 0 17 : BitVec 17).setWidth 32))) ∈ g.trn.ctl.kept))) ∧
    (∀ n : Nat, n < 64 →
      let e := tabGet Msix.reset (s.h.hp p).msix n
      let at_ (k : Nat) : Word := BitVec.ofNat 32 (16 * n + k)
      s.endsHost (.registerRead p .bar2 (at_ 8) .dword) (fun g => g = { s.h with out := s.h.out ++ [Out.read p e.data] }) ∧
      s.endsHost (.registerRead p .bar2 (at_ 0) .qword) (fun g => g = { s.h with out := s.h.out ++ [Out.readWide p e.addr] }) ∧
      s.endsHost (.registerRead p .bar2 (at_ 4) .qword) (fun g => g = { s.h with out := s.h.out ++ [Out.unsupported p] }) ∧
      (∀ v hi : Word, s.endsHost (.registerWrite p .bar2 (at_ 8) (hi ++ v) .dword) (fun g =>
        tabGet Msix.reset (g.hp p).msix n = { e with data := v } ∧
        (∀ m, m ≠ n → tabGet Msix.reset (g.hp p).msix m = tabGet Msix.reset (s.h.hp p).msix m) ∧ (∀ q, q ≠ p → g.hp q = s.h.hp q))) ∧
      (∀ v hi : Word, s.endsHost (.registerWrite p .bar2 (at_ 0) (hi ++ v) .qword) (fun g =>
        tabGet Msix.reset (g.hp p).msix n = { e with addr := hi ++ v } ∧ (∀ q, q ≠ p → g.hp q = s.h.hp q)))) ∧
    (s.endsHost (.registerRead p .bar2 0x800 .qword) (fun g => g = { s.h with out := s.h.out ++ [Out.readWide p (s.h.hp p).pba] }) ∧
      (∀ (off v hi : Word), 0x400 ≤ off.toNat → off.toNat % 4 = 0 → s.endsHost (.registerWrite p .bar2 off (hi ++ v) .dword) (fun g => g = s.h))) ∧
    (∀ off v hi : Word, 0x8000 ≤ off.toNat → off.toNat < 0x10000 → off.toNat % 4 = 0 →
      let full := s.h.trn.fieldUp = false ∨ 8 ≤ (s.h.hp p).tun.length
      (full → s.endsHost (.registerRead p .host off .dword) (fun g =>
          (g.hp p).tunTimeout = satAdd (s.h.hp p).tunTimeout 1 ∧ g.out = s.h.out ++ [Out.read p 0xFFFFFFFF]) ∧
        s.endsHost (.registerWrite p .host off (hi ++ v) .dword) (fun g =>
          (g.hp p).tunDropped = satAdd (s.h.hp p).tunDropped 1 ∧ (s.h.sec.comm = none → g.out = s.h.out))) ∧
      (¬full → ∀ a : Bool, s.endsHost (if a then .registerRead p .host off .dword else .registerWrite p .host off (hi ++ v) .dword) (fun g =>
        (g.hp p).tun.length = (s.h.hp p).tun.length + 1 ∧ (g.hp p).tunNum = (s.h.hp p).tunNum + 1))) ∧
    (∀ (n : Part) (v : Word),
      (s.h.sec.comm = none → s.endsHost (.partSetupWrite p n v) (fun g => g.setup = s.h.setup ∧ g.nvm = s.h.nvm ∧ g.part = s.h.part)) ∧
      (∀ due q, s.h.sec.comm = some (due, q) → due ≤ s.h.t → s.endsHost (.partSetupWrite p n v) (fun g =>
        g.setup = s.h.setup ∧ g.nvm = s.h.nvm ∧ g.part = s.h.part ∧ g.sec.comm = none)) ∧
      (∀ due q, s.h.sec.comm = some (due, q) → ¬ due ≤ s.h.t → (bits v 8 18 : BitVec 18).toNat ≤ 131072 → s.endsHost (.partSetupWrite p n v) (fun g =>
        g = { s.h with nvm := { s.h.nvm with
          upd := s.h.nvm.upd ++ [ImgUpd.mk 2 (setupBytes (listSet s.h.setupLast n.toNat (v &&& 0x03FFFF07)))] } })) ∧
      (∀ due q, s.h.sec.comm = some (due, q) → ¬ due ≤ s.h.t → 131072 < (bits v 8 18 : BitVec 18).toNat → s.endsHost (.partSetupWrite p n v) (fun g => g = s.h))) ∧
    (s.h.operates p = true → s.h.fieldStby = true → s.h.trn.st ≠ .up → s.endsHost (.wakeField p) (fun g =>
      g = { s.h with out := s.h.out ++ [Out.wake], trn := { s.h.trn with wake := some (s.h.t, false) } })) ∧
    (s.h.operates p = true → s.h.fieldStby = false ∨ s.h.trn.st = .up → s.endsHost (.wakeField p) (fun g => g = s.h)) ∧
    (s.h.operates p = false → s.endsHost (.wakeField p) (fun g => g = s.h)) ∧
    (∀ (x : LinkHdr) (v : Word) (a : HTun), s.h.hears true x = true → formOk x 0x41 true = true → Field.partOf x = p →
      bit x.part 7 = false → (s.h.hp p).tun = [a] → a.tag = x.tag → a.sent = true →
      (s.h.t.toNat < a.t.toNat + 5000 → s.endsHost (.tunCpl x v) (fun g =>
        (g.hp p).tun = [] ∧ (a.value = none → g.out = s.h.out ++ [linkAckOut true x.seq, Out.read p v]))) ∧
      (a.t.toNat + 5000 ≤ s.h.t.toNat → s.endsHost (.tunCpl x v) (fun g =>
        g.part = s.h.part ∧ g.out = s.h.out ++ [linkAckOut true x.seq]))) ∧
    (∀ (x : LinkHdr) (v : Word), s.h.hears true x = true → formOk x 0x41 true = true → bit x.part 7 = true → x.tag = tagSkip →
      (bits v 0 2 : Part) = p → s.endsHost (.tunCpl x v) (fun g =>
        g.hp p = { s.h.hp p with tlmSkipped := satAdd (s.h.hp p).tlmSkipped 1 } ∧ (∀ q, q ≠ p → g.hp q = s.h.hp q))) ∧
    (∀ a : HTun, (s.h.hp p).tun = [a] → a.t.toNat + 5000 ≤ s.h.t.toNat → s.endsHost (.tunnelTimeout p) (fun g =>
      (g.hp p).tun = [] ∧ (a.value = none → (g.hp p).tunTimeout = satAdd (s.h.hp p).tunTimeout 1 ∧
        g.out = s.h.out ++ [Out.read p 0xFFFFFFFF]))) ∧
    (∀ (x : LinkHdr) (kind power : Byte) (safe : Bool), s.h.hears true x = true → formOk x 0x43 true = true →
      s.endsHost (.fstate x .resetEntry kind power safe) (fun g => g.trn.st = .train ∧ g.trn.fieldUp = false ∧ g.sec.dbgF = 0) ∧
      s.endsHost (.fstate x .partDone kind power safe) (fun g => (g.hp (Field.partOf x)).rstBusy = false ∧
        (∀ q, q ≠ Field.partOf x → g.hp q = s.h.hp q)) ∧
      s.endsHost (.fstate x .trained kind power safe) (fun g => g.trn.fstWait = false ∧ g.trn.held = [] ∧
        (s.h.trn.fstWait = true → s.h.trn.held = [] → kind = 0 → ∀ q, (g.hp q).coldPend = true ∧ (g.hp q).evtSeq = 0) ∧
        (s.h.trn.fstWait = false → s.h.trn.held = [] → g.part = s.h.part)) ∧
      s.endsHost (.fstate x .power kind power safe) (fun g => g.part = s.h.part ∧ (power = 3 → g.fieldStby = true ∧ g.sec.dbgF = 0)) ∧
      s.endsHost (.fstate x .safe kind power safe) (fun g => g.part = s.h.part))

/-- COMMISSION, DEBUG and RETURN (R474 to R479): an accepted token opens the commissioning state, authorises its TAPs or begins the return, a
refused one leaves them; either way the challenge is replaced. COMM_EXIT, DEBUG_END, SET_OWNER, FIELD, SEAL, SET_BL and ATTEST (R478, R481,
R483, R487, R490): their effect where their conditions hold, else a code in LAST. COMMISSIONING_EXPIRY, DEBUG_EXPIRY, CHALLENGE_EXPIRY and
LOCKOUT_END (R475, R476, R481, R483). Each completes so. -/
def Obligations.SecurityDecides : Prop :=
  ∀ (s : State) (p : Part), s.h.linkOn = true →
    let t := pad 128 (s.h.hp p).token
    let k := s.h.sec
    (k.life = 1 ∨ k.life = 2 → k.keyLost = false → k.busy = none → k.lockEnd = none → s.h.commissioner p = true → u8 t 0 = 1 →
      u8 t 1 = 0 → 1 ≤ leNat t 2 2 → leNat t 2 2 ≤ 480 → leNat t 28 4 = 0 → slice t 4 8 = le 8 Config.serial → slice t 12 16 = s.h.chalBytes →
      ∀ key, k.owner = some key → s.endsHost (.commission p) (fun g =>
        g.sec.chal = k.chal + 1 ∧ g.sec.life = k.life ∧
        (ecdsaVerify key (t.take 32) (slice t 32 64) = true →
          (∃ q, g.sec.comm = some (s.h.t + BitVec.ofNat 64 (leNat t 2 2 * 6000000000), q) ∧ (k.comm = none → q = p)) ∧
          g.sec.accepted = satAdd k.accepted 1 ∧ g.sec.run = 0 ∧ (g.hp p).result = 1) ∧
        (ecdsaVerify key (t.take 32) (slice t 32 64) = false →
          g.sec.comm = k.comm ∧ g.sec.refused = satAdd k.refused 1 ∧ g.sec.run = k.run + 1 ∧ (g.hp p).result = 7))) ∧
    (s.endsHost (.debug p) (fun g => g.sec.chal = k.chal + 1 ∧ (HDie.firstFail (s.h.tokChecks p .debug t) = none →
      (bit (u8 t 1) 0 = true → g.sec.dbgF = bits (u8 t 1) 0 4 ∧ g.sec.dbgDueF = s.h.t + HDie.tokTicks t) ∧
      (bit (u8 t 1) 1 = true → g.sec.dbgH = bits (u8 t 1) 0 4 ∧ g.sec.dbgDueH = s.h.t + HDie.tokTicks t) ∧ (g.hp p).result = 1))) ∧
    (s.endsHost (.returnPart p) (fun g => g.sec.chal = k.chal + 1 ∧ g.sec.life = k.life ∧
      (HDie.firstFail (s.h.tokChecks p .ret t) = none → g.sec.busy = some (p, .ret) ∧ ImgUpd.mk 1 [4, k.bl.setWidth 8] ∈ g.nvm.upd))) ∧
    (∀ (a : HDie.TokAct) (c : BitVec 4), HDie.firstFail (s.h.tokChecks p a t) = some c →
      s.endsHost (match a with | .commission => .commission p | .debug => .debug p | .ret => .returnPart p) (fun g =>
        (g.hp p).result = c ∧ g.sec.comm = k.comm ∧ g.sec.dbgF = k.dbgF ∧ g.sec.dbgH = k.dbgH ∧ g.sec.busy = k.busy ∧
        g.sec.life = k.life ∧ g.sec.chal = k.chal + 1 ∧ g.sec.refused = satAdd k.refused 1 ∧
        g.sec.run = (if c = 5 ∨ c = 6 ∨ c = 7 then k.run + 1 else k.run) ∧
        (c = 5 ∨ c = 6 ∨ c = 7 → 7 ≤ k.run → g.sec.lockEnd = some (s.h.t + 6000000000)))) ∧
    (∀ e, k.life = 1 ∨ k.life = 2 → k.busy = none → k.comm = some (e, p) → s.endsHost (.commExit p) (fun g =>
      g.sec.comm = none ∧ (g.hp p).result = 1)) ∧
    (∀ e q, q ≠ p → k.busy = none → k.comm = some (e, q) → s.endsHost (.commExit p) (fun g => g = s.h.setLast p 3)) ∧
    (k.busy = none → s.h.commissioner p = true → k.life = 1 ∨ k.life = 2 → s.endsHost (.debugEnd p) (fun g =>
      g.sec.dbgF = 0 ∧ g.sec.dbgH = 0 ∧ (g.hp p).result = 1 ∧ g.sec.comm = k.comm)) ∧
    (k.busy = none → s.h.commissioner p = true →
      let begins (a : SecAct) (us : List ImgUpd) (g : HDie) : Prop :=
        g = { s.h with sec := { k with busy := some (p, a) }, nvm := { s.h.nvm with upd := s.h.nvm.upd ++ us } }
      (k.life = 0 → k.bl ≠ 0 → k.keyLost = false → keyValid (pad 64 (s.h.hp p).token) = true → s.endsHost (.setOwner p)
        (begins .setOwner [ImgUpd.mk 0 (1 :: pad 64 (pad 64 (s.h.hp p).token)), ImgUpd.mk 1 [1, k.bl.setWidth 8]])) ∧
      (k.life = 1 → k.comm.isSome = true → s.f.saf.confirmed = true → s.endsHost (.toFielded p)
        (begins .field [ImgUpd.mk 1 [2, k.bl.setWidth 8]])) ∧
      (k.life = 1 → k.comm.isSome = true → s.f.saf.confirmed = false → s.endsHost (.toFielded p) (fun g => g = s.h.setLast p 11)) ∧
      (k.life = 2 → k.comm.isSome = true → s.endsHost (.toSealed p) (begins .sealed [ImgUpd.mk 1 [3, k.bl.setWidth 8]])) ∧
      (s.f.saf.safe = true → k.bl = 0 → k.life = 0 → s.endsHost (.setBl p 1) (fun g =>
        g.sec.busy = some (p, .setBl 1) ∧ ImgUpd.mk 1 [0, 1] ∈ g.nvm.upd ∧ g.sec.bl = 0)) ∧
      (s.f.saf.safe = false → ∀ level, s.endsHost (.setBl p level) (fun g => g = s.h.setLast p 3))) ∧
    (s.h.commissioner p = false → ∀ level,
      s.endsHost (.setOwner p) (fun g => g = s.h.setLast p 2) ∧ s.endsHost (.toFielded p) (fun g => g = s.h.setLast p 2) ∧
      s.endsHost (.toSealed p) (fun g => g = s.h.setLast p 2) ∧ s.endsHost (.setBl p level) (fun g => g = s.h.setLast p 2)) ∧
    (k.busy = none → k.keyLost = false → s.endsHost (.attest p) (fun g =>
      let st := s.h.statement ((s.h.hp p).token.take 16) s.f.saf.active
      (g.hp p).token = st ++ pad 64 (Config.ecdsaSign st) ∧ (g.hp p).result = 1 ∧ g.sec = k ∧ (∀ q, q ≠ p → g.hp q = s.h.hp q))) ∧
    (∀ e q, k.comm = some (e, q) →
      (e ≤ s.h.t → s.endsHost .commissioningExpiry (fun g => g.sec.comm = none ∧ g.part = s.h.part)) ∧
      (¬ e ≤ s.h.t → s.endsHost .commissioningExpiry (fun g => g = s.h))) ∧
    (s.endsHost .debugExpiry (fun g => (k.dbgDueF ≤ s.h.t → g.sec.dbgF = 0) ∧ (k.dbgDueH ≤ s.h.t → g.sec.dbgH = 0) ∧
      (¬ k.dbgDueF ≤ s.h.t → g.sec.dbgF = k.dbgF) ∧ (¬ k.dbgDueH ≤ s.h.t → g.sec.dbgH = k.dbgH) ∧ g.sec.comm = k.comm)) ∧
    (k.tChal.toNat + 2880000000000 ≤ s.h.t.toNat → s.endsHost .challengeExpiry (fun g =>
      g = { s.h with sec := { k with chal := k.chal + 1, tChal := s.h.t } })) ∧
    (∀ e, k.lockEnd = some e → e ≤ s.h.t → s.endsHost .lockoutEnd (fun g =>
      g.sec = { k with lockEnd := none, run := 0 } ∧ g.part = s.h.part))

/-- LINK_DOWN, HOT_RESET and FUNCTION_LEVEL_RESET (R385, R386): the partition loses what it held and its PART reset begins. DELIVERY_HOLD and
DELIVERY_RESUME (R388). HOST_STANDBY_ENTRY and HOST_STANDBY_EXIT (R454). POR, BOR, PIN and WDT of the host die and HOST_WARM_RESET_END (R446,
R455, R456). The host die's thermometry (R407 to R418). TELEMETRY_PUBLICATION (R234, R235): a table to each partition that wants one, or a
skip that the host die is told (log entry 52). Each completes so. -/
def Obligations.HostPortsAndPower : Prop :=
  ∀ s : State,
    (∀ p, s.h.linkOn = true → (s.h.hp p).linkUp = true →
      let gone (g : HDie) : Prop :=
        (g.hp p).rstBusy = true ∧ (g.hp p).inflight = [] ∧ (g.hp p).tun = [] ∧ (g.hp p).sq = [] ∧ (g.hp p).cq = [] ∧
        (g.hp p).en = false ∧ (g.hp p).bme = false ∧ (g.hp p).speed = 0 ∧ (g.hp p).width = 0 ∧ (g.hp p).msix = [] ∧
        (g.hp p).aerUr = (s.h.hp p).aerUr ∧ (∀ q, q ≠ p → g.hp q = s.h.hp q) ∧
        (s.h.trn.st ≠ .up → bit g.trn.owed p.toNat = true) ∧
        (s.h.trn.st = .up → ∃ q, (q, Msg.mk 0x04 (p.setWidth 8) 0 []) ∈ g.trn.ctl.kept) ∧
        (∀ e, s.h.sec.comm = some (e, p) → g.sec.comm = none)
      s.endsHost (.linkDown p) (fun g => gone g ∧ (g.hp p).linkUp = false ∧ (g.hp p).linkDowns = satAdd (s.h.hp p).linkDowns 1) ∧
      s.endsHost (.hotReset p) (fun g => gone g ∧ (g.hp p).linkUp = false ∧ (g.hp p).linkDowns = satAdd (s.h.hp p).linkDowns 1) ∧
      s.endsHost (.functionLevelReset p) (fun g => gone g ∧ (g.hp p).linkUp = true ∧ (g.hp p).flrs = satAdd (s.h.hp p).flrs 1)) ∧
    (∀ p d3 speed width, s.h.st = .run → s.endsHost (.deliveryHold p ⟨d3, speed, width⟩) (fun g =>
      g.hp p = { s.h.hp p with linkUp := true, speed := speed, width := width, d3 := d3 || (s.h.hp p).d3, bme := d3 && (s.h.hp p).bme } ∧
      HDie.serves (g.hp p) = false ∧ (∀ q, q ≠ p → g.hp q = s.h.hp q))) ∧
    (∀ p speed width msix, s.h.st = .run → s.endsHost (.deliveryResume p ⟨speed, width⟩ msix) (fun g =>
      (g.hp p).linkUp = true ∧ (g.hp p).bme = true ∧ (g.hp p).d3 = false ∧ (g.hp p).speed = speed ∧ (g.hp p).width = width ∧
      (g.hp p).msixOn = bit msix 0 ∧ (g.hp p).msixMask = bit msix 1 ∧
      (g.hp p).sq = (s.h.hp p).sq ∧ (g.hp p).inflight = (s.h.hp p).inflight ∧ (∀ q, q ≠ p → g.hp q = s.h.hp q))) ∧
    (s.h.st = .run → s.h.auto = true → (∀ p, HDie.serves (s.h.hp p) = false) → s.h.idleAt.toNat + 10000000 ≤ s.h.t.toNat →
      s.endsHost .hostStandbyEntry (fun g => g = { s.h with st := .standby, stbyEntries := satAdd s.h.stbyEntries 1 })) ∧
    (s.h.st = .standby → s.endsHost .hostStandbyExit (fun g => g = { s.h with st := .run, idleAt := s.h.t })) ∧
    (let fresh (k : RstKind) (g : HDie) : Prop :=
      g.st = .run ∧ g.lastRst = BitVec.ofNat 3 k.ctorIdx ∧ g.part = [] ∧ g.sec.comm = none ∧ g.sec.dbgF = 0 ∧ g.sec.dbgH = 0 ∧
      g.trn.st = .down ∧ g.trn.owed = 0xF ∧ g.warm = none ∧ g.t = s.h.t ∧ g.thm.shutCount = s.h.thm.shutCount
     s.endsHost (.por .host) (fun g => fresh .por g ∧ g.auto = false) ∧ s.endsHost (.bor .host) (fun g => fresh .bor g ∧ g.auto = false) ∧
     (s.h.st ≠ .off →
       let begins (k : RstKind) (n : Nat) (g : HDie) : Prop :=
         g.st = .reset ∧ g.warm = some (k, s.h.t + BitVec.ofNat 64 n) ∧ g.part = [] ∧ g.sec.comm = none ∧ g.sec.dbgF = 0 ∧
         g.sec.dbgH = 0 ∧ g.setup = s.h.setup
       s.endsHost (.pin .host) (begins .pin 100100) ∧ s.endsHost (.wdt .host) (begins .wdt 100000)) ∧
     (∀ k due, s.h.warm = some (k, due) → s.h.st = .reset → due ≤ s.h.t → s.endsHost .hostWarmResetEnd (fun g =>
       fresh k g ∧ g.auto = s.h.auto))) ∧
    (s.h.st ≠ .off → s.h.tDemand ≤ s.h.t → s.endsHost (.thermometryDemand .host) (fun g =>
      g = { s.h with tDemand := s.h.tDemand + 25000, thm := { s.h.thm with gate := some (s.h.t + 1000, s.h.thm.confirm.map (·.site)) } })) ∧
    (∀ (gates : List Gate) (due : Count) (skip : List Nat), s.h.thm.gate = some (due, skip) → ¬ s.h.t < due → s.h.st ≠ .off →
      s.endsHost (.thermometryReading .host gates) (fun g => g.thm.gate = none ∧ g.part = s.h.part ∧
        (∀ k : BitVec 2, skip.contains k.toNat = false →
          ((gates[k.toNat]?).bind (reading (s.h.thm.trimAt k.toNat)) = none →
            (g.thm.siteAt k.toNat).badRun = (s.h.thm.siteAt k.toNat).badRun + 1 ∧ (g.thm.siteAt k.toNat).valid = false) ∧
          (∀ x, (gates[k.toNat]?).bind (reading (s.h.thm.trimAt k.toNat)) = some x →
            (g.thm.siteAt k.toNat).badRun = 0 ∧ (g.thm.siteAt k.toNat).valid = true)) ∧
        (g.thm.noDecision = false → s.h.thm.throtLvl ≤ g.thm.decision.toInt → s.h.thm.hot = false → 1 ≤ s.h.thm.thrIn →
          g.thm.throttle = true))) ∧
    (∀ (k : BitVec 4) (v : Gate) (c : Confirm) (x : Int), s.h.st ≠ .off →
      s.h.thm.confirm.find? (fun c => decide (c.site = k.toNat)) = some c → reading (s.h.thm.trimAt k.toNat) v = some x →
      (s.h.t < c.due → s.endsHost (.confirmingReading .host k v) (fun g => g = s.h)) ∧
      (¬ s.h.t < c.due → s.h.thm.shutLvl ≤ x → s.endsHost (.confirmingReading .host k v) (fun g =>
        g.st = .off ∧ g.part = [] ∧ g.thm.shutCount = satAdd s.h.thm.shutCount 1 ∧
        g.thmCause = some (k.setWidth 8, c.first, ofInt 16 x))) ∧
      (¬ s.h.t < c.due → x < s.h.thm.shutLvl → s.endsHost (.confirmingReading .host k v) (fun g =>
        g.thm.unconfirmed = satAdd s.h.thm.unconfirmed 1 ∧ g.st = s.h.st ∧ g.part = s.h.part))) ∧
    (∀ (gates : List Gate) (supplyOk : Bool), s.h.st = .off →
      (s.h.thm.offT < 1000000 * (s.h.thm.offN + 1) → s.endsHost (.hostThermalOffMeasurement gates supplyOk) (fun g => g = s.h)) ∧
      (1000000 * (s.h.thm.offN + 1) ≤ s.h.thm.offT → s.h.thm.offT < 100000000 → s.endsHost (.hostThermalOffMeasurement gates supplyOk) (fun g =>
        g.st = .off ∧ g.thm.offN = s.h.thm.offN + 1 ∧ (supplyOk = false → g.thm.offRun = 0))) ∧
      (1000000 * (s.h.thm.offN + 1) ≤ s.h.thm.offT → 100000000 ≤ s.h.thm.offT → 2 ≤ s.h.thm.offRun → supplyOk = true → (∀ k : BitVec 2, ∃ v x, gates[k.toNat]? = some v ∧
          reading (s.h.thm.trimAt k.toNat) v = some x ∧ x < s.h.thm.shutLvl - 60) →
        s.endsHost (.hostThermalOffMeasurement gates supplyOk) (fun g => g.st = .run ∧ g.part = [] ∧ g.trn.st = .down))) ∧
    (bit s.f.mer.sysDue 4 = true → s.f.linkUp = true → s.endsField .telemetryPublication (fun g =>
      bit g.mer.sysDue 4 = false ∧ g.nev = s.f.nev ∧
      (∀ p, s.f.tlmWants p = true →
        (s.f.publishing p = false → tabGet 0 g.prt.pubSeq p.toNat = tabGet 0 s.f.prt.pubSeq p.toNat + 2) ∧
        (s.f.publishing p = true → tabGet 0 g.prt.pubSeq p.toNat = tabGet 0 s.f.prt.pubSeq p.toNat ∧
          ∃ q, (q, Msg.mk 0x41 0x80 tagSkip ([0, 0, 0, 0] ++ le 4 (p.setWidth 32))) ∈ g.trn.ctl.kept)) ∧
      (∀ p, s.f.tlmWants p = false → tabGet 0 g.prt.pubSeq p.toNat = tabGet 0 s.f.prt.pubSeq p.toNat)))

/-- Every command ends in a next state, and changes only the dies it acts on; nothing touches the queue of waiting commands (R25). -/
def Obligations.DiesActAlone : Prop :=
  ∀ (s : State) (c : Instr), s.ends c (fun t => t.pending = s.pending ∧
    (actsOn .field c = false → t.f = s.f) ∧ (actsOn .host c = false → t.h = s.h))

/-- Whatever the host die's state, the field die does the same under the same commands (R24, R25): what the host die wants of it reaches it
as a command of Transit. -/
def Obligations.ProtectionIgnoresHost : Prop :=
  ∀ (s t : State) (n : Nat), s.f = t.f → s.pending = t.pending → (s.after n).f = (t.after n).f

/-- Every step keeps the host die's bounds: 64 commands in flight and eight tunnelled accesses per partition, and sixteen held log
records (R369, R393, R491). -/
def Obligations.HostStaysBounded : Prop :=
  ∀ s t : State, s.h.Bounded → step s = .next t → t.h.Bounded

/-- What reset leaves. The spec's values: no channel, COLD_ACK and the safe state (R75, R425, R428), every lane DISABLED and every gate OFF, count 0
at the POR (R311), Firn in training, Transit in training at the field die and down at the host die, the host die in RUN with no ring enabled, and the part BLANK at BL1 (21). The model's own choice:
the queue is empty and the tables list nothing (log entries 1 and 3). The host die's bounds hold. -/
def Obligations.ResetState : Prop :=
  State.reset.pending = [] ∧
  State.reset.f.nev.ch = [] ∧ State.reset.f.nev.coldAck = 0xF ∧ State.reset.f.mer.count = 0 ∧
  State.reset.f.saf.safe = true ∧ State.reset.f.saf.reason = 0x11 ∧ State.reset.f.coreOn = true ∧ State.reset.f.pwr.rstLast = 0 ∧
  (∀ l : BitVec 5, (State.reset.f.lane l).st = .disabled) ∧ (∀ n : BitVec 4, (State.reset.f.dchan n).mode = .off) ∧
  State.reset.f.trn.st = .train ∧ State.reset.f.sec.blForce = 1 ∧
  State.reset.h.st = .run ∧ State.reset.h.sec.life = 0 ∧ State.reset.h.sec.bl = 1 ∧ State.reset.h.sec.owner = none ∧
  State.reset.h.trn.st = .down ∧ (∀ p : Part, (State.reset.h.hp p).en = false ∧ (State.reset.h.hp p).linkUp = false) ∧
  State.reset.h.Bounded


/-- The handle and authority checks (R53, with the roles and grants of R61 and R62): a command that names a handle stops at the first
check that fails, completes with that check's status, and changes no channel, whether Firn is READY or not (R343). -/
def Obligations.HandleChecksStop : Prop :=
  ∀ (s : State) (c : CmdHdr),
    let x := Field.idx c.handle
    let owns : Bool := decide ((s.f.chan x).nev.owner = c.part)
    let stops (i : Instr) (op : Byte) (st : Status) : Prop :=
      s.endsField i (fun g => g = s.f.withRecords g ∧ g.answeredAs (c.as op) st 0 c.handle = true)
    let first (i : Instr) (op : Byte) (role own : Bool) : Prop := s.f.takesNow c op = true →
      (bit s.f.nev.coldAck c.part.toNat = true → stops i op .epoch) ∧
      (bit s.f.nev.coldAck c.part.toNat = false → Field.handleForm c.handle = false → stops i op .badHandle) ∧
      (bit s.f.nev.coldAck c.part.toNat = false → Field.handleForm c.handle = true → s.f.handleLive c.handle = false → stops i op .stale) ∧
      (s.f.names c = true → role = false → stops i op .role) ∧
      (s.f.names c = true → role = true → own = false → stops i op .notOwner)
    let held (k : Nat) : Bool := s.f.granted c.part x k
    let oper := s.f.operator c.part
    let comm := s.f.commissioner c.part
    let any := s.f.anyRole c.part
    (first (.destroy c) 0x11 comm owns ∧ (∀ o, first (.reconfigure c o) 0x12 oper owns) ∧
      (∀ soft, first (.closeCh c soft) 0x13 (oper || held 0) (owns || held 0)) ∧ first (.openCh c) 0x14 (oper || held 1) (owns || held 1) ∧
      first (.release c) 0x15 (oper || held 2) (owns || held 2) ∧ (∀ p m sub, first (.grant c p m sub) 0x16 (oper || comm) owns) ∧
      (∀ o, first (.readChannel c o) 0x20 any true) ∧ (∀ o y, first (.readSubtree c o y) 0x21 any true) ∧
      (∀ o, first (.readContext c o) 0x23 any true) ∧ (∀ o, first (.readEnergy c o false) 0x24 any true) ∧
      (∀ o a b, first (.readHistory c o a b) 0x25 any true) ∧
      (∀ d, first (.ctxBankWrite c d) 0x32 (oper || held 0) (owns || held 0)) ∧ first (.ctxSwap c) 0x33 (oper || held 0) (owns || held 0) ∧
      (∀ a b, first (.energySet c a b) 0x40 comm owns) ∧ first (.demandReset c) 0x41 oper owns ∧
      (∀ a b, first (.capture c a b) 0x42 oper owns)) ∧
    (s.f.names c = true →
      let k := (s.f.chan x).nev.kind
      let st := (s.f.chan x).nev.state
      (s.f.takesNow c 0x13 = true → oper || held 0 = true → owns || held 0 = true →
        (k.switches = false → ∀ soft, stops (.closeCh c soft) 0x13 .kind) ∧
        (k.switches = true → st = .lockedOut ∨ st = .fallback → ∀ soft, stops (.closeCh c soft) 0x13 .state)) ∧
      (s.f.takesNow c 0x14 = true → oper || held 1 = true → owns || held 1 = true →
        (k.switches = false → stops (.openCh c) 0x14 .kind) ∧
        (k.switches = true → st = .lockedOut ∨ st = .fallback → stops (.openCh c) 0x14 .state)) ∧
      (s.f.takesNow c 0x15 = true → oper || held 2 = true → owns || held 2 = true →
        (k.switches = false → stops (.release c) 0x15 .kind) ∧
        (k.switches = true → st ≠ .lockedOut → stops (.release c) 0x15 .state)) ∧
      (s.f.takesNow c 0x42 = true → oper = true → owns = true → k = .virt → ∀ a b, stops (.capture c a b) 0x42 .kind) ∧
      (s.f.takesNow c 0x11 = true → comm = true → owns = true → s.f.destroyable x = false → stops (.destroy c) 0x11 .state))
end

