-- ==== Sys2Proof/Laws/Codes.lean ====
section
/-! SUPPORT. CRC-32C of byte runs that end in zeros: once its register is 0, zeros leave it there. And the Yelnan
code: words whose first two syndromes are 0 and whose third is not. -/
namespace Sys2Proof.Machine

theorem foldNow_cons (g : Nat → Byte → Nat) (b : Byte) (r : Bytes) (c : Nat) : foldNow g (b :: r) c = foldNow g r (g c b) := by
  cases c <;> rfl

/-- A fold over two runs is a fold over the first and then the second. -/
theorem foldNow_append (g : Nat → Byte → Nat) (a b : Bytes) (c : Nat) : foldNow g (a ++ b) c = foldNow g b (foldNow g a c) := by
  induction a generalizing c with
  | nil => rfl
  | cons x r ih => rw [List.cons_append, foldNow_cons, foldNow_cons, ih]

theorem crc32Byte_zero : crc32Byte 0x82F63B78 0 0 = 0 := by decide

/-- Zero bytes leave a register of 0 at 0. -/
theorem crc32_fold_zeros (n : Nat) : foldNow (crc32Byte 0x82F63B78) (zeros n) 0 = 0 := by
  induction n with
  | zero => rfl
  | succ n ih => rw [zeros, List.replicate_succ, foldNow_cons, crc32Byte_zero]; exact ih

/-- The CRC of a run whose front takes the register to 0 and whose rest is zeros. -/
theorem crc32c_zero_tail (b : Bytes) (n : Nat) (h : foldNow (crc32Byte 0x82F63B78) b 0xFFFFFFFF = 0) :
    crc32c (b ++ zeros n) = 0xFFFFFFFF := by
  rw [crc32c, foldNow_append, h, crc32_fold_zeros]; rfl

@[simp] theorem gfMul_zero_left (b : Byte) : gfMul 0#8 b = 0#8 := by simp [gfMul, gfMulBits, gfX]
@[simp] theorem rsTerm_zero (i j : Nat) : rsTerm i 0#8 j = 0#8 := by simp [rsTerm]

theorem gfMul_zero_right (a : Byte) : gfMul a 0#8 = 0#8 := by simp [gfMul, gfMulBits, gfX]

/-- Error values of 0 do not fit a third syndrome other than 0. -/
theorem rsFits_zero (s : Bytes) (h2 : u8 s 2 ≠ 0#8) (i k : Nat) :
    rsFits s [(i, 0#8), (k, 0#8)] = false ∧ rsFits s [(i, 0#8)] = false := by
  have h : ¬ 0#8 = u8 s 2 := fun e => h2 e.symm
  constructor <;> simp [rsFits, List.range_succ, h]

theorem rsPair_zero (s : Bytes) (h0 : u8 s 0 = 0#8) (h1 : u8 s 1 = 0#8) (i k : Nat) :
    rsPair s i k = (0#8, 0#8) := by
  simp [rsPair, h0, h1, gfMul_zero_right]

/-- No one or two symbols explain the first two syndromes at 0 with the third not 0 (R339). -/
theorem rsDecode_uncorrectable (c : Bytes) (h0 : rsSyn c 0 = 0) (h1 : rsSyn c 1 = 0) (h2 : rsSyn c 2 ≠ 0)
    (hp : rsSyns c ≠ rsSyns rsPoison) : rsDecode c = .uncorrectable := by
  have e0 : u8 (rsSyns c) 0 = 0#8 := h0
  have e1 : u8 (rsSyns c) 1 = 0#8 := h1
  have e2 : u8 (rsSyns c) 2 ≠ 0#8 := h2
  have one : ∀ n i, rsOne (rsSyns c) i n = none := by
    intro n
    induction n with
    | zero => intro i; rfl
    | succ n ih => intro i; simp [rsOne, e0, (rsFits_zero (rsSyns c) e2 i i).2, ih]
  have twoAt : ∀ n i k, rsTwoAt (rsSyns c) i k n = none := by
    intro n
    induction n with
    | zero => intro i k; rfl
    | succ n ih => intro i k; simp [rsTwoAt, rsPair_zero _ e0 e1, (rsFits_zero (rsSyns c) e2 i k).1, ih]
  have two : ∀ n i, rsTwo (rsSyns c) i n = none := by
    intro n
    induction n with
    | zero => intro i; rfl
    | succ n ih => intro i; simp [rsTwo, twoAt, ih]
  have hz : ¬ rsSyns c = [0#8, 0#8, 0#8, 0#8] := by
    intro e
    exact e2 (by rw [e]; rfl)
  simp [rsDecode, hz, hp, one, two]

end Sys2Proof.Machine
end

