-- ==== Sys2Proof/Laws/Tables.lean ====
section
/-! SUPPORT. Tables: what reading gives after writing, and that every write keeps the canonical form. -/
namespace Sys2Proof.Machine

variable {α : Type}

@[simp] theorem tabLook_nil (i : Nat) : tabLook ([] : Tab α) i = none := rfl
@[simp] theorem tabGet_nil (d : α) (i : Nat) : tabGet d [] i = d := rfl
@[simp] theorem tabSet_nil_default [DecidableEq α] (d : α) (i : Nat) : tabSet d [] i d = [] := by simp [tabSet, tabDel]

/-- A write is read back, whatever the table. -/
@[simp] theorem tabLook_tabPut_same (t : Tab α) (i : Nat) (v : α) : tabLook (tabPut t i v) i = some v := by
  induction t with
  | nil => simp [tabPut, tabLook]
  | cons e r ih =>
    obtain ⟨k, w⟩ := e
    simp only [tabPut]
    split
    · simp [tabLook]
    · split
      · simp [tabLook]
      · rename_i h; simp [tabLook, h, ih]

/-- A write leaves every other key alone, whatever the table. -/
theorem tabLook_tabPut_other (t : Tab α) {i j : Nat} (v : α) (h : i ≠ j) : tabLook (tabPut t i v) j = tabLook t j := by
  induction t with
  | nil => simp [tabPut, tabLook, h]
  | cons e r ih =>
    obtain ⟨k, w⟩ := e
    simp only [tabPut]
    split
    · simp [tabLook, h]
    · split
      · rename_i hk; subst hk; simp [tabLook, h]
      · simp [tabLook, ih]

@[simp] theorem tabLook_tabDel_same (t : Tab α) (i : Nat) : tabLook (tabDel t i) i = none := by
  induction t with
  | nil => rfl
  | cons e r ih =>
    obtain ⟨k, w⟩ := e
    simp only [tabDel]
    split
    · exact ih
    · rename_i h; simp [tabLook, h, ih]

theorem tabLook_tabDel_other (t : Tab α) {i j : Nat} (h : i ≠ j) : tabLook (tabDel t i) j = tabLook t j := by
  induction t with
  | nil => rfl
  | cons e r ih =>
    obtain ⟨k, w⟩ := e
    simp only [tabDel]
    split
    · rename_i hk; subst hk; simp [tabLook, h, ih]
    · simp [tabLook, ih]

/-- Reading after writing the same key gives the value written. -/
@[simp] theorem tabGet_tabSet_same [DecidableEq α] (d : α) (t : Tab α) (i : Nat) (v : α) : tabGet d (tabSet d t i v) i = v := by
  unfold tabSet tabGet
  split
  · rename_i h; simp [h]
  · simp

/-- Reading another key gives what it gave before. -/
theorem tabGet_tabSet_other [DecidableEq α] (d : α) (t : Tab α) {i j : Nat} (v : α) (h : i ≠ j) :
    tabGet d (tabSet d t i v) j = tabGet d t j := by
  unfold tabSet tabGet
  split
  · rw [tabLook_tabDel_other t h]
  · rw [tabLook_tabPut_other t v h]

/-! ### The canonical form -/

theorem tabRises_weaken {t : Tab α} {b c : Nat} (h : tabRises (some c) t = true) (hb : b ≤ c) : tabRises (some b) t = true := by
  cases t with
  | nil => rfl
  | cons e r =>
    simp only [tabRises, Bool.and_eq_true, decide_eq_true_eq] at h ⊢
    exact ⟨by omega, h.2⟩

theorem tabRises_none_of_some {t : Tab α} {b : Nat} (h : tabRises (some b) t = true) : tabRises none t = true := by
  cases t with
  | nil => rfl
  | cons e r => simp only [tabRises, Bool.and_eq_true] at h ⊢; exact h.2

theorem tabRises_tabPut_above (t : Tab α) (b i : Nat) (v : α) (h : tabRises (some b) t = true) (hi : b < i) :
    tabRises (some b) (tabPut t i v) = true := by
  induction t generalizing b with
  | nil => simp [tabPut, tabRises, hi]
  | cons e r ih =>
    obtain ⟨k, w⟩ := e
    simp only [tabRises, Bool.and_eq_true, decide_eq_true_eq] at h
    simp only [tabPut]
    split
    · rename_i hk; simp [tabRises, hi, hk, h.2]
    · split
      · rename_i hk; subst hk; simp [tabRises, hi, h.2]
      · simp only [tabRises, Bool.and_eq_true, decide_eq_true_eq]
        exact ⟨h.1, ih k h.2 (by omega)⟩

theorem tabRises_tabPut (t : Tab α) (i : Nat) (v : α) (h : tabRises none t = true) : tabRises none (tabPut t i v) = true := by
  cases t with
  | nil => rfl
  | cons e r =>
    obtain ⟨k, w⟩ := e
    simp only [tabRises] at h
    simp only [tabPut]
    split
    · rename_i hk; simp [tabRises, hk, h]
    · split
      · rename_i hk; subst hk; simpa [tabRises] using h
      · simp only [tabRises]; exact tabRises_tabPut_above r k i v h (by omega)

theorem tabRises_tabDel_above (t : Tab α) (b i : Nat) (h : tabRises (some b) t = true) : tabRises (some b) (tabDel t i) = true := by
  induction t generalizing b with
  | nil => rfl
  | cons e r ih =>
    obtain ⟨k, w⟩ := e
    simp only [tabRises, Bool.and_eq_true, decide_eq_true_eq] at h
    simp only [tabDel]
    split
    · exact ih b (tabRises_weaken h.2 (by omega))
    · simp only [tabRises, Bool.and_eq_true, decide_eq_true_eq]; exact ⟨h.1, ih k h.2⟩

theorem tabRises_tabDel (t : Tab α) (i : Nat) (h : tabRises none t = true) : tabRises none (tabDel t i) = true := by
  cases t with
  | nil => rfl
  | cons e r =>
    obtain ⟨k, w⟩ := e
    simp only [tabRises] at h
    simp only [tabDel]
    split
    · exact tabRises_none_of_some (tabRises_tabDel_above r k i h)
    · simp only [tabRises]; exact tabRises_tabDel_above r k i h

theorem tabPut_all (t : Tab α) (i : Nat) (v : α) (p : Nat × α → Bool) (ht : t.all p = true) (hv : p (i, v) = true) :
    (tabPut t i v).all p = true := by
  induction t with
  | nil => simp [tabPut, hv]
  | cons e r ih =>
    obtain ⟨k, w⟩ := e
    simp only [List.all_cons, Bool.and_eq_true] at ht
    simp only [tabPut]
    split
    · simp [List.all_cons, hv, ht]
    · split
      · simp [List.all_cons, hv, ht]
      · simp only [List.all_cons, Bool.and_eq_true]; exact ⟨ht.1, ih ht.2⟩

theorem tabDel_all (t : Tab α) (i : Nat) (p : Nat × α → Bool) (ht : t.all p = true) : (tabDel t i).all p = true := by
  induction t with
  | nil => rfl
  | cons e r ih =>
    obtain ⟨k, w⟩ := e
    simp only [List.all_cons, Bool.and_eq_true] at ht
    simp only [tabDel]
    split
    · exact ih ht.2
    · simp only [List.all_cons, Bool.and_eq_true]; exact ⟨ht.1, ih ht.2⟩

/-- Every write keeps a table in its canonical form, so equal contents are equal tables. -/
theorem tabWf_tabSet [DecidableEq α] (d : α) (t : Tab α) (i : Nat) (v : α) (h : tabWf d t = true) :
    tabWf d (tabSet d t i v) = true := by
  simp only [tabWf, Bool.and_eq_true] at h ⊢
  unfold tabSet
  split
  · exact ⟨tabRises_tabDel t i h.1, tabDel_all t i _ h.2⟩
  · rename_i hv
    exact ⟨tabRises_tabPut t i v h.1, tabPut_all t i v _ h.2 (by simpa using hv)⟩

@[simp] theorem tabWf_nil [DecidableEq α] (d : α) : tabWf d ([] : Tab α) = true := rfl

/-! ### Saturation and lists -/

/-- A saturating count never falls. -/
theorem satAdd_ge {w : Nat} (c : BitVec w) (n : Nat) : c.toNat ≤ (satAdd c n).toNat := by
  have h := c.isLt
  have hp : 0 < 2 ^ w := Nat.two_pow_pos w
  simp only [satAdd, BitVec.toNat_ofNat]
  rw [Nat.mod_eq_of_lt (by omega)]
  omega

@[simp] theorem satAdd_zero {w : Nat} (c : BitVec w) : satAdd c 0 = c := by
  have h := c.isLt
  apply BitVec.eq_of_toNat_eq
  have hp : 0 < 2 ^ w := Nat.two_pow_pos w
  simp only [satAdd, BitVec.toNat_ofNat, Nat.add_zero]
  rw [Nat.mod_eq_of_lt (by omega)]
  omega

@[simp] theorem listSet_length (l : List α) (i : Nat) (v : α) : (listSet l i v).length = l.length := by
  induction l generalizing i with
  | nil => rfl
  | cons a r ih => cases i with
    | zero => rfl
    | succ i => simp [listSet, ih]

end Sys2Proof.Machine
end

