-- ==== Sys2Proof/Laws/Records.lean ====
section
/-! SUPPORT. What raising an event, completing a command and sending a record may change: the records, the commands in flight and
the data-class messages, and nothing else. -/
namespace Sys2Proof.Machine
namespace Field

/-! ### `withRecords`: one lemma per field -/

@[simp] theorem withRecords_mer (f g : Field) : (f.withRecords g).mer = f.mer := rfl
@[simp] theorem withRecords_nev (f g : Field) : (f.withRecords g).nev = f.nev := rfl
@[simp] theorem withRecords_sel (f g : Field) : (f.withRecords g).sel = f.sel := rfl
@[simp] theorem withRecords_hel (f g : Field) : (f.withRecords g).hel = f.hel := rfl
@[simp] theorem withRecords_firn (f g : Field) : (f.withRecords g).firn = f.firn := rfl
@[simp] theorem withRecords_lan (f g : Field) : (f.withRecords g).lan = f.lan := rfl
@[simp] theorem withRecords_dch (f g : Field) : (f.withRecords g).dch = f.dch := rfl
@[simp] theorem withRecords_adc (f g : Field) : (f.withRecords g).adc = f.adc := rfl
@[simp] theorem withRecords_thm (f g : Field) : (f.withRecords g).thm = f.thm := rfl
@[simp] theorem withRecords_saf (f g : Field) : (f.withRecords g).saf = f.saf := rfl
@[simp] theorem withRecords_pwr (f g : Field) : (f.withRecords g).pwr = f.pwr := rfl
@[simp] theorem withRecords_nvm (f g : Field) : (f.withRecords g).nvm = f.nvm := rfl
@[simp] theorem withRecords_sec (f g : Field) : (f.withRecords g).sec = f.sec := rfl
@[simp] theorem withRecords_freeN (f g : Field) : (f.withRecords g).freeN = f.freeN := rfl
@[simp] theorem withRecords_out (f g : Field) : (f.withRecords g).out = g.out := rfl
@[simp] theorem withRecords_evq (f g : Field) : (f.withRecords g).prt.evq = g.prt.evq := rfl
@[simp] theorem withRecords_busy (f g : Field) : (f.withRecords g).prt.busy = g.prt.busy := rfl
@[simp] theorem withRecords_setup (f g : Field) : (f.withRecords g).prt.setup = f.prt.setup := rfl
@[simp] theorem withRecords_grants (f g : Field) : (f.withRecords g).prt.grants = f.prt.grants := rfl
@[simp] theorem withRecords_dat (f g : Field) : (f.withRecords g).trn.dat = g.trn.dat := rfl
@[simp] theorem withRecords_ctl (f g : Field) : (f.withRecords g).trn.ctl = f.trn.ctl := rfl
@[simp] theorem withRecords_st (f g : Field) : (f.withRecords g).trn.st = f.trn.st := rfl
@[simp] theorem withRecords_self (f : Field) : f.withRecords f = f := rfl
@[simp] theorem withRecords_withRecords (f g h : Field) : (f.withRecords g).withRecords h = f.withRecords h := rfl

/-- Two changes of records in a row are one. -/
theorem records_trans {f g h : Field} (h1 : g = f.withRecords g) (h2 : h = g.withRecords h) : h = f.withRecords h := by
  rw [h1, withRecords_withRecords] at h2; exact h2

/-! ### The operations -/

theorem emit_msg_frame (f : Field) (c : Bool) (b : Bytes) : f.emit (.msg c b) = f.withRecords (f.emit (.msg c b)) := by
  simp only [emit]; split <;> rfl

theorem sendData_frame (f : Field) (m : Msg) : (f.sendData m).1 = f.withRecords (f.sendData m).1 := by
  simp only [sendData]
  split
  · exact records_trans (g := { f with trn := { f.trn with dat := (sendHalf f.trn.dat m f.now).1 } }) rfl (emit_msg_frame _ _ _)
  · rfl

theorem setEvq_frame (f : Field) (p : Part) (q : EvQ) : f.setEvq p q = f.withRecords (f.setEvq p q) := rfl

theorem sendRecs_frame (p : Part) (l : List QRec) : ∀ f : Field, (f.sendRecs p l).1 = f.withRecords (f.sendRecs p l).1 := by
  induction l with
  | nil => intro f; rfl
  | cons r rs ih =>
    intro f
    simp only [sendRecs]
    split
    · exact ih f
    · split
      · exact ih f
      · exact records_trans (sendData_frame f _) (ih _)

theorem pump_frame (f : Field) (p : Part) : f.pump p = f.withRecords (f.pump p) := by
  simp only [pump]
  split
  · exact records_trans (sendRecs_frame p _ f) (setEvq_frame _ _ _)
  · rfl

/-- Queueing a record changes records alone. -/
theorem enqueue_frame (f : Field) (p : Part) (r : Rec) : f.enqueue p r = f.withRecords (f.enqueue p r) :=
  records_trans (setEvq_frame f p _) (pump_frame _ p)

theorem records_ite {f g h : Field} (c : Prop) [Decidable c] (hg : g = f.withRecords g) (hh : h = f.withRecords h) :
    (if c then g else h) = f.withRecords (if c then g else h) := by
  split
  · exact hg
  · exact hh

theorem raiseCore_frame (f : Field) (p : Part) (ty : Byte) (h : Word) (t : Count) (b : Bytes) :
    f.raiseCore p ty h t b = f.withRecords (f.raiseCore p ty h t b) := by
  simp only [raiseCore]
  exact records_ite _ (records_ite _ (records_trans (setEvq_frame f p _) (enqueue_frame _ _ _)) rfl)
    (records_ite _ (records_trans (setEvq_frame f p _) (enqueue_frame _ _ _)) rfl)

theorem enqueueAll_frame (p : Part) (l : List Evt) : ∀ f : Field,
    l.foldl (fun g e => g.enqueue p (.evt e)) f = f.withRecords (l.foldl (fun g e => g.enqueue p (.evt e)) f) := by
  induction l with
  | nil => intro f; rfl
  | cons e es ih => intro f; exact records_trans (enqueue_frame f p _) (ih _)

theorem overflow_frame (f : Field) (p : Part) : f.overflow p = f.withRecords (f.overflow p) := by
  have key : ∀ g : Field, g = f.withRecords g → ∀ q : EvQ,
      (g.setEvq p q).raiseCore p 0x3D 0 g.now (toLe (g.evq p).dropped 4 ++ zeros 4 ++ le 8 (g.evq p).tDrop) = f.withRecords
      ((g.setEvq p q).raiseCore p 0x3D 0 g.now (toLe (g.evq p).dropped 4 ++ zeros 4 ++ le 8 (g.evq p).tDrop)) :=
    fun g hg q => records_trans hg (records_trans (setEvq_frame g p q) (raiseCore_frame _ _ _ _ _ _))
  simp only [overflow]
  have h1 : ∀ q : EvQ, ∀ l : List Evt, l.foldl (fun g e => g.enqueue p (.evt e)) (f.setEvq p q) =
      f.withRecords (l.foldl (fun g e => g.enqueue p (.evt e)) (f.setEvq p q)) :=
    fun q l => records_trans (setEvq_frame f p q) (enqueueAll_frame p l _)
  have h2 := records_ite ((f.evq p).heldDone = []) (rfl : f = f.withRecords f)
    (h1 { f.evq p with heldDone := (f.evq p).heldDone.drop (min (f.evq p).heldDone.length (f.unreserved p / 2)) }
      ((f.evq p).heldDone.take (min (f.evq p).heldDone.length (f.unreserved p / 2))))
  exact records_ite _ (key _ h2 _) h2

/-- Raising an event changes records alone (R400). -/
theorem raiseAt_frame (f : Field) (p : Part) (ty : Byte) (h : Word) (t : Count) (b : Bytes) :
    f.raiseAt p ty h t b = f.withRecords (f.raiseAt p ty h t b) :=
  records_trans (overflow_frame f p) (raiseCore_frame _ _ _ _ _ _)
theorem raise_frame (f : Field) (p : Part) (ty : Byte) (h : Word) (b : Bytes) :
    f.raise p ty h b = f.withRecords (f.raise p ty h b) := raiseAt_frame f p ty h f.now b
theorem raiseAll_frame (f : Field) (ty : Byte) (b : Bytes) : f.raiseAll ty b = f.withRecords (f.raiseAll ty b) :=
  records_trans (raise_frame f 0 ty 0 b) (records_trans (raise_frame _ 1 ty 0 b)
    (records_trans (raise_frame _ 2 ty 0 b) (raise_frame _ 3 ty 0 b)))

/-- A completion changes records alone (R405). -/
theorem completeH_frame (f : Field) (r : CmdRef) (s : Status) (d : Nat) (n : Bool) (h : Word) :
    f.completeH r s d n h = f.withRecords (f.completeH r s d n h) :=
  records_trans (g := { f with prt := { f.prt with busy := f.prt.busy.filter (fun b => b.ref ≠ r) } }) rfl (enqueue_frame _ _ _)
theorem complete_frame (f : Field) (r : CmdRef) (s : Status) (d : Nat) :
    f.complete r s d = f.withRecords (f.complete r s d) := completeH_frame f r s d false r.handle
theorem done_frame (f : Field) (r : CmdRef) : f.done r = f.withRecords (f.done r) := complete_frame f r .ok 0

theorem hwrites_frame (p : Part) (n : Nat) : ∀ (a : Nat) (b : Bytes) (f : Field), hwrites p a n b f = f.withRecords (hwrites p a n b f) := by
  induction n with
  | zero => intro a b f; rfl
  | succ n ih =>
    intro a b f
    simp only [hwrites]
    split
    · rfl
    · exact records_trans (sendData_frame f _) (ih _ _ _)

/-- A read command's answer changes records alone (R398). -/
theorem answer_frame (f : Field) (r : CmdRef) (a : BitVec 64) (b : Bytes) (s : Status) (d : Nat) :
    f.answer r a b s d = f.withRecords (f.answer r a b s d) :=
  records_trans (hwrites_frame _ _ _ _ f) (complete_frame _ _ _ _)

/-! ### A completion is in its queue -/

@[simp] theorem evq_setEvq_same (f : Field) (p : Part) (q : EvQ) : (f.setEvq p q).evq p = q := by
  simp [evq, setEvq]

theorem sendRecs_recs (p : Part) (l : List QRec) : ∀ f : Field, (f.sendRecs p l).2.map (·.r) = l.map (·.r) := by
  induction l with
  | nil => intro f; rfl
  | cons r rs ih =>
    intro f
    simp only [sendRecs]
    split
    · simp [ih]
    · split
      · simp [ih]
      · simp [ih]

/-- Sending changes no record of the queue. -/
theorem pump_recs (f : Field) (p : Part) : ((f.pump p).evq p).q.map (·.r) = (f.evq p).q.map (·.r) := by
  simp only [pump]
  split
  · simp [sendRecs_recs]
  · rfl

/-- A queued record is in its partition's queue. -/
theorem enqueue_recs (f : Field) (p : Part) (r : Rec) :
    ((f.enqueue p r).evq p).q.map (·.r) = (f.evq p).q.map (·.r) ++ [r] := by
  simp [enqueue, pump_recs]

/-- The record queued last stands in its partition's queue. -/
theorem enqueue_mem (f : Field) (p : Part) (r : Rec) : ∃ q ∈ ((f.enqueue p r).evq p).q, q.r = r := by
  have h : r ∈ ((f.enqueue p r).evq p).q.map (·.r) := by rw [enqueue_recs]; simp
  simpa using h

/-- A completed command is answered with its status, DETAIL and handle. -/
theorem completeH_answeredAs (f : Field) (r : CmdRef) (s : Status) (d : Nat) (n : Bool) (h : Word) :
    (f.completeH r s d n h).answeredAs r s d h = true := by
  obtain ⟨q, hq, hr⟩ := enqueue_mem { f with prt := { f.prt with busy := f.prt.busy.filter (fun b => b.ref ≠ r) } } r.part
    (.cpl { ref := r, status := s.code, detail := BitVec.ofNat 32 d, noChange := n, handle := h, tDone := f.now })
  exact List.any_eq_true.mpr ⟨q, hq, by simp [hr]⟩

theorem completeH_answered (f : Field) (r : CmdRef) (s : Status) (d : Nat) (n : Bool) (h : Word) :
    (f.completeH r s d n h).answered r s = true := by
  obtain ⟨q, hq, hr⟩ := enqueue_mem { f with prt := { f.prt with busy := f.prt.busy.filter (fun b => b.ref ≠ r) } } r.part
    (.cpl { ref := r, status := s.code, detail := BitVec.ofNat 32 d, noChange := n, handle := h, tDone := f.now })
  exact List.any_eq_true.mpr ⟨q, hq, by simp [hr]⟩

theorem complete_answered (f : Field) (r : CmdRef) (s : Status) (d : Nat) : (f.complete r s d).answered r s = true :=
  completeH_answered f r s d false r.handle

theorem done_answered (f : Field) (r : CmdRef) : (f.done r).answered r .ok = true := complete_answered f r .ok 0

theorem answer_answered (f : Field) (r : CmdRef) (a : BitVec 64) (b : Bytes) (s : Status) (d : Nat) :
    (f.answer r a b s d).answered r s = true := complete_answered _ r s d

/-- Ordered checks end with the first failure's completion, or with the command's effect. -/
theorem guard_cases (f : Field) (r : CmdRef) (cs : List Check) (go : Field → Field) :
    (firstFail cs = none ∧ f.guard r cs go = go f) ∨ ∃ s d, firstFail cs = some (s, d) ∧ f.guard r cs go = f.complete r s d := by
  unfold guard
  split
  · rename_i s d h; exact .inr ⟨s, d, h, rfl⟩
  · rename_i h; exact .inl ⟨h, rfl⟩

end Field
end Sys2Proof.Machine
end

