-- ==== Sys2Proof/Laws/State.lean ====
section
/-! SUPPORT. What each update of the state leaves: one lemma per field. -/
namespace Sys2Proof.Machine

@[simp] theorem State.onField_eq (s : State) (g : Field → Field) : s.onField g = .next { s with f := g s.f } := rfl
@[simp] theorem State.onHost_eq (s : State) (g : HDie → HDie) : s.onHost g = .next { s with h := g s.h } := rfl
@[simp] theorem State.onDie_field (s : State) (g : Field → Field) (k : HDie → HDie) : s.onDie .field g k = s.onField g := rfl
@[simp] theorem State.onDie_host (s : State) (g : Field → Field) (k : HDie → HDie) : s.onDie .host g k = s.onHost k := rfl
theorem State.onDie_next (s : State) (d : Die) (g : Field → Field) (k : HDie → HDie) :
    s.onDie d g k = .next (match d with | .field => { s with f := g s.f } | .host => { s with h := k s.h }) := by cases d <;> rfl
@[simp] theorem step_nil (f : Field) (h : HDie) : step { pending := [], f := f, h := h } = .next { pending := [], f := f.tick, h := h.tick } := rfl
@[simp] theorem step_cons (i : Instr) (r : List Instr) (f : Field) (h : HDie) :
    step { pending := i :: r, f := f, h := h } = exec i { pending := r, f := f, h := h } := rfl
@[simp] theorem State.withFetchWord_eq (s : State) (n w : Nat) : s.withFetchWord n w = s := rfl

namespace Field

/-! ### Channels -/

@[simp] theorem chan_setChan_same (f : Field) (x : BitVec 17) (c : Chan) : (f.setChan x c).chan x = c := by simp [chan, setChan]
theorem chan_setChan_other (f : Field) {x y : BitVec 17} (c : Chan) (h : x ≠ y) : (f.setChan x c).chan y = f.chan y := by
  have hn : x.toNat ≠ y.toNat := fun e => h (BitVec.eq_of_toNat_eq e)
  simp [chan, setChan, tabGet_tabSet_other _ _ _ hn]
@[simp] theorem chan_modChan_same (f : Field) (x : BitVec 17) (g : Chan → Chan) : (f.modChan x g).chan x = g (f.chan x) := by
  simp [modChan]
theorem chan_modChan_other (f : Field) {x y : BitVec 17} (g : Chan → Chan) (h : x ≠ y) : (f.modChan x g).chan y = f.chan y :=
  chan_setChan_other f _ h
@[simp] theorem setChan_mer (f : Field) (x : BitVec 17) (c : Chan) : (f.setChan x c).mer = f.mer := rfl
@[simp] theorem setChan_sel (f : Field) (x : BitVec 17) (c : Chan) : (f.setChan x c).sel = f.sel := rfl
@[simp] theorem setChan_hel (f : Field) (x : BitVec 17) (c : Chan) : (f.setChan x c).hel = f.hel := rfl
@[simp] theorem setChan_lan (f : Field) (x : BitVec 17) (c : Chan) : (f.setChan x c).lan = f.lan := rfl
@[simp] theorem setChan_dch (f : Field) (x : BitVec 17) (c : Chan) : (f.setChan x c).dch = f.dch := rfl
@[simp] theorem setChan_trn (f : Field) (x : BitVec 17) (c : Chan) : (f.setChan x c).trn = f.trn := rfl
@[simp] theorem setChan_prt (f : Field) (x : BitVec 17) (c : Chan) : (f.setChan x c).prt = f.prt := rfl
@[simp] theorem setChan_saf (f : Field) (x : BitVec 17) (c : Chan) : (f.setChan x c).saf = f.saf := rfl
@[simp] theorem setChan_pwr (f : Field) (x : BitVec 17) (c : Chan) : (f.setChan x c).pwr = f.pwr := rfl
@[simp] theorem setChan_nvm (f : Field) (x : BitVec 17) (c : Chan) : (f.setChan x c).nvm = f.nvm := rfl
@[simp] theorem setChan_sec (f : Field) (x : BitVec 17) (c : Chan) : (f.setChan x c).sec = f.sec := rfl
@[simp] theorem setChan_out (f : Field) (x : BitVec 17) (c : Chan) : (f.setChan x c).out = f.out := rfl
@[simp] theorem setChan_coldAck (f : Field) (x : BitVec 17) (c : Chan) : (f.setChan x c).nev.coldAck = f.nev.coldAck := rfl
@[simp] theorem setChan_prof (f : Field) (x : BitVec 17) (c : Chan) : (f.setChan x c).nev.prof = f.nev.prof := rfl

/-! ### Lanes and direct channels -/

@[simp] theorem lane_setLane_same (f : Field) (l : BitVec 5) (v : Lane) : (f.setLane l v).lane l = v := by simp [lane, setLane]
theorem lane_setLane_other (f : Field) {l m : BitVec 5} (v : Lane) (h : l ≠ m) : (f.setLane l v).lane m = f.lane m := by
  have hn : l.toNat ≠ m.toNat := fun e => h (BitVec.eq_of_toNat_eq e)
  simp [lane, setLane, tabGet_tabSet_other _ _ _ hn]
@[simp] theorem lane_modLane_same (f : Field) (l : BitVec 5) (g : Lane → Lane) : (f.modLane l g).lane l = g (f.lane l) := by
  simp [modLane]
@[simp] theorem setLane_nev (f : Field) (l : BitVec 5) (v : Lane) : (f.setLane l v).nev = f.nev := rfl
@[simp] theorem setLane_prt (f : Field) (l : BitVec 5) (v : Lane) : (f.setLane l v).prt = f.prt := rfl
@[simp] theorem setLane_trn (f : Field) (l : BitVec 5) (v : Lane) : (f.setLane l v).trn = f.trn := rfl
@[simp] theorem setLane_mer (f : Field) (l : BitVec 5) (v : Lane) : (f.setLane l v).mer = f.mer := rfl
@[simp] theorem setLane_out (f : Field) (l : BitVec 5) (v : Lane) : (f.setLane l v).out = f.out := rfl
@[simp] theorem dchan_setDch_same (f : Field) (n : BitVec 4) (d : Dch) : (f.setDch n d).dchan n = d := by simp [dchan, setDch]
theorem dchan_setDch_other (f : Field) {n m : BitVec 4} (d : Dch) (h : n ≠ m) : (f.setDch n d).dchan m = f.dchan m := by
  have hn : n.toNat ≠ m.toNat := fun e => h (BitVec.eq_of_toNat_eq e)
  simp [dchan, setDch, tabGet_tabSet_other _ _ _ hn]

/-! ### Event queues -/

@[simp] theorem setEvq_nev (f : Field) (p : Part) (q : EvQ) : (f.setEvq p q).nev = f.nev := rfl
@[simp] theorem setEvq_lan (f : Field) (p : Part) (q : EvQ) : (f.setEvq p q).lan = f.lan := rfl
@[simp] theorem setEvq_trn (f : Field) (p : Part) (q : EvQ) : (f.setEvq p q).trn = f.trn := rfl
@[simp] theorem setEvq_busy (f : Field) (p : Part) (q : EvQ) : (f.setEvq p q).prt.busy = f.prt.busy := rfl
theorem evq_setEvq_other (f : Field) {p r : Part} (q : EvQ) (h : p ≠ r) : (f.setEvq p q).evq r = f.evq r := by
  have hn : p.toNat ≠ r.toNat := fun e => h (BitVec.eq_of_toNat_eq e)
  simp [evq, setEvq, tabGet_tabSet_other _ _ _ hn]

/-! ### The wire of a lane end, and codewords -/

@[simp] theorem setLane_sel (f : Field) (l : BitVec 5) (v : Lane) : (f.setLane l v).sel = f.sel := rfl
@[simp] theorem setLane_hel (f : Field) (l : BitVec 5) (v : Lane) : (f.setLane l v).hel = f.hel := rfl
@[simp] theorem setLane_firn (f : Field) (l : BitVec 5) (v : Lane) : (f.setLane l v).firn = f.firn := rfl
@[simp] theorem setLane_dch (f : Field) (l : BitVec 5) (v : Lane) : (f.setLane l v).dch = f.dch := rfl
@[simp] theorem setDch_nev (f : Field) (n : BitVec 4) (d : Dch) : (f.setDch n d).nev = f.nev := rfl
@[simp] theorem setDch_adc (f : Field) (n : BitVec 4) (d : Dch) : (f.setDch n d).adc = f.adc := rfl
@[simp] theorem setDch_out (f : Field) (n : BitVec 4) (d : Dch) : (f.setDch n d).out = f.out := rfl
@[simp] theorem wireOf_setWire (v : Lane) (e : Bool) (w : Wire) : wireOf (setWire v e w) e = w := by cases e <;> rfl
@[simp] theorem wireOf_setWire_other (v : Lane) (e : Bool) (w : Wire) : wireOf (setWire v (!e) w) e = wireOf v e := by
  cases e <;> rfl
@[simp] theorem setWire_os (v : Lane) (e : Bool) (w : Wire) : (setWire v e w).os = v.os := by cases e <;> rfl
@[simp] theorem setWire_st (v : Lane) (e : Bool) (w : Wire) : (setWire v e w).st = v.st := by cases e <;> rfl
/-- What leaves the field die changes its outputs and, at a lane end, the characters counted there; nothing else (R31, R317). -/
theorem emit_only (f : Field) (o : Out) : f.emit o = { f with lan := (f.emit o).lan, out := (f.emit o).out } := by
  unfold emit
  split <;> first | rfl | (split <;> rfl)
@[simp] theorem emit_nev (f : Field) (o : Out) : (f.emit o).nev = f.nev := by rw [emit_only]
@[simp] theorem emit_prt (f : Field) (o : Out) : (f.emit o).prt = f.prt := by rw [emit_only]
@[simp] theorem emit_trn (f : Field) (o : Out) : (f.emit o).trn = f.trn := by rw [emit_only]
@[simp] theorem emit_firn (f : Field) (o : Out) : (f.emit o).firn = f.firn := by rw [emit_only]
@[simp] theorem emit_dch (f : Field) (o : Out) : (f.emit o).dch = f.dch := by rw [emit_only]
@[simp] theorem heal1_nev (f : Field) (k : Nat) : (f.heal1 k).nev = f.nev := rfl
@[simp] theorem heal2_nev (f : Field) (x : BitVec 17) (k : Nat) : (f.heal2 x k).nev = f.nev := rfl
@[simp] theorem damage_nev (f : Field) (k : Nat) (e : Bytes) : (f.damage k e).nev = f.nev := rfl
@[simp] theorem damageChip_firn (f : Field) (k : Nat) (e : Bytes) : (f.damageChip k e).firn = f.firn := rfl
@[simp] theorem healChip_firn (f : Field) (k : Nat) : (f.healChip k).firn = f.firn := rfl
/-- A read of an on-chip codeword changes nothing but the on-chip store and its counts (R356, R357). -/
theorem readChip_only (f : Field) (k : Nat) : (f.readChip k).1 = { f with nev := (f.readChip k).1.nev } := by
  unfold readChip
  split
  · rfl
  · split <;> rfl
/-- A read of an on-chip codeword without errors gives its data and changes nothing. -/
theorem readChip_clean (f : Field) (k : Nat) (h : tabLook f.nev.errs k = none) : f.readChip k = (f, true) := by
  simp [readChip, h]
/-- A read of a sound codeword of the store gives its data and changes nothing. -/
theorem readCw_sound (f : Field) (cw : Nat) (h : f.sound cw = true) : f.readCw cw = (f, true) := by
  simp [readCw, readRaw, h]

end Field

namespace HDie

/-! ### Partitions of the host die -/

@[simp] theorem hp_setHp_same (h : HDie) (p : Part) (v : HPart) : (h.setHp p v).hp p = v := by simp [hp, setHp]
theorem hp_setHp_other (h : HDie) {p q : Part} (v : HPart) (n : p ≠ q) : (h.setHp p v).hp q = h.hp q := by
  have hn : p.toNat ≠ q.toNat := fun e => n (BitVec.eq_of_toNat_eq e)
  simp [hp, setHp, tabGet_tabSet_other _ _ _ hn]
@[simp] theorem hp_modHp_same (h : HDie) (p : Part) (g : HPart → HPart) : (h.modHp p g).hp p = g (h.hp p) := by simp [modHp]
theorem hp_modHp_other (h : HDie) {p q : Part} (g : HPart → HPart) (n : p ≠ q) : (h.modHp p g).hp q = h.hp q :=
  hp_setHp_other h _ n
@[simp] theorem setHp_sec (h : HDie) (p : Part) (v : HPart) : (h.setHp p v).sec = h.sec := rfl
@[simp] theorem setHp_trn (h : HDie) (p : Part) (v : HPart) : (h.setHp p v).trn = h.trn := rfl
@[simp] theorem setHp_nvm (h : HDie) (p : Part) (v : HPart) : (h.setHp p v).nvm = h.nvm := rfl
@[simp] theorem setHp_setup (h : HDie) (p : Part) (v : HPart) : (h.setHp p v).setup = h.setup := rfl
@[simp] theorem setHp_st (h : HDie) (p : Part) (v : HPart) : (h.setHp p v).st = h.st := rfl
@[simp] theorem setHp_out (h : HDie) (p : Part) (v : HPart) : (h.setHp p v).out = h.out := rfl
@[simp] theorem emit_part (h : HDie) (o : Out) : (h.emit o).part = h.part := rfl
@[simp] theorem emit_sec (h : HDie) (o : Out) : (h.emit o).sec = h.sec := rfl
@[simp] theorem emit_trn (h : HDie) (o : Out) : (h.emit o).trn = h.trn := rfl
@[simp] theorem hp_emit (h : HDie) (o : Out) (p : Part) : (h.emit o).hp p = h.hp p := rfl
theorem sendCtl_part (h : HDie) (m : Msg) : (h.sendCtl m).part = h.part ∧ (h.sendCtl m).sec = h.sec := by
  simp only [sendCtl]; split <;> exact ⟨rfl, rfl⟩
theorem sendDat_part (h : HDie) (m : Msg) : (h.sendDat m).part = h.part ∧ (h.sendDat m).sec = h.sec := by
  simp only [sendDat]; split <;> exact ⟨rfl, rfl⟩
@[simp] theorem sendCtl_hp (h : HDie) (m : Msg) (p : Part) : (h.sendCtl m).hp p = h.hp p := by simp [hp, sendCtl_part]
@[simp] theorem sendDat_hp (h : HDie) (m : Msg) (p : Part) : (h.sendDat m).hp p = h.hp p := by simp [hp, sendDat_part]
theorem devWrs_part (l : List (Word × Word)) : ∀ h : HDie,
    (l.foldl (fun (g : HDie) w => g.devWr w.1 w.2) h).part = h.part ∧
    (l.foldl (fun (g : HDie) w => g.devWr w.1 w.2) h).sec = h.sec := by
  induction l with
  | nil => intro h; exact ⟨rfl, rfl⟩
  | cons w r ih => intro h; exact ⟨(ih _).1.trans (sendCtl_part h _).1, (ih _).2.trans (sendCtl_part h _).2⟩

/-- A log record leaves the partitions alone, and at most 16 wait (R491). -/
theorem log_bound (h : HDie) (ty : Byte) (b : Bytes) (hl : h.sec.log.length ≤ 16) :
    (h.log ty b).part = h.part ∧ (h.log ty b).sec.log.length ≤ 16 := by
  simp only [log]
  split
  · exact ⟨(devWrs_part _ h).1, by rw [(devWrs_part _ h).2]; exact hl⟩
  · split <;> refine ⟨rfl, ?_⟩ <;> simp at * <;> omega

end HDie
end Sys2Proof.Machine
end

