-- ==== Sys2Proof/Laws/Stores.lean ====
section
/-! SUPPORT. What writing a log record, scanning the log, reading the images at a start and closing the commissioning state may
change. -/
namespace Sys2Proof.Machine

/-! ### The log -/

@[simp] theorem Log.put_seq (l : Log) (b : Bytes) : (l.put b).seq = seqNext l.seq := rfl
@[simp] theorem Log.put_ord (l : Log) (b : Bytes) : (l.put b).ord = l.ord := rfl
@[simp] theorem Log.put_emerg (l : Log) (b : Bytes) : (l.put b).emerg = l.emerg := rfl
@[simp] theorem Log.put_ready (l : Log) (b : Bytes) : (l.put b).ready = l.ready := rfl
@[simp] theorem Log.put_tokens (l : Log) (b : Bytes) : (l.put b).tokens = l.tokens := rfl
@[simp] theorem Log.put_erasing (l : Log) (b : Bytes) : (l.put b).erasing = l.erasing := rfl

/-- Putting a list of continuations moves only the places, the next place and SEQ. -/
theorem Log.conts_frame (cs : List Bytes) : ∀ l : Log,
    let k := cs.foldl (fun (k : Log) c => k.put (contPlace k.seq c)) l
    k = { l with place := k.place, next := k.next, seq := k.seq } := by
  induction cs with
  | nil => intro l; rfl
  | cons c cs ih => intro l; simpa [Log.put] using ih (l.put (contPlace l.seq c))
/-- Writing a record moves only the places, the next place and SEQ. -/
theorem Log.write_frame (l : Log) (boot : BitVec 32) (r : LogRec) :
    l.write boot r = { l with place := (l.write boot r).place, next := (l.write boot r).next, seq := (l.write boot r).seq } := by
  have h := Log.conts_frame r.conts
    (l.put (recPlace l.seq r.type (logEmerg r.type) r.conts.length boot r.t r.body))
  simpa [Log.write, Log.put] using h
/-- The scan's records move only the places, the next place, SEQ, the tokens and what waits. -/
theorem Log.scanned_frame (boot : BitVec 32) (rs : List LogRec) : ∀ l : Log,
    l.scanned boot rs = { l with
      place := (l.scanned boot rs).place, next := (l.scanned boot rs).next, seq := (l.scanned boot rs).seq,
      tokens := (l.scanned boot rs).tokens, ord := (l.scanned boot rs).ord } := by
  induction rs with
  | nil => intro l; rfl
  | cons r rs ih =>
    intro l
    simp only [Log.scanned]
    split
    · have h := ih (({ l with tokens := l.tokens - 1 } : Log).write boot r)
      rw [h, Log.write_frame]
    · rfl
/-- Every record of the scan uses a token. -/
theorem Log.scanned_tokens (boot : BitVec 32) (rs : List LogRec) : ∀ l : Log,
    (l.scanned boot rs).tokens = l.tokens - rs.length := by
  induction rs with
  | nil => intro l; simp [Log.scanned]
  | cons r rs ih =>
    intro l
    simp only [Log.scanned]
    split
    · rw [ih, Log.write_frame]; simp; omega
    · rfl

/-! ### The images at a start -/

@[simp] theorem FNvm.erase_log (n : FNvm) (s : Nat) : (n.erase s).log = n.log := rfl
@[simp] theorem FNvm.erase_upd (n : FNvm) (s : Nat) : (n.erase s).upd = n.upd := rfl
/-- Erases change only their counts. -/
theorem FNvm.erases_frame (ss : List Nat) : ∀ n : FNvm,
    let m := ss.foldl FNvm.erase n
    m = { n with erases := m.erases, maxErases := m.maxErases } := by
  induction ss with
  | nil => intro n; rfl
  | cons s ss ih => intro n; simpa [FNvm.erase] using ih (n.erase s)
/-- Reading the images at a start changes the images, LOST and the counts of erases (R463, R464). -/
theorem FNvm.start_frame (n : FNvm) :
    n.start = { n with
      calib := (n.calib.start 0).2, lock := (n.lock.start 1).2, safety := (n.safety.start 2).2, cregs := (n.cregs.start 3).2,
      lost := n.start.lost, erases := n.start.erases, maxErases := n.start.maxErases } := by
  have h := FNvm.erases_frame
    ([n.calib.repaired 0, n.lock.repaired 1, n.safety.repaired 2, n.cregs.repaired 3].filterMap id) n
  simp only [FNvm.start]
  rw [h]
/-- An image with two valid copies of one generation is left alone (R463). -/
theorem Img.start_same (item : Nat) (i : Img) (ha : i.a.valid item 0 = true) (hb : i.b.valid item 1 = true)
    (hg : i.a.gen = i.b.gen) : i.start item = (some i.a.payload, i) := by
  simp [Img.start, ha, hb, hg]

/-! ### The commissioning state -/

namespace HDie
/-- No commissioning state is due to close: nothing happens (R481). -/
theorem commExpiry_open (h : HDie) (ho : ∀ t q, h.sec.comm = some (t, q) → h.t < t) : h.commExpiry = h := by
  unfold commExpiry
  split
  · rename_i t q hc
    have : ¬ t ≤ h.t := BitVec.not_le.mpr (ho t q hc)
    simp [this]
  · rfl
end HDie
end Sys2Proof.Machine
end

