-- ==== Sys2Proof/Tests/Slice0.lean ====
section
/-! SUPPORT. Tests: ill-formed terms that `Instr.wf` refuses; for every command one step on a small state that meets the premises of
what is stated of it, and what it leaves; boundary values where clauses meet. -/
namespace Sys2Proof.Tests
set_option Elab.async false
open Sys2Proof Sys2Proof.Machine

/-! ### Helpers -/

/-- The command answers a next state that p holds of. -/
def ran (s : State) (c : Instr) (p : State → Bool) : Bool := match exec c s with | .next t => p t | _ => false
/-- Bytes of a byte run with some set, each at its offset. -/
def setBytes (n : Nat) (l : List (Nat × Nat)) : Bytes := l.foldl (fun b e => splice b e.1 [BitVec.ofNat 8 e.2]) (zeros n)
/-- A profile that passes R89, with an insertion block. -/
def tProf : Bytes := setBytes 256 [(0, 1), (8, 2), (9, 1), (11, 24), (46, 4), (178, 1), (180, 200), (186, 255), (187,
    255), (188, 3), (190, 215), (191, 3), (192, 20), (194, 200), (220, 255), (221, 15)]
/-- A loop set of two stages. -/
def tBank : Bytes := setBytes 128 [(0, 2), (1, 1), (4, 160), (5, 15), (16, 1), (19, 128), (20, 1), (21, 51), (22, 51),
    (24, 102), (25, 230), (26, 1), (34, 5), (36, 102), (37, 230), (38, 1)]
/-- A descriptor header of partition 0, ring 0, with the handle of index 5. -/
def tHdr : CmdHdr := { part := 0, ring := 0, sqPos := 7, quiet := false, tag := 9, handle := 0x40000005 }
/-- A field die that runs with its link up, Firn ready, COLD_ACK given, no safe state, and partition 0 with every role. -/
def tF : Field :=
  let f := Field.reset
  { f with sec := { f.sec with life := 1 }, trn := { f.trn with st := .up }, nev := { f.nev with coldAck := 0, prof := [(1, tProf)], loops := [(1, tBank)] },
           firn := { f.firn with st := .ready, filled := true, capGib := 8 }, saf := { f.saf with safe := false },
           prt := { f.prt with setup := [(0, 0x02000007)] }, out := [] }
/-- A host die in RUN with its link up, in lifecycle FIELDED. -/
def tH : HDie :=
  let h := HDie.reset
  { h with sec := { h.sec with life := 1 }, trn := { h.trn with st := .up } }
def tS : State := { pending := [], f := tF, h := tH }
/-- A state with a field die. -/
def onF (f : Field) : State := { tS with f := f }
/-- A state with a host die. -/
def onH (h : HDie) : State := { tS with h := h }
/-- A channel of a kind in a state, with profile 1 and a binding. -/
def tCh (k : Kind) (st : ChState) (b : Bind) : Chan :=
  { Chan.free with nev := { Nev.free 0 with kind := k, state := st, profile := 1, igain := 65536, vgain := 65535 },
                   fr := { ChRec.empty with bind := b } }
/-- The identity of the outstation on lane 0. -/
def tId : BitVec 64 := 0x1000000000001
/-- An outstation of 16 points, all switched. -/
def tOs : Outst :=
  { id := tId, npts := 16, missing := false, missCnt := 0, seenA := false, seenB := false, judged := false,
    present := 0xFFFF, switched := 0xFFFF, healthy := true, pollDue := false }
/-- Lane 0 in RING with one outstation. -/
def tLane : Lane := { Lane.reset with en := true, st := .ring, os := [(0, tOs)] }
/-- tF with channel 5. -/
def fCh (k : Kind) (st : ChState) (b : Bind) : Field := tF.setChan 5 (tCh k st b)
/-- tF with lane 0 and channel 5 bound to point 2 of its outstation. -/
def fSw (st : ChState) : Field := ((tF.setLane 0 tLane).setLink tId { OsLink.empty with base := some 0 }).setChan 5
  (tCh .switched st (.point 0 0 2 tId))
/-- tF with channel 5 bound to direct channel 0. -/
def fDir (st : ChState) : Field := fCh .direct st (.direct 0)
/-- A context of channel 5 in a phase. -/
def tCtx (f : Field) (ph : Phase) : Ctx :=
  { f.newCtx 5 .close ph { rate := 50000, slot := none, grant := (0, 0, 0) } (slice tProf 176 64) tBank (freshStages tBank) with k := 1, gOut := 100 }
/-- A field die whose place 3 holds context c. -/
def withCtx (f : Field) (c : Ctx) : Field := { f with hel := { f.hel with ctx := [(3, c)] } }
/-- f at a count. -/
def atT (f : Field) (n : Nat) : Field := { f with mer := { f.mer with count := BitVec.ofNat 64 n } }

/-! ### The queue and the command descriptors -/

theorem test_step_front : (step { tS with pending := [.nop tHdr, .rearmPress] } =
    exec (.nop tHdr) { tS with pending := [.rearmPress] }) := rfl
theorem test_step_tick : step tS = .next tS.tick := rfl
theorem test_nop : (tF.takesNow tHdr 0 && tF.anyRole 0 &&
    ran tS (.nop tHdr) (fun t => t.f.answeredAs (tHdr.as 0) .ok 0 tHdr.handle)) = true := by decide +kernel
theorem test_nop_role : (tF.takesNow { tHdr with part := 1 } 0 && !tF.anyRole 1 &&
    ran tS (.nop { tHdr with part := 1 }) (fun t => t.f.answered ({ tHdr with part := 1 }.as 0) .role)) = true := by decide +kernel

/-- A VIRTUAL root with profile 1, at a requested index. -/
def tCreate : CreateOps :=
  { kind := 3, root := true, adopt := false, reqIndex := true, profile := 1, parent := 0, index := 5, bind := 0, igain := 65536,
    vgain := 65535, elsb := 0, mirror := 0 }
theorem test_create_root : (tF.takesNow tHdr 0x10 && firstFail (tF.createFirst 0 tCreate) == none &&
    firstFail (tF.createChecks 0 tCreate) == none &&
    ran tS (.create tHdr tCreate) (fun t => (t.f.chan 5).nev.state = .closed && (t.f.chan 5).nev.kind = .virt &&
      t.f.answeredAs (tHdr.as 0x10) .ok 0 0x40000005)) = true := by decide +kernel
/-- Direct channel 0 from the head of the free list. -/
def tCreateD : CreateOps := { tCreate with kind := 2, reqIndex := false, index := 0 }
theorem test_create_free_list : (firstFail (tF.createFirst 0 tCreateD) == none && firstFail (tF.createChecks 0 tCreateD) == none &&
    Field.spanHead tF.nev.freeList == some (0, (Field.spanHead tF.nev.freeList).elim [] (·.2)) &&
    ran tS (.create tHdr tCreateD) (fun t => (t.f.chan 0).nev.state = .opened && (t.f.chan 0).nev.kind = .direct)) = true := by
  decide +kernel
theorem test_destroy : ((fDir .opened).takesNow tHdr 0x11 && (fDir .opened).firnOn &&
    firstFail ((fDir .opened).destroyChecks (tHdr.as 0x11)) == none &&
    ran (onF (fDir .opened)) (.destroy tHdr) (fun t => (t.f.chan 5).nev = Nev.free 1 && !t.f.handleLive tHdr.handle)) = true := by
  decide +kernel
theorem test_destroy_generation_wraps :
    (let f := (fDir .opened).modNev 5 (fun v => { v with gen := 8191 })
     ran (onF f) (.destroy { tHdr with handle := 0x7FFE0005 }) (fun t => decide ((t.f.chan 5).nev.gen = 0))) = true := by decide +kernel
def tReconf : ReconfOps :=
  { profileSel := true, parentSel := true, gainsSel := true, mirrorSel := true, root := true, profile := 2, parent := 0, igain := 7,
    vgain := 9, mirror := 0 }
/-- A field die with channel 5 and profiles 1 and 2. -/
def fRec : Field := let f := fDir .opened; { f with nev := { f.nev with prof := [(1, tProf), (2, tProf)] } }
theorem test_reconfigure : (fRec.takesNow tHdr 0x12 && fRec.firnOn &&
    firstFail (fRec.checks15 0 tHdr.handle (fRec.operator 0) none ++ fRec.reconfFields 5 tReconf) == none &&
    firstFail (fRec.reconfChecks 5 tReconf) == none &&
    ran (onF fRec) (.reconfigure tHdr tReconf) (fun t => (t.f.chan 5).nev.profile = 2 && (t.f.chan 5).nev.vgain = 9 &&
      t.f.answeredAs (tHdr.as 0x12) .ok 0 tHdr.handle)) = true := by decide +kernel
theorem test_close_joins_queue : ((fDir .opened).takesNow tHdr 0x13 && firstFail ((fDir .opened).switchChecks (tHdr.as 0x13) 0) == none &&
    firstFail ((fDir .opened).closeChecks 5 false) == none &&
    ran (onF (fDir .opened)) (.closeCh tHdr false) (fun t => (t.f.chan 5).nev.state = .inserting &&
      t.f.hel.queue.map (·.ch) = [5])) = true := by decide +kernel
theorem test_close_closed : (firstFail ((fDir .closed).switchChecks (tHdr.as 0x13) 0) == none &&
    ran (onF (fDir .closed)) (.closeCh tHdr false) (fun t => (t.f.chan 5).nev.state = .closed &&
      t.f.answered (tHdr.as 0x13) .ok)) = true := by decide +kernel
theorem test_open_closed : ((fDir .closed).takesNow tHdr 0x14 && (fDir .closed).firnOn &&
    firstFail ((fDir .closed).switchChecks (tHdr.as 0x14) 1) == none && (fDir .closed).directOf 5 == some 0 &&
    ran (onF (fDir .closed)) (.openCh tHdr) (fun t => (t.f.chan 5).nev.state = .opened && (t.f.dchan 0).mode = .off &&
      t.f.answered (tHdr.as 0x14) .ok)) = true := by decide +kernel
theorem test_open_inserting : (
    let f := fDir .inserting
    let f := { f with hel := { f.hel with queue := [{ ch := 5, origin := .close, tJoin := 0 }] } }
    firstFail (f.switchChecks (tHdr.as 0x14) 1) == none && f.insCtx 5 == none &&
    ran (onF f) (.openCh tHdr) (fun t => (t.f.chan 5).nev.state = .opened && t.f.hel.queue = [])) = true := by decide +kernel
theorem test_open_opened : (firstFail ((fDir .opened).switchChecks (tHdr.as 0x14) 1) == none &&
    ran (onF (fDir .opened)) (.openCh tHdr) (fun t => t.f.answered (tHdr.as 0x14) .ok)) = true := by decide +kernel
theorem test_release : ((fDir .lockedOut).takesNow tHdr 0x15 && firstFail ((fDir .lockedOut).releaseChecks (tHdr.as 0x15)) == none &&
    ran (onF (fDir .lockedOut)) (.release tHdr) (fun t => (t.f.chan 5).nev.state = .opened)) = true := by decide +kernel
theorem test_grant : ((fDir .opened).takesNow tHdr 0x16 && firstFail ((fDir .opened).grantChecks (tHdr.as 0x16) 1 5 false) == none &&
    ran (onF (fDir .opened)) (.grant tHdr 1 5 false) (fun t => t.f.granted 1 5 0 && !t.f.granted 1 5 1 && t.f.granted 1 5 2)) = true := by
  decide +kernel
theorem test_grant_taken : (
    let f := fDir .opened
    let f := { f with prt := { f.prt with grants := [Grant.mk 5 1 7 false] } }
    firstFail (f.grantChecks (tHdr.as 0x16) 1 0 false) == none &&
    ran (onF f) (.grant tHdr 1 0 false) (fun t => t.f.prt.grants = [])) = true := by decide +kernel

/-- BUF and LEN that hold any record. -/
def tRead : ReadOps := { buf := 0x100000, len := 0x1000 }
theorem test_read_channel : ((fDir .opened).takesNow tHdr 0x20 &&
    firstFail ((fDir .opened).checksRead 0 tHdr.handle ++ Field.readArgs tRead 32) == none &&
    ran (onF (fDir .opened)) (.readChannel tHdr tRead) (fun t => t.f.answered (tHdr.as 0x20) .ok &&
      (t.f.trn.dat.kept.map (·.2)).contains (Field.hwriteMsg 0 0x100000 (nevBytes ((fDir .opened).chan 5).nev)))) = true := by
  decide +kernel
theorem test_read_profile : (firstFail (tF.readTableChecks (tHdr.as 0x22) tRead 256) == none &&
    ran tS (.readProfile tHdr tRead 1) (fun t => (t.f.trn.dat.kept.map (·.2)).contains (Field.hwriteMsg 0 0x100000 (pad 256 tProf)))) = true := by
  decide +kernel
theorem test_read_energy : (firstFail ((fDir .opened).readEnergyChecks (tHdr.as 0x24) tRead false) == none &&
    ran (onF (fDir .opened)) (.readEnergy tHdr tRead false) (fun t => t.f.answered (tHdr.as 0x24) .ok)) = true := by decide +kernel
theorem test_read_loopset : (firstFail (tF.readTableChecks (tHdr.as 0x27) tRead 128) == none &&
    ran tS (.readLoopset tHdr tRead 3) (fun t => t.f.answered (tHdr.as 0x27) .ok)) = true := by decide +kernel
theorem test_read_subtree : (firstFail ((fDir .opened).checksRead 0 tHdr.handle ++ Field.readArgs tRead 0) == none &&
    ran (onF (fDir .opened)) (.readSubtree tHdr tRead 0) (fun t => t.f.answeredAs (tHdr.as 0x21) .ok 0 tHdr.handle)) = true := by
  decide +kernel
theorem test_read_history : ((fDir .opened).firn.poisoned = [] ∧
    ran (onF (fDir .opened)) (.readHistory tHdr tRead 0 10) (fun t => t.f.answeredAs (tHdr.as 0x25) .ok 0 tHdr.handle) = true) := by
  decide +kernel

/-- The insertion of direct channel 0 in RAMP. -/
def fIns : Field := withCtx (fDir .inserting) (tCtx (fDir .inserting) .ramp)
theorem test_read_context : (firstFail (fIns.readContextChecks (tHdr.as 0x23) tRead) == none && (fIns.ctxsOf 5).map (·.1) == [3] &&
    ran (onF fIns) (.readContext tHdr tRead) (fun t => t.f.answered (tHdr.as 0x23) .ok)) = true := by decide +kernel
/-- A finished capture slot of channel 5. -/
def tSlot : Slot :=
  { handle := 0x40000005, kind := .request, trunc := false, aborted := false, preShort := false, cause := 0, tTrigger := 0,
    rate := 50000, npre := 0, ents := [], dest := 0, running := false, left := 0, preWant := 0 }
/-- A field die with capture slot 4 in use. -/
def fSlot : Field := (fDir .opened).setSlot 4 tSlot
theorem test_read_capture : (firstFail (fSlot.readCaptureChecks (tHdr.as 0x26) tRead 4 0) == none &&
    ran (onF fSlot) (.readCapture tHdr tRead 4 0) (fun t => t.f.answered (tHdr.as 0x26) .ok)) = true := by decide +kernel
theorem test_capture_free : (firstFail (fSlot.captureFreeChecks (tHdr.as 0x43) 4) == none && decide (fSlot.hel.ctx = []) &&
    ran (onF fSlot) (.captureFree tHdr 4) (fun t => t.f.slot? 4 == none && t.f.answered (tHdr.as 0x43) .ok)) = true := by decide +kernel
theorem test_write_profile : (firstFail (tF.writeProfileChecks (tHdr.as 0x30) 4095 tProf) == none &&
    ran tS (.writeProfile tHdr 4095 tProf) (fun t => t.f.prof 4095 == Field.ownedProfile 0 tProf &&
      t.f.answered (tHdr.as 0x30) .ok)) = true := by decide +kernel
theorem test_write_loopset : (firstFail (tF.writeLoopsetChecks (tHdr.as 0x31) 255 tBank) == none &&
    ran tS (.writeLoopset tHdr 255 tBank) (fun t => t.f.loopSet 255 == tBank && t.f.loopSet 1 == tBank)) = true := by decide +kernel
theorem test_bank_write : (fIns.takesNow tHdr 0x32 && (fIns.runningCtx 5).map (·.1) == some 3 &&
    firstFail (fIns.bankWriteChecks (tHdr.as 0x32) tBank) == none &&
    ran (onF fIns) (.ctxBankWrite tHdr tBank) (fun t => t.f.answered (tHdr.as 0x32) .ok)) = true := by decide +kernel
theorem test_swap : (firstFail (fIns.swapChecks (tHdr.as 0x33)) == none &&
    ran (onF fIns) (.ctxSwap tHdr) (fun t => (tabLook t.f.hel.ctx 3).bind (·.swap) == some (tHdr.as 0x33))) = true := by decide +kernel
theorem test_energy_set : (firstFail ((fDir .opened).checks15 0 tHdr.handle ((fDir .opened).commissioner 0) none) == none &&
    ran (onF (fDir .opened)) (.energySet tHdr 77 88) (fun t => (t.f.chan 5).met.imp = 77 && (t.f.chan 5).met.setByHost)) = true := by
  decide +kernel
theorem test_demand_reset : (
    let f := (fDir .opened).modMet 5 (fun m => { m with demPeak := 9, tPeak := 3 })
    firstFail (f.checks15 0 tHdr.handle (f.operator 0) none) == none &&
    ran (onF f) (.demandReset tHdr) (fun t => (t.f.chan 5).met.demPeak = 0 && (t.f.chan 5).met.tPeak = 3)) = true := by decide +kernel
theorem test_capture : (firstFail ((fDir .opened).captureChecks (tHdr.as 0x42) 10 20) == none && (fDir .opened).capAdmits 5 &&
    ((fDir .opened).freeCtx).isSome && ((fDir .opened).freeSlot).isSome &&
    ran (onF (fDir .opened)) (.capture tHdr 10 20) (fun t => t.f.answered (tHdr.as 0x42) .ok)) = true := by decide +kernel

/-! ### Registers and Meridian -/

/-- tF in the commissioning state. -/
def fComm : Field := { tF with sec := { tF.sec with comm := true } }
theorem test_register_read : (tF.seqRuns && ran (onF { tF with nev := { tF.nev with missed := 3 } }) (.registerRead 0 .field 0x10104 .dword)
    (fun t => t.f.out == [.read 0 3] && decide (t.f.nev.missed = 0))) = true := by decide +kernel
theorem test_register_read_unaligned : ran tS (.registerRead 2 .field 0x10102 .dword) (fun t => t.h.out == [.unsupported 2]) = true := by
  decide +kernel
theorem test_register_read_part : ran tS (.registerRead 2 .field 0x10104 .other) (fun t => t.h.out == [.unsupported 2]) = true := by
  decide +kernel
theorem test_register_read_no_register : ran tS (.registerRead 1 .field 0 .dword) (fun t => t.f.out == [.read 1 0]) = true := by decide +kernel
theorem test_wide_lo_read : ran (onF (atT tF 0x1122334455667788)) (.wideLoRead 1 .cnt)
    (fun t => t.f.out == [.read 1 0x55667788] && decide ((t.f.merPart 1).cntHi = 0x11223344 ∧ (t.f.merPart 0).cntHi = 0)) = true := by
  decide +kernel
theorem test_register_write : (tF.commissioner 0 && ran tS (.registerWrite 0 .field 0x11000 0x00031200 .dword)
    (fun t => !t.f.sel.enable && t.f.sel.stormN = 0x12 && t.f.sel.stormQuiet = 3)) = true := by decide +kernel
/-- A reserved input code leaves its field unchanged (11, input codes). -/
theorem test_register_write_reserved_input : (ran tS (.registerWrite 0 .field 0x15204 36 .dword) (fun t => tabGet 0 t.f.adc.ent 1 = 36) &&
    ran tS (.registerWrite 0 .field 0x15204 37 .dword) (fun t => t.f.adc.ent == tF.adc.ent) &&
    ran tS (.registerWrite 0 .field 0x15404 0x25240102 .dword) (fun t => (t.f.inj 0).entA == [2, 1, 0x24, 0])) = true := by decide +kernel
theorem test_register_write_part : ran tS (.registerWrite 2 .field 0x11000 0 .qword)
    (fun t => (t.h.hp 2).aerUr && t.f.sel.enable) = true := by decide +kernel
theorem test_register_write_no_role : (!tF.anyRole 3 && ran tS (.registerWrite 3 .field 0x11000 0 .dword)
    (fun t => t.f.sel.enable)) = true := by decide +kernel
theorem test_thm_limit_outside : (tF.anyRole 0 && !tF.sec.comm && ran tS (.registerWrite 0 .field 0x30304 0x00908080 .dword)
    (fun t => t.f.thm.limit = tF.thm.limit)) = true := by decide +kernel
theorem test_thm_limit_commissioning : (fComm.commissioner 0 && Field.limitOk 0x00908981 &&
    ran (onF fComm) (.registerWrite 0 .field 0x30304 0x00908981 .dword) (fun t => t.f.thm.limit = 0x00908981)) = true := by decide +kernel
/-- tF with every partition's cold start unacknowledged. -/
def fCold : Field := { tF with nev := { tF.nev with coldAck := 0xF } }
theorem test_cold_ack : (fCold.writes 0 && ran (onF fCold) (.coldAckWrite 0 0xF) (fun t => t.f.nev.coldAck = 0xE)) = true := by
  decide +kernel
theorem test_hold_all : ran tS (.holdAll 0 true) (fun t => t.f.sel.holdAll) = true := by decide +kernel
theorem test_hist_cfg_fits : (let f := (fDir .opened).modHist 5 (fun h => { h with ring := [
      { tEnd := 0, iMin := 0, iMax := 0, iMean := 0, vMin := 0, vMax := 0, vMean := 0, fresh := 0, span := 0, state := .closed, hflags := 0, seq := 0 }] })
    ran (onF f) (.histCfgWrite 0 8) (fun t => t.f.firn.depth = 8 && !t.f.firn.fitErr && (t.f.chan 5).hist.ring.isEmpty)) = true := by
  decide +kernel
theorem test_hist_cfg_too_deep : (ran tS (.histCfgWrite 0 16) (fun t => t.f.firn.fitErr && t.f.firn.depth = tF.firn.depth) &&
    ran tS (.histCfgWrite 0 7) (fun t => t.f.firn.fitErr) && ran tS (.histCfgWrite 0 17) (fun t => t.f.firn.fitErr)) = true := by decide +kernel
theorem test_log_select : ran tS (.logSelect 0 12) (fun t => tabGet 0 t.f.prt.logSel 0 = 12) = true := by decide +kernel
/-- Compare channel 8, pin compares and timer 0 of partition 0. -/
def fTim : Field :=
  let f := tF
  { f with mer := { f.mer with cmp := tabSet Cmp.reset f.mer.cmp 8 { Cmp.reset with owner := some 0, en := true, evtEn := true, itv := 100, v := 50 },
                               dct := tabSet Dct.reset f.mer.dct 0 { Dct.reset with owner := some 0, reload := 9, evtEn := true, fireDue := true },
                               pcmp := [(0, { Pcmp.reset with en := true, v := 5 })],
                               part := [(0, { MerPart.reset with stoLo := some 0x77, cmpLo := [(8, 3)] })] } }
theorem test_hi_commit_sto : (fTim.writes 0 && ran (onF fTim) (.hiWriteCommit 0 0x16014 1) (fun t => t.f.mer.sto = 0x100000077 &&
    (t.f.merPart 0).stoLo = none)) = true := by decide +kernel
theorem test_hi_commit_cmp : ((fTim.cmp 8).owner == some 0 && ran (onF fTim) (.hiWriteCommit 0 0x16184 2)
    (fun t => (t.f.cmp 8).v = 0x200000003)) = true := by decide +kernel
theorem test_hi_commit_pcmp_wake : (ran (onF fTim) (.hiWriteCommit 0 0x16374 2) (fun t => (t.f.pcmp 7).v = 0x200000000) &&
    ran (onF fTim) (.hiWriteCommit 0 0x3000C 4) (fun t => t.f.pwr.wakeAt = 0x400000000)) = true := by decide +kernel
theorem test_mer_slew : ran tS (.merSlew 0 0xFFFFFFFF) (fun t => t.f.mer.slew = 0xFFFFFFFF) = true := by decide +kernel
theorem test_slew_step : (
    let f := atT { tF with mer := { tF.mer with slew := 0xFFFFFFFF } } 20000
    ran (onF f) .slewStep (fun t => t.f.mer.sto = 0xFFFFFFFFFFFFFFFF && t.f.mer.slew = 0) &&
    ran (onF { f with mer := { f.mer with slew := 2 } }) .slewStep (fun t => t.f.mer.sto = 1 && t.f.mer.slew = 1)) = true := by decide +kernel
theorem test_timer_claim : ((tF.cmp 23).owner == none && ran tS (.timerClaim 0 (.cmp 23)) (fun t => (t.f.cmp 23).owner == some 0) &&
    ran tS (.timerClaim 0 (.dct 15)) (fun t => (t.f.dct 15).owner == some 0)) = true := by decide +kernel
theorem test_timer_release : (ran (onF fTim) (.timerRelease 0 (.cmp 8)) (fun t => (t.f.cmp 8).owner == none && !(t.f.cmp 8).en) &&
    ran (onF fTim) (.timerRelease 0 (.dct 0)) (fun t => (t.f.dct 0).owner == none)) = true := by decide +kernel
theorem test_load : (let ctl : Word := 0x8003
    !bit ctl 30 && decide ((bits ctl 10 6 : BitVec 6).toNat ≠ 0) && decide ((bits ctl 10 6 : BitVec 6).toNat ≤ 32) &&
    ran (onF fTim) (.load 0 0 ctl) (fun t => (t.f.dct 0).count = 9 && (t.f.dct 0).run && (t.f.dct 0).auto)) = true := by decide +kernel
theorem test_compare_fire : (fTim.roomFor 0 && ran (onF (atT fTim 260)) (.compareFire 8) (fun t => (t.f.cmp 8).v = 350 &&
    (t.f.cmp 8).missed = 2 && (t.f.cmp 8).fired && t.f.told 0 0x30 0)) = true := by decide +kernel
theorem test_compare_fire_system : ((tF.cmp 0).en && decide ((tF.cmp 0).v ≤ tF.mer.count) &&
    ran tS (.compareFire 0) (fun t => bit t.f.mer.sysDue 0)) = true := by decide +kernel
theorem test_pcmp_fire : (ran (onF (atT fTim 5)) (.pcmpFire 0) (fun t => (t.f.pcmp 0).fired && (t.f.pcmp 0).level && !(t.f.pcmp 0).en) &&
    ran (onF (atT fTim 4)) (.pcmpFire 0) (fun t => !(t.f.pcmp 0).fired)) = true := by decide +kernel
theorem test_dct_zero : ran (onF fTim) (.dctZero 0) (fun t => (t.f.dct 0).zero && t.f.told 0 0x31 0) = true := by decide +kernel
theorem test_refclk_lost : (!tF.mer.holdover && ran tS .refclkLost (fun t => t.f.mer.holdover && t.f.mer.holdEntries = 1 && t.f.trn.st = .down)) = true := by
  decide +kernel
theorem test_refclk_lost_again : (let f := atT { tF with mer := { tF.mer with holdover := true, holdAt := 5 } } 90
    ran (onF f) .refclkLost (fun t => t.f.mer.holdAt = 90 && t.f.mer.holdEntries = tF.mer.holdEntries)) = true := by decide +kernel
theorem test_refclk_restored : (let f := fSw .closed
    let f := atT { f with mer := { f.mer with holdover := true } } 100000
    decide (f.firn.waiting = []) && ran (onF f) .refclkRestored (fun t => !t.f.mer.holdover && t.f.trn.st = .train && (t.f.lane 0).st = .train)) = true := by decide +kernel
/-- The PPS input is watched, with one edge at count 0. -/
def fPps : Field := { tF with mer := { tF.mer with ppsEn := true, ppsEdges := 1, ppsLost := false } }
theorem test_pps_edge : (ran (onF (atT fPps 100000000)) .ppsEdge (fun t => t.f.mer.ppsOk && t.f.mer.pps = 100000000) &&
    ran (onF (atT fPps 100000)) .ppsEdge (fun t => t.f.mer.ppsBad = 1 && t.f.mer.pps = 0)) = true := by decide +kernel
theorem test_pps_lost : (tF.roomFor 3 && ran (onF (atT fPps (100000000 + fPps.ppsTol))) .ppsLost
    (fun t => !t.f.mer.ppsOk && t.f.mer.ppsLost && t.f.told 3 0x39 0)) = true := by decide +kernel

/-! ### Direct channels and the ADC -/

/-- Channel 5 in a state on direct channel 0, whose gate is on. -/
def fOn (st : ChState) (g : Dch → Dch) : Field :=
  (fDir st).setDch 0 (g { Dch.reset with bound := some 5, mode := .on, dg := true, thresh := 100, clear := true })
theorem test_crossing_immediate : ran (onF (fOn .closed (fun d => { d with immediate := true }))) (.comparatorCrossing 0 ⟨3, 0, 0⟩)
    (fun t => (t.f.dchan 0).mode = .off && !(t.f.dchan 0).dg && (t.f.dchan 0).cmpOpen = 1 && (t.f.chan 5).aux.localTrip) = true := by
  decide +kernel
theorem test_crossing_not_clear : ran (onF (fOn .closed (fun d => { d with mayReport := false }))) (.comparatorCrossing 0 ⟨3, 0, 0⟩)
    (fun t => (t.f.dchan 0).cmp && (t.f.dchan 0).preFrozen == some 0 && (t.f.dchan 0).mode = .on) = true := by decide +kernel
theorem test_crossing_filtered : ran (onF (atT (fOn .closed id) 9)) (.comparatorCrossing 0 ⟨2, 0, 0⟩)
    (fun t => !(t.f.dchan 0).cmp && !(t.f.dchan 0).clear && (t.f.dchan 0).tAssert = 9) = true := by decide +kernel
theorem test_crossing_in_reset : (let f := fOn .closed id
    let f := { f with pwr := { f.pwr with st := .reset, warm := some (.soft, 9000) } }
    !f.coreOn && ran (onF f) (.comparatorCrossing 0 ⟨3, 0, 0⟩) (fun t => (t.f.dchan 0).timer == .holdoff 4000 && (t.f.dchan 0).reports = 1)) = true := by
  decide +kernel
theorem test_holdoff_expiry : (let f := atT (fOn .closed (fun d => { d with timer := .holdoff 40 })) 40
    f.coreOn && ran (onF f) (.holdoffExpiry 0 true) (fun t => (t.f.dchan 0).mode = .off && (t.f.chan 5).nev.state = .tripped &&
      (t.f.chan 5).fr.cause = 0x07) &&
    ran (onF f) (.holdoffExpiry 0 false) (fun t => (t.f.dchan 0).mode = .on && (t.f.dchan 0).timer = .idle)) = true := by decide +kernel
theorem test_hold_limit_expiry : (let f := atT (fOn .closed (fun d => { d with timer := .hold 40 })) 40
    ran (onF f) (.holdLimitExpiry 0 true) (fun t => (t.f.dchan 0).mode = .off && (t.f.chan 5).nev.state = .tripped)) = true := by
  decide +kernel
theorem test_clear_time_expiry : (let f := fOn .closed (fun d => { d with clear := false, cmp := true, tAssert := 5 })
    ran (onF (atT f 1005)) (.clearTimeExpiry 0) (fun t => (t.f.dchan 0).clear && !(t.f.dchan 0).cmp && (t.f.dchan 0).mode = .on) &&
    ran (onF (atT f 1004)) (.clearTimeExpiry 0) (fun t => !(t.f.dchan 0).clear)) = true := by decide +kernel
theorem test_dfb_level_fault : (let f := fOn .closed (fun d => { d with dfb := true })
    ran (onF f) (.dfbLevel 0 ⟨false, 100⟩) (fun t => (t.f.dchan 0).mode = .off && (t.f.dchan 0).drvFault = 1 &&
      (t.f.chan 5).nev.state = .tripped && (t.f.chan 5).fr.cause = 0x14) &&
    ran (onF f) (.dfbLevel 0 ⟨false, 99⟩) (fun t => (t.f.dchan 0).dfb && (t.f.chan 5).nev.state = .closed)) = true := by decide +kernel
theorem test_dfb_level_unbound : (ran tS (.dfbLevel 3 ⟨true, 100⟩) (fun t => (t.f.dchan 3).dfb) &&
    ran (onF (tF.setDch 3 { Dch.reset with dfbPol := true, dfbFilt := 0 })) (.dfbLevel 3 ⟨false, 1⟩) (fun t => (t.f.dchan 3).dfb)) = true := by
  decide +kernel
theorem test_driver_stuck : (let f := fOn .opened (fun d => { d with mode := .off, dg := false, dfb := true, dfbT := 5, tOff := 0 })
    ran (onF (atT f 500)) (.driverStuck 0) (fun t => (t.f.dchan 0).stuck && (t.f.chan 5).aux.lastElem = 0x15) &&
    ran (onF (atT f 499)) (.driverStuck 0) (fun t => !(t.f.dchan 0).stuck)) = true := by decide +kernel
theorem test_scan_slot : (Field.scanOf 13 = 13 && ran (onF (fOn .closed id)) (.scanSlotConversion 0 100 200) (fun t => (t.f.dchan 0).n = 1) &&
    ran (onF (atT (fOn .closed id) 50)) (.scanSlotConversion 0 100 200) (fun t => (t.f.dchan 0).n = 0)) = true := by decide +kernel
theorem test_refbuf_on : (let f := { tF with adc := { tF.adc with refEn := false } }
    ran (onF (atT f 7)) (.refbufEn 0 true) (fun t => t.f.adc.refEn && !t.f.adc.refReady && t.f.adc.tRef = 7)) = true := by decide +kernel
theorem test_refbuf_off : (ran tS (.refbufEn 0 false) (fun t => !t.f.adc.refEn) &&
    (let f := { tF with nev := { tF.nev with cntDirect := 1 } }; ran (onF f) (.refbufEn 0 false) (fun t => t.f.adc.refEn))) = true := by
  decide +kernel
theorem test_ref_ready : (let f := { tF with adc := { tF.adc with refEn := true, refReady := false, tRef := 0 } }
    ran (onF (atT f 20000)) .refReady (fun t => t.f.adc.refReady) && ran (onF (atT f 19999)) .refReady (fun t => !t.f.adc.refReady)) = true := by
  decide +kernel
/-- Slot 39 of cycle 300 starts, a cross-check is due, after two failures. -/
def fXchk : Field := atT { tF with adc := { tF.adc with failRun := 2, passRun := 2 } } 601950
theorem test_cross_check : (fXchk.at39 fXchk.now && fXchk.xchkDue && !fXchk.yields && decide (fXchk.adc.tol ≠ 0) &&
    ran (onF fXchk) (.adcCrossCheck fXchk.now 1000 0) (fun t => t.f.adc.xchkFail && t.f.told 2 0x3C 0 && t.f.adc.lastDiff = 1000 && t.f.adc.xchkAt = 300) &&
    ran (onF fXchk) (.adcCrossCheck fXchk.now 16 0) (fun t => !t.f.adc.xchkFail && t.f.adc.passRun = 3)) = true := by decide +kernel
theorem test_calibration_step : (let f := atT tF 1950
    f.at39 f.now && !f.xchkDue && !f.yields && ran (onF f) (.adcCalibrationStep f.now) (fun t => t.f.adc.calSteps = tF.adc.calSteps + 1)) = true := by decide +kernel
/-- Converter A has two regular entries; sequence 0 one entry and a software trigger, sequence 1 none, sequence 2 has converted. -/
def fAdc : Field :=
  { tF with adc := { tF.adc with lenA := 2, lenNowA := 2, nextA := 1,
                                 inj := [(0, { AdcInj.reset with src := 1, lenA := 1, evtEn := true, trig := some 3 }), (1, { AdcInj.reset with src := 1 }),
                                         (2, { AdcInj.reset with src := 1, lenA := 1, busy := true, runEvtEn := true, runLenA := 1,
                                                                 tStart := 0x1122334455, conv := [(true, false)] })] } }
theorem test_yields : (let f := atT { fAdc with adc := { fAdc.adc with inj := [(0, { AdcInj.reset with src := 1, busy := true, runLenA := 1, runEntA := [32] })] } } 1950
    f.at39 f.now && f.yields && ran (onF f) (.adcCalibrationStep f.now) (fun t => t.f.adc.yieldRun = 1 && t.f.adc.injSlot == some 1950)) = true := by decide +kernel
theorem test_reg_conversion : (fAdc.regSlot .a && ran (onF fAdc) (.adcRegConversion .a 5) (fun t => t.f.adc.nextA = 0 &&
    t.f.adc.passesA = fAdc.adc.passesA + 1) && !(atT fAdc 1).regSlot .a) = true := by decide +kernel
theorem test_inj_swtrig : ran (onF fAdc) (.adcInjSwtrig 0 7) (fun t => (t.f.inj 0).busy && (t.f.inj 1).empty = 1 && !(t.f.inj 1).busy &&
    (t.f.inj 2).overrun = 1) = true := by decide +kernel
theorem test_inj_trigger : ran (onF fAdc) (.adcInjTrigger 0) (fun t => (t.f.inj 0).busy && (t.f.inj 0).trig == none && (t.f.inj 0).tRecog = 3) = true := by
  decide +kernel
theorem test_inj_done : (decide (Field.injNeed (fAdc.inj 2) ≤ (fAdc.inj 2).conv.length) &&
    ran (onF fAdc) (.adcInjDone 2 (fAdc.inj 2).tStart [7] []) (fun t => !(t.f.inj 2).busy && (t.f.inj 2).done &&
      (t.f.inj 2).t = 0x22334455 && t.f.told 0 0x32 0)) = true := by decide +kernel

/-! ### Insertions and samples -/

/-- Channel 5 waits in the insertion queue since count 0. -/
def fQueued : Field :=
  let f := fDir .inserting
  { f with hel := { f.hel with queue := [{ ch := 5, origin := .close, tJoin := 0 }] } }
theorem test_context_claim : (fQueued.intact && fQueued.freeCtx == some 0 && fQueued.claimNext == some { ch := 5, origin := .close, tJoin := 0 } &&
    ran (onF fQueued) .contextClaim (fun t => t.f.hel.queue = [] &&
      (tabLook t.f.hel.ctx 0).elim false (fun c => c.phase = .prepare && c.bankA = tBank && c.bankB = tBank))) = true := by decide +kernel
/-- The same with no valid loop set. -/
def fNoLoop : Field := let f := fQueued; { f with nev := { f.nev with loops := [] } }
theorem test_context_claim_lost : (fNoLoop.freeCtx == some 0 && fNoLoop.claimNext == some { ch := 5, origin := .close, tJoin := 0 } &&
    ran (onF fNoLoop) .contextClaim (fun t => (t.f.chan 5).nev.state = .tripped && (t.f.chan 5).fr.cause = 0x19 && t.f.hel.queue = [] &&
      t.f.hel.fails.getD 1 0 = 1)) = true := by decide +kernel
/-- The profile with QUEUE_TO 10 ms. -/
def fQueueTo : Field := let f := fQueued; { f with nev := { f.nev with prof := [(1, splice tProf 198 [1])] } }
theorem test_queue_timeout : (0 < fQueueTo.queueTo 5 && fQueueTo.queueTo 5 ≤ 1000000 &&
    ran (onF (atT fQueueTo 1000000)) (.queueTimeout 5) (fun t => (t.f.chan 5).nev.state = .tripped && (t.f.chan 5).fr.cause = 0x18 &&
      t.f.hel.fails.getD 0 0 = 1)) = true := by decide +kernel
theorem test_queue_timeout_early : (ran (onF (atT fQueueTo (fQueueTo.queueTo 5 - 1))) (.queueTimeout 5)
    (fun t => (t.f.chan 5).nev.state = .inserting)) = true := by decide +kernel
/-- The insertion in a phase. -/
def fPh (ph : Phase) : Field := withCtx (fDir .inserting) (tCtx (fDir .inserting) ph)
theorem test_stream_fail : (((fPh .prepare).insIn 5 .prepare).isSome &&
    ran (onF (atT (fPh .prepare) 100000000)) (.streamFail 5) (fun t => (t.f.chan 5).fr.cause = 0x19 && t.f.hel.fails.getD 1 0 = 1)) = true := by
  decide +kernel
theorem test_ramp_timeout : (((fPh .ramp).insIn 5 .ramp).isSome && trajVolt (tCtx tF .ramp) &&
    ran (onF (atT (fPh .ramp) 10000000000)) (.rampTimeout 5) (fun t => (t.f.chan 5).fr.cause = 0x1A && t.f.hel.fails.getD 2 0 = 1)) = true := by
  decide +kernel
theorem test_settle_fail : (((fPh .settle).insIn 5 .settle).isSome &&
    ran (onF (atT (fPh .settle) 10000000000)) (.settleFail 5) (fun t => (t.f.chan 5).fr.cause = 0x1F && t.f.hel.fails.getD 7 0 = 1)) = true := by
  decide +kernel
/-- A capture that has waited since count 0, for a command or for none. -/
def fCapWait (r : Option CmdRef) : Field :=
  { tF with firn := { tF.firn with capWait := [{ ch := 5, kind := .request, cause := 0, t := 0, pre := 0, post := 1, ref := r }] } }
theorem test_capture_wait_expiry : (ran (onF (atT (fCapWait none) 10000000)) .captureWaitExpiry
      (fun t => t.f.firn.capWait = [] && t.f.firn.dropNoCtx = 1) &&
    ran (onF (atT (fCapWait none) 9999999)) .captureWaitExpiry (fun t => t.f.firn.capWait.length = 1)) = true := by decide +kernel
theorem test_capture_wait_command : (ran (onF (atT (fCapWait (some (tHdr.as 0x42))) 10000000)) .captureWaitExpiry
      (fun t => t.f.answered (tHdr.as 0x42) .noContext)) = true := by decide +kernel
theorem test_pretrigger_release : (
    let f := tF.setDch 2 { Dch.reset with preFrozen := some 0 }
    ran (onF (atT f 10000000)) (.pretriggerRelease 2) (fun t => (t.f.dchan 2).preFrozen = none) &&
    ran (onF (atT f 9999999)) (.pretriggerRelease 2) (fun t => (t.f.dchan 2).preFrozen = some 0)) = true := by decide +kernel

/-- A remote insertion of channel 5 with stream slot 1 of lane 0. -/
def fStr (ph : Phase) (smp : Option (Word × Count)) : Field :=
  withCtx (fSw .inserting) { tCtx (fSw .inserting) ph with slot := some (0, 1), sample := smp, vHist := [] }
theorem test_stream_sample : (
    let f := fStr .ramp none
    let q : BitVec 4 := BitVec.ofNat 4 (((f.lane 0).cyc - 1) % 16)
    (f.ctxOfSlot 0 1).map (·.1) == some 3 && q.toNat == ((f.lane 0).cyc - 1) % 16 &&
    ran (onF f) (.streamSample 0 1 false q 0x01000010 true) (fun t => (tabLook t.f.hel.ctx 3).bind (·.sample) == some (0x01000010, 0))) = true := by
  decide +kernel
theorem test_loop_sample_prepare : (
    let f := fStr .prepare (some (0x01000010, 0))
    let c := (tabLook f.hel.ctx 3).getD (tCtx f .prepare)
    f.directOf 5 == none && !bit (u8 c.ins 28) 0 && decide (Field.overNext c (smpOf (f.chan 5).nev 0x01000010) < (u8 c.ins 12).toNat) &&
    decide (c.goodRun.toNat < 7) &&
    ran (onF f) (.loopSample 3 0 0 0) (fun t => (tabLook t.f.hel.ctx 3).elim false (fun d => d.phase = .prepare && d.goodRun = 1 &&
      d.periods = 1 && d.sample = none))) = true := by decide +kernel
theorem test_loop_sample_ramp : (
    let f := fStr .ramp (some (0x01000010, 0))
    let c := (tabLook f.hel.ctx 3).getD (tCtx f .ramp)
    trajVolt c && decide (rampAt (c.k + 1) < rampSpan c) && !f.coreBusy c 0 && decide (c.frz.toNat < 7) && decide (c.swap = none) &&
    ran (onF f) (.loopSample 3 0 0 0) (fun t => (tabLook t.f.hel.ctx 3).elim false (fun d => d.phase = .ramp && d.k = 2 &&
      d.ref = BitVec.ofInt 16 (trajRef c 2)))) = true := by decide +kernel
/-- A direct insertion in RAMP with FIRST_GOOD at count 0. -/
def fMiss (m : BitVec 8) : Field :=
  atT (withCtx (fDir .inserting) { tCtx (fDir .inserting) .ramp with firstGood := some 0, missCnt := m, periods := 3 }) 1000000
theorem test_missing_period_direct : (((tabLook (fMiss 0).hel.ctx 3).bind Field.deadline).isSome &&
    ran (onF (fMiss 0)) (.missingPeriod 3) (fun t => (tabLook t.f.hel.ctx 3).elim false (fun d => d.missCnt = 1))) = true := by decide +kernel
theorem test_feedback_lost : (ran (onF (fMiss 1)) (.missingPeriod 3) (fun t => (t.f.chan 5).nev.state = .tripped &&
    (t.f.chan 5).fr.cause = 0x1C && t.f.hel.fails.getD 4 0 = 1)) = true := by decide +kernel
/-- A ramp-off with the gate reference at g. -/
def fOff (g : BitVec 12) : Field :=
  atT (withCtx ((fDir .tripped).setDch 0 { Dch.reset with bound := some 5, mode := .linear }) { tCtx (fDir .tripped) .rampOff with gOut := g }) 1000000
theorem test_ramp_off_step : (let r := rampOff tBank
    decide (r < 4095) && ran (onF (fOff 4095)) (.rampOffStep 3) (fun t => (tabLook t.f.hel.ctx 3).elim false
      (fun d => d.gOut = BitVec.ofNat 12 (4095 - r)))) = true := by decide +kernel
theorem test_ramp_off_ends : (ran (onF (fOff 1)) (.rampOffStep 3) (fun t => tabLook t.f.hel.ctx 3 == none &&
    (t.f.dchan 0).mode = .off)) = true := by decide +kernel
/-- The insertion in HANDOVER past 1 ms, and one in PREPARE whose sample still waits (R211). -/
theorem test_handover_fail : ((fPh .handover).insIn 5 .settle == none && ((fPh .handover).insIn 5 .handover).isSome &&
    ran (onF (atT (fPh .handover) 100000)) (.settleFail 5) (fun t => (t.f.chan 5).fr.cause = 0x1F) &&
    ran (onF (atT (fPh .handover) 99999)) (.settleFail 5) (fun t => (t.f.chan 5).nev.state = .inserting) &&
    ran (onF (atT (fStr .prepare (some (0, 0))) 100000000)) (.streamFail 5) (fun t => (t.f.chan 5).nev.state = .inserting)) = true := by
  decide +kernel

/-! ### Telemetry, ingest and selectivity -/

/-- Bytes 2 to 23 of a telemetry frame of position 0, SFN 0 and three points, the last with its switch closed and current 16. -/
def tFront : Bytes := [1, 0, 0, 0, 0, 3, 0, 0, 0, 0, 0, 0, 0, 0, 16, 0, 0, 17, 14, 141, 148, 99]
/-- The frame: its last four bytes are the CRC-32C of bytes 2 to 279. -/
def tFrame : Bytes := [0xFB, 0xBC] ++ tFront ++ zeros 256 ++ [0xFF, 0xFF, 0xFF, 0xFF]
theorem tFrame_crc : (crc32c (slice tFrame 2 278) = u32 tFrame 280) := by decide +kernel
theorem test_receive_telemetry : (receive (teleChars tFrame) == { opened := [], ord := 0, exp := 0, done := [(true, tFrame)] }) = true := by
  decide +kernel
/-- A start character inside a frame breaks it (R257). -/
theorem test_receive_broken : (receive (teleChars (tFrame.take 20) ++ [⟨true, 0x1C⟩])).ord = 1 := by decide +kernel
/-- tF with the lane in RING and channel 5 in a state; its SFN class allows fresh. -/
def fTel : Field :=
  let f := (fSw .closed).modNev 5 (fun e => { e with sfnLow := 0xFF })
  { f with nev := { f.nev with sfn := 1 } }
theorem test_telemetry_frame : (Field.laneUp (fTel.lane 0) && fTel.chanAt tId 2 == some 5 && fTel.classify 5 0 0x11000010 == .fresh &&
    tFrame.length == 284 && u8 tFrame 2 == 1 && !bit (u8 tFrame 5) 3 && !bit (u8 tFrame 3) 7 &&
    u32 tFrame 16 == 0x11000010) = true := by decide +kernel
theorem test_telemetry_frame_run : (fTel.laneHears 0 && ran (onF fTel) (.telemetryFrame 0 .a (teleChars tFrame)) (fun t =>
      (tabLook (t.f.lane 0).os 0).elim false (fun k => k.seenA && k.id = tId) &&
      t.f.nev.arrivals.any (fun a => a.ch = 5 && a.arr.cls = .fresh && a.arr.word = 0x11000010))) = true := by decide +kernel
theorem test_telemetry_bad : (ran (onF fTel) (.telemetryFrame 0 .b (teleChars (splice tFrame 9 [1])))
    (fun t => (t.f.lane 0).crcOrd = 1 && t.f.nev.arrivals.isEmpty) &&
    ran (onF fTel) (.telemetryFrame 0 .b (teleChars (tFrame.take 9))) (fun t => (t.f.lane 0).crcOrd = 1)) = true := by decide +kernel
theorem test_telemetry_missing : ran (onF fTel) (.telemetryMissing 0 0) (fun t =>
    t.f.nev.arrivals.any (fun a => a.ch = 5 && a.arr.cls = .missing)) = true := by decide +kernel
/-- A fresh arrival of channel 5 waits, with a word whose current is at INST. -/
def fArr (pr : Bytes) (w : Word) : Field :=
  let f := fSw .closed
  { f with nev := { f.nev with prof := [(1, pr)], arrivals := [{ ch := 5, arr := { cls := .fresh, word := w, sfn := 9 } }],
                               mirrorQ := [{ ch := 5, arr := { cls := .fresh, word := w, sfn := 9 } }] } }
/-- INST with M 16 and N 1. -/
def tInst : Bytes := splice tProf 8 [2, 1, 16, 0]
theorem test_ingest_measures : ran (onF (fArr tProf 0x11000010)) (.ingestUpdate 5) (fun t => (t.f.chan 5).nev.iLast = 16 &&
    (t.f.chan 5).nev.sfnLow = 9 && (t.f.chan 5).nev.state = .closed && t.f.nev.arrivals.isEmpty) = true := by decide +kernel
theorem test_ingest_inst_trips : (Field.wordSw 0x11000010 && !Field.wordLocal 0x11000010 && ran (onF (fArr tInst 0x11000010)) (.ingestUpdate 5)
    (fun t => (t.f.chan 5).nev.state = .tripped && (t.f.chan 5).fr.cause = 0x01)) = true := by decide +kernel
theorem test_ingest_inst_below : ran (onF (fArr tInst 0x1100000F)) (.ingestUpdate 5) (fun t => (t.f.chan 5).nev.state = .closed) = true := by
  decide +kernel
theorem test_mirror_update : (let f := fArr tProf 0x11000010
    f.intact && ran (onF { f with nev := { f.nev with arrivals := [] } }) (.mirrorUpdate 5) (fun t => (t.f.chan 5).nev.iLast = 16 &&
      t.f.nev.mirrorQ.isEmpty) && ran (onF f) (.mirrorUpdate 5) (fun t => t.f.nev.mirrorQ.length = 1)) = true := by decide +kernel
theorem test_superframe_mark : (let f := fSw .closed
    let f := { f with mer := { f.mer with sysDue := 1 } }
    ran (onF f) .superframeMark (fun t => t.f.nev.sfn = 1 && t.f.mer.sysDue = 0 && (t.f.lane 0).cyc = 0) &&
    ran (onF { f with pwr := { f.pwr with st := .standby } }) .superframeMark (fun t => t.f.nev.sfn = 1)) = true := by decide +kernel
theorem test_stream_cycle : (let f := (fSw .closed).modLane 0 (fun v => { v with cyc := 3, slots := [.active, .gap 1, .gap 3] })
    let f := atT f 6100
    f.cycleDue 0 && ran (onF f) (.streamCycle 0) (fun t => (t.f.lane 0).cyc = 4 && (t.f.lane 0).slots == [.active, .idle, .gap 2])) = true := by decide +kernel
theorem test_fault_ignored : ((fSw .closed).reporter 0 0 9 == none && ran (onF (fSw .closed)) (.faultSeen 0 0 9 1 false true ⟨0, 0⟩)
    (fun t => t.f.sel.reports = 1 && t.f.sel.ignored = 1)) = true := by decide +kernel
theorem test_fault_opened : ((fSw .closed).reporter 0 0 2 == some 5 && (fSw .closed).sel.enable &&
    ran (onF (fSw .closed)) (.faultSeen 0 0 2 1 true true ⟨400, 0⟩) (fun t => t.f.sel.events.map (·.cand) == [5] && t.f.sel.openedCnt = 1 &&
      t.f.sel.events.map (·.st) == [.committed (360 + BitVec.ofNat 64 (100 * Field.bfUs tProf))])) = true := by decide +kernel
/-- No direct channel owes a CLEARED. -/
theorem test_no_direct_clears : (fSw .closed).clearSweep = fSw .closed := by
  have h : (fSw .closed).dch = [] := by decide +kernel
  simp [Field.clearSweep, h]
/-- An event of channel 5 in a state. -/
def fEv (cst : ChState) (st : SelState) (path : List (BitVec 17)) : Field :=
  let f := fSw cst
  { f with sel := { f.sel with events := [{ num := 7, cand := 5, origCand := 5, path := path, st := st, held := [], reports := 1, late := false, nonsel := false }] } }
theorem test_cleared : ran (onF (fEv .tripped (.committed 9) [5])) (.cleared 0 0 2 1 true) (fun t => t.f.sel.events.isEmpty && t.f.sel.reports = 1) = true := by
  decide +kernel
theorem test_gather_deadline : (let f := atT (fEv .closed (.gather 40) [5]) 40
    (f.ev? 7).isSome && ran (onF f) (.gatherDeadline 7) (fun t => (t.f.chan 5).nev.state = .tripped && (t.f.chan 5).fr.cause = 0x10) &&
    ran (onF (atT f 39)) (.gatherDeadline 7) (fun t => (t.f.chan 5).nev.state = .closed)) = true := by decide +kernel
theorem test_no_backup : (let f := atT (fEv .tripped (.committed 40) [5]) 40
    (f.ev? 7).elim false (fun e => f.backupOf e == none) &&
    ran (onF f) (.breakerFailureExpiry 7) (fun t => t.f.sel.events.isEmpty && t.f.sel.rNoBackup = 1)) = true := by decide +kernel
theorem test_backup_trips : (
    let f := ((fEv .tripped (.committed 40) [5, 6]).setChan 6 (tCh .switched .closed (.point 0 0 3 tId))).modNev 5 (fun e => { e with parent := 6, parentValid := true })
    let f := atT { f with sel := { f.sel with events := f.sel.events.map (fun e => { e with held := [Held.mk 6 false false] }) } } 40
    (f.ev? 7).elim false (fun e => f.backupOf e == some 6) &&
    ran (onF f) (.breakerFailureExpiry 7) (fun t => (t.f.chan 6).nev.state = .tripped && (t.f.chan 6).fr.cause = 0x11)) = true := by decide +kernel
/-- A quiet storm. -/
def tStorm : Storm :=
  { node := 5, code := 1, part := 0, inSf := 0, opened := true, suppressed := 3, tFirst := 0, tLast := 0, quiet := 4, chans := [] }
theorem test_storm_quiet : (let f := fSw .closed
    let f := { f with sel := { f.sel with storms := [tStorm] } }
    f.roomFor 0 && ran (onF f) (.stormQuietExpiry 5 1 0) (fun t => t.f.sel.storms.isEmpty && t.f.told 0 0x1C 0x40000005)) = true := by decide +kernel
theorem test_depth_rewrite : (
    let f := ((fSw .closed).setChan 6 (tCh .switched .closed (.point 0 0 3 tId))).modChan 5 (fun c => { c with nev := { c.nev with parent := 6, parentValid := true }, aux := { c.aux with depthPend := true } })
    ran (onF f) (.depthRewrite 5) (fun t => (t.f.chan 5).nev.depth = 1 && !(t.f.chan 5).aux.depthPend)) = true := by decide +kernel
theorem test_fallback_unsynced : (let f := (fSw .closed).modAux 5 (fun a => { a with fbQueued := some 0 })
    ran (onF (atT f 10000000)) (.fallbackUnsynced 5) (fun t => (t.f.chan 5).aux.fbRaised && (t.f.chan 5).aux.lastElem = 0x0C) &&
    ran (onF (atT f 9999999)) (.fallbackUnsynced 5) (fun t => !(t.f.chan 5).aux.fbRaised)) = true := by decide +kernel
/-- A confirmed trip with a profile's retry block. -/
def fTrip (pr : Bytes) (rc : BitVec 4) : Field :=
  let f := (fSw .tripped).modChan 5 (fun c => { c with fr := { c.fr with cause := 1, rcount := rc }, aux := { c.aux with confirmed := true } })
  { f with nev := { f.nev with prof := [(1, pr)] } }
theorem test_retry_stays : ((Field.policyOf tProf (Field.causeClass 1)).1 == 0 &&
    ran (onF (fTrip tProf 0)) (.retryPolicy 5) (fun t => (t.f.chan 5).nev.state = .tripped && (t.f.chan 5).aux.policyApplied)) = true := by
  decide +kernel
/-- tProf with ACTION a and COUNT 2 in every class. -/
def tRetry (a : Nat) : Bytes := splice tProf 128 ((List.replicate 8 ([BitVec.ofNat 8 a, 2, 5, 0] : Bytes)).flatten)
theorem test_retry_forbidden : (decide (1 < (Field.policyOf (tRetry 2) (Field.causeClass 1)).1) &&
    ran (onF (fTrip (tRetry 2) 0)) (.retryPolicy 5) (fun t => (t.f.chan 5).nev.state = .lockedOut && (t.f.chan 5).fr.lockReason = 1)) = true := by
  decide +kernel
theorem test_retry_exhausted : ran (onF (fTrip (tRetry 1) 2)) (.retryPolicy 5) (fun t => (t.f.chan 5).nev.state = .lockedOut &&
    (t.f.chan 5).fr.lockReason = 2 && t.f.sel.lExhausted = 1) = true := by decide +kernel
theorem test_retry_waits : ran (onF (fTrip (tRetry 1) 1)) (.retryPolicy 5) (fun t => (t.f.chan 5).nev.state = .retryWait &&
    (t.f.chan 5).fr.rcount = 2) = true := by decide +kernel
/-- Channel 5 with a wheel entry due at count 0. -/
def fWheel (st : ChState) (w : Wheel) : Field := (fSw st).modRec 5 (fun r => { r with wheel := w, rcount := 3 })
theorem test_retry_due : ((fWheel .retryWait (.retry 0)).wheelFirst 5 0 && Field.rateMax ((fWheel .retryWait (.retry 0)).profOf 5) == 0 &&
    ran (onF (fWheel .retryWait (.retry 0))) (.retryDue 5 0) (fun t => (t.f.chan 5).nev.state = .inserting &&
      t.f.hel.queue.map (·.ch) == [5] && t.f.sel.retries = 1)) = true := by decide +kernel
theorem test_retry_held : (let f := fWheel .retryWait (.retry 0)
    let f := { f with sel := { f.sel with holdAll := true } }
    ran (onF f) (.retryDue 5 0) (fun t => (t.f.chan 5).nev.state = .retryWait && t.f.hel.queue.isEmpty)) = true := by decide +kernel
theorem test_stable_due : ran (onF (fWheel .closed (.stable 0))) (.stableDue 5 0) (fun t => (t.f.chan 5).fr.rcount = 0 &&
    (t.f.chan 5).fr.wheel = .none) = true := by decide +kernel

/-! ### Lanes -/

/-- tF with lane 0 changed from tLane. -/
def fLane (g : Lane → Lane) : Field := (fSw .closed).modLane 0 g
theorem test_lane_enable : (tF.commissioner 0 && (tF.lane 1).st = .disabled && ran tS (.laneEnable 0 1 true) (fun t => (t.f.lane 1).st = .train && (t.f.lane 1).en)) = true := by
  decide +kernel
theorem test_lane_disable : (tabRises none (fSw .closed).lan.lane && ran (onF (fSw .closed)) (.laneEnable 0 0 false) (fun t => (t.f.lane 0).st = .disabled &&
    (t.f.lane 0).os.all (·.2.missing))) = true := by decide +kernel
theorem test_receiver_lock : (let f := fLane (fun v => { v with st := .train, loopSeen := true, lockB := true })
    ran (onF f) (.receiverLock 0 .a) (fun t => (t.f.lane 0).st = .ring && (t.f.lane 0).lockA && (t.f.lane 0).enumPh ≠ .idle)) = true := by
  decide +kernel
theorem test_loss_of_signal : ((fSw .closed).roomFor 3 && ran (onF (fLane (fun v => { v with lockA := true, lockB := true }))) (.lossOfSignal 0 .b)
    (fun t => (t.f.lane 0).st = .split && !(t.f.lane 0).lockB && (t.f.lane 0).splits = 1 && t.f.told 3 0x28 0)) = true := by decide +kernel
theorem test_mark_reaches_end_b : (ran (onF (fLane (fun v => { v with st := .train, lockA := true, lockB := true }))) (.markReachesEndB 0 30)
      (fun t => (t.f.lane 0).st = .ring && (t.f.lane 0).loopTicks = 30) &&
    ran (onF (fSw .closed)) (.markReachesEndB 0 30) (fun t => (t.f.lane 0).loopSeen && (t.f.lane 0).loopTicks = 30)) = true := by decide +kernel
theorem test_lane_train_timeout : (
    ran (onF (atT (fLane (fun v => { v with st := .train, lockA := true })) 1000000)) (.laneTrainTimeout 0) (fun t => (t.f.lane 0).st = .split) &&
    ran (onF (atT (fLane (fun v => { v with st := .train })) 1000000)) (.laneTrainTimeout 0) (fun t => (t.f.lane 0).st = .isolated) &&
    ran (onF (atT (fLane (fun v => { v with st := .train })) 999999)) (.laneTrainTimeout 0) (fun t => (t.f.lane 0).st = .train)) = true := by
  decide +kernel
theorem test_mark_loop_fail : (ran (onF (atT (fLane (fun v => { v with lockA := true, lockB := true, loopTicks := 30 })) 230)) (.markLoopFail 0)
      (fun t => (t.f.lane 0).st = .split && (t.f.lane 0).tState = 230) &&
    ran (onF (atT (fLane (fun v => { v with lockA := true, lockB := true, loopTicks := 30 })) 229)) (.markLoopFail 0) (fun t => (t.f.lane 0).st = .ring)) = true := by
  decide +kernel
theorem test_wrap : (ran (onF (fSw .closed)) (.wrap 0 4 true true) (fun t => (t.f.lane 0).st = .split && (t.f.lane 0).westPos = 4) &&
    ran (onF (fSw .closed)) (.wrap 0 4 false true) (fun t => (t.f.lane 0).eastPos = 4 && (t.f.lane 0).eastValid) &&
    ran (onF (fSw .closed)) (.wrap 0 4 false false) (fun t => (t.f.lane 0).crcExp = 1 && (t.f.lane 0).st = .ring)) = true := by decide +kernel
/-- A lane split between positions 3 and 4. -/
def fSplit : Field := fLane (fun v => { v with st := .split, westPos := 4, westValid := true, eastPos := 3, eastValid := true })
theorem test_restored : (ran (onF fSplit) (.restored 0 4 true true) (fun t => (t.f.lane 0).restWest) &&
    ran (onF fSplit) (.restored 0 3 false true) (fun t => (t.f.lane 0).restEast)) = true := by decide +kernel
theorem test_reenum : (ran (onF (fSw .closed)) (.reenum 0 0) (fun t => (t.f.lane 0).enumPh = .pending false) &&
    ran (onF (fLane (fun v => { v with enumPh := .pending true }))) (.reenum 0 0) (fun t => (t.f.lane 0).enumHeld)) = true := by decide +kernel
theorem test_heal : (let f := fSplit.modLane 0 (fun v => { v with restWest := true, restEast := true, lockA := true, lockB := true })
    Field.mended (f.lane 0) && ran (onF f) (.heal 0 0) (fun t => (t.f.lane 0).healAsked)) = true := by decide +kernel
/-- The outstation of lane 0 changed. -/
def fOs (g : Outst → Outst) : Field := fLane (fun v => { v with os := [(0, g tOs)] })
theorem test_outstation_missing : (ran (onF (fOs (fun o => { o with missCnt := 6 }))) (.outstationMissing 0 0) (fun t =>
      (tabLook (t.f.lane 0).os 0).elim false (·.missing) && (t.f.chan 5).nev.state = .fallback && (t.f.chan 5).aux.osMissing) &&
    ran (onF (fOs (fun o => { o with missCnt := 5 }))) (.outstationMissing 0 0) (fun t => (t.f.chan 5).nev.state = .closed)) = true := by decide +kernel
theorem test_lane_degraded : (ran (onF (fLane (fun v => { v with cvLimit := 100 }))) (.laneDegraded 0 101 0) (fun t => (t.f.lane 0).degraded &&
      (t.f.lane 0).cvA = 101 && t.f.told 1 0x2A 0) &&
    ran (onF (fLane (fun v => { v with cvLimit := 100 }))) (.laneDegraded 0 100 100) (fun t => !(t.f.lane 0).degraded)) = true := by decide +kernel
theorem test_health_poll : (let f := fSw .closed
    let f := { f with mer := { f.mer with sysDue := 0x40 } }
    let w := f.modLane 0 (fun v => { v with occA := 500, occB := 500 })
    Field.pollNext (f.lane 0) == some 0 && decide (f.lan.lane = [(0, f.lane 0)]) && Field.endOf (f.lane 0) 0 == some false &&
    f.wireFree 0 false && f.fits 0 false 96 0 && !w.wireFree 0 false &&
    ran (onF f) .healthPoll (fun t => (t.f.lane 0).polls.map (·.1) == [0] && t.f.mer.sysDue = 0) &&
    ran (onF w) .healthPoll (fun t => (t.f.lane 0).polls.isEmpty && (t.f.lane 0).pollQ == [(0, false)])) = true := by decide +kernel
/-- A poll of position 0 out since count 0. -/
def fPoll : Field := fLane (fun v => { v with polls := [(0, false, 0)] })
/-- An answer of position 0 with a TYPE and a payload. -/
def tAns (ty : Byte) (d : Bytes) : Bytes :=
  let body := [ty, 0, 0, BitVec.ofNat 8 d.length] ++ d
  [0xFB] ++ body ++ le 4 (crc32c body) ++ [0xFD]
def tHealth : Bytes := tAns 0xB0 (pad 75 (le 8 tId ++ zeros 24 ++ [0xF] ++ zeros 7 ++ [3]))
theorem test_receive_frame : (receive (frameChars tHealth) == { opened := [], ord := 0, exp := 0, done := [(false, tHealth)] }) = true := by
  decide +kernel
theorem test_health_answer : (fPoll.laneHears 0 && ran (onF fPoll) (.healthAnswer 0 .a (frameChars tHealth)) (fun t =>
    (t.f.lane 0).polls.isEmpty && (tabLook (t.f.lane 0).os 0).elim false (fun o => o.present = 0xF && o.switched = 3 && o.healthy))) = true := by
  decide +kernel
theorem test_health_answer_bad : ran (onF fPoll) (.healthAnswer 0 .a (frameChars (splice tHealth 9 [1]))) (fun t =>
    (t.f.lane 0).crcOrd = 1 && (t.f.lane 0).polls.length = 1) = true := by decide +kernel
theorem test_health_poll_timeout : (ran (onF (atT fPoll 20000)) (.healthPollTimeout 0 0) (fun t => (t.f.lane 0).polls.isEmpty && (t.f.lane 0).pollsLost = 1) &&
    ran (onF (atT fPoll 19999)) (.healthPollTimeout 0 0) (fun t => (t.f.lane 0).pollsLost = 0)) = true := by decide +kernel
/-- A baseline read of point 2 is out. -/
def fRead : Field :=
  ((fLane (fun v => { v with eReads := [(0, 2, 0)] })).modMet 5 (fun m => { m with sync := .baseWait })).modRec 5 (fun r => { r with elsb := 1 })
theorem test_energy_answer : (fRead.metered 5 == [5] && decide (fRead.nev.ch = [(5, fRead.chan 5)]) &&
    ran (onF fRead) (.energyAnswer 0 .b (frameChars (tAns 0xA8 ([2, 0] ++ toLe 77 6 ++ toLe 88 6)))) (fun t =>
      (t.f.lane 0).eReads.isEmpty && (t.f.chan 5).met.imgImp = 77 && (t.f.chan 5).met.imgExp = 88 && (t.f.chan 5).met.sync = .ok)) = true := by decide +kernel
theorem test_command_resend : (let f := (fSw .closed).setLink tId { OsLink.empty with base := some 0, sent := [{ cnum := 1, cmd := .openPoint 2, sf := 0, due := false, rep := 0 }] }
    let f := { f with nev := { f.nev with sfCount := 2 } }
    let w := f.modLane 0 (fun v => { v with occA := 500, occB := 500 })
    (f.served tId).elim false (fun w => f.mayLeaveEnd w.1 w.2.2 (.openPoint 2)) && ran (onF f) (.commandResend 0 0) (fun t =>
      (t.f.link tId).sent.map (·.sf) == [2] && (t.f.lane 0).resent = 1) &&
    (w.served tId).elim false (fun k => !w.mayLeaveEnd k.1 k.2.2 (.openPoint 2)) && ran (onF w) (.commandResend 0 0) (fun t =>
      (t.f.link tId).sent.map (·.due) == [true] && (t.f.lane 0).resent = 0)) = true := by decide +kernel

/-! ### Safety, temperature, power and resets -/

theorem test_enter_safe : (tF.writes 0 && !tF.saf.safe && ran (onF (fOn .closed id)) (.enterSafe 0 true) (fun t => t.f.saf.safe && t.f.saf.reason = 0x12 &&
    t.f.saf.entries = tF.saf.entries + 1 && (t.f.dchan 0).mode = .off && (t.f.chan 5).nev.state = .tripped)) = true := by decide +kernel
theorem test_confirm_outside : (!tF.sec.comm && ran tS (.safConfirm 0 0) (fun t => t.f.saf.last = tF.saf.last && t.f.saf.commit == none)) = true := by
  decide +kernel
/-- A commissioning state in the safe state or not, with a staging block. -/
def fStage (safe : Bool) (b : Bytes) : Field :=
  { tF with sec := { tF.sec with comm := true }, saf := { tF.saf with safe := safe, staging := b } }
/-- The default block without its trailing zeros: every field reads the same. -/
def tBlock : Bytes := safDefault.take 36
theorem test_confirm_not_safe : ran (onF (fStage false tBlock)) (.safConfirm 0 0) (fun t => t.f.saf.last = 2) = true := by decide +kernel
theorem test_confirm_crc : (crc32c tBlock ≠ 0 ∧ ran (onF (fStage true tBlock)) (.safConfirm 0 0) (fun t => t.f.saf.last = 3) = true) := by
  decide +kernel
theorem test_confirm_good : (Field.safBadOffset tBlock = none ∧
    ran (onF (fStage true tBlock)) (.safConfirm 0 (crc32c tBlock)) (fun t => t.f.saf.commit == some tBlock && t.f.nvm.upd.length = 1) = true) := by
  decide +kernel
/-- A block with a reserved byte set. -/
def badBlock : Bytes := splice tBlock 1 [0xFF]
theorem test_confirm_bad_field : ((Field.safBadOffset badBlock).isSome ∧
    ran (onF (fStage true badBlock)) (.safConfirm 0 (crc32c badBlock)) (fun t => t.f.saf.last = 4) = true) := by decide +kernel
/-- The short block is active. -/
def fAct : Field := atT { tF with saf := { tF.saf with active := tBlock, activeCrc := crc32c tBlock } } 100000000
theorem test_param_check_good : (crc32c fAct.saf.active = fAct.saf.activeCrc ∧ ¬ fAct.now < fAct.saf.paramDue ∧
    ran (onF fAct) (.paramCheck [] false false) (fun t => !t.f.saf.fParam && !t.f.saf.safe && t.f.saf.paramDue = 200000000) = true) := by
  decide +kernel
theorem test_param_check_changed : (ran (onF fAct) (.paramCheck [(10, 1)] true true) (fun t => t.f.saf.fParam && t.f.saf.safe &&
      t.f.saf.lastReason = 0x0C && !t.f.saf.confirmed) &&
    ran (onF { fAct with saf := { fAct.saf with paramDue := 100000001 } }) (.paramCheck [(10, 1)] true true) (fun t => !t.f.saf.fParam)) = true := by
  decide +kernel
/-- The default block is active, and stands in both NVM copies. -/
def fImg : Field :=
  atT { tF with nvm := { tF.nvm with safety := Img.both 2 safDefault }, saf := { tF.saf with active := safDefault, activeCrc := crc32c safDefault } } 100000000
theorem test_param_check_reload : ran (onF fImg) (.paramCheck [(10, 1)] true false) (fun t => t.f.saf.active = safDefault &&
    !t.f.saf.fParam && t.f.saf.safe && t.f.saf.lastReason = 0x0C) = true := by decide +kernel

/-- Every EPO channel at run, no demand. -/
def fRun : Field := { tF with saf := { tF.saf with epo := 0xFF, rearmSeen := true } }
theorem test_epo_demand : (Field.pairEn fRun.saf 2 && Field.isDemand fRun.saf 5 false && !Field.pairDemand fRun.saf 2 &&
    ran (onF fRun) (.epoLevel 2 .b false) (fun t => t.f.saf.safe && t.f.saf.reason = 3 && t.f.saf.epo = 0xDF)) = true := by decide +kernel
theorem test_epo_same : ran (onF fRun) (.epoLevel 2 .b true) (fun t => !t.f.saf.safe && t.f.saf.epo = 0xFF) = true := by decide +kernel
theorem test_discrepancy : (let f := { fRun with saf := { fRun.saf with epo := 0xFE, disc := [(0, 0)] } }
    Field.pairDiffers f.saf 0 && ran (onF (atT f 2000000)) (.discrepancyExpiry 0) (fun t => bit t.f.saf.fDisc 0 && t.f.saf.lastReason = 0x08) &&
    ran (onF (atT f 1999999)) (.discrepancyExpiry 0) (fun t => !bit t.f.saf.fDisc 0)) = true := by decide +kernel
theorem test_epo_schedule : (let f := { fRun with mer := { fRun.mer with sysDue := 0x20 } }
    ran (onF f) (.epoTestSchedule true) (fun t => tabLook t.f.saf.pulseDue 7 == some 350000 && !t.f.saf.fLogic) &&
    ran (onF f) (.epoTestSchedule false) (fun t => t.f.saf.fLogic && t.f.saf.safe && t.f.saf.lastReason = 0x0D)) = true := by decide +kernel
theorem test_pulse_start : (let f := { fRun with saf := { fRun.saf with pulseDue := [(3, 40)] } }
    ran (onF (atT f 40)) (.testPulseStart 3) (fun t => t.f.saf.epot = 0xF7 && t.f.saf.masked = 0x08)) = true := by decide +kernel
/-- A pulse of channel 3 since count 0. -/
def fPulse (saw : Bool) (back : Bool) : Field :=
  { fRun with saf := { fRun.saf with pulseAt := [(3, 0)], epot := if back then 0xFF else 0xF7, masked := 8, held := 0xFF,
                                     dipped := if saw then 8 else 0, fTest := if back then 8 else 0 } }
theorem test_pulse_end : (ran (onF (atT (fPulse true false) 20000)) (.testPulseEnd 3) (fun t => t.f.saf.epot = 0xFF && t.f.saf.fTest = 0) &&
    ran (onF (atT (fPulse false false) 20000)) (.testPulseEnd 3) (fun t => t.f.saf.fTest = 8 && t.f.saf.safe && t.f.saf.lastReason = 0x09)) = true := by
  decide +kernel
theorem test_mask_end : ran (onF (atT (fPulse true true) 25000)) (.maskEnd 3) (fun t => t.f.saf.masked = 0 && t.f.saf.fTest = 0) = true := by decide +kernel
theorem test_output_mismatch : ran (onF fRun) (.outputMismatch (.dg 15)) (fun t => t.f.saf.outPins == [.dg 15] && t.f.saf.lastReason = 0x0B) = true := by
  decide +kernel
theorem test_output_match : ran (onF { fRun with saf := { fRun.saf with outPins := [.safeout 3] } }) (.outputMatch (.safeout 3))
    (fun t => t.f.saf.outPins.isEmpty) = true := by decide +kernel
theorem test_rearm_press : ran (onF (atT fRun 9)) .rearmPress (fun t => t.f.saf.rearm && t.f.saf.tRearm = 9) = true := by decide +kernel
/-- REARM pressed since count 0 in the safe state. -/
def fPress : Field := { fRun with saf := { fRun.saf with safe := true, rearm := true, tRearm := 0, tReason := 0 } }
theorem test_rearm_release : (!Field.faulted fPress.saf && (List.range 4).all (fun k => !Field.pairDemand fPress.saf k) &&
    ran (onF (atT fPress 5000000)) .rearmRelease (fun t => !t.f.saf.safe && t.f.saf.safeout = bits (u8 safDefault 3) 0 4) &&
    ran (onF (atT fPress 300000000)) .rearmRelease (fun t => !t.f.saf.safe) &&
    ran (onF (atT fPress 4999999)) .rearmRelease (fun t => t.f.saf.safe && t.f.saf.short = 1) &&
    ran (onF (atT fPress 300000001)) .rearmRelease (fun t => t.f.saf.safe && t.f.saf.fStuck)) = true := by decide +kernel
theorem test_rearm_refused : (let f := { fPress with saf := { fPress.saf with fLogic := true } }
    ran (onF (atT f 5000000)) .rearmRelease (fun t => t.f.saf.safe && t.f.saf.refused = 1)) = true := by decide +kernel
theorem test_stuck_rearm : (ran (onF (atT fPress 300000001)) .stuckRearm (fun t => t.f.saf.fStuck && t.f.saf.pressStuck) &&
    ran (onF (atT fPress 300000000)) .stuckRearm (fun t => !t.f.saf.fStuck)) = true := by decide +kernel
theorem test_rearm_stuck_clear : ran (onF (atT { fRun with saf := { fRun.saf with fStuck := true, rearm := false, tRearm := 0 } } 100000000)) .rearmStuckClear
    (fun t => !t.f.saf.fStuck) = true := by decide +kernel

theorem test_thermometry_demand : (let f := { tF with mer := { tF.mer with sysDue := 4 } }
    ran (onF f) (.thermometryDemand .field) (fun t => t.f.thm.gate == some (1000, []) && t.f.mer.sysDue = 0)) = true := by decide +kernel
/-- A gate at the trim counts reads T0. -/
def tGate : Gate := { n1 := 1000, n2 := 1000 }
/-- Twelve sites that read T0 t, with a demand's gate ended. -/
def fHot (t0 : Int) (g : Thm → Thm) : Field :=
  { tF with thm := g { tF.thm with trim := (List.range 12).map (fun k => (k, { Trim.reset with t0 := t0 })), gate := some (0, []) } }
theorem test_thermometry_reading : (reading Trim.reset tGate == some 100 && (List.range 12).all (fun k => reading ((fHot 580 id).thm.trimAt k) tGate == some 580) &&
    ran (onF (fHot 580 (fun t => { t with thrIn := 1 }))) (.thermometryReading .field (List.replicate 12 tGate)) (fun t => t.f.thm.throttle &&
      t.f.pwr.step1 && t.f.pwr.st = .trim && t.f.thm.gate == none)) = true := by decide +kernel
theorem test_thermometry_invalid : ran (onF (fHot 100 (fun t => { t with site := [(0, { Site.reset with badRun := 3 })] })))
    (.thermometryReading .field ({ n1 := 1, n2 := 1 } :: List.replicate 11 tGate)) (fun t => (t.f.thm.siteAt 0).broken && !(t.f.thm.siteAt 0).valid &&
      (t.f.thm.siteAt 1).valid) = true := by decide +kernel
/-- Site 2 awaits its confirming reading. -/
def fConf (t0 : Int) : Field := fHot t0 (fun t => { t with confirm := [{ site := 2, first := 600, tries := 0, due := 0 }] })
theorem test_confirming_reading : (ran (onF (fConf 600)) (.confirmingReading .field 2 tGate) (fun t => t.f.pwr.st = .thermalOff && t.f.saf.lastReason = 0x10 &&
      t.f.thm.shutCount = 1) &&
    ran (onF (fHot 600 (fun t => { t with confirm := [{ site := 2, first := 600, tries := 0, due := 1 }] }))) (.confirmingReading .field 2 tGate)
      (fun t => t.f.pwr.st = .run && t.f.thm.confirm.length = 1) &&
    ran (onF (fConf 599)) (.confirmingReading .field 2 tGate) (fun t => t.f.pwr.st = .run && t.f.thm.unconfirmed = 1 && t.f.thm.confirm.isEmpty)) = true := by
  decide +kernel
/-- THERMAL-OFF for d ticks with n measurements, r good in a row. -/
def fOffT (d n r : Nat) : Field :=
  let f := fHot 100 (fun t => { t with offN := n, offRun := r, offT := d }); { f with pwr := { f.pwr with st := .thermalOff } }
theorem test_thermal_off : ((100 : Int) < (fOffT 0 0 0).thm.shutLvl - 60 ∧
    ran (onF (fOffT 99000000 98 5)) (.thermalOffMeasurement (List.replicate 12 tGate) true) (fun t => t.f.pwr.st = .thermalOff && t.f.thm.offN = 99) = true ∧
    ran (onF (fOffT 98999999 98 5)) (.thermalOffMeasurement (List.replicate 12 tGate) true) (fun t => t.f.thm.offN = 98) = true) := by
  decide +kernel
theorem test_thermal_restart : ran (onF (fOffT 100000000 99 2)) (.thermalOffMeasurement (List.replicate 12 tGate) true)
    (fun t => t.f.coldFrom (fOffT 100000000 99 2) .thermal) = true := by decide +kernel
theorem test_throttle_step2 : (let f := fHot 580 (fun t => { t with throttle := true, decision := 580 })
    let f := { f with pwr := { f.pwr with step1 := true } }
    ran (onF (atT f 1000000000)) .throttleStep2 (fun t => t.f.pwr.step2) && ran (onF (atT f 999999999)) .throttleStep2 (fun t => !t.f.pwr.step2)) = true := by
  decide +kernel
theorem test_defer_span_close : (let f := { tF with pwr := { tF.pwr with step2 := true, tSpan := 0 }, firn := { tF.firn with histSf := 9 } }
    ran (onF (atT f 6553500000000)) .deferSpanClose (fun t => t.f.firn.histSf = 0 && t.f.pwr.tSpan = 6553500000000) &&
    ran (onF (atT f 6553499999999)) .deferSpanClose (fun t => t.f.firn.histSf = 9)) = true := by decide +kernel
theorem test_demand_interval_end : (let f := atT ((fDir .closed).modMet 5 (fun m => { m with runImp := 9, demImp := 2, demPeak := 3 })) 90000000000
    decide (f.station.toNat / Field.demandTicks ≠ f.firn.demIdx) && decide ((f.select (fun _ => true)).count 5 = 1) &&
    ran (onF f) .demandIntervalEnd (fun t => (t.f.chan 5).met.demImp = 9 && (t.f.chan 5).met.demPeak = 9 && (t.f.chan 5).met.runImp = 0)) = true := by
  decide +kernel
theorem test_req_run_quiet : (tF.writes 0 && decide (tF.pwr.entry = none) && ran tS (.reqRunQuiet 0 true) (fun t => t.f.pwr.st = .quiet && t.f.pwr.req = 1)) = true := by
  decide +kernel
theorem test_req_standby : (ran tS (.reqStandby 0) (fun t => t.f.pwr.entry == some 0 && t.f.pwr.req = 2) &&
    ran (onF (fOn .closed id)) (.reqStandby 0) (fun t => t.f.pwr.refuse = 1 && t.f.pwr.entry == none)) = true := by decide +kernel
theorem test_standby_entry : (let f := fSw .closed
    let f := { f with pwr := { f.pwr with entry := some 0 } }
    ran (onF f) .standbyEntry (fun t => t.f.pwr.st = .standby && t.f.trn.st = .down && (t.f.lane 0).st = .disabled && t.f.firn.st = .selfRefresh)) = true := by
  decide +kernel
/-- STANDBY with sources. -/
def fStby (pin time link : Bool) : Field :=
  { tF with pwr := { tF.pwr with st := .standby, wakePin := pin, wakeTime := time, wakeLink := link, wakeAt := 7 }, firn := { tF.firn with st := .selfRefresh } }
theorem test_wake_pin : (ran (onF (fStby true false false)) .wakePin (fun t => t.f.pwr.st = .run && t.f.pwr.wake = 1 && t.f.firn.st = .train) &&
    ran (onF (fStby false false false)) .wakePin (fun t => t.f.pwr.st = .standby)) = true := by decide +kernel
theorem test_wake_time : (ran (onF (atT (fStby false true false) 7)) .wakeTime (fun t => t.f.pwr.wake = 2) &&
    ran (onF (atT { fStby false true false with pwr := { (fStby false true false).pwr with tCheck := 7 } } 7)) .wakeTime (fun t => t.f.pwr.st = .standby) &&
    ran (onF (atT (fStby false true false) 6)) .wakeTime (fun t => t.f.pwr.st = .standby)) = true := by decide +kernel
theorem test_wake_link : ran (onF (fStby false false true)) .wakeLink (fun t => t.f.pwr.wake = 3 && t.f.trn.st = .train) = true := by decide +kernel
theorem test_por : ran (onF (fSw .closed)) (.por .field) (fun t => t.f.coldFrom (fSw .closed) .por) = true := by decide +kernel
theorem test_bor : ran (onF (fSw .closed)) (.bor .field) (fun t => t.f.coldFrom (fSw .closed) .bor) = true := by decide +kernel
theorem test_pin : (ran (onF fIns) (.pin .field) (fun t => t.f.pwr.warm == some (.pin, 100100) && t.f.hel.ctx.isEmpty && t.f.trn.st = .down) &&
    ran (onF (fOffT 0 0 0)) (.pin .field) (fun t => t.f.pwr.st = .thermalOff)) = true := by decide +kernel
theorem test_wdt : ran (onF fIns) (.wdt .field) (fun t => t.f.pwr.warm == some (.wdt, 100000)) = true := by decide +kernel
theorem test_soft : (ran tS (.soft 0 0x50F7) (fun t => t.f.pwr.warm == some (.soft, 100000)) &&
    ran tS (.soft 0 0x50F6) (fun t => t.f.pwr.warm == none)) = true := by decide +kernel
theorem test_warm_reset_end : (let f := fDir .inserting
    let f := { f with pwr := { f.pwr with st := .reset, warm := some (.wdt, 7) } }
    ran (onF (atT f 7)) .warmResetEnd (fun t => t.f.pwr.st = .run && t.f.pwr.rstWdt = 1 && t.f.pwr.rstLast = 3 && (t.f.chan 5).nev.state ≠ .inserting)) = true := by
  decide +kernel

/-! ### Firn, the stores and the log -/

theorem test_firn_ready : ran (onF { tF with firn := { tF.firn with st := .train, trainFails := 1 } }) .firnReady (fun t => t.f.firn.st = .ready &&
    t.f.firn.trainFails = 0) = true := by decide +kernel
theorem test_fill_done : ran (onF { tF with firn := { tF.firn with filled := false } }) .fillDone (fun t => t.f.firn.filled) = true := by decide +kernel
theorem test_ca_parity : (ran tS (.caParityAlert false true) (fun t => t.f.firn.accFails = 1 && t.f.firn.caRetry = 1 && t.f.firn.wcRetry = 0) &&
    ran (onF { tF with firn := { tF.firn with accFails := 3 } }) (.caParityAlert true false) (fun t => t.f.firn.st = .train && t.f.firn.wcRetry = 0) &&
    ran (onF { tF with firn := { tF.firn with st := .train, trainFails := 1 } }) (.caParityAlert false false) (fun t => t.f.firn.st = .failed)) = true := by
  decide +kernel
/-- A command that has waited for Firn since count 0. -/
def fWait : Field := { tF with firn := { tF.firn with st := .train, waiting := [{ ref := tHdr.as 0x15, cmd := .release, t := 0, roles := 1 }] } }
theorem test_firn_down_timeout : (ran (onF (atT fWait 3000000)) .firnDownTimeout (fun t => t.f.answered (tHdr.as 0x15) .firnDown && t.f.firn.waiting.isEmpty) &&
    ran (onF (atT fWait 2999999)) .firnDownTimeout (fun t => t.f.firn.waiting.length = 1)) = true := by decide +kernel
/-- A CMP3 fire is due. -/
def fPlough : Field := { tF with mer := { tF.mer with sysDue := 8 } }
theorem test_plough_moves : (ran (onF fPlough) (.ploughBlock []) (fun t => t.f.firn.block = 1 && t.f.mer.sysDue = 0) &&
    (let f := { fPlough with firn := { fPlough.firn with block := 2097151 } }
     ran (onF f) (.ploughBlock []) (fun t => t.f.firn.block = 0 && t.f.firn.passes = f.firn.passes + 1))) = true := by decide +kernel
theorem test_plough_corrects : ((match rsDecode (pad 36 [5]) with | .corrected _ => true | _ => false) && decide (fPlough.firn.poisoned = []) &&
    decide (fPlough.firn.failedDev = []) &&
    ran (onF fPlough) (.ploughBlock [(3, [5])]) (fun t => t.f.firn.ce = tF.firn.ce + 1)) = true := by decide +kernel
theorem test_neve_scrub : (ran tS (.neveScrub []) (fun t => t.f.nev.scrubPos = 1) &&
    ran tS (.neveScrub [(0, [5])]) (fun t => t.f.nev.scrubPos = 1 && t.f.nev.eccCorr = 1)) = true := by decide +kernel
theorem test_neve_recovery : (let f := (fSw .closed).modRec 5 (fun r => { r with thermSnap := 77 })
    let f := { f with nev := { f.nev with recovering := [5] } }
    ran (onF f) (.neveRecoveryDone 5) (fun t => t.f.nev.recovering.isEmpty && (t.f.chan 5).nev.state = .closed && (t.f.chan 5).nev.therm = 77 &&
      t.f.nev.eccRecov = 1)) = true := by decide +kernel
/-- A pattern of three symbols, a multiple of x^2 + 3x + 2. -/
def tBad : Bytes := zeros 33 ++ [1, 3, 2]
theorem test_uncorrectable : rsDecode (pad 36 tBad) = .uncorrectable :=
  rsDecode_uncorrectable _ (by decide +kernel) (by decide +kernel) (by decide +kernel) (by decide +kernel)
/-- The scrub stands at the entry of channel 5. -/
def fScrub : Field := let f := fSw .closed; atT { f with nev := { f.nev with scrubPos := 5 } } 100000
theorem test_scrub_uncorrectable : (fScrub.intact && (fScrub.chan 5).nev.state ≠ .free && !fScrub.nev.recovering.contains 5) = true := by
  decide +kernel
theorem test_scrub_due : (ran (onF fScrub) (.neveScrub [(5, [5])]) (fun t => t.f.nev.eccCorr = 1 && t.f.nev.scrubPos = 6 && t.f.nev.errs.isEmpty) &&
    ran (onF (atT fScrub 3)) (.neveScrub []) (fun t => t.f.nev.scrubPos = 5)) = true := by decide +kernel
theorem test_plough_no_errors : (Field.changed (pad 36 [5]) (match rsDecode (pad 36 [5]) with | .corrected es => es | _ => []) = zeros 36 ∧
    fPlough.intact = true ∧ 3 < fPlough.firnCws) := by decide +kernel
/-- A read that no check watches rejects nothing (R344). -/
theorem test_ca_parity_off : (let f := { tF with firn := { tF.firn with caParNow := false } }
    ran (onF f) (.caParityAlert false true) (fun t => t.f.firn.caRetry = 0)) = true := by decide +kernel

/-- A log record. -/
def tRec (ty : Byte) : LogRec := { type := ty, t := 0, body := [1], conts := [] }
/-- A ready log with records waiting. -/
def fLog (em od : List LogRec) : Field := { tF with nvm := { tF.nvm with log := { tF.nvm.log with ready := true, emerg := em, ord := od } } }
theorem test_log_write_emergency : (decide (1 ≤ (fLog [tRec 0x40] []).nvm.log.room) && ran (onF (fLog [tRec 0x40] [tRec 2])) (.logWrite false) (fun t =>
    t.f.nvm.log.emerg.isEmpty && t.f.nvm.log.ord.length = 1 && (tabLook t.f.nvm.log.place 0).isSome && t.f.nvm.log.seq = 2)) = true := by decide +kernel
theorem test_log_write_ordinary : (decide (65 ≤ (fLog [] [tRec 2]).nvm.log.room) && ran (onF (fLog [] [tRec 2])) (.logWrite false) (fun t =>
    t.f.nvm.log.ord.isEmpty && t.f.nvm.log.seq = 2)) = true := by decide +kernel
theorem test_log_write_low : (let f := fLog [] [tRec 2]
    let f := { f with nvm := { f.nvm with log := { f.nvm.log with badHdr := List.range 192 } } }
    decide (f.nvm.log.room < 65) && ran (onF f) (.logWrite false) (fun t => t.f.nvm.log.ord.length = 1)) = true := by decide +kernel
/-- Log sector 3 is being erased. -/
def fErase : Field := { tF with nvm := { tF.nvm with log := { tF.nvm.log with ready := true, erasing := some 3, place := [(2, [1]), (381, [7])] } } }
theorem test_sector_erase_done : (ran (onF fErase) (.sectorEraseDone false) (fun t => t.f.nvm.log.place == [(2, [1])] && tabGet 0 t.f.nvm.log.erases 3 = 1) &&
    ran (onF fErase) (.sectorEraseDone true) (fun t => t.f.nvm.log.retired == [3] && t.f.nvm.log.erasing == none)) = true := by decide +kernel
theorem test_log_scan : (!tF.nvm.log.ready && ran tS .logScan (fun t => t.f.nvm.log.ready && t.f.nvm.log.place.length = 1 && t.f.nvm.log.seq = 2)) = true := by
  decide +kernel
theorem test_token_refill : (let f := { tF with nvm := { tF.nvm with log := { tF.nvm.log with tokens := 3, lostN := 2, lostType := 9 } } }
    ran (onF (atT f 50000000)) .tokenRefill (fun t => t.f.nvm.log.tokens = 4 && t.f.nvm.log.ord.map (·.type) == [7] && t.f.nvm.log.lostN = 0) &&
    ran (onF (atT f 49999999)) .tokenRefill (fun t => t.f.nvm.log.tokens = 3)) = true := by decide +kernel
theorem test_image_update_field : (let f := { tF with nvm := { tF.nvm with upd := [{ item := 1, payload := [5] }] } }
    ran (onF f) (.imageUpdate .field 1 false) (fun t => t.f.nvm.upd.isEmpty && t.f.sec.bl = 5)) = true := by decide +kernel
theorem test_image_update_host : (let h := { tH with nvm := { tH.nvm with upd := [{ item := 2, payload := setupBytes [1, 2, 3, 4] }] } }
    h.linkOn && ran (onH h) (.imageUpdate .host 2 false) (fun t => t.h.nvm.upd.isEmpty && t.h.setup == [1, 2, 3, 4])) = true := by decide +kernel

/-! ### Transit -/

/-- A message that arrives whole, in order at a die that expects SEQ q. -/
def tLh (cls : Bool) (ty part : Byte) (q : BitVec 16) (tag : BitVec 32) : LinkHdr :=
  { type := ty, mflags := if cls then 1 else 0, part := part, nblk := 1, seq := q, ack := 0xFFFF, tag := tag, corrected := 0, good := true, resv := true }
theorem test_cmd : (tF.hears true (tLh true 1 0 0 9) && tF.unburdened && formOk (tLh true 1 0 0 9) 0x01 true && tF.admits &&
    ran tS (.cmd (tLh true 1 0 0 9) 0 (zeros 64)) (fun t => t.f.answered (Field.refOfDesc 0 0 9 (zeros 64)) .ok && t.f.prt.busy.isEmpty &&
      t.f.trn.ctl.expect = 1 && t.f.out.head? == some (linkAckOut true 0))) = true := by decide +kernel
theorem test_cmd_out_of_order : (!tF.hears true (tLh true 1 0 5 9) && ran tS (.cmd (tLh true 1 0 5 9) 0 (zeros 64)) (fun t => t.f.out == [linkNakOut true 0] &&
    t.f.trn.ctl.expect = 0)) = true := by decide +kernel
theorem test_cmd_halted : (let f := { tF with sec := { tF.sec with halted := true } }
    f.takesCmds && ran (onF f) (.cmd (tLh true 1 0 0 9) 0 (zeros 64)) (fun t => t.f.prt.busy.length = 1)) = true := by decide +kernel
theorem test_cmd_not_taken : (let f := { tF with sec := { tF.sec with life := 0 } }
    !f.takesCmds && ran (onF f) (.cmd (tLh true 1 0 0 9) 0 (zeros 64)) (fun t => t.f.prt.busy.isEmpty)) = true := by decide +kernel
theorem test_bulk : (tF.hears false (tLh false 0xC1 0 0 9) && formOk (tLh false 0xC1 0 0 9) 0xC1 false &&
    ran tS (.bulk (tLh false 0xC1 0 0 9) 2 [7, 8]) (fun t => t.f.bulkOf 9 == [] && t.f.trn.bulk == [(9, 2, [7, 8])] && t.f.trn.dat.expect = 1) &&
    ran tS (.bulk (tLh false 0xC1 0 1 9) 2 [7, 8]) (fun t => t.f.out == [linkNakOut false 0])) = true := by decide +kernel
theorem test_cmd_bad_form : (!formOk { tLh true 1 0 0 9 with nblk := 0 } 0x01 true &&
    ran tS (.cmd { tLh true 1 0 0 9 with nblk := 0 } 0 (zeros 64)) (fun t => t.f.trn.badMsg = 1 && t.f.trn.ctl.expect = 1)) = true := by decide +kernel
/-- A command whose BULK is not there waits; the BULK that completes its payload runs it (R362). -/
theorem test_cmd_waits : (ran tS (.cmd (tLh true 1 0 0 9) 0 (splice (zeros 64) 0 [0x31, 0, 0, 0, 0, 0, 0, 0, 0, 0, 0, 0, 0, 0, 0, 0, 0, 0, 0, 0, 0, 0, 0, 0, 128]))
    (fun t => t.f.prt.busy.map (·.need) == [128])) = true := by decide +kernel
theorem test_bulk_runs : (let d : Bytes := splice (zeros 64) 0 [0x31, 0, 0, 0, 0, 0, 0, 0, 0, 0, 0, 0, 0, 0, 0, 0, 0, 0, 0, 0, 0, 0, 0, 0, 128, 0, 0, 0, 2]
    let f := { tF with prt := { tF.prt with busy := [{ ref := Field.refOfDesc 0 0 9 d, ops := d, linkTag := 9, need := 128, t := 0, started := false }] } }
    !f.bulkLate (f.prt.busy.getD 0 { ref := tHdr.as 0, ops := [], linkTag := 0, need := 0, t := 0, started := false }) &&
    ran (onF f) (.bulk (tLh false 0xC1 0 0 9) 0 tBank) (fun t => t.f.prt.busy.isEmpty && t.f.loopSet 2 == tBank &&
      t.f.answered (Field.refOfDesc 0 0 9 d) .ok)) = true := by decide +kernel
theorem test_tun_rd : (tF.seqRuns && formOk (tLh true 2 0 0 9) 0x02 true && ran tS (.tunRd (tLh true 2 0 0 9) 0x10100) (fun t =>
    t.f.trn.ctl.kept.any (fun k => k.2.type = 0x41 && k.2.tag = 9))) = true := by decide +kernel
theorem test_tun_wr : (ran tS (.tunWr (tLh true 3 0 0 9) 0x11000 0) (fun t => !t.f.sel.enable && t.f.trn.ctl.kept.any (fun k => k.2.type = 0x41)) &&
    ran tS (.tunWr (tLh true 3 0x80 0 9) 0x3020C 0x105) (fun t => tabGet 0 t.f.prt.setup 3 = 0x105 && tabGet 0 t.f.prt.setup 0 = 0x02000007)) = true := by
  decide +kernel
theorem test_part_rst : (let f := tF.raise 0 0x30 0 []
    f.unburdened && ran (onF f) (.partRst (tLh true 4 0 0 0)) (fun t => (t.f.evq 0).q.isEmpty && t.f.prt.rstA = 0)) = true := by decide +kernel
theorem test_keepalive : (tF.hears true (tLh true 5 0 0 0) && ran (onF (atT tF 88)) (.keepalive .field (tLh true 5 0 0 0)) (fun t => t.f.trn.tLast = 88 &&
      t.f.trn.ctl.expect = 1) &&
    ran tS (.keepalive .host (tLh true 5 0 0 0)) (fun t => t.h.trn.ctl.expect = 1 && t.h.out == [linkAckOut true 0])) = true := by decide +kernel
/-- A message. -/
def tMsg : Msg := { type := 0x41, part := 0, tag := 9, payload := [1] }
/-- Two messages kept on each die and class. -/
def sKept : State :=
  let k : Half := { Half.reset with sendSeq := 2, kept := [(0, tMsg), (1, tMsg)] }
  { tS with f := { tF with trn := { tF.trn with ctl := k, dat := k } }, h := { tH with trn := { tH.trn with ctl := k, dat := k } } }
/-- LINK_ACK that covers SEQ n, and LINK_NAK. -/
def tAck (cls : Bool) (ty : Byte) (n : BitVec 16) : LinkHdr := { tLh cls ty 0x80 0 0 with ack := n }
theorem test_link_ack : (sKept.f.linkUp && sKept.h.linkUp && ran sKept (.linkAck .field true (tAck true 7 0)) (fun t => t.f.trn.ctl.kept.map (·.1) == [1]) &&
    ran sKept (.linkAck .field false (tAck false 7 1)) (fun t => t.f.trn.dat.kept.isEmpty) &&
    ran sKept (.linkAck .host true (tAck true 7 1)) (fun t => t.h.trn.ctl.kept.isEmpty && t.h.trn.dat.kept.length = 2)) = true := by decide +kernel
theorem test_link_nak : (ran sKept (.linkNak .field true ⟨tAck true 8 0xFFFF, 0⟩) (fun t => t.f.out.length = 2 && t.h.trn.resends = 2) &&
    ran sKept (.linkNak .host true ⟨tAck true 8 0, 1⟩) (fun t => t.h.out.length = 1 && t.h.trn.resends = 1 && t.h.trn.ctl.kept.map (·.1) == [1])) = true := by
  decide +kernel
theorem test_link_ack_broken : ran sKept (.linkAck .host true { tAck true 7 0 with good := false, corrected := 2 }) (fun t =>
    t.h.out.length = 1 && t.h.trn.ctl.kept.length = 2 && t.h.trn.corrected = 2) = true := by decide +kernel
theorem test_resend_timeout : (let s := { sKept with f := atT sKept.f 200, h := { sKept.h with t := 200 } }
    resendDue (s.f.half true) s.f.now && resendDue (s.h.half true) s.h.t &&
    ran s (.resendTimeout .field true) (fun t => t.f.out.length = 2 && t.f.trn.ctl.resends = 1 && t.h.trn.resends = 2) &&
    ran s (.resendTimeout .host true) (fun t => t.h.out.length = 2 && t.h.trn.ctl.resends = 1)) = true := by decide +kernel
theorem test_resend_eighth : (let s := { sKept with f := atT sKept.f 200 }
    let s := { s with f := { s.f with trn := { s.f.trn with ctl := { s.f.trn.ctl with resends := 7 } } } }
    ran s (.resendTimeout .field true) (fun t => t.f.trn.st = .train && t.f.trn.ctl.resends = 0)) = true := by decide +kernel
theorem test_keepalive_loss : (ran (onF (atT tF 3000)) (.keepaliveLoss .field) (fun t => t.f.trn.st = .train && t.f.trn.losses = 1) &&
    ran (onF (atT tF 2999)) (.keepaliveLoss .field) (fun t => t.f.trn.st = .up) &&
    ran (onH { tH with t := 3000, trn := { tH.trn with fieldUp := true } }) (.keepaliveLoss .host) (fun t => t.h.trn.st = .train && !t.h.trn.fieldUp)) = true := by
  decide +kernel
/-- A command of partition 0 in flight at the host die. -/
def tFly (st : Stage2) (desc : Bytes) : InFlight := { ref := Field.refOfDesc 0 0 9 desc, desc := desc, num := 0, stage := st }
theorem test_train : (let s := { tS with f := { tF with trn := { tF.trn with st := .train } }, h := { tH with trn := { tH.trn with st := .train, owed := 0xF } } }
    ran s (.trainLink .field (tLh true 6 0x80 0 0) true ⟨0xFFF, 1⟩) (fun t => t.f.trn.st = .up && t.f.trn.ctl.kept.any (fun k => k.2.type = 0x43 && u8 k.2.payload 0 = 4)) &&
    ran s (.trainLink .host (tLh true 6 0x80 0 0) true ⟨0xFFF, 1⟩) (fun t => t.h.trn.st = .up && t.h.trn.fieldUp && t.h.trn.owed = 0 && t.h.trn.fstWait)) = true := by decide +kernel
theorem test_train_fresh_forgets : (let h := (tH.modHp 0 (fun w => { w with inflight := [tFly .sent (zeros 64)] }))
    ran (onH { h with trn := { h.trn with st := .train } }) (.trainLink .host (tLh true 6 0x80 0 0) true ⟨0xFFF, 1⟩) (fun t => (t.h.hp 0).inflight.isEmpty)) = true := by decide +kernel
/-- A command that waits for 256 bytes since count 0. -/
def fBusy : Field :=
  { tF with prt := { tF.prt with busy := [{ ref := tHdr.as 0x30, ops := zeros 64, linkTag := 9, need := 256, t := 0, started := false }] } }
theorem test_bulk_timeout : (decide ((fBusy.bulkOf 9).length < 256) && ran (onF (atT fBusy 10000)) (.bulkTimeout 9) (fun t => t.f.prt.busy.isEmpty &&
      t.f.answered (tHdr.as 0x30) .linkErr) &&
    ran (onF (atT fBusy 9999)) (.bulkTimeout 9) (fun t => t.f.prt.busy.length = 1)) = true := by decide +kernel
theorem test_training_repeat : (ran (onF { tF with trn := { tF.trn with st := .train } }) (.trainingRepeat .field) (fun t => t.f.out.length = 1) &&
    ran (onH { tH with trn := { tH.trn with st := .train } }) (.trainingRepeat .host) (fun t => t.h.out.length = 1)) = true := by decide +kernel
theorem test_tap_idcode : (ran tS (.tapInstruction .field .idcode) (fun t => t.f.out.length = 1 && !t.f.sec.extest) &&
    ran tS (.tapInstruction .host .idcode) (fun t => t.h.out.length = 1)) = true := by decide +kernel
theorem test_tap_halt : (let f := { tF with sec := { tF.sec with dbg := 0xF } }
    f.tapAllowed 2 && ran (onF f) (.tapInstruction .field .halt) (fun t => t.f.sec.halted) &&
    ran (onF { f with sec := { f.sec with halted := true } }) (.tapInstruction .field .resume) (fun t => !t.f.sec.halted)) = true := by decide +kernel
theorem test_tap_read_refused : (!tF.tapAllowed 0 && ran tS (.tapInstruction .field (.read 0x10100)) (fun t => t.f.out.isEmpty)) = true := by decide +kernel

/-! ### Rings of the host die -/

/-- tH whose partition 0 serves, with ring pair 0 of 64 entries at 0x1000 and 0x8000. -/
def hR : HDie :=
  let h := tH.modHp 0 (fun w => { w with linkUp := true, bme := true, en := true, dbBase := 0x100, sq := [(0, { HSq.reset with size := 6, base := 0x1000 })],
                                         cq := [(0, { HCq.reset with size := 6, base := 0x8000 })] })
  { h with trn := { h.trn with fieldUp := true } }
/-- A FENCE of ring 0 that waits up to entry n, with its time. -/
def hFence (n : Nat) (due : Option Count) : HDie :=
  let h := hR.setSq 0 0 { HSq.reset with size := 6, fence := some { ref := tHdr.as 0x01, upTo := [(0, n)], due := due } }
  h.modHp 0 (fun w => { w with inflight := [⟨Field.refOfDesc 0 0 3 (zeros 64), [], 0, .sent⟩, ⟨tHdr.as 0x01, [], 1, .fence⟩] })
theorem test_fence : (hR.roles 0 ≠ 0 ∧ 0 < hR.places 0 0) ∧
    ran (onH hR) (.fence tHdr 2 7) (fun t => (t.h.sq 0 0).fence == some { ref := tHdr.as 0x01, upTo := [(0, 0), (1, 0)], due := some 700 } &&
      (t.h.sq 0 0).taken = 1) = true := by decide +kernel
theorem test_fence_complete : (decide ((hFence 0 none).fenceMask 0 { ref := tHdr.as 0x01, upTo := [(0, 0)], due := none } = 0) &&
    ran (onH (hFence 0 none)) (.fenceComplete 0 0) (fun t => (t.h.sq 0 0).fence.isNone && t.h.completed (tHdr.as 0x01) .ok) &&
    ran (onH (hFence 1 none)) (.fenceComplete 0 0) (fun t => (t.h.sq 0 0).fence.isSome)) = true := by decide +kernel
theorem test_fence_timeout : (ran (onH (hFence 1 (some 0))) (.fenceTimeout 0 0) (fun t => (t.h.sq 0 0).fence.isNone &&
      t.h.completed (tHdr.as 0x01) .fenceTimeout && (t.h.hp 0).inflight.length = 1) &&
    ran (onH (hFence 1 (some 1))) (.fenceTimeout 0 0) (fun t => (t.h.sq 0 0).fence.isSome)) = true := by decide +kernel
theorem test_doorbell_poll : (HDie.serves (hR.hp 0) && ran (onH { hR with t := 400 }) (.doorbellPoll 0) (fun t => (t.h.hp 0).dbOut && t.h.out == [.hostRead 0 0x100 64]) &&
    ran (onH { hR with t := 399 }) (.doorbellPoll 0) (fun t => !(t.h.hp 0).dbOut)) = true := by decide +kernel
/-- hR with its doorbell read out. -/
def hDb : HDie := hR.modHp 0 (fun w => { w with dbOut := true })
theorem test_descriptor_fetch : ran (onH hDb) (.descriptorFetch 0 [1] [⟨0, [zeros 64]⟩]) (fun t =>
    (t.h.hp 0).polls = 1 && (t.h.sq 0 0).head = 1 && (t.h.hp 0).inflight.map (·.stage) == [.sent] && t.h.trn.ctl.kept.length = 1) = true := by decide +kernel
theorem test_descriptor_fetch_halts : ran (onH hDb) (.descriptorFetch 0 [64] []) (fun t => (t.h.sq 0 0).halted && (t.h.sq 0 0).head = 0) = true := by decide +kernel
/-- hR while it reads a payload of 2 bytes. -/
def hPay : HDie := hR.modHp 0 (fun w => { w with inflight := [tFly .payload (setBytes 64 [(0, 0x30), (24, 2)])] })
theorem test_payload_read_done : (leNat (setBytes 64 [(0, 0x30), (24, 2)]) 24 4 = 2 ∧
    ran (onH hPay) (.payloadReadDone 0 0 9 true [7, 8]) (fun t => (t.h.hp 0).inflight.map (·.stage) == [.sent] &&
      t.h.trn.dat.kept.any (fun k => k.2.payload == [0, 0, 0, 0, 7, 8])) = true) := by decide +kernel
theorem test_payload_read_fails : (ran (onH hPay) (.payloadReadDone 0 0 9 true [7]) (fun t => (t.h.hp 0).inflight.isEmpty &&
      t.h.completed (tFly .payload (setBytes 64 [(0, 0x30), (24, 2)])).ref .bufErr) &&
    ran (onH hPay) (.payloadReadDone 0 0 9 false [7, 8]) (fun t => (t.h.hp 0).inflight.isEmpty)) = true := by decide +kernel
/-- A record counted for vector 3 of partition 0, with MSI-X enabled, the function masked or not, and the entry masked or not. -/
def hMsix (fm m : Bool) : HDie :=
  (hR.setCq 0 0 { HCq.reset with size := 6, timer := 2, count := 4, p := 1, vec := 3 }).modHp 0 (fun w => { w with
    msixOn := true, msixMask := fm, msix := [(3, { addr := 0xFEE0, data := 0x41, mask := m })] })
theorem test_msix_timer : (
    ran (onH { hMsix false false with t := 200 }) (.msixTimerExpiry 0 0) (fun t => t.h.out == [.msix 0 3 0xFEE0 0x41] && (t.h.cq 0 0).p = 0) &&
    ran (onH { hMsix false false with t := 199 }) (.msixTimerExpiry 0 0) (fun t => t.h.out == []) &&
    ran (onH { hMsix false true with t := 200 }) (.msixTimerExpiry 0 0) (fun t => t.h.out == [] && (t.h.hp 0).pba = 8) &&
    ran (onH { hMsix true false with t := 200 }) (.msixTimerExpiry 0 0) (fun t => t.h.out == [] && (t.h.hp 0).pba = 8)) = true := by decide +kernel
/-- The message that was pending goes out as its entry is unmasked, and its bit clears. -/
theorem test_msix_unmasked : (let h := (hMsix false true).modHp 0 (fun w => { w with pba := 8 })
    ran (onH h) (.registerWrite 0 .bar2 0x3C 0 .dword) (fun t => t.h.out == [.msix 0 3 0xFEE0 0x41] && (t.h.hp 0).pba = 0)) = true := by decide +kernel
theorem test_bar2 : (ran (onH (hMsix false false)) (.registerRead 0 .bar2 0x38 .dword) (fun t => t.h.out == [.read 0 0x41]) &&
    ran (onH (hMsix false false)) (.registerRead 0 .bar2 0x30 .qword) (fun t => t.h.out == [.readWide 0 0xFEE0]) &&
    ran (onH (hMsix false false)) (.registerRead 0 .bar2 0x34 .qword) (fun t => t.h.out == [.unsupported 0]) &&
    ran tS (.registerWrite 0 .bar2 0x3F8 7 .dword) (fun t => (tabGet Msix.reset (t.h.hp 0).msix 63).data = 7) &&
    ran tS (.registerWrite 0 .bar2 0 0x1122334444556677 .qword) (fun t => (tabGet Msix.reset (t.h.hp 0).msix 0).addr = 0x1122334444556677 &&
      (tabGet Msix.reset (t.h.hp 0).msix 0).mask)) = true := by decide +kernel
theorem test_ring_cfg : (ran (onH tH) (.ringCfgWrite 0 false 2 6) (fun t => (t.h.sq 0 2).size = 6) && ran (onH tH) (.ringCfgWrite 0 true 2 16) (fun t => (t.h.cq 0 2).size = 16) &&
    ran (onH hR) (.ringCfgWrite 0 false 0 7) (fun t => (t.h.sq 0 0).size = 6) && ran (onH hR) (.ringCfgWrite 0 false 0 0) (fun t => (t.h.sq 0 0).size = 0)) = true := by
  decide +kernel
theorem test_cpl : (let h := hR.modHp 0 (fun w => { w with inflight := [tFly .sent (zeros 64)] })
    let b := setBytes 32 [(0, 1), (2, 9)]
    formOk (tLh false 0x81 0 0 9) 0x81 false && u16 b 2 = 9 && ran (onH h) (.cpl (tLh false 0x81 0 0 9) 0 b) (fun t => (t.h.hp 0).inflight.isEmpty &&
      t.h.out.contains (.hostWrite 0 0x8000 (HDie.withPhase b true)) && (t.h.cq 0 0).tail = 1)) = true := by decide +kernel
/-- An event record of type 0x30, SEQ 7. -/
def tEvt : Bytes := setBytes 32 [(0, 0x30), (2, 7)]
theorem test_evt : (formOk (tLh false 0x82 0 0 0) 0x82 false && ran (onH hR) (.evt (tLh false 0x82 0 0 0) [tEvt]) (fun t => (t.h.hp 0).evtSeq = 8 &&
      t.h.out.contains (.hostWrite 0 0x8000 (HDie.withPhase tEvt true)) && (t.h.cq 0 0).tail = 1) &&
    ran (onH tH) (.evt (tLh false 0x82 0 0 0) [tEvt]) (fun t => (t.h.hp 0).lostDisabled = 1)) = true := by decide +kernel
theorem test_evt_halted : (let h := hR.setCq 0 0 { HCq.reset with size := 6, halted := true }
    ran (onH h) (.evt (tLh false 0x82 0 0 0) [tEvt]) (fun t => (t.h.hp 0).waiting == [(0, tEvt)])) = true := by decide +kernel
/-- A data-class message waits for the FSTATE of a FRESH training (R520). -/
theorem test_data_held : (let h := { hR with trn := { hR.trn with fstWait := true } }
    ran (onH h) (.hwrite (tLh false 0x83 0 0 0) 0x7000 [1, 2]) (fun t => t.h.trn.held == [.hwrite 0 0x7000 [1, 2]] && t.h.out.length = 1)) = true := by
  decide +kernel
theorem test_hwrite : (formOk (tLh false 0x83 0 0 0) 0x83 false && ran tS (.hwrite (tLh false 0x83 0 0 0) 0x7000 [1, 2]) (fun t =>
      t.h.out == [linkAckOut false 0, .hostWrite 0 0x7000 [1, 2]]) &&
    ran (onH (tH.modHp 0 (fun w => { w with rstBusy := true }))) (.hwrite (tLh false 0x83 0 0 0) 0x7000 [1, 2]) (fun t => t.h.out == [linkAckOut false 0])) = true := by
  decide +kernel

/-! ### The host window -/

theorem test_register_read_host : (ran tS (.registerRead 0 .host 0 .dword) (fun t => t.h.out == [.read 0 0x1008140]) &&
    ran tS (.registerRead 0 .host 2 .dword) (fun t => t.h.out == [.unsupported 0]) && ran tS (.registerWrite 0 .host 0x408 1 .other) (fun t => t.h.out == [] && (t.h.hp 0).aerUr)) = true := by
  decide +kernel
theorem test_register_write_host : ran tS (.registerWrite 1 .host 0x408 0xFFFFFFFF .dword) (fun t => (t.h.hp 1).tlmFirst = 0x1FFFF && (t.h.hp 0).tlmFirst = 0) = true := by
  decide +kernel
theorem test_tunnelled : (ran (onH hR) (.registerRead 0 .host 0x8100 .dword) (fun t => (t.h.hp 0).tun.length = 1 && t.h.trn.ctl.kept.any (fun k => k.2.type = 2)) &&
    ran (onH hR) (.registerWrite 0 .host 0x8100 5 .dword) (fun t => (t.h.hp 0).tunNum = 1) &&
    ran (onH tH) (.registerRead 0 .host 0x8100 .dword) (fun t => t.h.out == [.read 0 0xFFFFFFFF] && (t.h.hp 0).tunTimeout = 1) &&
    ran (onH tH) (.registerWrite 0 .host 0x8100 5 .dword) (fun t => (t.h.hp 0).tunDropped = 1)) = true := by decide +kernel
/-- tH in the commissioning state that partition p opened, until tick e. -/
def hComm (e : Count) (p : Part) : HDie := { tH with sec := { tH.sec with comm := some (e, p) } }
theorem test_part_setup : (ran (onH (hComm 9 0)) (.partSetupWrite 0 1 0x02000003) (fun t => t.h.nvm.upd.length = 1 &&
      t.h.nvm.upd.map (·.payload) == [setupBytes [0x02000007, 0x02000003, 0, 0]]) &&
    ran tS (.partSetupWrite 0 1 0x02000003) (fun t => t.h.nvm.upd.isEmpty) &&
    ran (onH { hComm 9 0 with t := 9 }) (.partSetupWrite 0 1 0x02000003) (fun t => t.h.nvm.upd.isEmpty && t.h.sec.comm == none) &&
    ran (onH (hComm 9 0)) (.partSetupWrite 0 1 0x02000103) (fun t => t.h.nvm.upd.isEmpty)) = true := by decide +kernel
/-- The field die is in STANDBY. -/
def hStby : HDie := { tH with t := 7, fieldStby := true, trn := { tH.trn with st := .down } }
theorem test_wake_field : (tH.operates 0 && ran (onH hStby) (.wakeField 0) (fun t => t.h.out == [.wake] && t.h.trn.wake == some (7, false)) &&
    ran (onH { hStby with fieldStby := false }) (.wakeField 0) (fun t => t.h.out == []) &&
    !tH.operates 1 && ran (onH hStby) (.wakeField 1) (fun t => t.h.out == [])) = true := by decide +kernel
/-- One tunnelled read, sent, of tag 9. -/
def hTun : HDie := tH.modHp 0 (fun w => { w with tun := [{ tag := 9, off := 0x10100, value := none, sent := true, t := 0 }] })
theorem test_tun_cpl : ran (onH hTun) (.tunCpl (tLh true 0x41 0 0 9) 77) (fun t => (t.h.hp 0).tun.isEmpty && t.h.out == [linkAckOut true 0, .read 0 77]) = true := by
  decide +kernel
theorem test_tun_cpl_late : ran (onH { hTun with t := 5000 }) (.tunCpl (tLh true 0x41 0 0 9) 77) (fun t => (t.h.hp 0).tun.length = 1 &&
    t.h.out.length = 1) = true := by decide +kernel
theorem test_tlm_skipped : ran tS (.tunCpl (tLh true 0x41 0x80 0 tagSkip) 2) (fun t => (t.h.hp 2).tlmSkipped = 1 && (t.h.hp 0).tlmSkipped = 0) = true := by
  decide +kernel
theorem test_tunnel_timeout : (ran (onH { hTun with t := 5000 }) (.tunnelTimeout 0) (fun t => (t.h.hp 0).tun.isEmpty && t.h.out == [.read 0 0xFFFFFFFF]) &&
    ran (onH { hTun with t := 4999 }) (.tunnelTimeout 0) (fun t => (t.h.hp 0).tun.length = 1)) = true := by decide +kernel
theorem test_fstate_resets : (tH.hears true (tLh true 0x43 0 0 0) && formOk (tLh true 0x43 0 0 0) 0x43 true &&
    ran (onH hR) (.fstate (tLh true 0x43 0 0 0) .resetEntry 2 0 false) (fun t => t.h.trn.st = .train && !t.h.trn.fieldUp) &&
    ran (onH (tH.modHp 1 (fun w => { w with rstBusy := true }))) (.fstate (tLh true 0x43 1 0 0) .partDone 6 0 false) (fun t => !(t.h.hp 1).rstBusy)) = true := by
  decide +kernel
theorem test_fstate_states : (let h := { tH with trn := { tH.trn with fstWait := true, lastFresh := true } }
    ran (onH h) (.fstate (tLh true 0x43 0 0 0) .trained 0 0 false) (fun t => !t.h.trn.fstWait && (t.h.hp 2).coldPend) &&
    ran (onH { h with trn := { h.trn with held := [.hwrite 0 0x7000 [1, 2]] } }) (.fstate (tLh true 0x43 0 0 0) .trained 0 0 false) (fun t =>
      t.h.trn.held.isEmpty && t.h.out.contains (.hostWrite 0 0x7000 [1, 2])) &&
    ran tS (.fstate (tLh true 0x43 0 0 0) .power 0 3 false) (fun t => t.h.fieldStby) &&
    ran tS (.fstate (tLh true 0x43 0 0 0) .safe 0 0 true) (fun t => t.h.part = tH.part)) = true := by decide +kernel

/-! ### Security -/

/-- The base point of P-256, a valid public key. -/
def tKey : Bytes := (toLe 0x6B17D1F2E12C4247F8BCE6E563A440F277037D812DEB33A0F4A13945D898C296 32).reverse ++
  (toLe 0x4FE342E2FE1A7F9B8EE7EB4A7C0F9E162BCE33576B315ECECBB6406837BF51F5 32).reverse
/-- A commissioning token of 2 minutes, for this part, with the challenge in force. -/
def tTok (h : HDie) : Bytes := [1, 0, 2, 0] ++ le 8 Config.serial ++ h.chalBytes ++ zeros 4 ++ zeros 96
/-- tH with an owner key, and that token presented. -/
def hTok : HDie :=
  let h := { tH with sec := { tH.sec with owner := some tKey } }
  h.modHp 0 (fun w => { w with token := tTok h })
theorem chalBytes_length (h : HDie) : h.chalBytes.length = 16 := by simp [HDie.chalBytes, pad, zeros]; omega
theorem slice_mid (n : Nat) (x y z : Bytes) (o : Nat) (hx : x.length = o) (hy : y.length = n) : slice (x ++ y ++ z) o n = y := by
  subst hx hy; simp [slice, pad]
theorem tok_fields (a b : Bytes) (ha : a.length = 8) (hb : b.length = 16) :
    let t := pad 128 ([1, 0, 2, 0] ++ a ++ b ++ zeros 4 ++ zeros 96)
    u8 t 0 = 1 ∧ u8 t 1 = 0 ∧ leNat t 2 2 = 2 ∧ leNat t 28 4 = 0 ∧ slice t 4 8 = a ∧ slice t 12 16 = b := by
  intro t
  have e : t = [1, 0, 2, 0] ++ a ++ b ++ zeros 100 := by
    simp [t, pad, zeros, ha, hb, List.take_of_length_le]
  have z (i : Nat) (h : 28 ≤ i) : u8 t i = 0 := by
    have l : ([1, 0, 2, 0] ++ a ++ b).length = 28 := by simp [ha, hb]
    rw [e, u8, List.getD_append_right _ _ _ _ (by omega)]
    rw [zeros, List.getD_eq_getElem?_getD, List.getElem?_replicate]
    split <;> rfl
  refine ⟨by simp [e, u8], by simp [e, u8], by simp [e, leNat, u8], by simp [leNat, z], ?_, ?_⟩
  · rw [e, List.append_assoc]; exact slice_mid 8 [1, 0, 2, 0] a _ 4 rfl ha
  · rw [e]; exact slice_mid 16 _ b _ 12 (by simp [ha]) hb
/-- The premises of COMMISSION are met, whatever the part's serial number and the challenge are. -/
theorem test_commission_premises : hTok.sec.life = 1 ∧ hTok.sec.keyLost = false ∧ hTok.sec.busy = none ∧ hTok.sec.lockEnd = none ∧ hTok.commissioner 0 = true ∧
    hTok.sec.owner = some tKey ∧ (let t := pad 128 (hTok.hp 0).token
    u8 t 0 = 1 ∧ u8 t 1 = 0 ∧ leNat t 2 2 = 2 ∧ leNat t 28 4 = 0 ∧ slice t 4 8 = le 8 Config.serial ∧ slice t 12 16 = hTok.chalBytes) :=
  ⟨rfl, rfl, rfl, rfl, rfl, rfl, tok_fields _ _ rfl (chalBytes_length _)⟩
/-- A token of the wrong KIND, or none, is refused whatever the challenge is; the challenge is replaced. -/
theorem test_token_refused : (HDie.firstFail (tH.tokChecks 0 .debug (pad 128 [])) == some 4 && HDie.firstFail (tH.tokChecks 1 .ret (pad 128 [])) == some 2 &&
    ran tS (.debug 0) (fun t => (t.h.hp 0).result = 4 && t.h.sec.refused = 1 && t.h.sec.chal = tH.sec.chal + 1) &&
    ran tS (.commission 1) (fun t => (t.h.hp 1).result = 2) && ran tS (.returnPart 0) (fun t => (t.h.hp 0).result = 3)) = true := by decide +kernel
theorem test_comm_exit : (ran (onH (hComm 9 0)) (.commExit 0) (fun t => t.h.sec.comm == none && (t.h.hp 0).result = 1) &&
    ran (onH (hComm 9 1)) (.commExit 0) (fun t => t.h.sec.comm == some (9, 1) && (t.h.hp 0).result = 3)) = true := by decide +kernel
theorem test_debug_end : ran (onH { tH with sec := { tH.sec with dbgF := 5, dbgH := 2 } }) (.debugEnd 0) (fun t => t.h.sec.dbgF = 0 && t.h.sec.dbgH = 0 &&
    (t.h.hp 0).result = 1) = true := by decide +kernel
/-- tH in lifecycle n of part with its token. -/
def hLife (n : BitVec 3) (bl : BitVec 4) (tok : Bytes) : HDie :=
  { tH with sec := { tH.sec with life := n, bl := bl } }.modHp 0 (fun w => { w with token := tok })
theorem test_set_owner : (keyValid (pad 64 tKey) && ran (onH (hLife 0 1 tKey)) (.setOwner 0) (fun t => t.h.sec.busy == some (0, .setOwner) && t.h.nvm.upd.length = 2) &&
    ran (onH (hLife 0 1 (zeros 64))) (.setOwner 0) (fun t => (t.h.hp 0).result = 4) && ran (onH (hLife 0 1 tKey)) (.setOwner 1) (fun t => (t.h.hp 1).result = 2)) = true := by
  decide +kernel
theorem test_to_fielded : (let f := { tF with saf := { tF.saf with confirmed := true } }
    ran { tS with f := f, h := hComm 9 0 } (.toFielded 0) (fun t => t.h.sec.busy == some (0, .field) && t.h.sec.life = 1) &&
    ran (onH (hComm 9 0)) (.toFielded 0) (fun t => (t.h.hp 0).result = 11 || tF.saf.confirmed) && !tF.saf.confirmed) = true := by decide +kernel
theorem test_to_sealed : (let h := hLife 2 1 []
    ran (onH { h with sec := { h.sec with comm := some (9, 1) } }) (.toSealed 0) (fun t => t.h.sec.busy == some (0, .sealed)) &&
    ran (onH h) (.toSealed 0) (fun t => (t.h.hp 0).result = 3)) = true := by decide +kernel
theorem test_set_bl : (ran { tS with f := { tF with saf := { tF.saf with safe := true } }, h := hLife 0 0 [] } (.setBl 0 1) (fun t =>
      t.h.sec.busy == some (0, .setBl 1) && t.h.sec.bl = 0 && t.h.nvm.upd.map (·.payload) == [[0, 1]]) &&
    ran (onH (hLife 0 0 [])) (.setBl 0 1) (fun t => (t.h.hp 0).result = 3)) = true := by decide +kernel
theorem test_attest : tH.sec.busy = none ∧ tH.sec.keyLost = false := ⟨rfl, rfl⟩
theorem test_commissioning_expiry : (ran (onH { hComm 9 0 with t := 9 }) .commissioningExpiry (fun t => t.h.sec.comm == none) &&
    ran (onH { hComm 9 0 with t := 8 }) .commissioningExpiry (fun t => t.h.sec.comm == some (9, 0))) = true := by decide +kernel
theorem test_debug_expiry : ran (onH { tH with t := 5, sec := { tH.sec with dbgF := 5, dbgH := 2, dbgDueF := 5, dbgDueH := 6 } }) .debugExpiry
    (fun t => t.h.sec.dbgF = 0 && t.h.sec.dbgH = 2) = true := by decide +kernel
theorem test_challenge_expiry : (ran (onH { tH with t := 2880000000000 }) .challengeExpiry (fun t => t.h.sec.chal = tH.sec.chal + 1) &&
    ran (onH { tH with t := 2879999999999 }) .challengeExpiry (fun t => t.h.sec.chal = tH.sec.chal)) = true := by decide +kernel
theorem test_lockout_end : ran (onH { tH with t := 5, sec := { tH.sec with lockEnd := some 5, run := 8 } }) .lockoutEnd (fun t => t.h.sec.lockEnd == none &&
    t.h.sec.run = 0) = true := by decide +kernel

/-! ### Ports and power of the host die -/

/-- hR with a command in flight and the commissioning state open. -/
def hBusy : HDie := (hR.modHp 0 (fun w => { w with inflight := [tFly .sent (zeros 64)] })).modHp 1 (fun w => { w with linkUp := true })
theorem test_link_down : ran (onH { hBusy with sec := { hBusy.sec with comm := some (9, 0) } }) (.linkDown 0) (fun t => (t.h.hp 0).rstBusy && (t.h.hp 0).inflight.isEmpty &&
    (t.h.hp 0).sq == [] && !(t.h.hp 0).linkUp && t.h.sec.comm == none && t.h.trn.ctl.kept.any (fun k => k.2.type = 4) && (t.h.hp 1).linkUp) = true := by decide +kernel
theorem test_hot_reset : ran (onH { hBusy with trn := { hBusy.trn with st := .train, owed := 0 } }) (.hotReset 0) (fun t => (t.h.hp 0).rstBusy && bit t.h.trn.owed 0 &&
    (t.h.hp 0).linkDowns = 1) = true := by decide +kernel
theorem test_function_level_reset : ran (onH hBusy) (.functionLevelReset 0) (fun t => (t.h.hp 0).rstBusy && (t.h.hp 0).linkUp && !(t.h.hp 0).bme && (t.h.hp 0).flrs = 1 &&
    (t.h.hp 0).linkDowns = 0) = true := by decide +kernel
theorem test_delivery : (ran (onH hR) (.deliveryHold 0 ⟨true, 0, 0⟩) (fun t => (t.h.hp 0).d3 && (t.h.hp 0).bme && !HDie.serves (t.h.hp 0)) &&
    ran (onH hR) (.deliveryHold 0 ⟨false, 0, 0⟩) (fun t => !(t.h.hp 0).d3 && !(t.h.hp 0).bme) &&
    ran (onH tH) (.deliveryHold 2 ⟨false, 3, 1⟩) (fun t => (t.h.hp 2).linkUp && !HDie.serves (t.h.hp 2) && (t.h.hp 2).speed = 3) &&
    ran (onH tH) (.deliveryResume 2 ⟨3, 1⟩ 1) (fun t => (t.h.hp 2).msixOn && !(t.h.hp 2).msixMask && HDie.serves (t.h.hp 2) && (t.h.hp 2).speed = 3 && (t.h.hp 2).width = 1)) = true := by decide +kernel
theorem test_host_standby : (ran (onH { tH with auto := true, t := 10000000 }) .hostStandbyEntry (fun t => t.h.st = .standby && t.h.stbyEntries = 1) &&
    ran (onH { tH with auto := true, t := 9999999 }) .hostStandbyEntry (fun t => t.h.st = .run) &&
    ran (onH { tH with st := .standby, t := 5 }) .hostStandbyExit (fun t => t.h.st = .run && t.h.idleAt = 5)) = true := by decide +kernel
theorem test_host_cold : (ran (onH { hBusy with auto := true }) (.por .host) (fun t => t.h.st = .run && t.h.lastRst = 0 && t.h.part == [] && !t.h.auto && t.h.trn.st = .down) &&
    ran (onH hBusy) (.bor .host) (fun t => t.h.st = .run && t.h.lastRst = 1 && t.h.part == [])) = true := by decide +kernel
theorem test_host_warm : (ran (onH hBusy) (.pin .host) (fun t => t.h.st = .reset && t.h.warm == some (.pin, 100100) && t.h.part == []) &&
    ran (onH { hBusy with auto := true }) (.wdt .host) (fun t => t.h.st = .reset && t.h.warm == some (.wdt, 100000) && t.h.auto) &&
    ran (onH { tH with st := .off }) (.pin .host) (fun t => t.h.st = .off)) = true := by decide +kernel
theorem test_host_warm_end : (let h := { tH with st := .reset, warm := some (.wdt, 100000), auto := true }
    ran (onH { h with t := 100000 }) .hostWarmResetEnd (fun t => t.h.st = .run && t.h.warm == none && t.h.auto && t.h.trn.owed = 0xF) &&
    ran (onH { h with t := 99999 }) .hostWarmResetEnd (fun t => t.h.st = .reset)) = true := by decide +kernel
theorem test_host_demand : (ran (onH { tH with t := 25000 }) (.thermometryDemand .host) (fun t => t.h.thm.gate == some (26000, []) && t.h.tDemand = 50000) &&
    ran (onH { tH with t := 24999 }) (.thermometryDemand .host) (fun t => t.h.thm.gate == none)) = true := by decide +kernel
/-- The host die whose sites read t0, with a gate ended. -/
def hHot (t0 : Int) (g : Thm → Thm) : HDie :=
  { tH with thm := g { tH.thm with trim := (List.range 4).map (fun k => (k, { Trim.reset with t0 := t0 })), gate := some (0, []) } }
theorem test_host_reading : ran (onH (hHot 580 (fun t => { t with thrIn := 1 }))) (.thermometryReading .host (List.replicate 4 tGate)) (fun t => t.h.thm.throttle &&
    t.h.thm.gate == none && (t.h.thm.siteAt 3).valid) = true := by decide +kernel
theorem test_host_reading_invalid : ran (onH (hHot 100 id)) (.thermometryReading .host ({ n1 := 1, n2 := 1 } :: List.replicate 3 tGate))
    (fun t => !(t.h.thm.siteAt 0).valid && (t.h.thm.siteAt 0).badRun = 1 && !t.h.thm.throttle) = true := by decide +kernel
/-- A confirming demand runs at site 2. -/
def hConf (t0 : Int) : HDie := hHot t0 (fun t => { t with confirm := [{ site := 2, first := 600, tries := 0, due := 0 }] })
theorem test_host_confirming : ((hConf 600).thm.shutLvl = 600 && ran (onH (hConf 600)) (.confirmingReading .host 2 tGate) (fun t => t.h.st = .off && t.h.thm.shutCount = 1) &&
    ran (onH (hHot 600 (fun t => { t with confirm := [{ site := 2, first := 600, tries := 0, due := 1 }] }))) (.confirmingReading .host 2 tGate)
      (fun t => t.h.st = .run && t.h.thm.confirm.length = 1) &&
    ran (onH (hConf 599)) (.confirmingReading .host 2 tGate) (fun t => t.h.st = .run && t.h.thm.unconfirmed = 1)) = true := by decide +kernel
theorem test_host_off : (let h (d n r : Nat) := { hHot 100 (fun t => { t with offN := n, offRun := r, offT := d }) with st := .off }
    ran (onH (h 99000000 98 5)) (.hostThermalOffMeasurement (List.replicate 4 tGate) true) (fun t => t.h.st = .off && t.h.thm.offN = 99) &&
    ran (onH (h 98999999 98 5)) (.hostThermalOffMeasurement (List.replicate 4 tGate) true) (fun t => t.h.thm.offN = 98) &&
    ran (onH (h 100000000 99 2)) (.hostThermalOffMeasurement (List.replicate 4 tGate) true) (fun t => t.h.st = .run && t.h.trn.st = .down) &&
    ran (onH (h 100000000 99 2)) (.hostThermalOffMeasurement (List.replicate 4 tGate) false) (fun t => t.h.st = .off && t.h.thm.offRun = 0)) = true := by decide +kernel
/-- A publication is due, to partition 0 alone. -/
def fTlm : Field :=
  { tF with mer := { tF.mer with sysDue := 0x10 }, prt := { tF.prt with tlm := [(0, { Tlm.none with count := 2, base := 0x4000 })] } }
theorem test_telemetry_publication : (fTlm.linkUp && fTlm.tlmWants 0 && !fTlm.tlmWants 1 && !fTlm.publishing 0 &&
    ran (onF fTlm) .telemetryPublication (fun t => !bit t.f.mer.sysDue 4 && tabGet 0 t.f.prt.pubSeq 0 = 2 && t.f.prt.pubSeq.length = 1)) = true := by
  decide +kernel
/-- The same while the last one has not finished: the host die is told (R235). -/
theorem test_telemetry_skipped : (let f := { fTlm with prt := { fTlm.prt with pubLast := [(0, 3)] },
                                                       trn := { fTlm.trn with dat := { fTlm.trn.dat with kept := [(3, tMsg)] } } }
    f.publishing 0 && ran (onF f) .telemetryPublication (fun t => t.f.prt.pubSeq == [] &&
      t.f.trn.ctl.kept.any (fun k => k.2.type = 0x41 && k.2.part = 0x80 && k.2.tag = tagSkip))) = true := by decide +kernel

/-! ### Over every command -/

theorem test_dies_act_alone : actsOn .field (.commExit 0) = false ∧ actsOn .host .firnReady = false := ⟨rfl, rfl⟩
theorem test_protection_ignores_host : ({ tS with pending := [.telemetryPublication] } : State).f = (onH HDie.reset).f ∧
    ({ tS with pending := [.telemetryPublication] } : State).pending = ({ onH HDie.reset with pending := [.telemetryPublication] } : State).pending :=
  ⟨rfl, rfl⟩
theorem test_host_bounded_reset : State.reset.h.Bounded := by
  refine ⟨fun p => ?_, by decide⟩
  rw [show State.reset.h.hp p = HPart.reset from rfl]; decide
theorem test_no_words : decodeTableWord 16 0x1234 = none ∧ State.reset.withFetchWord 16 0x1234 = State.reset := ⟨rfl, rfl⟩

/-! ### Well-formedness -/

theorem test_wf : ([.nop tHdr, .writeProfile tHdr 1 tProf, .writeLoopset tHdr 1 tBank, .cmd (tLh true 1 0 0 9) 0 (zeros 64),
    .thermometryReading .host (List.replicate 4 tGate), .compareFire 23] : List Instr).all Instr.wf = true := by decide +kernel
theorem test_ill_formed_commands : ([.readProfile tHdr ⟨0, 0⟩ 4096, .writeProfile tHdr 4096 tProf, .writeProfile tHdr 1 (zeros 255), .writeLoopset tHdr 1 (zeros 127),
    .ctxBankWrite tHdr (zeros 129)] : List Instr).all (fun i => !i.wf) = true := by decide +kernel
theorem test_ill_formed_messages : ([.cmd (tLh true 1 0 0 9) 0 (zeros 63), .bulk (tLh false 0xC1 0 0 9) 0 (zeros 481), .cpl (tLh false 0x81 0 0 9) 0 (zeros 31),
    .evt (tLh false 0x82 0 0 0) [], .evt (tLh false 0x82 0 0 0) (List.replicate 15 tEvt), .evt (tLh false 0x82 0 0 0) [zeros 31],
    .hwrite (tLh false 0x83 0 0 0) 0 (zeros 469), .descriptorFetch 0 [0] [], .descriptorFetch 0 (List.replicate 16 0) [⟨0, [zeros 63]⟩],
    .descriptorFetch 0 (List.replicate 16 0) [⟨0, List.replicate 65 (zeros 64)⟩]] : List Instr).all (fun i => !i.wf) = true := by decide +kernel
theorem test_ill_formed_answers : ([.streamSample 0 6 false 0 0 true, .adcInjDone 0 0 (List.replicate 5 0) [],
    .adcInjDone 0 0 [] (List.replicate 5 0), .compareFire 24, .thermometryReading .field [tGate], .confirmingReading .field 12 tGate,
    .confirmingReading .host 4 tGate, .thermalOffMeasurement [tGate] true, .hostThermalOffMeasurement [] true, .ploughBlock [(0, zeros 35)],
    .neveScrub [(0, zeros 37)]] : List Instr).all (fun i => !i.wf) = true := by decide +kernel

/-! ### Handle and authority checks -/

/-- A command of partition 1 ends with a status on a field die. -/
def ends1 (f : Field) (i : CmdHdr → Instr) (c : CmdHdr) (op : Byte) (st : Status) : Bool :=
  f.takesNow c op && ran (onF f) (i c) (fun t => t.f.answeredAs (c.as op) st 0 c.handle && t.f.nev.ch = f.nev.ch)
/-- The header, sent by partition 1. -/
def tHdr1 : CmdHdr := { tHdr with part := 1 }
theorem test_checks_handle : (ends1 { tF with nev := { tF.nev with coldAck := 1 } } .openCh tHdr 0x14 .epoch && ends1 tF .openCh { tHdr with handle := 5 } 0x14 .badHandle &&
    ends1 tF .destroy tHdr 0x11 .stale && !(fSw .opened).operator 1 && ends1 (fSw .opened) .openCh tHdr1 0x14 .role &&
    ends1 (fSw .opened) .demandReset tHdr1 0x41 .role && ends1 (fSw .opened) (.readChannel · ⟨0, 32⟩) tHdr1 0x20 .role) = true := by decide +kernel
theorem test_checks_owner : (let f := { fSw .opened with prt := { tF.prt with setup := [(0, 0x02000007), (1, 0x02000007)] } }
    ends1 f .openCh tHdr1 0x14 .notOwner && ends1 f (.capture · 1 1) tHdr1 0x42 .notOwner && ends1 f .destroy tHdr1 0x11 .notOwner) = true := by decide +kernel
theorem test_checks_kind_state : (ends1 (fCh .sense .closed .none) (.closeCh · false) tHdr 0x13 .kind && ends1 (fSw .lockedOut) (.closeCh · false) tHdr 0x13 .state &&
    ends1 (fCh .virt .closed .none) (.capture · 1 1) tHdr 0x42 .kind && ends1 (fSw .fallback) .openCh tHdr 0x14 .state && ends1 (fSw .opened) .release tHdr 0x15 .state &&
    ends1 (fSw .closed) .destroy tHdr 0x11 .state) = true := by decide +kernel
theorem test_latched_hi : ran (onF { tF with mer := { tF.mer with part := [(0, { MerPart.reset with stnHi := 7 })] } }) (.registerRead 0 .field 0x16020 .dword)
    (fun t => t.f.out == [.read 0 7]) = true := by decide +kernel
/-- The checks come before the wait for Firn (R53, R343). -/
theorem test_checks_before_firn : (let f := { fSw .closed with firn := { tF.firn with st := .train } }
    ends1 f .openCh { tHdr with handle := 5 } 0x14 .badHandle && ends1 f .destroy tHdr 0x11 .state &&
    ran (onF f) (.openCh tHdr) (fun t => t.f.firn.waiting.length = 1)) = true := by decide +kernel

end Sys2Proof.Tests
end

section
/-! PROOF. The handle and authority checks (R53). A command that names a handle runs a list of checks that starts with the handle's
checks, its role and its owner, both when it performs its effect and when it would wait for Firn (R343); so the first check that fails
decides its completion either way. -/
namespace Sys2Proof.Machine

/-! ### The first failure of a list of checks -/

@[simp] theorem firstFail_nil : firstFail [] = none := rfl

theorem firstFail_cons (ok : Bool) (st : Status) (d : Nat) (cs : List Check) :
    firstFail ((ok, st, d) :: cs) = if ok then firstFail cs else some (st, d) := rfl

theorem firstFail_append (a b : List Check) : firstFail (a ++ b) = (firstFail a).or (firstFail b) := by
  induction a with
  | nil => rfl
  | cons k a ih =>
    obtain ⟨ok, st, d⟩ := k
    cases ok
    · rfl
    · exact ih

theorem firstFail_append_of_some {a : List Check} {x : Status × Nat} (b : List Check) (h : firstFail a = some x) :
    firstFail (a ++ b) = some x := by rw [firstFail_append, h]; rfl

theorem firstFail_append_of_none {a : List Check} (b : List Check) (h : firstFail a = none) : firstFail (a ++ b) = firstFail b := by
  rw [firstFail_append, h]; rfl

theorem firstFail_of_prefix {a b : List Check} {x : Status × Nat} (hpre : a <+: b) (h : firstFail a = some x) :
    firstFail b = some x := by
  obtain ⟨c, rfl⟩ := hpre
  exact firstFail_append_of_some c h

namespace Field

theorem guard_of_some {f : Field} {cs : List Check} {st : Status} {d : Nat} (r : CmdRef) (go : Field → Field)
    (h : firstFail cs = some (st, d)) : f.guard r cs go = f.complete r st d := by simp [guard, h]

theorem guard_of_none {f : Field} {cs : List Check} (r : CmdRef) (go : Field → Field) (h : firstFail cs = none) :
    f.guard r cs go = go f := by simp [guard, h]

/-! ### A refused command -/

/-- A command completes with a failed check's status, when it runs and when it would have to wait for Firn (R53, R343). -/
def Refuses (f : Field) (r : CmdRef) (cmd : FCmd) (st : Status) : Prop :=
  f.perform r cmd = f.complete r st 0 ∧ (waitsFirn cmd = true → firstFail (f.firstChecks r cmd) = some (st, 0))

/-- A refused command never waits for Firn. -/
theorem Refuses.runCmd {f : Field} {r : CmdRef} {cmd : FCmd} {st : Status} (h : f.Refuses r cmd st) (hb : f.behindWaiting r = false) :
    f.runCmd r cmd = f.complete r st 0 := by
  obtain ⟨hperform, hfirst⟩ := h
  simp only [Field.runCmd, hb, Bool.false_eq_true, if_false]
  split
  · next hw => exact guard_of_some r _ (hfirst (Bool.and_eq_true_iff.mp hw).1)
  · exact hperform

/-- A command in flight changes the records alone. -/
theorem begun_frame (f : Field) (r : CmdRef) : f.begun r = f.withRecords (f.begun r) := rfl

/-- A refused command that the field die takes now changes the records alone, and is answered with the check's status. -/
theorem Refuses.command {f : Field} {c : CmdHdr} {op : Byte} {cmd : FCmd} {st : Status}
    (h : (f.begun (c.as op)).Refuses (c.as op) cmd st) (hn : f.takesNow c op = true) :
    f.command c op cmd = f.withRecords (f.command c op cmd) ∧ (f.command c op cmd).answeredAs (c.as op) st 0 c.handle = true := by
  simp only [takesNow, Bool.and_eq_true, Bool.not_eq_true'] at hn
  obtain ⟨⟨hadmits, hlink⟩, hbehind⟩ := hn
  have heq : f.command c op cmd = (f.begun (c.as op)).complete (c.as op) st 0 := by
    simpa [Field.command, hadmits, hlink] using h.runCmd hbehind
  rw [heq]
  exact ⟨records_trans (begun_frame f _) (complete_frame _ _ _ _), completeH_answeredAs _ _ _ _ _ _⟩

/-! ### Checks 1 to 5 of R53 -/

/-- Checks 1 to 5 of R53, with the outcomes of the role check and of the owner check. -/
def authChecks (f : Field) (r : CmdRef) (role own : Bool) : List Check :=
  f.checks123 r.part r.handle ++ [(role, .role, 0), (own, .notOwner, 0)]

theorem firstFail_checks15_none (f : Field) (r : CmdRef) (role : Bool) :
    firstFail (f.checks15 r.part r.handle role none) = firstFail (f.authChecks r role (decide ((f.chan (idx r.handle)).nev.owner = r.part))) := by
  simp [checks15, authChecks]

theorem firstFail_checks15_some (f : Field) (r : CmdRef) (role : Bool) (k : Nat) :
    firstFail (f.checks15 r.part r.handle role (some k)) = firstFail (f.authChecks r (role || f.granted r.part (idx r.handle) k)
      (decide ((f.chan (idx r.handle)).nev.owner = r.part) || f.granted r.part (idx r.handle) k)) := rfl

/-- A read has no owner check (R61). -/
theorem firstFail_checksRead (f : Field) (r : CmdRef) :
    firstFail (f.checksRead r.part r.handle) = firstFail (f.authChecks r (f.anyRole r.part) true) := by
  simp [checksRead, authChecks, checks123, firstFail_cons]

/-- The handle and authority checks of a command that names a handle; none for another command, nor for a READ_ENERGY with FINAL,
whose handle is the one the channel had (R223). -/
def handleChecks (f : Field) (r : CmdRef) : FCmd → List Check
  | .destroy | .energySet _ _ => f.checks15 r.part r.handle (f.commissioner r.part) none
  | .reconfigure _ | .demandReset | .capture _ _ => f.checks15 r.part r.handle (f.operator r.part) none
  | .closeCh _ | .bankWrite _ | .ctxSwap => f.checks15 r.part r.handle (f.operator r.part) (some 0)
  | .openCh => f.checks15 r.part r.handle (f.operator r.part) (some 1)
  | .release => f.checks15 r.part r.handle (f.operator r.part) (some 2)
  | .grant _ _ _ => f.checks15 r.part r.handle (f.operator r.part || f.commissioner r.part) none
  | .readChannel _ | .readSubtree _ _ | .readContext _ | .readEnergy _ false | .readHistory _ _ _ => f.checksRead r.part r.handle
  | _ => []

/-- The effect of a command that names a handle is guarded by a list of checks that begins with the handle and authority checks. -/
theorem perform_eq_guard (f : Field) (r : CmdRef) (cmd : FCmd) (hne : f.handleChecks r cmd ≠ []) :
    ∃ cs go, f.perform r cmd = f.guard r cs go ∧ f.handleChecks r cmd <+: cs := by
  cases cmd with
  | nop | create | readProfile | readCapture | readLoopset | writeProfile | writeLoopset | captureFree => exact absurd rfl hne
  | destroy => refine ⟨_, _, by rw [perform, destroy], ?_⟩; exact List.prefix_append _ _
  | reconfigure => refine ⟨_, _, by rw [perform, reconfigure], ?_⟩; exact List.prefix_append _ _
  | closeCh => refine ⟨_, _, by rw [perform, closeCmd], ?_⟩; exact List.prefix_append _ _
  | openCh => refine ⟨_, _, by rw [perform, openCmd], ?_⟩; exact List.prefix_append _ _
  | release => refine ⟨_, _, by rw [perform, releaseCmd], ?_⟩; exact (List.prefix_append _ _).trans (List.prefix_append _ _)
  | grant => refine ⟨_, _, by rw [perform, grantCmd], ?_⟩; exact List.prefix_append _ _
  | readChannel => refine ⟨_, _, by rw [perform, readChannel], ?_⟩; exact List.prefix_append _ _
  | readSubtree => refine ⟨_, _, by rw [perform, readSubtree], ?_⟩; exact List.prefix_append _ _
  | readContext => refine ⟨_, _, by rw [perform, readContext], ?_⟩; exact (List.prefix_append _ _).trans (List.prefix_append _ _)
  | readHistory => refine ⟨_, _, by rw [perform, readHistory], ?_⟩; exact List.prefix_append _ _
  | bankWrite => refine ⟨_, _, by rw [perform, bankWrite], ?_⟩; exact List.prefix_append _ _
  | ctxSwap => refine ⟨_, _, by rw [perform, ctxSwap], ?_⟩; exact List.prefix_append _ _
  | energySet => refine ⟨_, _, by rw [perform, energySet], ?_⟩; exact List.prefix_rfl
  | demandReset => refine ⟨_, _, by rw [perform, demandReset], ?_⟩; exact List.prefix_rfl
  | capture => refine ⟨_, _, by rw [perform, captureCmd], ?_⟩; exact List.prefix_append _ _
  | readEnergy o fin =>
    cases fin with
    | false => refine ⟨_, _, by rw [perform, readEnergy], ?_⟩; exact List.prefix_append _ (readArgs o 64)
    | true => exact absurd rfl hne

/-- The checks before a wait for Firn begin with the handle and authority checks too. -/
theorem handleChecks_prefix_firstChecks (f : Field) (r : CmdRef) (cmd : FCmd) (hw : waitsFirn cmd = true) :
    f.handleChecks r cmd <+: f.firstChecks r cmd := by
  cases cmd with
  | readCapture | writeProfile | writeLoopset => exact List.nil_prefix
  | energySet | demandReset => exact List.prefix_rfl
  | destroy | readHistory | capture => exact List.prefix_append _ _
  | reconfigure | closeCh | openCh | release => exact (List.prefix_append _ _).trans (List.prefix_append _ _)
  | readEnergy o fin =>
    cases fin with
    | false => exact ⟨readArgs o 64, rfl⟩
    | true => exact List.nil_prefix
  | nop | create | grant | readChannel | readSubtree | readProfile | readContext | readLoopset | bankWrite | ctxSwap
  | captureFree => exact nomatch hw

/-- The first failure of the handle and authority checks decides a command's completion. -/
theorem refuses_of_handleChecks {f : Field} {r : CmdRef} {cmd : FCmd} {st : Status}
    (h : firstFail (f.handleChecks r cmd) = some (st, 0)) : f.Refuses r cmd st := by
  have hne : f.handleChecks r cmd ≠ [] := fun hnil => by simp [hnil] at h
  obtain ⟨cs, go, hperform, hpre⟩ := f.perform_eq_guard r cmd hne
  exact ⟨hperform.trans (guard_of_some r go (firstFail_of_prefix hpre h)),
    fun hw => firstFail_of_prefix (f.handleChecks_prefix_firstChecks r cmd hw) h⟩

/-! ### The first check that fails -/

section
variable {f : Field} {r : CmdRef} {role own : Bool}

theorem authChecks_epoch (h : bit f.nev.coldAck r.part.toNat = true) : firstFail (f.authChecks r role own) = some (.epoch, 0) := by
  simp [authChecks, checks123, firstFail_cons, h]

theorem authChecks_badHandle (h : bit f.nev.coldAck r.part.toNat = false) (hform : handleForm r.handle = false) :
    firstFail (f.authChecks r role own) = some (.badHandle, 0) := by
  simp [authChecks, checks123, firstFail_cons, h, hform]

theorem authChecks_stale (h : bit f.nev.coldAck r.part.toNat = false) (hform : handleForm r.handle = true)
    (hlive : f.handleLive r.handle = false) : firstFail (f.authChecks r role own) = some (.stale, 0) := by
  simp [authChecks, checks123, firstFail_cons, h, hform, hlive]

/-- A command that names a channel passes checks 1 to 3: its role and its owner decide. -/
theorem authChecks_of_names {c : CmdHdr} {op : Byte} (hn : f.names c = true) :
    firstFail (f.authChecks (c.as op) role own) = firstFail [(role, .role, 0), (own, .notOwner, 0)] := by
  simp only [names, Bool.and_eq_true] at hn
  obtain ⟨⟨hack, hform⟩, hlive⟩ := hn
  exact firstFail_append_of_none _ (by simp [checks123, refOf, firstFail_cons, hack, hform, hlive])

end

/-! ### The kind and the state of a channel -/

section
variable {f : Field} {r : CmdRef}

/-- After the handle and authority checks a switching command asks for a kind with a switch. -/
theorem firstFail_switchChecks {k : Nat} (hpass : firstFail (f.checks15 r.part r.handle (f.operator r.part) (some k)) = none) :
    firstFail (f.switchChecks r k) = if (f.chan (idx r.handle)).nev.kind.switches then none else some (.kind, 0) :=
  firstFail_append_of_none _ hpass

theorem refuses_closeCh_kind {soft : Bool} (hpass : firstFail (f.handleChecks r (.closeCh soft)) = none)
    (hk : (f.chan (idx r.handle)).nev.kind.switches = false) : f.Refuses r (.closeCh soft) .kind := by
  have hkind : firstFail (f.switchChecks r 0) = some (.kind, 0) := by simp [firstFail_switchChecks hpass, hk]
  exact ⟨by rw [perform, closeCmd, guard_of_some r _ hkind], fun _ => firstFail_append_of_some _ hkind⟩

theorem refuses_openCh_kind (hpass : firstFail (f.handleChecks r .openCh) = none)
    (hk : (f.chan (idx r.handle)).nev.kind.switches = false) : f.Refuses r .openCh .kind := by
  have hkind : firstFail (f.switchChecks r 1) = some (.kind, 0) := by simp [firstFail_switchChecks hpass, hk]
  exact ⟨by rw [perform, openCmd, guard_of_some r _ hkind], fun _ => firstFail_append_of_some _ hkind⟩

/-- A CLOSE or an OPEN of a channel in LOCKED_OUT or FALLBACK fails its check of the state (R69). -/
theorem stateCheck_fails (cs : List Check)
    (hst : (f.chan (idx r.handle)).nev.state = .lockedOut ∨ (f.chan (idx r.handle)).nev.state = .fallback) :
    firstFail (f.stateCheck r :: cs) = some (.state, 0) := by
  rcases hst with h | h <;> simp [stateCheck, firstFail_cons, h]

theorem refuses_closeCh_state {soft : Bool} (hpass : firstFail (f.handleChecks r (.closeCh soft)) = none)
    (hk : (f.chan (idx r.handle)).nev.kind.switches = true)
    (hst : (f.chan (idx r.handle)).nev.state = .lockedOut ∨ (f.chan (idx r.handle)).nev.state = .fallback) :
    f.Refuses r (.closeCh soft) .state := by
  have hkind : firstFail (f.switchChecks r 0) = none := by simp [firstFail_switchChecks hpass, hk]
  have hshut : f.alreadyShut r = false := by rcases hst with h | h <;> simp [alreadyShut, h]
  refine ⟨?_, fun _ => (firstFail_append_of_none _ hkind).trans (stateCheck_fails _ hst)⟩
  rw [perform, closeCmd, guard_of_none r _ hkind]
  simpa [hshut] using guard_of_some r _ (stateCheck_fails [] hst)

theorem refuses_openCh_state (hpass : firstFail (f.handleChecks r .openCh) = none)
    (hk : (f.chan (idx r.handle)).nev.kind.switches = true)
    (hst : (f.chan (idx r.handle)).nev.state = .lockedOut ∨ (f.chan (idx r.handle)).nev.state = .fallback) :
    f.Refuses r .openCh .state := by
  have hkind : firstFail (f.switchChecks r 1) = none := by simp [firstFail_switchChecks hpass, hk]
  refine ⟨?_, fun _ => (firstFail_append_of_none _ hkind).trans (stateCheck_fails [] hst)⟩
  rw [perform, openCmd, guard_of_none r _ hkind]
  rcases hst with h | h <;> simp [h]

theorem refuses_release {st : Status} (h : firstFail (f.releaseChecks r) = some (st, 0)) : f.Refuses r .release st :=
  ⟨by rw [perform, releaseCmd, guard_of_some r _ h], fun _ => h⟩

theorem refuses_release_kind (hpass : firstFail (f.handleChecks r .release) = none)
    (hk : (f.chan (idx r.handle)).nev.kind.switches = false) : f.Refuses r .release .kind :=
  refuses_release (firstFail_append_of_some _ (by simp [firstFail_switchChecks hpass, hk]))

theorem refuses_release_state (hpass : firstFail (f.handleChecks r .release) = none)
    (hk : (f.chan (idx r.handle)).nev.kind.switches = true) (hst : (f.chan (idx r.handle)).nev.state ≠ .lockedOut) :
    f.Refuses r .release .state :=
  refuses_release ((firstFail_append_of_none _ (by simp [firstFail_switchChecks hpass, hk])).trans (by simp [firstFail_cons, hst]))

theorem refuses_capture_kind {a b : BitVec 16} (hpass : firstFail (f.handleChecks r (.capture a b)) = none)
    (hk : (f.chan (idx r.handle)).nev.kind = .virt) : f.Refuses r (.capture a b) .kind := by
  have h : firstFail (f.captureChecks r a b) = some (.kind, 0) := (firstFail_append_of_none _ hpass).trans (by simp [firstFail_cons, hk])
  exact ⟨by rw [perform, captureCmd, guard_of_some r _ h], fun _ => h⟩

theorem refuses_destroy_state (hpass : firstFail (f.handleChecks r .destroy) = none)
    (hd : f.destroyable (idx r.handle) = false) : f.Refuses r .destroy .state := by
  have h : firstFail (f.destroyChecks r) = some (.state, 0) := (firstFail_append_of_none _ hpass).trans (by simp [firstFail_cons, hd])
  exact ⟨by rw [perform, destroy, guard_of_some r _ h], fun _ => h⟩

end

/-! ### Commands on the state -/

/-- Accepting a command changes nothing that its checks look at. -/
theorem handleChecks_begun (f : Field) (r : CmdRef) (cmd : FCmd) : (f.begun r).handleChecks r cmd = f.handleChecks r cmd := rfl

/-- The handle and authority checks of an accepted command pass: it names a channel, with a role and as its owner or by a grant. -/
theorem handleChecks_begun_pass {f : Field} {c : CmdHdr} {op : Byte} {cmd : FCmd} {role own : Bool}
    (hauth : firstFail (f.handleChecks (c.as op) cmd) = firstFail (f.authChecks (c.as op) role own))
    (hn : f.names c = true) (hr : role = true) (ho : own = true) :
    firstFail ((f.begun (c.as op)).handleChecks (c.as op) cmd) = none := by
  rw [handleChecks_begun, hauth, authChecks_of_names hn, hr, ho]; rfl

end Field

namespace State
open Machine.Field

/-- A command completes with a status and changes the records alone. -/
def StopsAs (s : State) (c : CmdHdr) (i : Instr) (op : Byte) (st : Status) : Prop :=
  s.endsField i (fun g => g = s.f.withRecords g ∧ g.answeredAs (c.as op) st 0 c.handle = true)

/-- A command stops at the first of checks 1 to 5 of R53 that fails. -/
def StopsFirst (s : State) (c : CmdHdr) (i : Instr) (op : Byte) (role own : Bool) : Prop := s.f.takesNow c op = true →
  (bit s.f.nev.coldAck c.part.toNat = true → s.StopsAs c i op .epoch) ∧
  (bit s.f.nev.coldAck c.part.toNat = false → handleForm c.handle = false → s.StopsAs c i op .badHandle) ∧
  (bit s.f.nev.coldAck c.part.toNat = false → handleForm c.handle = true → s.f.handleLive c.handle = false → s.StopsAs c i op .stale) ∧
  (s.f.names c = true → role = false → s.StopsAs c i op .role) ∧
  (s.f.names c = true → role = true → own = false → s.StopsAs c i op .notOwner)

variable {s : State} {c : CmdHdr} {i : Instr} {op : Byte} {cmd : FCmd}

theorem stopsAs_of_refuses {st : Status} (hexec : exec i s = s.onField (fun f => f.command c op cmd))
    (ht : s.f.takesNow c op = true) (hr : (s.f.begun (c.as op)).Refuses (c.as op) cmd st) : s.StopsAs c i op st :=
  ⟨s.f.command c op cmd, hexec, hr.command ht⟩

theorem stopsFirst_of_handleChecks {role own : Bool} (hexec : exec i s = s.onField (fun f => f.command c op cmd))
    (hauth : firstFail (s.f.handleChecks (c.as op) cmd) = firstFail (s.f.authChecks (c.as op) role own)) :
    s.StopsFirst c i op role own := by
  intro ht
  have stop : ∀ st, firstFail (s.f.authChecks (c.as op) role own) = some (st, 0) → s.StopsAs c i op st := fun st h =>
    stopsAs_of_refuses hexec ht (refuses_of_handleChecks (by rw [handleChecks_begun, hauth, h]))
  refine ⟨fun h => stop _ (authChecks_epoch h), fun h hform => stop _ (authChecks_badHandle h hform),
    fun h hform hlive => stop _ (authChecks_stale h hform hlive), fun hn hr => stop _ ?_, fun hn hr ho => stop _ ?_⟩
  · rw [authChecks_of_names hn, hr]; rfl
  · rw [authChecks_of_names hn, hr, ho]; rfl

end State

open State Machine.Field

/-- Settles O60: each command's checks begin with those of R53, and the first that fails decides its completion, with Firn and
without. -/
theorem handleChecksStop : Obligations.HandleChecksStop := by
  intro s c
  have read (op : Byte) := firstFail_checksRead s.f (c.as op)
  have owned (op : Byte) (role : Bool) := firstFail_checks15_none s.f (c.as op) role
  have granted (op : Byte) (role : Bool) (k : Nat) := firstFail_checks15_some s.f (c.as op) role k
  refine ⟨⟨?_, ?_, ?_, ?_, ?_, ?_, ?_, ?_, ?_, ?_, ?_, ?_, ?_, ?_, ?_, ?_⟩, fun hn => ⟨?_, ?_, ?_, ?_, ?_⟩⟩
  · exact stopsFirst_of_handleChecks (cmd := .destroy) rfl (owned _ _)
  · exact fun o => stopsFirst_of_handleChecks (cmd := .reconfigure o) rfl (owned _ _)
  · exact fun soft => stopsFirst_of_handleChecks (cmd := .closeCh soft) rfl (granted _ _ 0)
  · exact stopsFirst_of_handleChecks (cmd := .openCh) rfl (granted _ _ 1)
  · exact stopsFirst_of_handleChecks (cmd := .release) rfl (granted _ _ 2)
  · exact fun p m sub => stopsFirst_of_handleChecks (cmd := .grant p m sub) rfl (owned _ _)
  · exact fun o => stopsFirst_of_handleChecks (cmd := .readChannel o) rfl (read _)
  · exact fun o y => stopsFirst_of_handleChecks (cmd := .readSubtree o y) rfl (read _)
  · exact fun o => stopsFirst_of_handleChecks (cmd := .readContext o) rfl (read _)
  · exact fun o => stopsFirst_of_handleChecks (cmd := .readEnergy o false) rfl (read _)
  · exact fun o a b => stopsFirst_of_handleChecks (cmd := .readHistory o a b) rfl (read _)
  · exact fun d => stopsFirst_of_handleChecks (cmd := .bankWrite d) rfl (granted _ _ 0)
  · exact stopsFirst_of_handleChecks (cmd := .ctxSwap) rfl (granted _ _ 0)
  · exact fun a b => stopsFirst_of_handleChecks (cmd := .energySet a b) rfl (owned _ _)
  · exact stopsFirst_of_handleChecks (cmd := .demandReset) rfl (owned _ _)
  · exact fun a b => stopsFirst_of_handleChecks (cmd := .capture a b) rfl (owned _ _)
  · intro ht hr ho
    simp only [Bool.decide_eq_true] at hr ho
    have pass (soft : Bool) := handleChecks_begun_pass (cmd := .closeCh soft) (granted 0x13 _ 0) hn hr ho
    exact ⟨fun hk soft => stopsAs_of_refuses rfl ht (refuses_closeCh_kind (pass soft) hk),
      fun hk hst soft => stopsAs_of_refuses rfl ht (refuses_closeCh_state (pass soft) hk hst)⟩
  · intro ht hr ho
    simp only [Bool.decide_eq_true] at hr ho
    have pass := handleChecks_begun_pass (cmd := .openCh) (granted 0x14 _ 1) hn hr ho
    exact ⟨fun hk => stopsAs_of_refuses rfl ht (refuses_openCh_kind pass hk),
      fun hk hst => stopsAs_of_refuses rfl ht (refuses_openCh_state pass hk hst)⟩
  · intro ht hr ho
    simp only [Bool.decide_eq_true] at hr ho
    have pass := handleChecks_begun_pass (cmd := .release) (granted 0x15 _ 2) hn hr ho
    exact ⟨fun hk => stopsAs_of_refuses rfl ht (refuses_release_kind pass hk),
      fun hk hst => stopsAs_of_refuses rfl ht (refuses_release_state pass hk hst)⟩
  · intro ht hr ho hk a b
    have pass := handleChecks_begun_pass (cmd := .capture a b) (owned 0x42 _) hn hr ho
    exact stopsAs_of_refuses rfl ht (refuses_capture_kind pass hk)
  · intro ht hr ho hd
    have pass := handleChecks_begun_pass (cmd := .destroy) (owned 0x11 _) hn hr ho
    exact stopsAs_of_refuses rfl ht (refuses_destroy_state pass hd)

end Sys2Proof.Machine
end

section
/-! PROOF. RELEASE (R159). Entering OPEN and clearing the retry count change one channel's entry and codeword 1 of its record; the event
and the completion change the records alone. -/
namespace Sys2Proof.Machine
namespace Field

/-! ### A transition and its event -/

@[simp] theorem chan_withRecords (f g : Field) (x : BitVec 17) : (f.withRecords g).chan x = f.chan x := rfl
@[simp] theorem chan_heal2 (f : Field) (x y : BitVec 17) (k : Nat) : (f.heal2 x k).chan y = f.chan y := by
  rw [chan, heal2_nev, chan]

theorem chan_transit_other (f : Field) {x y : BitVec 17} (new : ChState) (cause : Byte) (h : x ≠ y) :
    (f.transit x new cause).chan y = f.chan y := by
  rw [transit, chan_heal2, chan_modChan_other f _ h]

@[simp] theorem transit_state (f : Field) (x : BitVec 17) (new : ChState) (cause : Byte) :
    ((f.transit x new cause).chan x).nev.state = new := by
  rw [transit, chan_heal2, chan_modChan_same]

/-- Only a channel in CLOSED has a wheel entry after its transition (R151). -/
theorem transit_wheel (f : Field) (x : BitVec 17) {new : ChState} (cause : Byte) (h : new ≠ .closed) :
    ((f.transit x new cause).chan x).fr.wheel = .none := by
  rw [transit, chan_heal2, chan_modChan_same]
  simp [h]

/-- The state-change event of a cause that storms do not count changes the records alone (R68, R141). -/
theorem stateChange_frame (f : Field) (x : BitVec 17) (old new : ChState) {cause : Byte} (detail : Byte) (iss : Option Part)
    (h : elementCode cause = false) :
    f.stateChange x old new cause detail iss = f.withRecords (f.stateChange x old new cause detail iss) := by
  simp only [stateChange, h, Bool.false_eq_true, if_false]
  apply raise_frame

/-- A channel that enters a state for such a cause makes its transition; the rest is records. -/
theorem enter_frame (f : Field) (x : BitVec 17) (new : ChState) {cause : Byte} (detail : Byte) (iss : Option Part)
    (h : elementCode cause = false) :
    f.enter x new cause detail iss = (f.transit x new cause).withRecords (f.enter x new cause detail iss) :=
  stateChange_frame _ _ _ _ _ _ h

/-- A change of a channel's record after a change of records is one before it. -/
theorem modRec_frame {f g : Field} (x : BitVec 17) (m : ChRec → ChRec) (h : g = f.withRecords g) :
    g.modRec x m = (f.modRec x m).withRecords (g.modRec x m) := by rw [h]; rfl

/-! ### The end of a lockout -/

/-- The channel at x has entered OPEN with its retry count 0: what a RELEASE leaves beside records. -/
def freed (f : Field) (x : BitVec 17) : Field := (f.transit x .opened 0).modRec x (fun c => { c with rcount := 0 })

/-- Beside the channels only codeword 1 of the record is written (R349). -/
theorem freed_frame (f : Field) (x : BitVec 17) : f.freed x = { f.heal2 x 1 with nev := (f.freed x).nev } := by rw [freed]; rfl

/-- A command in flight is one of the records, so it makes no difference to what is freed. -/
theorem freed_begun (f : Field) (r : CmdRef) (x : BitVec 17) : (f.begun r).freed x = (f.freed x).withRecords (f.begun r) := rfl

theorem chan_freed_other (f : Field) {x y : BitVec 17} (h : x ≠ y) : (f.freed x).chan y = f.chan y := by
  rw [freed, modRec, chan_modChan_other _ _ h, chan_transit_other f _ _ h]

/-- A freed channel is OPEN, with its retry count 0 and no wheel entry (R149, R151). -/
theorem freed_opened (f : Field) (x : BitVec 17) : ((f.freed x).chan x).nev.state = .opened ∧ ((f.freed x).chan x).fr.rcount = 0 ∧
    ((f.freed x).chan x).fr.wheel = .none := by
  simp [freed, modRec, transit_wheel]

theorem done_answeredAs (f : Field) (r : CmdRef) : (f.done r).answeredAs r .ok 0 r.handle = true :=
  completeH_answeredAs f r .ok 0 false r.handle

/-- A RELEASE that passes its checks frees its channel and completes OK (R159). -/
theorem releaseCmd_passed {f : Field} {r : CmdRef} (h : firstFail (f.releaseChecks r) = none) :
    f.releaseCmd r = (f.freed (idx r.handle)).withRecords (f.releaseCmd r) ∧
      (f.releaseCmd r).answeredAs r .ok 0 r.handle = true := by
  rw [releaseCmd, guard_of_none r _ h]
  have henter := enter_frame f (idx r.handle) .opened (cause := 0) 0 (some r.part) (by decide)
  exact ⟨records_trans (modRec_frame _ _ henter) (done_frame _ r), done_answeredAs _ r⟩

/-- A RELEASE passes its checks where those of the handle and authority pass and the channel is a switch in LOCKED_OUT. -/
theorem releaseChecks_pass {f : Field} {r : CmdRef} (hpass : firstFail (f.handleChecks r .release) = none)
    (hk : (f.chan (idx r.handle)).nev.kind.switches = true) (hst : (f.chan (idx r.handle)).nev.state = .lockedOut) :
    firstFail (f.releaseChecks r) = none :=
  (firstFail_append_of_none _ (by simp [firstFail_switchChecks hpass, hk])).trans (by simp [firstFail_cons, hst])

/-- A command that the field die takes now with Firn available performs its effect at once. -/
theorem command_performs {f : Field} {c : CmdHdr} {op : Byte} (cmd : FCmd) (ht : f.takesNow c op = true) (hfirn : f.firnOn = true) :
    f.command c op cmd = (f.begun (c.as op)).perform (c.as op) cmd := by
  simp only [takesNow, Bool.and_eq_true, Bool.not_eq_true'] at ht
  obtain ⟨⟨hadmits, hlink⟩, hbehind⟩ := ht
  have hbehind' : (f.begun (c.as op)).behindWaiting (c.as op) = false := hbehind
  have hfirn' : (f.begun (c.as op)).firnOn = true := hfirn
  simp [Field.command, runCmd, hadmits, hlink, hbehind', hfirn']

end Field

open State Machine.Field

/-- A RELEASE of a LOCKED_OUT channel, by its operator or under a grant, frees the channel. -/
theorem release_ends_lockout {s : State} {c : CmdHdr} (ht : s.f.takesNow c 0x15 = true) (hfirn : s.f.firnOn = true)
    (hpass : firstFail ((s.f.begun (c.as 0x15)).handleChecks (c.as 0x15) .release) = none)
    (hk : (s.f.chan (idx c.handle)).nev.kind.switches = true) (hst : (s.f.chan (idx c.handle)).nev.state = .lockedOut) :
    s.endsField (.release c) (fun g => g = (s.f.freed (idx c.handle)).withRecords g ∧
      g.answeredAs (c.as 0x15) .ok 0 c.handle = true) := by
  refine ⟨s.f.command c 0x15 .release, rfl, ?_⟩
  rw [command_performs .release ht hfirn, perform]
  obtain ⟨hfreed, hans⟩ := releaseCmd_passed (releaseChecks_pass hpass hk hst)
  rw [freed_begun, withRecords_withRecords] at hfreed
  exact ⟨hfreed, hans⟩

/-- Settles O8: the channel is freed and the rest is records; without OPERATOR and grant the check of the role fails. -/
theorem releaseEndsLockout : Obligations.ReleaseEndsLockout := by
  intro s c ht hfirn hn x held
  have granted := firstFail_checks15_some s.f (c.as 0x15) (s.f.operator c.part) 2
  constructor
  · intro hauth hk hst
    have hrole : (s.f.operator c.part || held) = true := by simpa using hauth.imp And.left id
    have hown : (decide ((s.f.chan x).nev.owner = c.part) || held) = true := by simpa using hauth.imp And.right id
    have hpass := handleChecks_begun_pass (cmd := .release) granted hn hrole hown
    obtain ⟨g, hexec, hg, hans⟩ := release_ends_lockout ht hfirn hpass hk hst
    have hchan : ∀ y, g.chan y = (s.f.freed x).chan y := fun y => congrArg (·.chan y) hg
    have hnev : g.nev = (s.f.freed x).nev := congrArg (·.nev) hg
    obtain ⟨hstate, hcount, hwheel⟩ := freed_opened s.f x
    refine ⟨g, hexec, ?_, ?_, ?_, fun y hy => ?_, ?_, hans⟩
    · rw [hchan, hstate]
    · rw [hchan, hcount]
    · rw [hchan, hwheel]
    · rw [hchan]; exact chan_freed_other _ hy.symm
    · rw [hnev, ← freed_frame]; exact hg
  · intro hop hheld
    obtain ⟨-, -, -, hrole, -⟩ := stopsFirst_of_handleChecks (i := .release c) (cmd := .release) rfl granted ht
    exact hrole hn (Bool.or_eq_false_iff.mpr ⟨hop, hheld⟩)

end Sys2Proof.Machine
end

section
/-! PROOF. Wide reads (R313). A LO read changes one latch of one partition's entry in Meridian's table and sends the low half; a HI
register answers the latch of its pair. -/
namespace Sys2Proof.Machine

/-! ### The latches of a partition -/

/-- The latch of a pair. -/
def MerPart.latch (m : MerPart) : WideReg → Word
  | .cnt => m.cntHi
  | .stn => m.stnHi
  | .pps => m.ppsHi

/-- A value goes to the latch of a pair. -/
def MerPart.withLatch (m : MerPart) (r : WideReg) (v : Word) : MerPart :=
  match r with
  | .cnt => { m with cntHi := v }
  | .stn => { m with stnHi := v }
  | .pps => { m with ppsHi := v }

/-- The HI register of a pair. -/
def hiOffset : WideReg → Word
  | .cnt => 0x16004
  | .stn => 0x16020
  | .pps => 0x16028

namespace Field

@[simp] theorem merPart_setMerPart_same (f : Field) (p : Part) (m : MerPart) : (f.setMerPart p m).merPart p = m := by
  simp [merPart, setMerPart]

theorem merPart_setMerPart_other (f : Field) {p q : Part} (m : MerPart) (h : p ≠ q) : (f.setMerPart p m).merPart q = f.merPart q := by
  have hn : p.toNat ≠ q.toNat := mt BitVec.eq_of_toNat_eq h
  simp [merPart, setMerPart, tabGet_tabSet_other _ _ _ hn]

theorem tunnelled_of_seqRuns {f : Field} (g : Field → Field) (h : f.seqRuns = true) : f.tunnelled g = g f := by
  simp [tunnelled, h]

/-! ### The two reads -/

theorem wideLoRead_eq (f : Field) (p : Part) (r : WideReg) :
    f.wideLoRead p r = (f.setMerPart p ((f.merPart p).withLatch r (hi32 (f.wideValue r))), bits (f.wideValue r) 0 32) := by
  cases r <;> rfl

theorem wideLoRow_eq {f : Field} (p : Part) (r : WideReg) (h : f.seqRuns = true) :
    f.wideLoRow p r = (f.setMerPart p ((f.merPart p).withLatch r (hi32 (f.wideValue r)))).emit (.read p (bits (f.wideValue r) 0 32)) := by
  rw [wideLoRow, tunnelled_of_seqRuns _ h, wideLoRead_eq]

theorem regRead_of_mer (f : Field) (p : Part) {o : Nat} (hword : o % 4 = 0) (hlo : 0x16000 ≤ o) (hhi : o < 0x17000) :
    f.regRead p o = f.readMer p o := by
  rw [regRead, if_neg (by omega), if_neg (by omega), if_neg (by omega), if_neg (by omega), if_neg (by omega), if_neg (by omega),
    if_neg (by omega), if_neg (by omega), if_pos hhi]

theorem readMer_hiOffset (f : Field) (p : Part) (r : WideReg) : f.readMer p (hiOffset r).toNat = ((f.merPart p).latch r, f) := by
  cases r <;> rfl

/-- The HI registers are whole words of Meridian's window. -/
theorem hiOffset_mer (r : WideReg) : (hiOffset r).toNat % 4 = 0 ∧ 0x16000 ≤ (hiOffset r).toNat ∧ (hiOffset r).toNat < 0x17000 := by
  cases r <;> decide

theorem readReg_hiOffset {f : Field} (p : Part) (r : WideReg) (h : f.seqRuns = true) :
    f.readReg p (hiOffset r).toNat = f.emit (.read p ((f.merPart p).latch r)) := by
  obtain ⟨hword, hlo, hhi⟩ := hiOffset_mer r
  rw [readReg, tunnelled_of_seqRuns _ h, regRead_of_mer f p hword hlo hhi, readMer_hiOffset]

end Field

open Machine.Field

/-- A LO read sends the low half and leaves the high half in the reader's latch of the pair. -/
theorem wideLoRead_latches {s : State} (p : Part) (r : WideReg) (h : s.f.seqRuns = true) :
    s.endsField (.wideLoRead p r) (fun g =>
      g.out = s.f.out ++ [Out.read p (bits (s.f.wideValue r) 0 32)] ∧
      g.merPart p = (s.f.merPart p).withLatch r (hi32 (s.f.wideValue r)) ∧
      (∀ q, q ≠ p → g.merPart q = s.f.merPart q) ∧
      g = { s.f with mer := { s.f.mer with part := g.mer.part }, out := g.out }) := by
  refine ⟨s.f.wideLoRow p r, rfl, ?_⟩
  rw [wideLoRow_eq p r h]
  exact ⟨rfl, merPart_setMerPart_same _ _ _, fun q hq => merPart_setMerPart_other _ _ hq.symm, rfl⟩

/-- A read of a HI register sends the reader's latch of the pair and changes nothing else. -/
theorem registerRead_hiOffset {s : State} (p : Part) (r : WideReg) (h : s.f.seqRuns = true) :
    s.endsField (.registerRead p .field (hiOffset r) .dword) (fun g =>
      g = { s.f with out := s.f.out ++ [Out.read p ((s.f.merPart p).latch r)] }) := by
  have hword : (hiOffset r).toNat % 4 = 0 := (hiOffset_mer r).left
  refine ⟨s.f.readReg p (hiOffset r).toNat, ?_, readReg_hiOffset p r h⟩
  show execRegisterRead p .field (hiOffset r) .dword s = _
  simp [execRegisterRead, hword]

/-- Settles O17: for each pair the LO read writes the latch that the HI register answers. -/
theorem wideReadsLatch : Obligations.WideReadsLatch := by
  intro s p r h
  have lo := wideLoRead_latches p r h
  have hi := registerRead_hiOffset p r h
  cases r with
  | cnt => exact ⟨lo, hi⟩
  | stn => exact ⟨lo, hi⟩
  | pps => exact ⟨lo, hi⟩

end Sys2Proof.Machine
end

section
/-! PROOF. The shape of a step (R24, R25). Every command is one effect on the field die, which the host die's state does not enter, and
one on the host die; the die that it does not act on keeps its state. -/
namespace Sys2Proof.Machine
set_option Elab.async false

/-- The command changes the field die by gf and the host die by gh, which may read the field die (log entry 8); the die that it does
not act on stays. -/
def ActsBy (i : Instr) (gf : Field → Field) (gh : Field → HDie → HDie) : Prop :=
  (∀ s, exec i s = .next { s with f := gf s.f, h := gh s.f s.h }) ∧
  (actsOn .field i = false → gf = id) ∧ (actsOn .host i = false → gh = fun _ => id)

/-- The command is one effect on each die. -/
def Splits (i : Instr) : Prop := ∃ gf gh, ActsBy i gf gh

theorem Splits.ofField {i : Instr} {gf : Field → Field} (h : ∀ s, exec i s = s.onField gf) (ha : actsOn .field i = true) : Splits i :=
  ⟨gf, fun _ => id, h, fun e => absurd (ha.symm.trans e) (by decide), fun _ => rfl⟩

theorem Splits.ofReading {i : Instr} {gh : Field → HDie → HDie} (h : ∀ s, exec i s = s.onHost (gh s.f)) (ha : actsOn .host i = true) :
    Splits i :=
  ⟨id, gh, h, fun _ => rfl, fun e => absurd (ha.symm.trans e) (by decide)⟩

theorem Splits.ofHost {i : Instr} {gh : HDie → HDie} (h : ∀ s, exec i s = s.onHost gh) (ha : actsOn .host i = true) : Splits i :=
  .ofReading (gh := fun _ => gh) h ha

theorem Splits.ofBoth {i : Instr} (gf : Field → Field) (gh : Field → HDie → HDie)
    (h : ∀ s, exec i s = .next { s with f := gf s.f, h := gh s.f s.h }) (hf : actsOn .field i = true) (hh : actsOn .host i = true) :
    Splits i :=
  ⟨gf, gh, h, fun e => absurd (hf.symm.trans e) (by decide), fun e => absurd (hh.symm.trans e) (by decide)⟩

theorem Splits.ofDie {i : Instr} {d : Die} {gf : Field → Field} {gh : HDie → HDie} (h : ∀ s, exec i s = s.onDie d gf gh)
    (ha : ∀ e, actsOn e i = decide (e = d)) : Splits i := by
  cases d with
  | field => exact .ofField h (ha _)
  | host => exact .ofHost h (ha _)

theorem splits_registerRead (p : Part) (w : Window) (off : Word) (acc : Access) : Splits (.registerRead p w off acc) := by
  cases w with
  | host => exact .ofHost (gh := fun h => h.readReg p off.toNat acc) (fun _ => rfl) rfl
  | bar2 => exact .ofHost (gh := fun h => h.readBar2 p off.toNat acc) (fun _ => rfl) rfl
  | field =>
    by_cases hacc : acc = .dword ∧ off.toNat % 4 = 0
    · exact .ofField (gf := fun f => f.readReg p off.toNat) (fun _ => by simp [exec, execRegisterRead, hacc]) (by simp [actsOn, hacc])
    · exact .ofHost (gh := fun h => h.emit (.unsupported p)) (fun _ => by simp [exec, execRegisterRead, hacc]) (by simp [actsOn, hacc])

theorem splits_registerWrite (p : Part) (w : Window) (off : Word) (v : BitVec 64) (acc : Access) :
    Splits (.registerWrite p w off v acc) := by
  cases w with
  | host =>
    exact .ofReading (gh := fun f h => h.writeReg p off.toNat (v.setWidth 32) acc f.saf.confirmed f.saf.safe f.saf.active)
      (fun _ => rfl) rfl
  | bar2 => exact .ofHost (gh := fun h => h.writeBar2 p off.toNat (v.setWidth 32) (bits v 32 32) acc) (fun _ => rfl) rfl
  | field =>
    by_cases hacc : acc = .dword ∧ off.toNat % 4 = 0
    · exact .ofField (gf := fun f => f.byPart p (fun g => g.regWrite p off.toNat (v.setWidth 32)))
        (fun _ => by simp [exec, execRegisterWrite, hacc]) (by simp [actsOn, hacc])
    · exact .ofHost (gh := fun h => h.badWrite p) (fun _ => by simp [exec, execRegisterWrite, hacc]) (by simp [actsOn, hacc])

/-- Every command is one effect on each die. -/
theorem exec_splits (i : Instr) : Splits i := by
  cases i with
  | registerRead p w off acc => exact splits_registerRead p w off acc
  | registerWrite p w off v acc => exact splits_registerWrite p w off v acc
  | toFielded p => exact .ofReading (gh := fun f h => h.fieldAct p f.saf.confirmed) (fun _ => rfl) rfl
  | setBl p level => exact .ofReading (gh := fun f h => h.setBl p level f.saf.safe) (fun _ => rfl) rfl
  | attest p => exact .ofReading (gh := fun f h => h.attest p f.saf.active) (fun _ => rfl) rfl
  | tapInstruction d op =>
    cases d with
    | field => exact .ofField (gf := fun f => f.tapField op) (fun _ => rfl) rfl
    | host => exact .ofReading (gh := fun f h => h.tapHost op f.saf.safe) (fun _ => rfl) rfl
  | linkNak d cls x =>
    cases d with
    | field =>
      exact .ofBoth (fun f => f.linkNakRow cls x.hdr x.seq) (fun f h => h.countResends (f.nakCount cls x.hdr x.seq))
        (fun _ => rfl) rfl rfl
    | host => exact .ofHost (gh := fun h => h.linkNakRow cls x.hdr x.seq) (fun _ => rfl) rfl
  | resendTimeout d cls =>
    cases d with
    | field => exact .ofBoth (fun f => f.resendTimeout cls) (fun f h => h.countResends (f.resendCount cls)) (fun _ => rfl) rfl rfl
    | host => exact .ofHost (gh := fun h => h.resendTimeout cls) (fun _ => rfl) rfl
  | imageUpdate | trainingRepeat | por | bor | pin | wdt | thermometryDemand | thermometryReading | confirmingReading | keepalive
  | keepaliveLoss | trainLink | linkAck => exact .ofDie (fun _ => rfl) (fun _ => rfl)
  | fence | fenceComplete | fenceTimeout | hostWarmResetEnd | hostThermalOffMeasurement | setOwner | commission | commExit | debug
  | debugEnd | toSealed | returnPart | commissioningExpiry | debugExpiry | challengeExpiry | lockoutEnd | tunCpl | tunnelTimeout | fstate
  | cpl | evt | hwrite | wakeField | partSetupWrite | ringCfgWrite | doorbellPoll | descriptorFetch | payloadReadDone | msixTimerExpiry
  | linkDown | hotReset | functionLevelReset | deliveryHold | deliveryResume | hostStandbyEntry | hostStandbyExit =>
    exact .ofHost (fun _ => by rw [exec]; rfl) rfl
  | _ => exact .ofField (fun _ => by rw [exec]; rfl) rfl

/-- A step ends in a next state whose field die and queue come from the field die and the queue alone. -/
theorem step_field_pending (s t : State) (hf : s.f = t.f) (hp : s.pending = t.pending) :
    ∃ u v, step s = .next u ∧ step t = .next v ∧ u.f = v.f ∧ u.pending = v.pending := by
  obtain ⟨p, f, h⟩ := s
  obtain ⟨_, _, h'⟩ := t
  obtain rfl := hf
  obtain rfl := hp
  cases p with
  | nil => exact ⟨_, _, rfl, rfl, rfl, rfl⟩
  | cons i r =>
    obtain ⟨gf, gh, hexec, -, -⟩ := exec_splits i
    exact ⟨_, _, hexec ⟨r, f, h⟩, hexec ⟨r, f, h'⟩, rfl, rfl⟩

/-- Settles O1: both clauses are the definition of a step. -/
theorem stepRunsFront : Obligations.StepRunsFront :=
  ⟨fun s c r h => by rw [step, h], fun s h => by rw [step, h]⟩

/-- Settles O56: a command's effect on the die that it does not act on is the identity. -/
theorem diesActAlone : Obligations.DiesActAlone := by
  intro s c
  obtain ⟨gf, gh, hexec, hfield, hhost⟩ := exec_splits c
  exact ⟨_, hexec s, rfl, fun e => congrFun (hfield e) s.f, fun e => congrFun (congrFun (hhost e) s.f) s.h⟩

/-- Settles O57: two states that agree on the field die and on the queue agree on them after every step. -/
theorem protectionIgnoresHost : Obligations.ProtectionIgnoresHost := by
  intro s t n
  induction n generalizing s t with
  | zero => exact fun hf _ => hf
  | succ n ih =>
    intro hf hp
    obtain ⟨u, v, hs, ht, hf', hp'⟩ := step_field_pending s t hf hp
    simpa only [State.after, hs, ht] using ih u v hf' hp'

end Sys2Proof.Machine
end

section
/-! PROOF. The host die's bounds (R369, R393, R491). One lemma per operation of the host die says that it keeps them: few operations
change what the bounds speak of. A command enters flight only where fewer than 64 are, a tunnelled access is held only where fewer than
eight are, and the log drops its oldest record beyond sixteen. -/
namespace Sys2Proof.Machine
set_option Elab.async false
namespace HDie.Bounded

variable {h g k : HDie} {p : Part}

/-! ### What carries the bounds over -/

/-- An operation that leaves the partitions and the log alone. -/
theorem of (hb : h.Bounded) (hpart : g.part = h.part) (hlog : g.sec.log = h.sec.log) : g.Bounded := by
  obtain ⟨hparts, hlen⟩ := hb
  refine ⟨fun p => ?_, hlog ▸ hlen⟩
  rw [hp, hpart]
  exact hparts p

theorem ofLog (hb : h.Bounded) (hpart : g.part = h.part) (hlog : g.sec.log.length ≤ 16) : g.Bounded :=
  ⟨fun p => by rw [hp, hpart]; exact hb.1 p, hlog⟩

theorem ite {c : Prop} [Decidable c] (hg : g.Bounded) (hk : k.Bounded) : (if c then g else k).Bounded := by
  split
  · exact hg
  · exact hk

theorem foldl {α : Type} {l : List α} {F : HDie → α → HDie} (hb : h.Bounded) (hF : ∀ g a, g.Bounded → (F g a).Bounded) :
    (l.foldl F h).Bounded := by
  induction l generalizing h with
  | nil => exact hb
  | cons a l ih => exact ih (hF h a hb)

theorem setHp {v : HPart} (hb : h.Bounded) (hi : v.inflight.length ≤ 64) (ht : v.tun.length ≤ 8) : (h.setHp p v).Bounded := by
  refine ⟨fun q => ?_, hb.2⟩
  by_cases hq : p = q
  · subst hq; rw [hp_setHp_same]; exact ⟨hi, ht⟩
  · rw [hp_setHp_other h v hq]; exact hb.1 q

/-- A partition is written with no more commands in flight and no more accesses than it had. -/
theorem setHpLe {v : HPart} (hb : h.Bounded) (hi : v.inflight.length ≤ (h.hp p).inflight.length)
    (ht : v.tun.length ≤ (h.hp p).tun.length) : (h.setHp p v).Bounded :=
  hb.setHp (hi.trans (hb.1 p).1) (ht.trans (hb.1 p).2)

theorem modHpLe {m : HPart → HPart} (hb : h.Bounded) (hi : ∀ w, (m w).inflight.length ≤ w.inflight.length)
    (ht : ∀ w, (m w).tun.length ≤ w.tun.length) : (h.modHp p m).Bounded := hb.setHpLe (hi _) (ht _)

/-- A partition is changed in other fields. -/
theorem modHp {m : HPart → HPart} (hb : h.Bounded) (hi : ∀ w, (m w).inflight = w.inflight := by intro; rfl)
    (ht : ∀ w, (m w).tun = w.tun := by intro; rfl) : (h.modHp p m).Bounded :=
  hb.modHpLe (fun w => (congrArg List.length (hi w)).le) (fun w => (congrArg List.length (ht w)).le)

theorem setHpSame {v : HPart} (hb : h.Bounded) (hi : v.inflight = (h.hp p).inflight := by rfl)
    (ht : v.tun = (h.hp p).tun := by rfl) : (h.setHp p v).Bounded := hb.setHpLe (congrArg List.length hi).le (congrArg List.length ht).le

/-! ### Messages, records and the status page -/

theorem emit {o : Out} (hb : h.Bounded) : (h.emit o).Bounded := hb.of rfl rfl
theorem sendCtl {m : Msg} (hb : h.Bounded) : (h.sendCtl m).Bounded :=
  hb.of (sendCtl_part h m).1 (congrArg HSec.log (sendCtl_part h m).2)
theorem sendDat {m : Msg} (hb : h.Bounded) : (h.sendDat m).Bounded :=
  hb.of (sendDat_part h m).1 (congrArg HSec.log (sendDat_part h m).2)
theorem devWr {off v : Word} (hb : h.Bounded) : (h.devWr off v).Bounded := hb.sendCtl
theorem devRd {tag : BitVec 32} {off : Word} (hb : h.Bounded) : (h.devRd tag off).Bounded := hb.sendCtl
theorem devWrs {l : List (Word × Word)} (hb : h.Bounded) : (l.foldl (fun (g : HDie) w => g.devWr w.1 w.2) h).Bounded :=
  hb.foldl fun _ _ hg => hg.devWr
theorem devKeep {l : List (Word × Word)} (hb : h.Bounded) : (h.devKeep l).Bounded := .ite hb.devWrs (hb.of rfl rfl)
theorem log {ty : Byte} {b : Bytes} (hb : h.Bounded) : (h.log ty b).Bounded :=
  hb.ofLog (log_bound h ty b hb.2).1 (log_bound h ty b hb.2).2
theorem tellSec {l : BitVec 4} (hb : h.Bounded) : (h.tellSec l).Bounded := .ite hb.devWr hb
theorem tellDbg (hb : h.Bounded) : h.tellDbg.Bounded := .ite hb.devWr hb
theorem tellHold (hb : h.Bounded) : h.tellHold.Bounded := .ite hb.devWr hb
theorem statWr {off : Nat} {b : Bytes} (hb : h.Bounded) : (h.statWr p off b).Bounded := .ite hb hb.emit
theorem statRing {n : BitVec 4} (hb : h.Bounded) : (h.statRing p n).Bounded := hb.statWr
theorem statPstate (hb : h.Bounded) : (h.statPstate p).Bounded := hb.statWr
theorem statEvt (hb : h.Bounded) : (h.statEvt p).Bounded := hb.statWr
theorem setSq {n : BitVec 4} {v : HSq} (hb : h.Bounded) : (h.setSq p n v).Bounded := hb.modHp
theorem setCq {n : BitVec 4} {v : HCq} (hb : h.Bounded) : (h.setCq p n v).Bounded := hb.modHp
theorem sendMsix {vec : BitVec 6} (hb : h.Bounded) : (h.sendMsix p vec).Bounded := by
  simp only [HDie.sendMsix]
  exact .ite hb (.ite hb.setHpSame hb.setHpSame.emit)
theorem msixUnmasked (hb : h.Bounded) : (h.msixUnmasked p).Bounded := hb.foldl fun _ _ hg => .ite hg.sendMsix hg
theorem moderate {n : BitVec 4} (hb : h.Bounded) : (h.moderate p n).Bounded := .ite hb.setCq.sendMsix hb.setCq
theorem putRecord {n : BitVec 4} {b : Bytes} (hb : h.Bounded) : (h.putRecord p n b).Bounded := by
  simp only [HDie.putRecord]
  exact (hb.emit.setCq.modHp).statRing.moderate
theorem syncBlock (hb : h.Bounded) : (h.syncBlock p).Bounded := .ite hb (hb.modHp).devWr
theorem lostDisabled (hb : h.Bounded) : (h.lostDisabled p).Bounded := hb.modHp
theorem putEvent {n : BitVec 4} {b : Bytes} (hb : h.Bounded) : (h.putEvent p n b).Bounded :=
  (hb.modHp).statEvt.putRecord
theorem toRing {n : BitVec 4} {b : Bytes} (hb : h.Bounded) : (h.toRing p n b).Bounded :=
  .ite hb.lostDisabled (.ite (hb.modHp) hb.putRecord)
theorem finish {r : CmdRef} {b : Bytes} (hb : h.Bounded) : (h.finish r b).Bounded :=
  have left := hb.modHpLe (p := r.part) (m := fun w => { w with inflight := w.inflight.filter (fun c => c.ref ≠ r) })
    (fun _ => List.length_filter_le _ _) (fun _ => le_rfl)
  .ite left left.toRing
theorem complete {r : CmdRef} {s : Status} {d : Nat} (hb : h.Bounded) : (h.complete r s d).Bounded := hb.finish
theorem drain (hb : h.Bounded) : (h.drain p).Bounded :=
  (hb.modHp).foldl fun _ _ hg =>
    .ite hg.lostDisabled (.ite (hg.modHp) (.ite hg.putEvent hg.putRecord))
theorem deliverEvt {b : Bytes} (hb : h.Bounded) : (h.deliverEvt p b).Bounded :=
  have counted := Bounded.ite (c := u8 b 0 = 0x3D) (hb.modHp (p := p) (m := fun w =>
    { w with lostQueue := satAdd w.lostQueue (leNat b 16 4), lost := satAdd w.lost (leNat b 16 4) })).statWr hb
  .ite counted.lostDisabled (.ite (counted.modHp) counted.putEvent)
theorem noteIdle (hb : h.Bounded) : h.noteIdle.Bounded := .ite (hb.of rfl rfl) hb
theorem sendRst (hb : h.Bounded) : (h.sendRst p).Bounded := .ite hb.sendCtl (hb.of rfl rfl)

/-! ### Rings -/

/-- Where fewer than 64 commands are in flight, one more may be. -/
theorem addFlight {r : CmdRef} {d : Bytes} {n : Nat} {st : Stage2} (hb : h.Bounded) (hroom : (h.hp r.part).inflight.length < 64) :
    (h.addFlight r d n st).Bounded := hb.setHp (by simpa using hroom) (hb.1 r.part).2
theorem fenceAt {r : CmdRef} {n : Nat} {m : BitVec 16} {t : Word} (hb : h.Bounded) : (h.fenceAt r n m t).Bounded := hb.setSq
theorem fenceEnd {f : Fence} {s : Status} {d : Nat} (hb : h.Bounded) : (h.fenceEnd f s d).Bounded := hb.setSq.complete
theorem fenceComplete {n : BitVec 4} (hb : h.Bounded) : (h.fenceComplete p n).Bounded := by
  unfold HDie.fenceComplete
  split
  · exact .ite hb.fenceEnd hb
  · exact hb
theorem fenceTimeout {n : BitVec 4} (hb : h.Bounded) : (h.fenceTimeout p n).Bounded := by
  unfold HDie.fenceTimeout
  split
  · split
    · exact .ite hb.fenceEnd hb
    · exact hb
  · exact hb
theorem sendBulk {r : CmdRef} (n : Nat) : ∀ {off : Nat} {b : Bytes} {h : HDie}, h.Bounded → (HDie.sendBulk r off n b h).Bounded := by
  induction n with
  | zero => exact fun hb => hb
  | succ n ih => exact fun hb => .ite hb (ih hb.sendDat)
/-- A change of each command in flight leaves their number. -/
theorem mapFlight {m : InFlight → InFlight} (hb : h.Bounded) :
    (h.modHp p (fun w => { w with inflight := w.inflight.map m })).Bounded := hb.modHpLe (fun _ => (List.length_map m).le) (fun _ => le_rfl)
theorem flushReady (hb : h.Bounded) : (h.flushReady p).Bounded := hb.foldl fun _ _ hg => .ite hg hg.mapFlight.sendCtl
theorem startReads (hb : h.Bounded) : (h.startReads p).Bounded := hb.foldl fun _ _ hg => .ite hg hg.mapFlight.emit
theorem takeDesc {r : CmdRef} {d : Bytes} {n : Nat} (hb : h.Bounded) (hroom : (h.hp r.part).inflight.length < 64) :
    (h.takeDesc r d n).Bounded := by
  unfold HDie.takeDesc
  split
  · exact (hb.addFlight hroom).complete
  · split
    · exact (hb.addFlight hroom).complete
    · exact .ite (hb.addFlight hroom).complete (.ite (hb.addFlight hroom).fenceAt
        (.ite (hb.addFlight hroom).startReads (hb.addFlight hroom).flushReady))
theorem fenceCmd {c : CmdHdr} {m : BitVec 16} {t : Word} (hb : h.Bounded) : (h.fenceCmd c m t).Bounded := by
  simp only [HDie.fenceCmd]
  split
  · next hgo =>
    have hlen : (h.hp c.part).inflight.length < 64 := by
      simp only [Bool.and_eq_true, decide_eq_true_eq] at hgo
      exact hgo.1.2
    have hroom : ∀ v : HSq, ((h.setSq c.part c.ring v).hp c.part).inflight.length < 64 := fun v => by
      rw [HDie.setSq, hp_modHp_same]; exact hlen
    exact .ite (hb.setSq.addFlight (r := Field.refOf c 0x01) (hroom _)).complete
      (hb.setSq.addFlight (r := Field.refOf c 0x01) (hroom _)).fenceAt
  · exact hb
theorem doorbellPoll (hb : h.Bounded) : (h.doorbellPoll p).Bounded := .ite (hb.modHp).emit hb
theorem tellHalt {n : BitVec 4} {w : Byte} (hb : h.Bounded) : (h.tellHalt p n w).Bounded := hb.devKeep
theorem takeDb {n : BitVec 4} {w : Word} (hb : h.Bounded) : (h.takeDb p n w).Bounded := by
  have tail : ∀ c d : Prop, ∀ [Decidable c] [Decidable d], ∀ q r : HSq,
      (if c then h else if d then (h.setSq p n q).tellHalt p n 0 else h.setSq p n r).Bounded :=
    fun _ _ _ _ _ _ => .ite hb (.ite hb.setSq.tellHalt hb.setSq)
  exact .ite (tail ..) (.ite (tail ..).setCq.tellHalt (tail ..).setCq)
theorem takeTurn {n : BitVec 4} (k : Nat) : ∀ {ds : List Bytes} {h : HDie}, h.Bounded → (HDie.takeTurn p n k ds h).1.Bounded := by
  induction k with
  | zero => exact fun hb => hb
  | succ k ih =>
    intro ds h hb
    simp only [HDie.takeTurn]
    split
    · exact hb
    · next hmay =>
      split
      · exact hb.setSq.tellHalt
      · refine ih ((hb.setSq.modHp).takeDesc ?_)
        simp only [mayFetch, Bool.not_eq_true, Bool.not_eq_false', Bool.and_eq_true, decide_eq_true_eq] at hmay
        simpa [Field.refOfDesc, HDie.setSq] using hmay.1.2
theorem takeRound {first : BitVec 4} {s : HDie × List RingRead} (hb : s.1.Bounded) : (HDie.takeRound p first s).1.Bounded := by
  simp only [HDie.takeRound]
  generalize List.range 16 = l
  induction l generalizing s with
  | nil => exact hb
  | cons i l ih =>
    refine ih ?_
    dsimp only
    split
    · exact hb
    · exact (takeTurn 8 hb).statRing
theorem takeRounds (k : Nat) : ∀ {s : HDie × List RingRead}, s.1.Bounded → (HDie.takeRounds p k s).Bounded := by
  induction k with
  | zero => exact fun hb => hb
  | succ k ih => exact fun hb => .ite (ih hb.takeRound) hb
theorem takeDbs {db : List Word} {l : List Nat} (hb : h.Bounded) :
    (l.foldl (fun (g : HDie) i => g.takeDb p (BitVec.ofNat 4 i) (db.getD i 0)) h).Bounded := hb.foldl fun _ _ hg => hg.takeDb
theorem fetchWhere {c : Prop} [Decidable c] {reads : List RingRead} (n : Nat) (hb : h.Bounded) :
    (if c then HDie.takeRounds p n (h, reads) else h).Bounded := .ite (takeRounds n hb) hb
theorem descriptorFetch {db : List Word} {reads : List RingRead} (hb : h.Bounded) : (h.descriptorFetch p db reads).Bounded := by
  simp only [HDie.descriptorFetch]
  split
  · exact hb
  · exact (fetchWhere 64 hb.modHp.startReads.statWr.takeDbs.drain).syncBlock
theorem payloadReadDone {ring : BitVec 4} {pos : BitVec 16} {ok : Bool} {d : Bytes} (hb : h.Bounded) :
    (h.payloadReadDone p ring pos ok d).Bounded := by
  unfold HDie.payloadReadDone
  split
  · exact hb
  · exact .ite hb (.ite hb.complete.flushReady.startReads (sendBulk _ hb.mapFlight).flushReady.startReads)
theorem msixTimer {n : BitVec 4} (hb : h.Bounded) : (h.msixTimer p n).Bounded := .ite hb.setCq.sendMsix hb
theorem ringCfg {isCq : Bool} {n : BitVec 4} {v : Word} (hb : h.Bounded) : (h.ringCfg p isCq n v).Bounded :=
  .ite hb (.ite
    (.ite hb (.ite hb.setCq.drain.syncBlock (hb.setCq.modHp).statRing.syncBlock))
    (.ite hb (.ite hb.setSq (hb.setSq.modHp).statRing)))

/-! ### Transit -/

theorem setHalf {cls : Bool} {v : Half} (hb : h.Bounded) : (h.setHalf cls v).Bounded := hb.of rfl rfl
theorem forParts {F : HDie → Part → HDie} (hb : h.Bounded) (hF : ∀ g p, g.Bounded → (F g p).Bounded) : (h.forParts F).Bounded :=
  hb.foldl hF
theorem tellPstate (hb : h.Bounded) : h.tellPstate.Bounded := hb.forParts fun _ _ hg => hg.statPstate
theorem withTrn {t : HTrn} (hb : h.Bounded) : ({ h with trn := t } : HDie).Bounded := hb.of rfl rfl
theorem retrain (hb : h.Bounded) : h.retrain.Bounded := hb.withTrn.tellPstate
theorem takeLinkAck {cls : Bool} {a : BitVec 16} (hb : h.Bounded) : (h.takeLinkAck cls a).Bounded := hb.setHalf
theorem countCorrected {x : LinkHdr} (hb : h.Bounded) : (h.countCorrected x).Bounded := hb.withTrn
theorem countBad (hb : h.Bounded) : h.countBad.Bounded := hb.withTrn
theorem hearLink {cls : Bool} {ty : Byte} {x : LinkHdr} {go : HDie → HDie} (hb : h.Bounded)
    (hgo : ∀ g, g.Bounded → (go g).Bounded) : (h.hearLink cls ty x go).Bounded :=
  .ite hb (.ite hb.countCorrected.emit (.ite (hgo _ hb.countCorrected) hb.countCorrected.countBad))
theorem heard {cls : Bool} {x : LinkHdr} (hb : h.Bounded) : (h.heard cls x).Bounded := hb.setHalf.withTrn.emit
/-- A message that is taken does what go does; another leaves the bounds alone. -/
theorem recv {cls : Bool} {ty : Byte} {x : LinkHdr} {go : HDie → HDie} (hb : h.Bounded) (hgo : ∀ g, g.Bounded → (go g).Bounded) :
    (h.recv cls ty x go).Bounded :=
  .ite hb (.ite hb.countCorrected.emit (.ite (hgo _ hb.countCorrected.heard.takeLinkAck) hb.countCorrected.heard.countBad))
theorem linkAckRow {cls : Bool} {x : LinkHdr} (hb : h.Bounded) : (h.linkAckRow cls x).Bounded := hb.hearLink fun _ hg => hg.takeLinkAck
theorem countResends {n : Nat} (hb : h.Bounded) : (h.countResends n).Bounded := hb.withTrn
theorem resendMsgs {cls : Bool} {ks : List (BitVec 16 × Msg)} (hb : h.Bounded) : (h.resendMsgs cls ks).Bounded :=
  (hb.foldl fun _ _ hg => hg.emit).countResends
theorem resendAll {cls : Bool} (hb : h.Bounded) : (h.resendAll cls).Bounded := .ite hb.setHalf.resendMsgs.retrain hb.setHalf.resendMsgs
theorem linkNakRow {cls : Bool} {x : LinkHdr} {n : BitVec 16} (hb : h.Bounded) : (h.linkNakRow cls x n).Bounded :=
  hb.hearLink fun _ hg => .ite hg.takeLinkAck.resendAll hg.takeLinkAck
theorem resendTimeout {cls : Bool} (hb : h.Bounded) : (h.resendTimeout cls).Bounded := .ite hb.resendAll hb
theorem keepaliveRow {x : LinkHdr} (hb : h.Bounded) : (h.keepaliveRow x).Bounded := hb.recv fun _ hg => hg
theorem keepaliveLoss (hb : h.Bounded) : h.keepaliveLoss.Bounded := .ite hb.retrain hb
theorem keepaliveSend (hb : h.Bounded) : h.keepaliveSend.Bounded := .ite hb.withTrn.sendCtl hb

/-! ### The tunnelled window -/

/-- A change of each held access leaves their number. -/
theorem mapTun {m : HTun → HTun} (hb : h.Bounded) : (h.modHp p (fun w => { w with tun := w.tun.map m })).Bounded :=
  hb.modHpLe (fun _ => le_rfl) (fun _ => (List.length_map m).le)
theorem pumpTun (hb : h.Bounded) : (h.pumpTun p).Bounded := .ite hb (hb.foldl fun _ _ hg => .ite hg hg.mapTun.sendCtl)
/-- Where fewer than eight accesses are held, one more may be (R369). -/
theorem addTun {a : HTun} {n : BitVec 16} (hb : h.Bounded) (hroom : (h.hp p).tun.length < 8) :
    (h.modHp p (fun w => { w with tun := w.tun ++ [a], tunNum := n })).Bounded := hb.setHp (hb.1 p).1 (by simpa using hroom)
theorem tunNoValue (hb : h.Bounded) : (h.tunNoValue p).Bounded := hb.modHp.emit
theorem tunAccess {w : Word} {v : Option Word} (hb : h.Bounded) : (h.tunAccess p w v).Bounded := by
  simp only [HDie.tunAccess]
  split
  · split
    · exact hb.tunNoValue
    · exact hb.modHp
  · next hroom =>
    simp only [Bool.or_eq_true, decide_eq_true_eq, not_or, not_le] at hroom
    exact (hb.addTun hroom.2).pumpTun
/-- An access that has ended leaves its place. -/
theorem dropTun {keep : HTun → Bool} (hb : h.Bounded) : (h.modHp p (fun w => { w with tun := w.tun.filter keep })).Bounded :=
  hb.modHpLe (fun _ => le_rfl) (fun _ => List.length_filter_le _ _)
theorem tunnelTimeout (hb : h.Bounded) : (h.tunnelTimeout p).Bounded := by
  unfold HDie.tunnelTimeout
  split
  · exact hb
  · exact (Bounded.ite hb.dropTun.tunNoValue hb.dropTun).pumpTun
theorem tunWritten {off v a : Word} (hb : h.Bounded) : (h.tunWritten p off v a).Bounded :=
  .ite hb.withTrn (.ite hb.modHp.statPstate hb)
theorem devAnswer {tag : BitVec 32} {v : Word} (hb : h.Bounded) : (h.devAnswer tag v).Bounded :=
  .ite hb.withTrn (.ite hb.modHp (.ite (hb.forParts fun _ _ hg => hg.modHp.statPstate) hb))
theorem tunCplRow {x : LinkHdr} {v : Word} (hb : h.Bounded) : (h.tunCplRow x v).Bounded := by
  refine hb.recv fun g hg => .ite hg.devAnswer ?_
  split
  · exact hg
  · refine Bounded.pumpTun ?_
    split
    · exact hg.dropTun.emit
    · exact hg.dropTun.tunWritten

/-! ### Records, data and training -/

/-- The security block changes in other fields than its log. -/
theorem withSec {s : HSec} (hb : h.Bounded) (hlog : s.log = h.sec.log := by rfl) : ({ h with sec := s } : HDie).Bounded := hb.of rfl hlog
theorem endDbgF {c : Byte} (hb : h.Bounded) : (h.endDbgF c).Bounded := .ite hb hb.withSec.log.tellDbg
theorem endDbgH {c : Byte} (hb : h.Bounded) : (h.endDbgH c).Bounded := .ite hb hb.withSec.log
theorem coldMark (hb : h.Bounded) : h.coldMark.Bounded := hb.forParts fun _ _ hg => hg.modHp.statPstate.statEvt
theorem takeData {m : HeldMsg} (hb : h.Bounded) : (h.takeData m).Bounded := by
  cases m with
  | cpl p ring b =>
    refine .ite hb ?_
    split
    · exact hb
    · exact hb.finish.syncBlock
  | evt p recs => exact .ite hb (hb.foldl fun _ _ hg => hg.deliverEvt).syncBlock
  | hwrite p a d => exact .ite hb hb.emit
theorem data {m : HeldMsg} (hb : h.Bounded) : (h.data m).Bounded := .ite hb.withTrn hb.takeData
theorem fstateRow {x : LinkHdr} {code : FCode} {kind power : Byte} (hb : h.Bounded) : (h.fstateRow x code kind power).Bounded := by
  refine hb.recv fun g hg => ?_
  have hended : ∀ k : HDie, k.part = g.part → k.sec = g.sec →
      (if power = 3 then k.endDbgF 4 else if power = 4 then g.endDbgF 4 else g).Bounded :=
    fun k hp hs => .ite (hg.of hp (congrArg HSec.log hs)).endDbgF (.ite hg.endDbgF hg)
  have hended := hended { g with fieldStby := true } rfl rfl
  cases code with
  | resetEntry => exact hended.endDbgF.retrain
  | partDone => exact hended.modHp.tellHold
  | trained => exact (Bounded.ite hended.withTrn.coldMark hended.withTrn).foldl fun _ _ hk => hk.takeData
  | power | safe => exact hended
theorem cplRow {x : LinkHdr} {ring : BitVec 4} {b : Bytes} (hb : h.Bounded) : (h.cplRow x ring b).Bounded := hb.recv fun _ hg => hg.data
theorem evtRow {x : LinkHdr} {recs : List Bytes} (hb : h.Bounded) : (h.evtRow x recs).Bounded := hb.recv fun _ hg => hg.data
theorem hwriteRow {x : LinkHdr} {a : BitVec 64} {d : Bytes} (hb : h.Bounded) : (h.hwriteRow x a d).Bounded := hb.recv fun _ hg => hg.data
theorem tellThm (hb : h.Bounded) : h.tellThm.Bounded := .ite hb.devWr.devWr hb
theorem tellSetup {n : Nat} (hb : h.Bounded) : (h.tellSetup n).Bounded := .ite hb.devWr hb
theorem fieldResets (hb : h.Bounded) : (h.fieldResets p).Bounded := hb.foldl fun _ _ hg => hg.complete
theorem freshLink (hb : h.Bounded) : h.freshLink.Bounded := hb.withTrn.forParts fun _ _ hg => hg.modHp
theorem tellTlm {n : Nat} (hb : h.Bounded) : (h.tellTlm p n).Bounded := .ite hb.devWr hb
theorem tellTlms (hb : h.Bounded) : (h.tellTlms p).Bounded := hb.tellTlm.tellTlm.tellTlm.tellTlm
theorem emptyLog {s : HSec} (hb : h.Bounded) (hlog : s.log = [] := by rfl) : ({ h with sec := s } : HDie).Bounded :=
  hb.ofLog rfl (by simp [hlog])
theorem sendRsts {owed : BitVec 4} (hb : h.Bounded) :
    (h.forParts (fun g p => if bit owed p.toNat then g.sendRst p else g)).Bounded := hb.forParts fun _ _ hg => .ite hg.sendRst hg
theorem tellSetups {l : List Nat} (hb : h.Bounded) : (l.foldl (fun (g : HDie) n => g.tellSetup n) h).Bounded :=
  hb.foldl fun _ _ hg => hg.tellSetup
theorem logs {l : List (Byte × Bytes)} (hb : h.Bounded) : (l.foldl (fun (g : HDie) r => g.log r.1 r.2) h).Bounded :=
  hb.foldl fun _ _ hg => hg.log
theorem afterTrain (hb : h.Bounded) : h.afterTrain.Bounded := by
  unfold HDie.afterTrain
  extract_lets _ h1 h2 h3 _ h4 _ h5 h6
  have reset : h1.Bounded := hb.withTrn.sendRsts
  have setUp : h2.Bounded := reset.tellSetups
  have told : h3.Bounded := setUp.tellSec.tellDbg.tellHold.tellThm
  have owed : h4.Bounded := told.withTrn.devWrs
  have logged : h5.Bounded := owed.emptyLog.logs
  exact logged.devRd.devRd.forParts fun _ _ hg => hg.syncBlock.tellTlms.pumpTun
theorem withNvm {n : HNvm} (hb : h.Bounded) : ({ h with nvm := n } : HDie).Bounded := hb.of rfl rfl
theorem takeLevel {l : Byte} (hb : h.Bounded) : (h.takeLevel l).Bounded := .ite hb.withNvm.log hb
theorem wakeStops {b : Bool} (hb : h.Bounded) : (h.wakeStops b).Bounded := by
  unfold HDie.wakeStops
  split
  · exact hb.withTrn
  · exact hb
theorem trainingRepeat (hb : h.Bounded) : h.trainingRepeat.Bounded := .ite hb.withTrn.emit hb
theorem sendTrain (hb : h.Bounded) : (if h.trn.trainSent then h else h.emit h.trainOut).Bounded := .ite hb hb.emit
theorem freshEnds {fresh : Bool} (hb : h.Bounded) : (if fresh then h.endDbgF 3 else h).Bounded := .ite hb.endDbgF hb
theorem freshRestarts {fresh : Bool} (hb : h.Bounded) : (if fresh || h.trn.fresh then h.freshLink else h).Bounded := .ite hb.freshLink hb
theorem freshResets {fresh : Bool} (hb : h.Bounded) : (if fresh then h.forParts (fun g p => g.fieldResets p) else h).Bounded :=
  .ite (hb.forParts fun _ _ hg => hg.fieldResets) hb
theorem trainRow {x : LinkHdr} {fresh : Bool} {m : BitVec 12} {l : Byte} (hb : h.Bounded) : (h.trainRow x fresh m l).Bounded := by
  unfold HDie.trainRow
  extract_lets d c h00 h01 h0 h1 h2 _ _ _ h3 h4 h5
  have sent : h01.Bounded := hb.countCorrected.wakeStops.sendTrain
  have restarted : h2.Bounded := sent.freshEnds.freshRestarts.freshResets
  have trained : h3.Bounded := restarted.of rfl rfl
  have told : h5.Bounded := trained.resendMsgs.resendMsgs.afterTrain.takeLevel
  exact .ite hb (.ite hb.countCorrected.countBad (.ite hb.countCorrected told.withTrn.tellPstate))

/-! ### The security block -/

theorem imgStart {i : Nat} {b : Bytes} (hb : h.Bounded) : (h.imgStart i b).Bounded := hb.withNvm
theorem saveCounts (hb : h.Bounded) : h.saveCounts.Bounded := hb.imgStart
theorem setLast {c : BitVec 4} (hb : h.Bounded) : (h.setLast p c).Bounded := hb.modHp
theorem newChal (hb : h.Bounded) : h.newChal.Bounded := hb.withSec
theorem closeComm {c : Byte} (hb : h.Bounded) : (h.closeComm c).Bounded := .ite hb.withSec.log.tellSec hb
theorem countRefusal {c : BitVec 4} (hb : h.Bounded) : (h.countRefusal c).Bounded := .ite hb.withSec.saveCounts hb
theorem present {a : TokAct} {go : HDie → Bytes → HDie} (hb : h.Bounded) (hgo : ∀ g t, g.Bounded → (go g t).Bounded) :
    (h.present p a go).Bounded := by
  simp only [HDie.present]
  split
  · exact hb
  · split
    · exact hb.withSec.countRefusal.log.newChal.setLast
    · exact hgo _ _ hb.withSec.saveCounts.log.newChal
theorem commission (hb : h.Bounded) : (h.commission p).Bounded := hb.present fun _ _ hg => hg.withSec.tellSec.setLast
theorem debug (hb : h.Bounded) : (h.debug p).Bounded := hb.present fun _ _ hg => hg.withSec.tellDbg.setLast
theorem transition {a : SecAct} {l : BitVec 3} {b : BitVec 4} (hb : h.Bounded) : (h.transition p a l b).Bounded := hb.withSec.imgStart
theorem returnPart (hb : h.Bounded) : (h.returnPart p).Bounded := hb.present fun _ _ hg => hg.transition
theorem act {role : Bool} {cs : List (Bool × BitVec 4)} {go : HDie → HDie} (hb : h.Bounded) (hgo : (go h).Bounded) :
    (h.act p role cs go).Bounded := by
  unfold HDie.act
  split
  · exact hb
  · split
    · exact hb.setLast
    · exact hgo
theorem commExit (hb : h.Bounded) : (h.commExit p).Bounded := hb.act hb.closeComm.setLast
theorem debugEnd (hb : h.Bounded) : (h.debugEnd p).Bounded := hb.act hb.endDbgF.endDbgH.setLast
theorem setOwner (hb : h.Bounded) : (h.setOwner p).Bounded := hb.act hb.imgStart.transition
theorem fieldAct {c : Bool} (hb : h.Bounded) : (h.fieldAct p c).Bounded := hb.act hb.transition
theorem sealAct (hb : h.Bounded) : (h.sealAct p).Bounded := hb.act hb.transition
theorem setBl {l : BitVec 4} {safe : Bool} (hb : h.Bounded) : (h.setBl p l safe).Bounded := hb.act hb.devKeep.transition
theorem attest {b : Bytes} (hb : h.Bounded) : (h.attest p b).Bounded := hb.act hb.modHp.setLast
theorem commExpiry (hb : h.Bounded) : h.commExpiry.Bounded := by
  unfold HDie.commExpiry
  split
  · exact .ite hb.closeComm hb
  · exact hb
theorem debugExpiry (hb : h.Bounded) : h.debugExpiry.Bounded := by
  have ended := Bounded.ite (c := h.sec.dbgDueF ≤ h.t) (hb.endDbgF (c := 1)) hb
  exact .ite hb (.ite ended.endDbgH ended)
theorem challengeExpiry (hb : h.Bounded) : h.challengeExpiry.Bounded := .ite hb.newChal hb
theorem lockoutEnd (hb : h.Bounded) : h.lockoutEnd.Bounded := by
  unfold HDie.lockoutEnd
  split
  · exact .ite hb.withSec.saveCounts hb
  · exact hb

/-! ### Images -/

theorem newSetup {l : List Word} (hb : h.Bounded) : (h.newSetup l).Bounded :=
  (hb.of (g := { h with setup := l }) rfl rfl).foldl fun _ _ hg => .ite hg hg.tellSetup
theorem newLife {l : BitVec 3} {b : BitVec 4} (hb : h.Bounded) : (h.newLife l b).Bounded := by
  unfold HDie.newLife
  extract_lets old who h1 h2 h3 _ g h4 h5
  have changed : h2.Bounded := .ite hb.withSec hb.withSec.log
  have closed : h3.Bounded := .ite changed.closeComm.endDbgF.endDbgH changed
  have unowned : g.Bounded := closed.withSec.closeComm
  have returned : h4.Bounded := .ite unowned.imgStart.imgStart.newSetup closed
  have told : h5.Bounded := .ite returned returned.tellSec
  clear_value h5
  split
  · exact told.withSec.log.setLast
  · exact .ite told told.withSec.setLast
  · exact told
theorem imageActs {i : Nat} {b : Bytes} (hb : h.Bounded) : (h.imageActs i b).Bounded :=
  .ite hb.withSec (.ite hb.newLife (.ite hb.newSetup hb))
theorem imageFails {i : Nat} (hb : h.Bounded) : (h.imageFails i).Bounded := by
  unfold HDie.imageFails
  split
  · exact .ite (hb.of (g := { h with sec := { h.sec with busy := none }, nvm := _ }) rfl rfl).setLast hb
  · exact hb
theorem imageUpdate {i : Nat} {bad : Bool} (hb : h.Bounded) : (h.imageUpdate i bad).Bounded := by
  simp only [HDie.imageUpdate]
  split
  · exact hb
  · split
    · exact hb
    · exact .ite hb.withNvm.imageFails (Bounded.ite hb.withNvm.withNvm.log hb.withNvm).withNvm.imageActs

/-! ### Registers and the host TAP -/

theorem startWake (hb : h.Bounded) : h.startWake.Bounded := .ite hb.withTrn.emit hb
theorem wakeField (hb : h.Bounded) : (h.wakeField p).Bounded := .ite hb.startWake hb
theorem withAuto {a : Bool} (hb : h.Bounded) : ({ h with auto := a } : HDie).Bounded := hb.of rfl rfl
theorem pwrCtrlWrite {v : Word} (hb : h.Bounded) : (h.pwrCtrlWrite p v).Bounded :=
  have set := Bounded.ite (c := h.operates p) (hb.withAuto (a := bit v 0)) hb
  .ite set.wakeField set
theorem partSetupWrite {n : Part} {v : Word} (hb : h.Bounded) : (h.partSetupWrite p n v).Bounded :=
  .ite hb (.ite hb.commExpiry.log (.ite hb.commExpiry hb.commExpiry.imgStart))
theorem secCmd {v : Word} {confirmed safe : Bool} {b : Bytes} (hb : h.Bounded) : (h.secCmd p v confirmed safe b).Bounded := by
  unfold HDie.secCmd
  split
  · exact hb.setOwner
  · exact hb.commission
  · exact hb.commExit
  · exact hb.debug
  · exact hb.debugEnd
  · exact hb.fieldAct
  · exact hb.sealAct
  · exact hb.returnPart
  · exact hb.setBl
  · exact hb.attest
  · exact hb
theorem sqWrite {n : BitVec 4} {k : Nat} {v : Word} (hb : h.Bounded) : (h.sqWrite p n k v).Bounded :=
  .ite hb.ringCfg (.ite hb (.ite hb.setSq (.ite hb.setSq hb)))
theorem cqWrite {n : BitVec 4} {k : Nat} {v : Word} (hb : h.Bounded) : (h.cqWrite p n k v).Bounded :=
  .ite hb.ringCfg (.ite hb.setCq (.ite hb (.ite hb.setCq (.ite hb.setCq hb))))
theorem writeRings {o : Nat} {v : Word} (hb : h.Bounded) : (h.writeRings p o v).Bounded :=
  .ite hb.setHpSame.tellTlm (.ite hb.setHpSame.tellTlm (.ite hb.setHpSame.tellTlm (.ite hb.setHpSame.tellTlm
    (.ite (.ite hb hb.setHpSame) (.ite (.ite hb hb.setHpSame) (.ite (.ite hb hb.setHpSame) (.ite (.ite hb hb.setHpSame)
      (.ite hb.setHpSame (.ite hb.setHpSame.syncBlock (.ite hb.sqWrite (.ite hb.cqWrite hb)))))))))))
theorem regWrite {o : Nat} {v : Word} (hb : h.Bounded) : (h.regWrite p o v).Bounded :=
  .ite hb.pwrCtrlWrite (.ite hb.partSetupWrite (.ite hb.modHp (.ite hb.modHp (.ite hb.writeRings hb))))
theorem badWrite (hb : h.Bounded) : (h.badWrite p).Bounded := hb.modHp
theorem writeReg {o : Nat} {v : Word} {acc : Access} {c s : Bool} {b : Bytes} (hb : h.Bounded) : (h.writeReg p o v acc c s b).Bounded :=
  .ite hb (.ite hb.badWrite (.ite hb.commExpiry.tunAccess (.ite hb.secCmd hb.regWrite)))
theorem iteSnd {c : Prop} [Decidable c] {x y : Word × HDie} (hx : x.2.Bounded) (hy : y.2.Bounded) : (if c then x else y).2.Bounded := by
  split
  · exact hx
  · exact hy
theorem readLow {o : Nat} (hb : h.Bounded) : (h.readLow p o).2.Bounded :=
  iteSnd hb (iteSnd hb.modHp (iteSnd hb (iteSnd hb (iteSnd hb (iteSnd (hb.of rfl rfl) (iteSnd hb (iteSnd hb (iteSnd hb hb))))))))
theorem readTrn {o : Nat} (hb : h.Bounded) : (h.readTrn p o).2.Bounded := iteSnd hb (iteSnd hb (iteSnd hb.withTrn (iteSnd hb.modHp hb)))
theorem readSec {o : Nat} (hb : h.Bounded) : (h.readSec p o).2.Bounded :=
  iteSnd hb (iteSnd hb (iteSnd hb (iteSnd hb (iteSnd hb.withSec (iteSnd hb (iteSnd hb (iteSnd hb hb)))))))
theorem readRings {o : Nat} (hb : h.Bounded) : (h.readRings p o).2.Bounded :=
  iteSnd hb (iteSnd hb (iteSnd hb (iteSnd hb (iteSnd hb.modHp (iteSnd hb (iteSnd hb (iteSnd hb (iteSnd hb (iteSnd hb (iteSnd hb
    (iteSnd hb (iteSnd hb.modHp (iteSnd hb (iteSnd hb hb))))))))))))))
theorem regRead {o : Nat} (hb : h.Bounded) : (h.regRead p o).2.Bounded :=
  iteSnd hb.readLow (iteSnd hb.readTrn (iteSnd hb.readSec hb.readRings))
theorem readReg {o : Nat} {acc : Access} (hb : h.Bounded) : (h.readReg p o acc).Bounded :=
  .ite hb (.ite hb.emit (.ite hb.tunAccess hb.regRead.emit))
theorem bar2Write {o : Nat} {v : Word} (hb : h.Bounded) : (h.bar2Write p o v).Bounded := .ite hb hb.setHpSame.msixUnmasked
theorem readBar2 {o : Nat} {acc : Access} (hb : h.Bounded) : (h.readBar2 p o acc).Bounded := .ite hb (.ite hb.emit (.ite hb.emit hb.emit))
theorem writeBar2 {o : Nat} {lo hi : Word} {acc : Access} (hb : h.Bounded) : (h.writeBar2 p o lo hi acc).Bounded :=
  .ite hb (.ite hb.bar2Write (.ite hb.bar2Write.bar2Write hb.badWrite))
theorem tapWrite {o : Nat} {v : Word} (hb : h.Bounded) : (h.tapWrite o v).Bounded :=
  .ite hb (.ite (.ite hb.withAuto.startWake hb.withAuto) hb.regWrite)
theorem tapHost {op : TapOp} {safe : Bool} (hb : h.Bounded) : (h.tapHost op safe).Bounded := by
  have ended : ({ h with sec := { h.sec with extest := false } } : HDie).Bounded := hb.withSec
  refine .ite hb ?_
  cases op with
  | idcode => exact ended.emit
  | bypass | sample | halt | resume => exact ended
  | read o => exact .ite ended.regRead.emit ended
  | write o v => exact .ite ended.tapWrite ended
  | extest => exact .ite ended.withSec ended

/-! ### Resets, ports, power and thermometry -/

/-- No partition holds anything, and the log is short: a start. -/
theorem ofCleared (hpart : h.part = []) (hlog : h.sec.log.length ≤ 16) : h.Bounded :=
  ⟨fun p => by rw [hp, hpart]; exact ⟨Nat.zero_le _, Nat.zero_le _⟩, hlog⟩
theorem lostRecords (hb : h.Bounded) : h.lostRecords.Bounded := .ite hb.log hb
theorem start {kind : RstKind} {keep : Bool} (hb : h.Bounded) : (h.start kind keep).Bounded := by
  refine (ofCleared rfl ?_).lostRecords
  cases keep
  · exact Nat.zero_le _
  · exact hb.2
theorem tellRestart {c : Option (Byte × BitVec 16 × BitVec 16)} (hb : h.Bounded) : (h.tellRestart c).Bounded := by
  cases c
  · exact hb
  · exact hb.devKeep
/-- The records of a warm reset's entry push out the oldest beyond sixteen. -/
theorem warmEntry {kind : RstKind} (hb : h.Bounded) : (h.warmEntry kind).Bounded :=
  .ite hb (ofCleared rfl (by simp only [List.length_drop, List.length_append]; omega))
theorem warmResetEnd (hb : h.Bounded) : h.warmResetEnd.Bounded := by
  unfold HDie.warmResetEnd
  split
  · exact .ite hb.start hb
  · exact hb
theorem partReset {up : Bool} {v : HPart} (hb : h.Bounded) : (h.partReset p up v).Bounded :=
  have cleared := hb.noteIdle.setHp (p := p) (v := clearPart v up) (Nat.zero_le _) (Nat.zero_le _)
  (Bounded.ite cleared.closeComm cleared).sendRst.tellHold
theorem linkDown (hb : h.Bounded) : (h.linkDown p).Bounded := .ite hb.partReset hb
theorem hotReset (hb : h.Bounded) : (h.hotReset p).Bounded := .ite hb.partReset hb
theorem flr (hb : h.Bounded) : (h.flr p).Bounded := .ite hb.partReset hb
theorem deliveryHold {d3 : Bool} {s w : BitVec 2} (hb : h.Bounded) : (h.deliveryHold p d3 s w).Bounded := by
  simp only [HDie.deliveryHold]
  split
  · exact (hb.noteIdle.setHp (by exact (hb.1 p).1) (by exact (hb.1 p).2)).tellHold
  · exact hb
theorem deliveryResume {s w m : BitVec 2} (hb : h.Bounded) : (h.deliveryResume p s w m).Bounded :=
  .ite hb.modHp.msixUnmasked.tellHold.syncBlock hb
theorem standbyEntry (hb : h.Bounded) : h.standbyEntry.Bounded := .ite (hb.of rfl rfl) hb
theorem standbyExit (hb : h.Bounded) : h.standbyExit.Bounded := .ite (hb.of rfl rfl) hb
theorem withThm {t : Thm} (hb : h.Bounded) : ({ h with thm := t } : HDie).Bounded := hb.of rfl rfl
theorem thmChanged {old : HDie} (hb : h.Bounded) : (HDie.thmChanged old h).Bounded := .ite hb hb.tellThm
theorem thmRecord {r : Byte × Bytes} (hb : h.Bounded) : (h.thmRecord r).Bounded := .ite hb (.ite hb.devWr.devWr (.ite hb.devWr.devWr hb))
theorem thmRecords {rs : List (Byte × Bytes)} (hb : h.Bounded) : (h.thmRecords rs).Bounded := hb.foldl fun _ _ hg => hg.thmRecord
theorem thermoDemand (hb : h.Bounded) : h.thermoDemand.Bounded := .ite (hb.of rfl rfl) hb
theorem thermoReading {gates : List Gate} (hb : h.Bounded) : (h.thermoReading gates).Bounded := by
  unfold HDie.thermoReading
  split
  · exact hb
  · exact .ite hb hb.withThm.thmChanged.thmRecords
theorem shutdown {kind : Byte} {a b : BitVec 16} (hb : h.Bounded) : (h.shutdown kind a b).Bounded := ofCleared rfl hb.2
theorem confirmingReading {n : BitVec 4} {g : Gate} (hb : h.Bounded) : (h.confirmingReading n g).Bounded := by
  simp only [HDie.confirmingReading]
  split
  · exact hb
  · split
    · exact hb.withThm.thmChanged.thmRecords.shutdown
    · exact hb.withThm.thmChanged.thmRecords
theorem thermalOffMeasurement {gates : List Gate} {ok : Bool} (hb : h.Bounded) : (h.thermalOffMeasurement gates ok).Bounded :=
  .ite hb (.ite hb.withThm.start.tellRestart hb.withThm)
theorem offTick (hb : h.Bounded) : h.offTick.Bounded := .ite hb.withThm hb
theorem tick (hb : h.Bounded) : h.tick.Bounded :=
  (hb.of (g := { h with t := h.t + 1 }) rfl rfl).offTick.noteIdle.wakeStops.keepaliveSend

end HDie.Bounded

/-! ### Every command and every tick -/

theorem registerRead_bounded (p : Part) (w : Window) (off : Word) (acc : Access) (s : State) (hb : s.h.Bounded) :
    s.ends (.registerRead p w off acc) (fun t => t.h.Bounded) := by
  cases w with
  | host => exact ⟨_, rfl, hb.readReg⟩
  | bar2 => exact ⟨_, rfl, hb.readBar2⟩
  | field =>
    simp only [State.ends, exec, execRegisterRead]
    split
    · exact ⟨_, rfl, hb⟩
    · exact ⟨_, rfl, hb.emit⟩

theorem registerWrite_bounded (p : Part) (w : Window) (off : Word) (v : BitVec 64) (acc : Access) (s : State) (hb : s.h.Bounded) :
    s.ends (.registerWrite p w off v acc) (fun t => t.h.Bounded) := by
  cases w with
  | host => exact ⟨_, rfl, hb.writeReg⟩
  | bar2 => exact ⟨_, rfl, hb.writeBar2⟩
  | field =>
    simp only [State.ends, exec, execRegisterWrite]
    split
    · exact ⟨_, rfl, hb⟩
    · exact ⟨_, rfl, hb.badWrite⟩

/-- A command that does not act on the host die leaves its bounds. -/
theorem ends_bounded_of_not_actsOn {i : Instr} {s : State} (ha : actsOn .host i = false) (hb : s.h.Bounded) :
    s.ends i (fun t => t.h.Bounded) := by
  obtain ⟨t, hexec, -, -, hh⟩ := diesActAlone s i
  exact ⟨t, hexec, show t.h.Bounded from (hh ha).symm ▸ hb⟩

/-- A command on the die that it names: the host die's effect keeps the bounds. -/
theorem ends_bounded_of_die {i : Instr} {s : State} {d : Die} {gf : Field → Field} {gh : HDie → HDie} (hb : s.h.Bounded)
    (hexec : exec i s = s.onDie d gf gh) (hg : (gh s.h).Bounded) : s.ends i (fun t => t.h.Bounded) := by
  cases d with
  | field => exact ⟨_, hexec, hb⟩
  | host => exact ⟨_, hexec, hg⟩

theorem exec_bounded (i : Instr) (s : State) (hb : s.h.Bounded) : s.ends i (fun t => t.h.Bounded) := by
  cases i with
  | registerRead p w off acc => exact registerRead_bounded p w off acc s hb
  | registerWrite p w off v acc => exact registerWrite_bounded p w off v acc s hb
  | imageUpdate => exact ends_bounded_of_die hb rfl hb.imageUpdate
  | trainingRepeat => exact ends_bounded_of_die hb rfl hb.trainingRepeat
  | tapInstruction => exact ends_bounded_of_die hb rfl hb.tapHost
  | por => exact ends_bounded_of_die hb rfl hb.start
  | bor => exact ends_bounded_of_die hb rfl hb.start
  | pin => exact ends_bounded_of_die hb rfl hb.warmEntry
  | wdt => exact ends_bounded_of_die hb rfl hb.warmEntry
  | thermometryDemand => exact ends_bounded_of_die hb rfl hb.thermoDemand
  | thermometryReading => exact ends_bounded_of_die hb rfl hb.thermoReading
  | confirmingReading => exact ends_bounded_of_die hb rfl hb.confirmingReading
  | keepalive => exact ends_bounded_of_die hb rfl hb.keepaliveRow
  | keepaliveLoss => exact ends_bounded_of_die hb rfl hb.keepaliveLoss
  | trainLink => exact ends_bounded_of_die hb rfl hb.trainRow
  | linkAck => exact ends_bounded_of_die hb rfl hb.linkAckRow
  | linkNak d =>
    cases d with
    | field => exact ⟨_, rfl, hb.countResends⟩
    | host => exact ⟨_, rfl, hb.linkNakRow⟩
  | resendTimeout d =>
    cases d with
    | field => exact ⟨_, rfl, hb.countResends⟩
    | host => exact ⟨_, rfl, hb.resendTimeout⟩
  | fence => exact ⟨_, rfl, hb.fenceCmd⟩
  | fenceComplete => exact ⟨_, rfl, hb.fenceComplete⟩
  | fenceTimeout => exact ⟨_, rfl, hb.fenceTimeout⟩
  | hostWarmResetEnd => exact ⟨_, rfl, hb.warmResetEnd⟩
  | hostThermalOffMeasurement => exact ⟨_, rfl, hb.thermalOffMeasurement⟩
  | setOwner => exact ⟨_, rfl, hb.setOwner⟩
  | commission => exact ⟨_, rfl, hb.commission⟩
  | commExit => exact ⟨_, rfl, hb.commExit⟩
  | debug => exact ⟨_, rfl, hb.debug⟩
  | debugEnd => exact ⟨_, rfl, hb.debugEnd⟩
  | toFielded => exact ⟨_, rfl, hb.fieldAct⟩
  | toSealed => exact ⟨_, rfl, hb.sealAct⟩
  | returnPart => exact ⟨_, rfl, hb.returnPart⟩
  | setBl => exact ⟨_, rfl, hb.setBl⟩
  | attest => exact ⟨_, rfl, hb.attest⟩
  | commissioningExpiry => exact ⟨_, rfl, hb.commExpiry⟩
  | debugExpiry => exact ⟨_, rfl, hb.debugExpiry⟩
  | challengeExpiry => exact ⟨_, rfl, hb.challengeExpiry⟩
  | lockoutEnd => exact ⟨_, rfl, hb.lockoutEnd⟩
  | tunCpl => exact ⟨_, rfl, hb.tunCplRow⟩
  | tunnelTimeout => exact ⟨_, rfl, hb.tunnelTimeout⟩
  | fstate => exact ⟨_, rfl, hb.fstateRow⟩
  | cpl => exact ⟨_, rfl, hb.cplRow⟩
  | evt => exact ⟨_, rfl, hb.evtRow⟩
  | hwrite => exact ⟨_, rfl, hb.hwriteRow⟩
  | wakeField => exact ⟨_, rfl, hb.wakeField⟩
  | partSetupWrite => exact ⟨_, rfl, hb.partSetupWrite⟩
  | ringCfgWrite => exact ⟨_, rfl, hb.ringCfg⟩
  | doorbellPoll => exact ⟨_, rfl, hb.doorbellPoll⟩
  | descriptorFetch => exact ⟨_, rfl, hb.descriptorFetch⟩
  | payloadReadDone => exact ⟨_, rfl, hb.payloadReadDone⟩
  | msixTimerExpiry => exact ⟨_, rfl, hb.msixTimer⟩
  | linkDown => exact ⟨_, rfl, hb.linkDown⟩
  | hotReset => exact ⟨_, rfl, hb.hotReset⟩
  | functionLevelReset => exact ⟨_, rfl, hb.flr⟩
  | deliveryHold => exact ⟨_, rfl, hb.deliveryHold⟩
  | deliveryResume => exact ⟨_, rfl, hb.deliveryResume⟩
  | hostStandbyEntry => exact ⟨_, rfl, hb.standbyEntry⟩
  | hostStandbyExit => exact ⟨_, rfl, hb.standbyExit⟩
  | _ => exact ends_bounded_of_not_actsOn rfl hb

/-- Settles O58: every operation of the host die keeps the bounds, so every command and every tick does. -/
theorem hostStaysBounded : Obligations.HostStaysBounded := by
  rintro ⟨pending, f, h⟩ t hb hstep
  cases pending with
  | nil => cases hstep; exact HDie.Bounded.tick hb
  | cons i r =>
    obtain ⟨u, hexec, hu⟩ := exec_bounded i ⟨r, f, h⟩ hb
    cases (hstep.symm.trans hexec)
    exact hu

end Sys2Proof.Machine
end

section
/-! PROOF. What the operations that commands share may change, in four frames: a completion and an event change the records
(`withRecords`), what goes to an outstation changes the lanes as well (`withLanes`), and the end of a context or of a capture changes
the contexts and the capture slots besides (`withCtxs`), a gate's level the direct channels (`withWork`). None of them changes Névé. -/
namespace Sys2Proof.Machine
set_option Elab.async false
namespace Field

/-! ### Records alone -/

section
variable {f g : Field} (h : g = f.withRecords g)
include h
theorem nev_of_records : g.nev = f.nev := congrArg (·.nev) h
theorem hel_of_records : g.hel = f.hel := congrArg (·.hel) h
theorem firn_of_records : g.firn = f.firn := congrArg (·.firn) h
theorem lan_of_records : g.lan = f.lan := congrArg (·.lan) h
theorem dch_of_records : g.dch = f.dch := congrArg (·.dch) h
theorem mer_of_records : g.mer = f.mer := congrArg (·.mer) h
theorem sel_of_records : g.sel = f.sel := congrArg (·.sel) h
end

section
variable (f : Field) (p : Part) (r : CmdRef) (ty : Byte) (h : Word) (b : Bytes)

@[simp] theorem raise_nev : (f.raise p ty h b).nev = f.nev := nev_of_records (raise_frame f p ty h b)
@[simp] theorem raise_hel : (f.raise p ty h b).hel = f.hel := hel_of_records (raise_frame f p ty h b)
@[simp] theorem raise_firn : (f.raise p ty h b).firn = f.firn := firn_of_records (raise_frame f p ty h b)
@[simp] theorem raise_lan : (f.raise p ty h b).lan = f.lan := lan_of_records (raise_frame f p ty h b)
@[simp] theorem raise_dch : (f.raise p ty h b).dch = f.dch := dch_of_records (raise_frame f p ty h b)
@[simp] theorem raise_mer : (f.raise p ty h b).mer = f.mer := mer_of_records (raise_frame f p ty h b)
@[simp] theorem raise_sel : (f.raise p ty h b).sel = f.sel := sel_of_records (raise_frame f p ty h b)
@[simp] theorem done_nev : (f.done r).nev = f.nev := nev_of_records (done_frame f r)
@[simp] theorem done_hel : (f.done r).hel = f.hel := hel_of_records (done_frame f r)
@[simp] theorem done_firn : (f.done r).firn = f.firn := firn_of_records (done_frame f r)
@[simp] theorem done_lan : (f.done r).lan = f.lan := lan_of_records (done_frame f r)
@[simp] theorem done_dch : (f.done r).dch = f.dch := dch_of_records (done_frame f r)
@[simp] theorem done_mer : (f.done r).mer = f.mer := mer_of_records (done_frame f r)
end

/-! ### The lanes too -/

/-- The field die f with the records and the lanes of g: all that what goes to an outstation changes. -/
def withLanes (f g : Field) : Field :=
  { f with lan := g.lan, trn := { f.trn with dat := g.trn.dat }, prt := { f.prt with evq := g.prt.evq, busy := g.prt.busy },
           out := g.out }

theorem lanes_of_records {f g : Field} (h : g = f.withRecords g) : g = f.withLanes g := by rw [h]; rfl

theorem lanes_trans {f g h : Field} (hg : g = f.withLanes g) (hh : h = g.withLanes h) : h = f.withLanes h := by
  rw [hg] at hh; exact hh

section
variable {f g : Field} (h : g = f.withLanes g)
include h
theorem nev_of_lanes : g.nev = f.nev := congrArg (·.nev) h
theorem hel_of_lanes : g.hel = f.hel := congrArg (·.hel) h
theorem firn_of_lanes : g.firn = f.firn := congrArg (·.firn) h
theorem dch_of_lanes : g.dch = f.dch := congrArg (·.dch) h
theorem mer_of_lanes : g.mer = f.mer := congrArg (·.mer) h
end

theorem emit_lanes (f : Field) (o : Out) : f.emit o = f.withLanes (f.emit o) := by rw [emit_only]; rfl
theorem modLane_lanes (f : Field) (l : BitVec 5) (m : Lane → Lane) : f.modLane l m = f.withLanes (f.modLane l m) := rfl
theorem setLane_lanes (f : Field) (l : BitVec 5) (v : Lane) : f.setLane l v = f.withLanes (f.setLane l v) := rfl
theorem setLink_lanes (f : Field) (id : BitVec 64) (v : OsLink) : f.setLink id v = f.withLanes (f.setLink id v) := rfl

theorem sendNext_lanes (f : Field) (id : BitVec 64) (l : BitVec 5) (pos : BitVec 6) (e again : Bool) :
    f.sendNext id l pos e again = f.withLanes (f.sendNext id l pos e again) := by
  unfold sendNext
  dsimp only
  split
  · split
    · exact lanes_trans (g := (f.setLink id _).modLane l _) rfl (emit_lanes _ _)
    · rfl
  · split
    · have hemit := fun (k : OsLink) (o : Out) => lanes_trans (setLink_lanes f id k) (emit_lanes _ o)
      split
      · exact lanes_trans (hemit _ _) (lanes_of_records (done_frame _ _))
      · exact hemit _ _
    · rfl

theorem pumpLink_lanes (id : BitVec 64) (n : Nat) : ∀ f : Field, pumpLink id n f = f.withLanes (pumpLink id n f) := by
  induction n with
  | zero => intro f; rfl
  | succ n ih =>
    intro f
    unfold pumpLink
    split
    · split
      · exact lanes_trans (sendNext_lanes f _ _ _ _ _) (ih _)
      · rfl
    · rfl

theorem sendCmd_lanes (f : Field) (id : BitVec 64) (c : LCmd) (ref : Option CmdRef) :
    f.sendCmd id c ref = f.withLanes (f.sendCmd id c ref) :=
  lanes_trans (setLink_lanes f id _) (pumpLink_lanes id 16 _)

/-- A numbered command for a point changes the lanes and the records (R276). -/
theorem cmdTo_lanes (f : Field) (x : BitVec 17) (c : BitVec 6 → LCmd) (ref : Option CmdRef) :
    f.cmdTo x c ref = f.withLanes (f.cmdTo x c ref) := by
  unfold cmdTo
  split
  · exact sendCmd_lanes f _ _ _
  · split
    · exact lanes_of_records (done_frame f _)
    · rfl

theorem stopStream_lanes (f : Field) (c : Ctx) (a : BitVec 2) : f.stopStream c a = f.withLanes (f.stopStream c a) := by
  unfold stopStream
  split
  · exact lanes_trans (cmdTo_lanes f _ _ _) (modLane_lanes _ _ _)
  · rfl

theorem abandonStream_lanes (f : Field) (c : Ctx) : f.abandonStream c = f.withLanes (f.abandonStream c) := by
  unfold abandonStream
  split <;> rfl

theorem expressPair_lanes (f : Field) (l : BitVec 5) (e : Bool) (ty b0 b1 b2 b3 : Byte) :
    f.expressPair l e ty b0 b1 b2 b3 = f.withLanes (f.expressPair l e ty b0 b1 b2 b3) := by unfold expressPair; exact emit_lanes f _

theorem exServe_lanes (f : Field) (l : BitVec 5) (e : Bool) : f.exServe l e = f.withLanes (f.exServe l e) := by
  unfold exServe
  dsimp only
  split
  · rfl
  · split
    · exact lanes_trans (setLane_lanes f l _) (expressPair_lanes _ _ _ _ _ _ _ _)
    · rfl

/-- An express frame for a point changes the lanes and the records (R126). -/
theorem expressTo_lanes (f : Field) (x : BitVec 17) (ty : Byte) : (f.expressTo x ty).1 = f.withLanes (f.expressTo x ty).1 := by
  unfold expressTo
  split
  · split
    · split
      · rfl
      · exact lanes_trans (modLane_lanes f _ _) (exServe_lanes _ _ _)
    · rfl
  · rfl

theorem startStream_lanes (f : Field) (x : BitVec 17) (rate : Nat) (pre cap : Bool) :
    (f.startStream x rate pre cap).1 = f.withLanes (f.startStream x rate pre cap).1 := by
  unfold startStream
  split
  · rfl
  · split
    · split
      · exact lanes_trans (modLane_lanes f _ _) (cmdTo_lanes _ _ _ _)
      · rfl
    · rfl

@[simp] theorem emit_hel (f : Field) (o : Out) : (f.emit o).hel = f.hel := hel_of_lanes (emit_lanes f o)
@[simp] theorem emit_mer (f : Field) (o : Out) : (f.emit o).mer = f.mer := mer_of_lanes (emit_lanes f o)
@[simp] theorem cmdTo_nev (f : Field) (x : BitVec 17) (c : BitVec 6 → LCmd) (ref : Option CmdRef) : (f.cmdTo x c ref).nev = f.nev :=
  nev_of_lanes (cmdTo_lanes f x c ref)
@[simp] theorem cmdTo_hel (f : Field) (x : BitVec 17) (c : BitVec 6 → LCmd) (ref : Option CmdRef) : (f.cmdTo x c ref).hel = f.hel :=
  hel_of_lanes (cmdTo_lanes f x c ref)
@[simp] theorem sendCmd_nev (f : Field) (id : BitVec 64) (c : LCmd) (ref : Option CmdRef) : (f.sendCmd id c ref).nev = f.nev :=
  nev_of_lanes (sendCmd_lanes f id c ref)
@[simp] theorem stopStream_nev (f : Field) (c : Ctx) (a : BitVec 2) : (f.stopStream c a).nev = f.nev :=
  nev_of_lanes (stopStream_lanes f c a)
@[simp] theorem stopStream_hel (f : Field) (c : Ctx) (a : BitVec 2) : (f.stopStream c a).hel = f.hel :=
  hel_of_lanes (stopStream_lanes f c a)
@[simp] theorem stopStream_firn (f : Field) (c : Ctx) (a : BitVec 2) : (f.stopStream c a).firn = f.firn :=
  firn_of_lanes (stopStream_lanes f c a)
@[simp] theorem startStream_nev (f : Field) (x : BitVec 17) (rate : Nat) (pre cap : Bool) :
    (f.startStream x rate pre cap).1.nev = f.nev := nev_of_lanes (startStream_lanes f x rate pre cap)
@[simp] theorem startStream_hel (f : Field) (x : BitVec 17) (rate : Nat) (pre cap : Bool) :
    (f.startStream x rate pre cap).1.hel = f.hel := hel_of_lanes (startStream_lanes f x rate pre cap)
@[simp] theorem startStream_firn (f : Field) (x : BitVec 17) (rate : Nat) (pre cap : Bool) :
    (f.startStream x rate pre cap).1.firn = f.firn := firn_of_lanes (startStream_lanes f x rate pre cap)
@[simp] theorem startStream_mer (f : Field) (x : BitVec 17) (rate : Nat) (pre cap : Bool) :
    (f.startStream x rate pre cap).1.mer = f.mer := mer_of_lanes (startStream_lanes f x rate pre cap)

/-! ### Contexts, captures and gates too -/

/-- The field die f with the records, the lanes, the contexts and Firn's stores of g: all that the end of a context or of a capture
changes. -/
def withCtxs (f g : Field) : Field :=
  { f with hel := g.hel, firn := g.firn, lan := g.lan, trn := { f.trn with dat := g.trn.dat },
           prt := { f.prt with evq := g.prt.evq, busy := g.prt.busy }, out := g.out }

theorem ctxs_of_lanes {f g : Field} (h : g = f.withLanes g) : g = f.withCtxs g := by rw [h]; rfl
theorem ctxs_of_records {f g : Field} (h : g = f.withRecords g) : g = f.withCtxs g := ctxs_of_lanes (lanes_of_records h)

theorem ctxs_trans {f g h : Field} (hg : g = f.withCtxs g) (hh : h = g.withCtxs h) : h = f.withCtxs h := by
  rw [hg] at hh; exact hh

theorem ctxs_foldl {α : Type} (op : Field → α → Field) (hop : ∀ f a, op f a = f.withCtxs (op f a)) (l : List α) :
    ∀ f : Field, l.foldl op f = f.withCtxs (l.foldl op f) := by
  induction l with
  | nil => intro f; rfl
  | cons a l ih => intro f; exact ctxs_trans (hop f a) (ih _)

/-- The same with the direct channels of g: all that the start of a capture or a gate's level changes beside. -/
def withWork (f g : Field) : Field :=
  { f with hel := g.hel, firn := g.firn, dch := g.dch, lan := g.lan, trn := { f.trn with dat := g.trn.dat },
           prt := { f.prt with evq := g.prt.evq, busy := g.prt.busy }, out := g.out }

theorem work_of_ctxs {f g : Field} (h : g = f.withCtxs g) : g = f.withWork g := by rw [h]; rfl
theorem work_of_lanes {f g : Field} (h : g = f.withLanes g) : g = f.withWork g := work_of_ctxs (ctxs_of_lanes h)
theorem work_of_records {f g : Field} (h : g = f.withRecords g) : g = f.withWork g := work_of_lanes (lanes_of_records h)

theorem work_trans {f g h : Field} (hg : g = f.withWork g) (hh : h = g.withWork h) : h = f.withWork h := by
  rw [hg] at hh; exact hh

section
variable {f g : Field} (h : g = f.withWork g)
include h
theorem nev_of_work : g.nev = f.nev := congrArg (·.nev) h
theorem sel_of_work : g.sel = f.sel := congrArg (·.sel) h
theorem saf_of_work : g.saf = f.saf := congrArg (·.saf) h
theorem pwr_of_work : g.pwr = f.pwr := congrArg (·.pwr) h
end

theorem setCtx_ctxs (f : Field) (n : Nat) (c : Ctx) : f.setCtx n c = f.withCtxs (f.setCtx n c) := rfl

theorem modCtx_ctxs (f : Field) (n : Nat) (m : Ctx → Ctx) : f.modCtx n m = f.withCtxs (f.modCtx n m) := by
  unfold modCtx; split <;> rfl

theorem heal1_ctxs (f : Field) (k : Nat) : f.heal1 k = f.withCtxs (f.heal1 k) := rfl

theorem heal2_ctxs (f : Field) (x : BitVec 17) (k : Nat) : f.heal2 x k = f.withCtxs (f.heal2 x k) := rfl

theorem dropSwap_ctxs (f : Field) (n : Nat) : f.dropSwap n = f.withCtxs (f.dropSwap n) := by
  unfold dropSwap
  split
  · split
    · refine ctxs_trans (g := Field.setCtx _ _ _) ?_ (ctxs_of_records (complete_frame _ _ _ _))
      rfl
    · rfl
  · rfl

theorem writeSlot_ctxs (f : Field) (n : Nat) (s : Slot) (i : Nat) : f.writeSlot n s i = f.withCtxs (f.writeSlot n s i) :=
  ctxs_trans (g := ((f.setSlot n s).heal1 (slotCw n 0)).heal1 (slotCw n 1)) rfl
    (ctxs_foldl (fun g k => g.heal1 (slotCw n (2 + k))) (fun g _ => heal1_ctxs g _) _ _)

theorem capEnd_ctxs (f : Field) (n : Nat) (aborted : Bool) : f.capEnd n aborted = f.withCtxs (f.capEnd n aborted) := by
  unfold capEnd
  split
  · split
    · exact ctxs_trans (writeSlot_ctxs f n _ _) (ctxs_of_records (raise_frame _ _ _ _ _))
    · rfl
  · rfl

/-- The end of a context changes no channel (R180, R233). -/
theorem dropCtx_ctxs (f : Field) (n : Nat) (aborted : Bool) : f.dropCtx n aborted = f.withCtxs (f.dropCtx n aborted) := by
  have hcap : ∀ (g : Field) (o : Option Nat), g = f.withCtxs g →
      (match o with | some s => g.capEnd s aborted | none => g) = f.withCtxs (match o with | some s => g.capEnd s aborted | none => g) := by
    intro g o hg
    cases o with
    | none => exact hg
    | some s => exact ctxs_trans hg (capEnd_ctxs g s aborted)
  unfold dropCtx
  split
  · exact ctxs_trans (hcap _ _ (hcap _ _ (dropSwap_ctxs f n))) rfl
  · rfl

theorem insEnd_ctxs (f : Field) (n : Nat) (c : Ctx) (res : Byte) : f.insEnd n c res = f.withCtxs (f.insEnd n c res) :=
  ctxs_of_records (raise_frame f _ _ _ _)

theorem rampOver_ctxs (f : Field) (n : Nat) : f.rampOver n = f.withCtxs (f.rampOver n) := by
  unfold rampOver
  split
  · rfl
  · split
    · exact modCtx_ctxs f n _
    · exact ctxs_trans (ctxs_of_lanes (stopStream_lanes f _ _)) (dropCtx_ctxs _ _ _)

theorem rampsEnd_ctxs (f : Field) (x : BitVec 17) : f.rampsEnd x = f.withCtxs (f.rampsEnd x) := by
  refine ctxs_foldl _ (fun g e => ?_) (f.ctxsOf x) f
  split
  · exact rampOver_ctxs g _
  · rfl

theorem unqueue_ctxs (f : Field) (x : BitVec 17) : f.unqueue x = f.withCtxs (f.unqueue x) := rfl

theorem toRampOff_ctxs (f : Field) (n : Nat) (code : Option Byte) : f.toRampOff n code = f.withCtxs (f.toRampOff n code) :=
  ctxs_trans (dropSwap_ctxs f n) (modCtx_ctxs _ n _)

theorem capNoCtx_ctxs (f : Field) (w : CapWait) : f.capNoCtx w = f.withCtxs (f.capNoCtx w) := by
  unfold capNoCtx
  split
  · exact ctxs_of_records (complete_frame f _ _ _)
  · rfl

theorem capNoSlot_ctxs (f : Field) (w : CapWait) : f.capNoSlot w = f.withCtxs (f.capNoSlot w) := by
  unfold capNoSlot
  split
  · exact ctxs_of_records (complete_frame f _ _ _)
  · rfl

theorem modDch_work (f : Field) (n : BitVec 4) (m : Dch → Dch) : f.modDch n m = f.withWork (f.modDch n m) := rfl

theorem capStart_work (f : Field) (w : CapWait) (n sl : Nat) : f.capStart w n sl = f.withWork (f.capStart w n sl) := by
  have hdch : ∀ (g : Field) (o : Option (BitVec 4)) (m : Dch → Dch), g = f.withWork g →
      (match o with | some d => g.modDch d m | none => g) = f.withWork (match o with | some d => g.modDch d m | none => g) := by
    intro g o m hg
    cases o with
    | none => exact hg
    | some d => exact work_trans hg (modDch_work g d m)
  have hdone : ∀ (g : Field) (o : Option CmdRef), g = f.withWork g →
      (match o with | some r => g.done r | none => g) = f.withWork (match o with | some r => g.done r | none => g) := by
    intro g o hg
    cases o with
    | none => exact hg
    | some r => exact work_trans hg (work_of_records (done_frame g r))
  refine hdone _ _ (hdch _ _ _ ?_)
  exact work_trans (work_trans (work_of_lanes (startStream_lanes f w.ch _ _ true)) (work_of_ctxs (setCtx_ctxs _ n _))) (work_of_ctxs (writeSlot_ctxs _ sl _ 0))

/-- A capture that is asked for changes no channel (R232). -/
theorem capAsk_work (f : Field) (w : CapWait) : f.capAsk w = f.withWork (f.capAsk w) := by
  unfold capAsk
  split
  · exact work_of_ctxs (capNoSlot_ctxs f w)
  · split
    · split
      · exact capStart_work f w _ _
      · exact work_of_ctxs (capNoCtx_ctxs f w)
    · split
      · rfl
      · exact work_of_ctxs (capNoCtx_ctxs f w)

theorem tripCapture_work (f : Field) (x : BitVec 17) (cause : Byte) : f.tripCapture x cause = f.withWork (f.tripCapture x cause) := by
  unfold tripCapture
  dsimp only
  split
  · exact capAsk_work f _
  · rfl

section
variable (f : Field) (x : BitVec 17)
@[simp] theorem rampsEnd_dch : (f.rampsEnd x).dch = f.dch := congrArg (·.dch) (rampsEnd_ctxs f x)
end
@[simp] theorem modCtx_nev (f : Field) (n : Nat) (m : Ctx → Ctx) : (f.modCtx n m).nev = f.nev := nev_of_work (work_of_ctxs (modCtx_ctxs f n m))
@[simp] theorem modDch_nev (f : Field) (n : BitVec 4) (m : Dch → Dch) : (f.modDch n m).nev = f.nev := rfl
@[simp] theorem unqueue_nev (f : Field) (x : BitVec 17) : (f.unqueue x).nev = f.nev := rfl
@[simp] theorem dropCtx_nev (f : Field) (n : Nat) (a : Bool) : (f.dropCtx n a).nev = f.nev := nev_of_work (work_of_ctxs (dropCtx_ctxs f n a))
@[simp] theorem capEnd_nev (f : Field) (n : Nat) (a : Bool) : (f.capEnd n a).nev = f.nev := nev_of_work (work_of_ctxs (capEnd_ctxs f n a))
@[simp] theorem insEnd_nev (f : Field) (n : Nat) (c : Ctx) (res : Byte) : (f.insEnd n c res).nev = f.nev :=
  nev_of_work (work_of_ctxs (insEnd_ctxs f n c res))
@[simp] theorem insEnd_hel (f : Field) (n : Nat) (c : Ctx) (res : Byte) : (f.insEnd n c res).hel = f.hel := raise_hel f _ _ _ _
@[simp] theorem insEnd_firn (f : Field) (n : Nat) (c : Ctx) (res : Byte) : (f.insEnd n c res).firn = f.firn := raise_firn f _ _ _ _
@[simp] theorem insEnd_dch (f : Field) (n : Nat) (c : Ctx) (res : Byte) : (f.insEnd n c res).dch = f.dch := raise_dch f _ _ _ _
@[simp] theorem rampsEnd_nev (f : Field) (x : BitVec 17) : (f.rampsEnd x).nev = f.nev := nev_of_work (work_of_ctxs (rampsEnd_ctxs f x))
@[simp] theorem toRampOff_nev (f : Field) (n : Nat) (code : Option Byte) : (f.toRampOff n code).nev = f.nev :=
  nev_of_work (work_of_ctxs (toRampOff_ctxs f n code))
@[simp] theorem capAsk_nev (f : Field) (w : CapWait) : (f.capAsk w).nev = f.nev := nev_of_work (capAsk_work f w)
@[simp] theorem tripCapture_nev (f : Field) (x : BitVec 17) (c : Byte) : (f.tripCapture x c).nev = f.nev :=
  nev_of_work (tripCapture_work f x c)
@[simp] theorem writeSlot_nev (f : Field) (n : Nat) (s : Slot) (i : Nat) : (f.writeSlot n s i).nev = f.nev :=
  nev_of_work (work_of_ctxs (writeSlot_ctxs f n s i))

/-- Equal Névé stores hold equal channels. -/
theorem chan_congr {f g : Field} (h : g.nev = f.nev) (x : BitVec 17) : g.chan x = f.chan x := by rw [chan, chan, h]

/-! ### A transition -/

@[simp] theorem transit_nev_freeList (f : Field) (x : BitVec 17) (new : ChState) (cause : Byte) :
    (f.transit x new cause).nev.freeList = f.nev.freeList := rfl
@[simp] theorem transit_hel (f : Field) (x : BitVec 17) (new : ChState) (cause : Byte) : (f.transit x new cause).hel = f.hel := rfl
@[simp] theorem transit_dch (f : Field) (x : BitVec 17) (new : ChState) (cause : Byte) : (f.transit x new cause).dch = f.dch := rfl

section
variable (f : Field) (x : BitVec 17) (new : ChState) {cause : Byte} (detail : Byte) (iss : Option Part) (h : elementCode cause = false)
include h
theorem enter_nev : (f.enter x new cause detail iss).nev = (f.transit x new cause).nev := nev_of_records (enter_frame f x new detail iss h)
theorem enter_hel : (f.enter x new cause detail iss).hel = f.hel := (hel_of_records (enter_frame f x new detail iss h)).trans rfl
end

theorem chan_enter (f : Field) (x y : BitVec 17) (new : ChState) {cause : Byte} (detail : Byte) (iss : Option Part)
    (h : elementCode cause = false) : (f.enter x new cause detail iss).chan y = (f.transit x new cause).chan y :=
  chan_congr (enter_nev f x new detail iss h) y

/-- DGn goes OFF: of Névé at most CONFIRMED of a TRIPPED channel changes (R288, R65). -/
theorem gateOff_nev (f : Field) (n : BitVec 4) (freeze : Bool) (h : ∀ x, (f.dchan n).bound = some x → (f.chan x).nev.state ≠ .tripped) :
    (f.gateOff n freeze).nev = f.nev := by
  have hst : ∀ m x, (f.dchan n).bound = some x → (((f.modDch n m).rampsEnd x).chan x).nev.state ≠ .tripped := by
    intro m x hx
    rw [chan_congr ((rampsEnd_nev _ _).trans (modDch_nev f n m))]
    exact h x hx
  unfold gateOff
  dsimp only
  split
  · next x hx => rw [if_neg (hst _ x hx), rampsEnd_nev, modDch_nev]
  · rfl

end Field
end Sys2Proof.Machine
end

section
/-! PROOF. Commands that take effect at once: NOP (R405), GRANT (R379, R380), CLOSE (R69, R71), and the reads. -/
namespace Sys2Proof.Machine
set_option Elab.async false
namespace Field

/-! ### Taking a command -/

/-- A command that does not wait for Firn performs its effect when the field die takes it. -/
theorem command_performs_noFirn {f : Field} {c : CmdHdr} {op : Byte} (cmd : FCmd) (ht : f.takesNow c op = true)
    (hw : waitsFirn cmd = false) : f.command c op cmd = (f.begun (c.as op)).perform (c.as op) cmd := by
  simp only [takesNow, Bool.and_eq_true, Bool.not_eq_true'] at ht
  obtain ⟨⟨hadmits, hlink⟩, hbehind⟩ := ht
  have hbehind' : (f.begun (c.as op)).behindWaiting (c.as op) = false := hbehind
  simp [Field.command, runCmd, hadmits, hlink, hbehind', hw]

@[simp] theorem chan_begun (f : Field) (r : CmdRef) (x : BitVec 17) : (f.begun r).chan x = f.chan x := rfl
@[simp] theorem nev_begun (f : Field) (r : CmdRef) : (f.begun r).nev = f.nev := rfl
@[simp] theorem hel_begun (f : Field) (r : CmdRef) : (f.begun r).hel = f.hel := rfl
@[simp] theorem firn_begun (f : Field) (r : CmdRef) : (f.begun r).firn = f.firn := rfl
@[simp] theorem withRecords_begun (f g : Field) (r : CmdRef) : (f.begun r).withRecords g = f.withRecords g := rfl

/-- What an accepted command's effect changes in records alone, it changes in records alone of the die that accepted it. -/
theorem records_of_begun {f g : Field} {r : CmdRef} (h : g = (f.begun r).withRecords g) : g = f.withRecords g := h

end Field

open Machine.Field

/-- A command that the field die takes and performs at once ends with what its effect leaves. -/
theorem State.endsField_of_performs {s : State} {i : Instr} {c : CmdHdr} {op : Byte} {cmd : FCmd} {P : Field → Prop}
    (hexec : exec i s = s.onField (fun f => f.command c op cmd))
    (hrun : s.f.command c op cmd = (s.f.begun (c.as op)).perform (c.as op) cmd)
    (h : P ((s.f.begun (c.as op)).perform (c.as op) cmd)) : s.endsField i P :=
  ⟨s.f.command c op cmd, hexec, by rw [hrun]; exact h⟩

/-! ### NOP and GRANT -/

theorem Field.nop_eq (f : Field) (r : CmdRef) : f.perform r .nop = if f.anyRole r.part then f.done r else f.complete r .role 0 := by
  rw [perform]
  cases h : f.anyRole r.part with
  | true => exact guard_of_none r _ (by rw [firstFail_cons, if_pos rfl, firstFail_nil])
  | false => exact guard_of_some r _ (by rw [firstFail_cons]; rfl)

/-- Settles O2: the only check is the role, and either way the command completes. -/
theorem nopOnlyCompletes : Obligations.NopOnlyCompletes := by
  intro s c ht
  refine State.endsField_of_performs rfl (command_performs_noFirn .nop ht rfl) ?_
  rw [nop_eq, show (s.f.begun (c.as 0x00)).anyRole (c.as 0x00).part = s.f.anyRole c.part from rfl]
  cases s.f.anyRole c.part with
  | true => exact ⟨records_of_begun (done_frame _ _), fun _ => done_answeredAs _ _, by simp⟩
  | false => exact ⟨records_of_begun (complete_frame _ _ _ _), by simp, fun _ => completeH_answeredAs _ _ _ _ _ _⟩

namespace Field

/-- The grants once a mask is given for a channel and a partition: the pair's grant goes, and a mask other than 0 comes at the end. -/
def regranted (f : Field) (x : BitVec 17) (p : Part) (m : BitVec 3) (sub : Bool) : List Grant :=
  f.prt.grants.filter (fun e => !grantPairs x p e) ++ if m = 0 then [] else [Grant.mk x p m sub]

/-- A GRANT that passes its checks sets the grants and completes OK. -/
theorem grantCmd_passed {f : Field} {r : CmdRef} {p : Part} {m : BitVec 3} {sub : Bool} (h : firstFail (f.grantChecks r p m sub) = none) :
    f.grantCmd r p m sub =
        { f with prt := { f.prt with grants := f.regranted (idx r.handle) p m sub } }.withRecords (f.grantCmd r p m sub) ∧
      (f.grantCmd r p m sub).answeredAs r .ok 0 r.handle = true := by
  rw [grantCmd, guard_of_none r _ h]
  by_cases hm : m = 0
  · simp only [regranted, if_pos hm, List.append_nil]
    exact ⟨completeH_frame _ _ _ _ _ _, completeH_answeredAs _ _ _ _ _ _⟩
  · simp only [regranted, if_neg hm]
    exact ⟨done_frame _ _, done_answeredAs _ _⟩

/-- A grant among those held gives the grantee each bit of its mask on the channel (R380). -/
theorem granted_of_mem {f : Field} {x : BitVec 17} {p : Part} {m : BitVec 3} {sub : Bool} (h : Grant.mk x p m sub ∈ f.prt.grants)
    {b : Nat} (hb : bit m b = true) : f.granted p x b = true :=
  List.any_eq_true.mpr ⟨_, h, by simp [hb]⟩

end Field

/-- Settles O9: the pair's grant goes, and a mask other than 0 puts the new one at the end. -/
theorem grantGivesAndTakes : Obligations.GrantGivesAndTakes := by
  intro s c p m sub ht hpass
  refine State.endsField_of_performs rfl (command_performs_noFirn (.grant p m sub) ht rfl) ?_
  obtain ⟨hg, hans⟩ := grantCmd_passed (f := s.f.begun (c.as 0x16)) hpass
  have hgrants : ((s.f.begun (c.as 0x16)).grantCmd (c.as 0x16) p m sub).prt.grants = s.f.regranted (idx c.handle) p m sub :=
    congrArg (·.prt.grants) hg
  refine ⟨fun hm => ⟨?_, fun b _ hb => granted_of_mem (sub := sub) ?_ hb⟩, fun hm => ?_, ?_, hans⟩
  · exact hgrants.trans (by rw [regranted, if_neg hm])
  · rw [perform, hgrants, regranted, if_neg hm]; simp
  · exact hgrants.trans (by rw [regranted, if_pos hm, List.append_nil])
  · exact hg.trans (congrArg (fun l => ({ s.f with prt := { s.f.prt with grants := l } } : Field).withRecords _) hgrants.symm)

end Sys2Proof.Machine
end

section
/-! PROOF. The reads (R86, R88, R189, R215, R226, R229, R233, R404). With intact stores no read changes them, so a read command's
answer changes records alone; a record of at most 468 bytes goes in one message (R398). -/
namespace Sys2Proof.Machine
set_option Elab.async false

/-! ### Lengths of records -/

@[simp] theorem toLe_length (x n : Nat) : (toLe x n).length = n := by
  induction n generalizing x with
  | zero => rfl
  | succ n ih => simp [toLe, ih]

@[simp] theorem le_length {w : Nat} (n : Nat) (x : BitVec w) : (le n x).length = n := toLe_length _ n
@[simp] theorem zeros_length (n : Nat) : (zeros n).length = n := List.length_replicate
@[simp] theorem pad_length (n : Nat) (b : Bytes) : (pad n b).length = n := by simp [pad]; omega

theorem nevBytes_length (e : Nev) : (nevBytes e).length = 32 := by
  simp [nevBytes]
theorem ctxBytes_length (n : Nat) (c : Ctx) : (ctxBytes n c).length = 416 := by
  delta ctxBytes
  simp

namespace Field

theorem energyRecord_length (h elsb : Word) (m : Meter) (fin : Bool) : (energyRecord h elsb m fin).length = 64 := by
  simp [energyRecord]

/-! ### Messages that are kept -/

/-- Every message kept by f is kept by g. -/
def KeepsAll (f g : Field) : Prop := ∀ e ∈ f.trn.dat.kept, e ∈ g.trn.dat.kept

theorem KeepsAll.refl (f : Field) : KeepsAll f f := fun _ h => h
theorem KeepsAll.trans {f g h : Field} (a : KeepsAll f g) (b : KeepsAll g h) : KeepsAll f h := fun e he => b e (a e he)
theorem KeepsAll.keeps {f g : Field} {m : Msg} (a : KeepsAll f g) (h : f.keeps m) : g.keeps m := h.imp fun _ hq => a _ hq

theorem sendData_kept (f : Field) (m : Msg) :
    (f.sendData m).1.trn.dat.kept = f.trn.dat.kept ++ [(f.trn.dat.sendSeq, m)] := by
  simp only [sendData]
  split
  · rw [emit_trn]; rfl
  · rfl

theorem sendData_keepsAll (f : Field) (m : Msg) : KeepsAll f (f.sendData m).1 := fun e he => by
  rw [sendData_kept]; exact List.mem_append_left _ he

theorem sendData_keeps (f : Field) (m : Msg) : (f.sendData m).1.keeps m := ⟨f.trn.dat.sendSeq, by rw [sendData_kept]; simp⟩

theorem sendRecs_keepsAll (p : Part) (l : List QRec) : ∀ f : Field, KeepsAll f (f.sendRecs p l).1 := by
  induction l with
  | nil => exact KeepsAll.refl
  | cons r rs ih =>
    intro f
    simp only [sendRecs]
    split
    · exact ih f
    · split
      · exact ih f
      · exact (sendData_keepsAll f _).trans (ih _)

theorem pump_keepsAll (f : Field) (p : Part) : KeepsAll f (f.pump p) := by
  simp only [pump]
  split
  · exact sendRecs_keepsAll p _ f
  · exact KeepsAll.refl f

theorem completeH_keepsAll (f : Field) (r : CmdRef) (s : Status) (d : Nat) (n : Bool) (h : Word) : KeepsAll f (f.completeH r s d n h) :=
  pump_keepsAll (Field.setEvq { f with prt := _ } _ _) _

/-- A record of at most 468 bytes goes to host memory in one message. -/
theorem hwrites_one (p : Part) (a : Nat) {b : Bytes} (f : Field) (hne : b ≠ []) (hlen : b.length ≤ 468) :
    hwrites p a (b.length / 468 + 1) b f = (f.sendData (hwriteMsg p a b)).1 := by
  have htake : b.take 468 = b := List.take_of_length_le hlen
  have hdrop : b.drop 468 = [] := List.drop_of_length_le hlen
  have hstop : ∀ (n : Nat) (a : Nat) (g : Field), hwrites p a n [] g = g := fun n a g => by cases n <;> simp [hwrites]
  simp only [hwrites, if_neg hne, htake, hdrop, hstop]
  rfl

/-- A read answers its record in one message and completes; the records alone change. -/
theorem answer_short (f : Field) (r : CmdRef) (buf : BitVec 64) {b : Bytes} (s : Status) (d : Nat) (hne : b ≠ [])
    (hlen : b.length ≤ 468) :
    f.answer r buf b s d = f.withRecords (f.answer r buf b s d) ∧ (f.answer r buf b s d).answeredAs r s d r.handle = true ∧
      (f.answer r buf b s d).keeps (hwriteMsg r.part buf.toNat b) := by
  refine ⟨answer_frame f r buf b s d, completeH_answeredAs _ _ _ _ _ _, ?_⟩
  rw [answer, hwrites_one _ _ _ hne hlen]
  exact (completeH_keepsAll _ r s d false r.handle).keeps (sendData_keeps f _)

/-! ### Stores without errors -/

section
variable {f : Field} (h : f.intact = true)
include h

theorem intact_errs : f.nev.errs = [] ∧ f.firn.errs = [] ∧ f.firn.poisoned = [] ∧ f.firn.alien = [] := by
  simpa [intact, and_assoc] using h

theorem sound_of_intact (cw : Nat) : f.sound cw = true := by
  obtain ⟨-, herrs, hpoison, -⟩ := intact_errs h
  simp [sound, isPoison, herrs, hpoison]

theorem readChip_intact (k : Nat) : f.readChip k = (f, true) := readChip_clean f k (by rw [(intact_errs h).1]; rfl)

theorem readEntry_intact (x : BitVec 17) : f.readEntry x = f := by simp [readEntry, readChip_intact h]

theorem readProf_intact (p : BitVec 12) : f.readProf p = f := by
  have hcw : ∀ k, f.readProfCw p k = f := fun k => by simp [readProfCw, readChip_intact h]
  simp [readProf, List.range, List.range.loop, hcw]

theorem readLoop_intact (n : Byte) : f.readLoop n = f := by
  have hcw : ∀ k, f.readLoopCw n k = f := fun k => by simp [readLoopCw, readChip_intact h]
  simp [readLoop, List.range, List.range.loop, hcw]

theorem readMeter_intact (x : BitVec 17) : f.readMeter x = f := by
  simp [readMeter, readCws, readCw_sound _ _ (sound_of_intact h _)]

theorem readList_intact (l : List Nat) : f.readList l = (f, l) := by
  induction l with
  | nil => rfl
  | cons c cs ih => simp [readList, readCw_sound _ _ (sound_of_intact h _), ih]

end

/-! ### The fixed reads -/

theorem readChip_withRecords (f g : Field) (k : Nat) :
    (f.withRecords g).readChip k = ((f.readChip k).1.withRecords g, (f.readChip k).2) := by
  unfold readChip
  rw [withRecords_nev]
  split
  · rfl
  · split <;> rfl

theorem readEntry_withRecords (f g : Field) (x : BitVec 17) : (f.withRecords g).readEntry x = (f.readEntry x).withRecords g := by
  unfold readEntry
  simp only [readChip_withRecords, chan_withRecords]
  split
  · rfl
  · split
    · rfl
    · rw [show (f.withRecords g).recovering x = f.recovering x from rfl]
      split <;> rfl

/-- What a fixed read leaves: records alone, a completion OK and one message with its record. -/
def Reads (f : Field) (r : CmdRef) (buf : BitVec 64) (b : Bytes) (g : Field) : Prop :=
  g = f.withRecords g ∧ g.answeredAs r .ok 0 r.handle = true ∧ g.keeps (hwriteMsg r.part buf.toNat b)

theorem answer_reads (f : Field) (r : CmdRef) (buf : BitVec 64) {b : Bytes} {n : Nat} (hlen : b.length = n) (hpos : 0 < n) (hmax : n ≤ 468) :
    f.Reads r buf b (f.answer r buf b .ok 0) :=
  answer_short f r buf .ok 0 (List.length_pos_iff.mp (hlen ▸ hpos)) (hlen ▸ hmax)

section
variable {f : Field} {r : CmdRef} {o : ReadOps}

theorem readChannel_reads (h : firstFail (f.checksRead r.part r.handle ++ readArgs o 32) = none) :
    (f.readEntry (idx r.handle)).Reads r o.buf (nevBytes ((f.readEntry (idx r.handle)).chan (idx r.handle)).nev) (f.readChannel r o) := by
  rw [readChannel, guard_of_none r _ h]
  exact answer_reads _ r o.buf (nevBytes_length _) (by decide) (by decide)

theorem readProfile_reads {p : BitVec 16} (hi : f.intact = true) (hp : p.toNat ≤ 4095) (h : firstFail (f.readTableChecks r o 256) = none) :
    f.Reads r o.buf (pad 256 (f.prof (bits p 0 12))) (f.readProfile r o p) := by
  rw [readProfile, guard_of_none r _ ((firstFail_append_of_none _ h).trans (by simp [firstFail_cons, hp]))]
  simp only [readProf_intact hi]
  exact answer_reads f r o.buf (pad_length _ _) (by decide) (by decide)

theorem readLoopset_reads {n : Byte} (hi : f.intact = true) (h : firstFail (f.readTableChecks r o 128) = none) :
    f.Reads r o.buf (pad 128 (f.loopSet n)) (f.readLoopset r o n) := by
  rw [readLoopset, guard_of_none r _ h]
  simp only [readLoop_intact hi]
  exact answer_reads f r o.buf (pad_length _ _) (by decide) (by decide)

theorem readContext_reads {n : Nat} {k : Ctx} {l : List (Nat × Ctx)} (h : firstFail (f.readContextChecks r o) = none)
    (hc : f.ctxsOf (idx r.handle) = (n, k) :: l) : f.Reads r o.buf (ctxBytes n k) (f.readContext r o) := by
  rw [readContext, guard_of_none r _ h, hc]
  exact answer_reads f r o.buf (ctxBytes_length n k) (by decide) (by decide)

theorem readEnergy_reads {fin : Bool} (hi : f.intact = true) (h : firstFail (f.readEnergyChecks r o fin) = none)
    (hlost : (f.chan (idx r.handle)).met.recordLost = false) :
    f.Reads r o.buf (energyRecord r.handle (if fin then (f.chan (idx r.handle)).met.elsb2 else f.elsbOf (idx r.handle))
      (f.chan (idx r.handle)).met fin) (f.readEnergy r o fin) := by
  rw [readEnergy, guard_of_none r _ h]
  simp only [readMeter_intact hi, hlost]
  exact answer_reads f r o.buf (energyRecord_length _ _ _ _) (by decide) (by decide)

end

end Field

open Machine.Field

/-- Settles O10: each read is its answer of the record; READ_CHANNEL reads its entry first, which changes intact stores in nothing. -/
theorem fixedReadsAnswer : Obligations.FixedReadsAnswer := by
  intro s c o
  have channel : s.f.takesNow c 0x20 = true → firstFail (s.f.checksRead c.part c.handle ++ readArgs o 32) = none →
      s.endsField (.readChannel c o) ((s.f.readEntry (idx c.handle)).Reads (c.as 0x20) o.buf
        (nevBytes ((s.f.readEntry (idx c.handle)).chan (idx c.handle)).nev)) := by
    intro ht hpass
    refine State.endsField_of_performs rfl (command_performs_noFirn (.readChannel o) ht rfl) ?_
    have hread := readChannel_reads (f := s.f.begun (c.as 0x20)) (r := c.as 0x20) hpass
    rwa [begun_frame, readEntry_withRecords] at hread
  refine ⟨channel, fun hi => ⟨fun ht hpass => ?_, fun p ht hp hpass => ?_, fun n k l ht hpass hc => ?_, fun fin ht hf hpass hlost => ?_,
    fun n ht hpass => ?_⟩⟩
  · have hread := channel ht hpass
    rwa [readEntry_intact hi] at hread
  · exact State.endsField_of_performs rfl (command_performs_noFirn (.readProfile o p) ht rfl)
      (readProfile_reads (f := s.f.begun (c.as 0x22)) (r := c.as 0x22) hi hp hpass)
  · exact State.endsField_of_performs rfl (command_performs_noFirn (.readContext o) ht rfl)
      (readContext_reads (f := s.f.begun (c.as 0x23)) (r := c.as 0x23) hpass hc)
  · exact State.endsField_of_performs rfl (command_performs (.readEnergy o fin) ht hf)
      (readEnergy_reads (f := s.f.begun (c.as 0x24)) (r := c.as 0x24) hi hpass hlost)
  · exact State.endsField_of_performs rfl (command_performs_noFirn (.readLoopset o n) ht rfl)
      (readLoopset_reads (f := s.f.begun (c.as 0x27)) (r := c.as 0x27) hi hpass)

/-! ### The list reads -/

namespace Field

/-- Taking free values changes their count alone. -/
theorem freeBytes_frame (n : Nat) : ∀ f : Field, (freeBytes n f).2 = { f with freeN := (freeBytes n f).2.freeN } := by
  induction n with
  | zero => intro f; rfl
  | succ n ih => intro f; exact ih f.free.2

/-- A change of records after free values were taken. -/
theorem records_of_free {f f' g : Field} (hf : f' = { f with freeN := f'.freeN }) (hg : g = f'.withRecords g) :
    g = { f with freeN := g.freeN }.withRecords g := by
  have hn : g.freeN = f'.freeN := congrArg (·.freeN) hg
  rw [hn, ← hf]
  exact hg

section
variable {f : Field} {r : CmdRef} {o : ReadOps}

theorem readSubtree_passed {first : BitVec 17} (h : firstFail (f.checksRead r.part r.handle ++ readArgs o 0) = none) :
    f.readSubtree r o first = f.withRecords (f.readSubtree r o first) ∧
      (f.readSubtree r o first).answeredAs r .ok
        (min (o.len.toNat / 8) ((f.descendants (idx r.handle)).filter (fun y => first ≤ y)).length) r.handle = true := by
  rw [readSubtree, guard_of_none r _ h]
  refine ⟨answer_frame _ _ _ _ _ _, ?_⟩
  rw [← List.length_take]
  exact completeH_answeredAs _ _ _ _ _ _

theorem readHistory_passed {start count : BitVec 16} (hi : f.intact = true)
    (h : firstFail (f.checksRead r.part r.handle ++ readArgs o 0) = none) :
    f.readHistory r o start count = f.withRecords (f.readHistory r o start count) ∧
      (f.readHistory r o start count).answeredAs r .ok (min (o.len.toNat / 32) ((f.chan (idx r.handle)).hist.ring.filter
        (fun h => decide ((h.seq - start).toNat < count.toNat))).length) r.handle = true := by
  rw [readHistory, guard_of_none r _ h, ← List.length_take]
  simp only [readList_intact hi]
  generalize (((f.chan (idx r.handle)).hist.ring.filter _).take _) = rs
  have hgood : rs.filter (fun h => (rs.map (fun h => f.histCw (idx r.handle) h.seq)).contains (f.histCw (idx r.handle) h.seq)) = rs :=
    List.filter_eq_self.mpr fun h hh => by simpa using ⟨h, hh, rfl⟩
  rw [hgood, if_pos rfl]
  exact ⟨answer_frame _ _ _ _ _ _, completeH_answeredAs _ _ _ _ _ _⟩

theorem readCapture_passed {slot : BitVec 16} {off : Word} (hi : f.intact = true)
    (h : firstFail (f.readCaptureChecks r o slot off) = none) :
    f.readCapture r o slot off = { f with freeN := (f.readCapture r o slot off).freeN }.withRecords (f.readCapture r o slot off) ∧
      (f.readCapture r o slot off).answeredAs r .ok 0 r.handle = true := by
  rw [readCapture, guard_of_none r _ h]
  dsimp only
  generalize hfb : freeBytes _ f = fb
  have hfree : fb.2 = { f with freeN := fb.2.freeN } := hfb ▸ freeBytes_frame _ f
  have hi' : fb.2.intact = true := by rw [hfree]; exact hi
  have hall : ∀ (l : List Nat) (cw : Nat → Nat), l.find? (fun k => !(l.map cw).contains (cw k)) = none := fun l cw =>
    List.find?_eq_none.mpr fun k hk => by simpa using ⟨k, hk, rfl⟩
  rw [readList_intact hi', hall]
  have hans := fun b => answer_frame fb.2 r o.buf b .ok 0
  exact ⟨records_of_free hfree (hans _), completeH_answeredAs _ _ _ _ _ _⟩

end
end Field

/-- Settles O11: with intact stores every codeword is read, so the answer counts what was selected. -/
theorem listReadsAnswer : Obligations.ListReadsAnswer := by
  intro s c o
  refine ⟨fun first ht hpass => ?_, fun start count ht hf hi hpass => ?_, fun slot off ht hf hi hpass => ?_⟩
  · exact State.endsField_of_performs rfl (command_performs_noFirn (.readSubtree o first) ht rfl)
      (readSubtree_passed (f := s.f.begun (c.as 0x21)) (r := c.as 0x21) hpass)
  · exact State.endsField_of_performs rfl (command_performs (.readHistory o start count) ht hf)
      (readHistory_passed (f := s.f.begun (c.as 0x25)) (r := c.as 0x25) hi hpass)
  · exact State.endsField_of_performs rfl (command_performs (.readCapture o slot off) ht hf)
      (readCapture_passed (f := s.f.begun (c.as 0x26)) (r := c.as 0x26) hi hpass)

end Sys2Proof.Machine
end

section
/-! PROOF. What a change of one channel's state may change: that channel, storms, and what `withWork` names. A trip, an entry into
FALLBACK and a lost record touch one channel. -/
namespace Sys2Proof.Machine
set_option Elab.async false
namespace Field

/-- The field die f with the channels, the storms and the work of g. -/
def withChans (f g : Field) : Field :=
  { f with nev := { f.nev with ch := g.nev.ch }, sel := g.sel, hel := g.hel, firn := g.firn, dch := g.dch, lan := g.lan,
           trn := { f.trn with dat := g.trn.dat }, prt := { f.prt with evq := g.prt.evq, busy := g.prt.busy }, out := g.out }

/-- From f to g no channel but x changes, and beside it no more than storms, records, lanes, contexts, stores and gates. -/
def Touches (x : BitVec 17) (f g : Field) : Prop := g = f.withChans g ∧ ∀ y, y ≠ x → g.chan y = f.chan y

namespace Touches

theorem refl (x : BitVec 17) (f : Field) : Touches x f f := ⟨rfl, fun _ _ => rfl⟩

theorem trans {x : BitVec 17} {f g h : Field} (a : Touches x f g) (b : Touches x g h) : Touches x f h := by
  obtain ⟨ha, hay⟩ := a
  obtain ⟨hb, hby⟩ := b
  refine ⟨?_, fun y hy => (hby y hy).trans (hay y hy)⟩
  rw [ha] at hb
  exact hb

theorem ofWork {x : BitVec 17} {f g : Field} (h : g = f.withWork g) : Touches x f g :=
  ⟨by rw [h]; rfl, fun y _ => chan_congr (nev_of_work h) y⟩

theorem ofCtxs {x : BitVec 17} {f g : Field} (h : g = f.withCtxs g) : Touches x f g := ofWork (work_of_ctxs h)
theorem ofRecords {x : BitVec 17} {f g : Field} (h : g = f.withRecords g) : Touches x f g := ofWork (work_of_records h)
theorem ofLanes {x : BitVec 17} {f g : Field} (h : g = f.withLanes g) : Touches x f g := ofWork (work_of_lanes h)

theorem setChan (x : BitVec 17) (f : Field) (c : Chan) : Touches x f (f.setChan x c) :=
  ⟨rfl, fun _ hy => chan_setChan_other f c hy.symm⟩

theorem modChan (x : BitVec 17) (f : Field) (m : Chan → Chan) : Touches x f (f.modChan x m) := setChan x f _

theorem sel (x : BitVec 17) (f : Field) (s : Sel) : Touches x f { f with sel := s } := ⟨rfl, fun _ _ => rfl⟩

theorem hel (x : BitVec 17) (f : Field) (h : Hel) : Touches x f { f with hel := h } := ⟨rfl, fun _ _ => rfl⟩

theorem ite {x : BitVec 17} {f g h : Field} (c : Prop) [Decidable c] (a : Touches x f g) (b : Touches x f h) :
    Touches x f (if c then g else h) := by
  split
  · exact a
  · exact b

theorem foldl {α : Type} {x : BitVec 17} {op : Field → α → Field} (hop : ∀ f a, Touches x f (op f a)) (l : List α) :
    ∀ f : Field, Touches x f (l.foldl op f) := by
  induction l with
  | nil => exact refl x
  | cons a l ih => exact fun f => (hop f a).trans (ih _)

section
variable {x : BitVec 17} {f g : Field} (h : Touches x f g)
include h
theorem prof : g.nev.prof = f.nev.prof := congrArg (·.nev.prof) h.1
theorem loops : g.nev.loops = f.nev.loops := congrArg (·.nev.loops) h.1
theorem freeList : g.nev.freeList = f.nev.freeList := congrArg (·.nev.freeList) h.1
theorem mer : g.mer = f.mer := congrArg (·.mer) h.1
theorem trnSt : g.trn.st = f.trn.st := congrArg (·.trn.st) h.1
end

/-! ### The operations -/

theorem raise (x : BitVec 17) (f : Field) (p : Part) (ty : Byte) (h : Word) (b : Bytes) : Touches x f (f.raise p ty h b) :=
  ofRecords (raise_frame f p ty h b)

theorem setStorm (x : BitVec 17) (f : Field) (s : Storm) : Touches x f (f.setStorm s) := sel x f _

/-- A delivered or coalesced event changes no channel (R141). -/
theorem coalesced (x : BitVec 17) (f : Field) (y : BitVec 17) (code ty : Byte) (b : Bytes) : Touches x f (f.coalesced y code ty b) := by
  unfold Field.coalesced
  dsimp only
  exact ite _ (raise x f _ _ _ _) (ite _ (setStorm x f _) (ite _ ((setStorm x f _).trans (raise x _ _ _ _ _))
    ((setStorm x f _).trans (raise x _ _ _ _ _))))

theorem stateChange (x : BitVec 17) (f : Field) (y : BitVec 17) (old new : ChState) (cause detail : Byte) (iss : Option Part) :
    Touches x f (f.stateChange y old new cause detail iss) :=
  ite _ (coalesced x f _ _ _ _) (raise x f _ _ _ _)

theorem transit (x : BitVec 17) (f : Field) (new : ChState) (cause : Byte) : Touches x f (f.transit x new cause) :=
  (modChan x f _).trans (ofCtxs (heal2_ctxs _ x 1))

theorem enter (x : BitVec 17) (f : Field) (new : ChState) (cause detail : Byte) (iss : Option Part) :
    Touches x f (f.enter x new cause detail iss) :=
  (transit x f new cause).trans (stateChange x _ x _ _ _ _ _)

theorem element (x : BitVec 17) (f : Field) (code : Byte) : Touches x f (f.element x code) :=
  (modChan x f _).trans (coalesced x _ _ _ _ _)

end Touches

/-! ### The configuration of a channel -/

end Field

/-- What a RECONFIGURE can select of a channel: profile, gains, parent and mirror source (R72). -/
def Chan.config (c : Chan) : BitVec 12 × BitVec 24 × BitVec 16 × BitVec 17 × Bool × Option (BitVec 17) :=
  (c.nev.profile, c.nev.igain, c.nev.vgain, c.nev.parent, c.nev.parentValid, c.fr.mirror)

namespace Field

/-- An open or coalesced event changes no channel. -/
@[simp] theorem coalesced_nev (f : Field) (x : BitVec 17) (code ty : Byte) (b : Bytes) : (f.coalesced x code ty b).nev = f.nev := by
  unfold coalesced
  dsimp only
  split
  · exact raise_nev _ _ _ _ _
  · split
    · rfl
    · split <;> exact raise_nev _ _ _ _ _

@[simp] theorem stateChange_nev (f : Field) (x : BitVec 17) (old new : ChState) (cause detail : Byte) (iss : Option Part) :
    (f.stateChange x old new cause detail iss).nev = f.nev := by
  unfold stateChange
  dsimp only
  split
  · exact coalesced_nev _ _ _ _ _
  · exact raise_nev _ _ _ _ _

/-- An entry into a state changes Névé as its transition does, whatever the cause. -/
theorem enter_nev_any (f : Field) (x : BitVec 17) (new : ChState) (cause detail : Byte) (iss : Option Part) :
    (f.enter x new cause detail iss).nev = (f.transit x new cause).nev := stateChange_nev _ _ _ _ _ _ _

/-- From f to g no channel but x changes, and x keeps its configuration. -/
def KeepsConfig (x : BitVec 17) (f g : Field) : Prop := Touches x f g ∧ (g.chan x).config = (f.chan x).config

namespace KeepsConfig

theorem refl (x : BitVec 17) (f : Field) : KeepsConfig x f f := ⟨Touches.refl x f, rfl⟩
theorem trans {x : BitVec 17} {f g h : Field} (a : KeepsConfig x f g) (b : KeepsConfig x g h) : KeepsConfig x f h :=
  ⟨a.1.trans b.1, b.2.trans a.2⟩
theorem ofNev {x : BitVec 17} {f g : Field} (h : Touches x f g) (hn : g.nev = f.nev) : KeepsConfig x f g :=
  ⟨h, by rw [chan_congr hn]⟩
theorem ofWork {x : BitVec 17} {f g : Field} (h : g = f.withWork g) : KeepsConfig x f g := ofNev (.ofWork h) (nev_of_work h)
theorem ofCtxs {x : BitVec 17} {f g : Field} (h : g = f.withCtxs g) : KeepsConfig x f g := ofWork (work_of_ctxs h)
theorem ofLanes {x : BitVec 17} {f g : Field} (h : g = f.withLanes g) : KeepsConfig x f g := ofWork (work_of_lanes h)
theorem modChan {x : BitVec 17} {m : Chan → Chan} (f : Field) (h : ∀ c, (m c).config = c.config) : KeepsConfig x f (f.modChan x m) :=
  ⟨Touches.modChan x f m, by rw [chan_modChan_same, h]⟩
theorem modAux (x : BitVec 17) (f : Field) (m : Aux → Aux) : KeepsConfig x f (f.modAux x m) := modChan f fun _ => rfl
theorem ite {x : BitVec 17} {f g h : Field} (c : Prop) [Decidable c] (a : KeepsConfig x f g) (b : KeepsConfig x f h) :
    KeepsConfig x f (if c then g else h) := by
  split
  · exact a
  · exact b

theorem enter (x : BitVec 17) (f : Field) (new : ChState) (cause detail : Byte) (iss : Option Part) :
    KeepsConfig x f (f.enter x new cause detail iss) := by
  refine ⟨Touches.enter x f new cause detail iss, ?_⟩
  rw [chan_congr (enter_nev_any f x new cause detail iss), Field.transit, chan_heal2, chan_modChan_same]
  rfl

/-- A trip touches the tripped channel alone and leaves its configuration (R98, R125, R180). -/
theorem tripChan (x : BitVec 17) (f : Field) (cause : Byte) : KeepsConfig x f (f.tripChan x cause) := by
  have hctx : ∀ (g : Field) (o : Option (Nat × Ctx)),
      KeepsConfig x g (match o with | some (n, c) => (g.stopStream c 0).dropCtx n false | none => g) := by
    intro g o
    cases o with
    | none => exact refl x g
    | some e => exact (ofLanes (stopStream_lanes g _ _)).trans (ofCtxs (dropCtx_ctxs _ _ _))
  have hend : ∀ (g : Field) (o : Option (Nat × Ctx)), KeepsConfig x g (match o with | some (n, c) => g.insEnd n c cause | none => g) := by
    intro g o
    cases o with
    | none => exact refl x g
    | some e => exact ofCtxs (insEnd_ctxs g _ _ _)
  have hconf : ∀ (g : Field) (o : Option (BitVec 4)), KeepsConfig x g
      (match o with
        | some n => if (g.dchan n).mode = DgMode.off then g.modAux x (fun a => { a with confirmed := true }) else g
        | none => g) := by
    intro g o
    cases o with
    | none => exact refl x g
    | some n => exact ite _ (modAux x g _) (refl x g)
  exact (((((ofCtxs (unqueue_ctxs f x)).trans (hctx _ _)).trans (enter x _ _ _ _ _)).trans (hend _ _)).trans (hconf _ _)).trans
    (ofWork (tripCapture_work _ x cause))

theorem countFail_ctxs (f : Field) (code : Byte) : f.countFail code = f.withCtxs (f.countFail code) := rfl

theorem queueTimeout (x : BitVec 17) (f : Field) : KeepsConfig x f (f.queueTimeout x) := by
  unfold Field.queueTimeout
  split
  · exact ite _ ((ofCtxs (countFail_ctxs f _)).trans (tripChan x _ _)) (refl x f)
  · exact refl x f

/-- A fallback configuration clears FB_SYNC of its channel and goes to the channel's outstation (R111). -/
theorem queueFb (x : BitVec 17) (f : Field) : KeepsConfig x f (f.queueFb x) := by
  unfold Field.queueFb
  dsimp only
  split
  · refine (modChan f ?_).trans ((ofLanes (setLink_lanes _ _ _)).trans (ofLanes (sendCmd_lanes _ _ _ _)))
    exact fun _ => rfl
  · exact refl x f

theorem rewriteRecord (x : BitVec 17) (f : Field) (p : Part) : KeepsConfig x f (f.rewriteRecord x p) := by
  have hw (m : Chan → Chan) (hm : ∀ c, (m c).config = c.config) : KeepsConfig x f (((f.modChan x m).heal2 x 0).heal2 x 1) :=
    (modChan f hm).trans ((ofCtxs (heal2_ctxs _ x 0)).trans (ofCtxs (heal2_ctxs _ x 1)))
  unfold Field.rewriteRecord
  refine ite _ (ite _ ((hw _ ?_).trans (enter x _ _ _ _ _)) (hw _ ?_)) (refl x f)
  · exact fun _ => rfl
  · exact fun _ => rfl

end KeepsConfig

/-! ### Changes of many channels -/

/-- The tables of Névé and the free list stand as they were. -/
def SameTables (f g : Field) : Prop :=
  g.nev.prof = f.nev.prof ∧ g.nev.loops = f.nev.loops ∧ g.nev.freeList = f.nev.freeList

theorem SameTables.refl (f : Field) : SameTables f f := ⟨rfl, rfl, rfl⟩
theorem SameTables.trans {f g h : Field} (a : SameTables f g) (b : SameTables g h) : SameTables f h :=
  ⟨b.1.trans a.1, b.2.1.trans a.2.1, b.2.2.trans a.2.2⟩
theorem Touches.sameTables {x : BitVec 17} {f g : Field} (h : Touches x f g) : SameTables f g := ⟨h.prof, h.loops, h.freeList⟩
theorem SameTables.foldl {α : Type} {op : Field → α → Field} (hop : ∀ f a, SameTables f (op f a)) (l : List α) :
    ∀ f : Field, SameTables f (l.foldl op f) := by
  induction l with
  | nil => exact SameTables.refl
  | cons a l ih => exact fun f => (hop f a).trans (ih _)

theorem queueRecheck_sameTables (f : Field) (p : BitVec 17 → Bool) : SameTables f (f.queueRecheck p) :=
  SameTables.foldl (op := fun (g : Field) (e : InsEnt) => g.queueTimeout e.ch) (fun g e => (KeepsConfig.queueTimeout e.ch g).1.sameTables) _ f

/-- A recheck of one channel's entries touches that channel alone and leaves its configuration. -/
theorem KeepsConfig.queueRecheck (x : BitVec 17) (f : Field) : KeepsConfig x f (f.queueRecheck (fun y => y = x)) := by
  unfold Field.queueRecheck
  have hl : ∀ e ∈ f.hel.queue.filter (fun e => decide (e.ch = x)), e.ch = x := by simp
  generalize f.hel.queue.filter _ = l at hl
  induction l generalizing f with
  | nil => exact refl x f
  | cons e l ih =>
    have he : e.ch = x := hl e List.mem_cons_self
    have hstep : KeepsConfig x f (f.queueTimeout e.ch) := by rw [he]; exact queueTimeout x f
    exact hstep.trans (ih _ fun d hd => hl d (List.mem_cons_of_mem e hd))

end Field
end Sys2Proof.Machine
end

section
/-! PROOF. The commands that write tables, banks, totals and capture slots (R89 to R91, R190, R191, R200, R201, R204, R222, R225,
R230, R232, R233). -/
namespace Sys2Proof.Machine
set_option Elab.async false
namespace Field

/-! ### Tables -/

/-- Codewords of Firn and of the on-chip store that are written change what stands beside the written data alone. -/
theorem writeCws_frame (a b : Nat → Nat) (l : List Nat) : ∀ f : Field,
    let g := l.foldl (fun (k : Field) j => (k.heal1 (a j)).healChip (b j)) f
    g = { f with nev := { f.nev with errs := g.nev.errs },
                 firn := { f.firn with poisoned := g.firn.poisoned, errs := g.firn.errs, alien := g.firn.alien } } := by
  induction l with
  | nil => intro f; rfl
  | cons j l ih => intro f; exact ih ((f.heal1 (a j)).healChip (b j))

/-- The field die with profile q written. -/
def putProf (f : Field) (q : BitVec 12) (b : Bytes) : Field := { f with nev := { f.nev with prof := tabSet [] f.nev.prof q.toNat b } }

theorem prof_putProf_same (f : Field) (q : BitVec 12) (b : Bytes) : (f.putProf q b).prof q = b := by simp [prof, putProf]
theorem prof_putProf_other (f : Field) {p q : BitVec 12} (b : Bytes) (h : p ≠ q) : (f.putProf q b).prof p = f.prof p := by
  have hn : q.toNat ≠ p.toNat := fun e => h (BitVec.eq_of_toNat_eq e.symm)
  simp [prof, putProf, tabGet_tabSet_other _ _ _ hn]

theorem loopSet_tabSet_other {f g : Field} {n m : Byte} {b : Bytes} (hg : g.nev.loops = tabSet [] f.nev.loops n.toNat b) (h : m ≠ n) :
    g.loopSet m = f.loopSet m := by
  have hn : n.toNat ≠ m.toNat := fun e => h (BitVec.eq_of_toNat_eq e.symm)
  simp [loopSet, hg, tabGet_tabSet_other _ _ _ hn]

section
variable {f : Field} {r : CmdRef}

/-- A WRITE_PROFILE that passes its checks puts the profile into the table and completes OK. -/
theorem writeProfile_passed {p : BitVec 16} {data : Bytes} (h : firstFail (f.writeProfileChecks r p data) = none) :
    (f.writeProfile r p data).nev.prof = (f.putProf (bits p 0 12) (ownedProfile r.part data)).nev.prof ∧
      (f.writeProfile r p data).nev.loops = f.nev.loops ∧ (f.writeProfile r p data).answeredAs r .ok 0 r.handle = true := by
  rw [writeProfile, guard_of_none r _ h]
  dsimp only
  have hw := writeCws_frame (profShadow (bits p 0 12)) (profCw (bits p 0 12)) (List.range 8)
    (f.putProf (bits p 0 12) (ownedProfile r.part data))
  generalize hg2 : (List.range 8).foldl _ (f.putProf _ _) = g2 at hw
  rw [putProf] at hg2
  rw [hg2]
  have hfb : ∀ c : Prop, ∀ _ : Decidable c, ∀ l : List (BitVec 17),
      SameTables g2 (if c then g2.each l (fun k x => k.queueFb x) else g2) := by
    intro c _ l
    split
    · exact SameTables.foldl (fun k x => (KeepsConfig.queueFb x k).1.sameTables) l g2
    · exact SameTables.refl g2
  obtain ⟨hprof, hloops, -⟩ := (hfb _ _ _).trans (queueRecheck_sameTables _ _)
  refine ⟨?_, ?_, done_answeredAs _ r⟩
  · rw [done_nev, hprof, hw]
  · rw [done_nev, hloops, hw]; rfl

/-- A WRITE_LOOPSET that passes its checks puts the loop set into the table and completes OK. -/
theorem writeLoopset_passed {n : Byte} {data : Bytes} (h : firstFail (f.writeLoopsetChecks r n data) = none) :
    let g := f.writeLoopset r n data
    g = { f with nev := { f.nev with loops := tabSet [] f.nev.loops n.toNat data, errs := g.nev.errs },
                 firn := { f.firn with poisoned := g.firn.poisoned, errs := g.firn.errs, alien := g.firn.alien } }.withRecords g ∧
      g.answeredAs r .ok 0 r.handle = true := by
  rw [writeLoopset, guard_of_none r _ h]
  dsimp only
  have hw := writeCws_frame (loopShadow n) (loopCw n) (List.range 4)
    { f with nev := { f.nev with loops := tabSet [] f.nev.loops n.toNat data } }
  generalize (List.range 4).foldl _ _ = g2 at hw ⊢
  refine ⟨(done_frame g2 r).trans ?_, done_answeredAs g2 r⟩
  rw [done_nev, done_firn]
  exact congrArg (fun k : Field => k.withRecords (g2.done r)) hw

end
end Field

open Machine.Field

/-- Settles O12: the table takes the bytes; what follows the write of a profile leaves both tables alone. -/
theorem tableWritesStore : Obligations.TableWritesStore := by
  intro s c data hf
  refine ⟨fun p ht hpass => ?_, fun n ht hpass => ?_⟩
  · refine State.endsField_of_performs rfl (command_performs (.writeProfile p data) ht hf) ?_
    obtain ⟨hprof, hloops, hans⟩ := writeProfile_passed (f := s.f.begun (c.as 0x30)) (r := c.as 0x30) hpass
    refine ⟨?_, fun q hq => ?_, hloops, hans⟩
    · rw [perform, prof, hprof]; exact prof_putProf_same _ _ _
    · rw [perform, prof, hprof]; exact prof_putProf_other _ _ hq
  · refine State.endsField_of_performs rfl (command_performs (.writeLoopset n data) ht hf) ?_
    obtain ⟨hg, hans⟩ := writeLoopset_passed (f := s.f.begun (c.as 0x31)) (r := c.as 0x31) hpass
    have hloops := congrArg (·.nev.loops) hg
    have hnev := congrArg (·.nev) hg
    refine ⟨?_, fun m hm => loopSet_tabSet_other hloops hm, ?_, ?_, hans⟩
    · rw [perform, loopSet, show _ = _ from hloops]; simp
    · rw [perform, hloops]; exact hnev
    · exact hg.trans (congrArg (fun v => ({ s.f with nev := v, firn := { s.f.firn with
        poisoned := _, errs := _, alien := _ } } : Field).withRecords _) hnev.symm)

/-! ### Banks -/

namespace Field

@[simp] theorem setCtx_look_same (f : Field) (n : Nat) (k : Ctx) : tabLook (f.setCtx n k).hel.ctx n = some k := tabLook_tabPut_same _ _ _
theorem setCtx_look_other (f : Field) {m n : Nat} (k : Ctx) (h : m ≠ n) : tabLook (f.setCtx n k).hel.ctx m = tabLook f.hel.ctx m :=
  tabLook_tabPut_other _ _ h.symm

theorem modCtx_of_look {f : Field} {n : Nat} {k : Ctx} (m : Ctx → Ctx) (h : tabLook f.hel.ctx n = some k) : f.modCtx n m = f.setCtx n (m k) := by
  rw [modCtx, h]

section
variable {f : Field} {r : CmdRef} {n : Nat} {k : Ctx} (hrun : f.runningCtx (idx r.handle) = some (n, k)) (hlook : tabLook f.hel.ctx n = some k)
include hrun hlook

theorem bankWrite_passed {data : Bytes} (h : firstFail (f.bankWriteChecks r data) = none) :
    f.bankWrite r data = (f.setCtx n (if k.activeB then { k with bankA := data, swapTaken := false }
      else { k with bankB := data, swapTaken := false })).done r := by
  rw [bankWrite, guard_of_none r _ h, hrun]
  dsimp only
  rw [modCtx_of_look _ hlook]

theorem ctxSwap_passed (h : firstFail (f.swapChecks r) = none) : f.ctxSwap r = f.setCtx n { k with swap := some r } := by
  rw [ctxSwap, guard_of_none r _ h, hrun]
  dsimp only
  rw [modCtx_of_look _ hlook]

end

end Field

/-- Settles O13: each command writes the one context; only the bank write completes. -/
theorem bankCommandsAct : Obligations.BankCommandsAct := by
  intro s c n k hrun hlook
  refine ⟨fun data ht hpass => ?_, fun ht hpass => ?_⟩
  · refine State.endsField_of_performs rfl (command_performs_noFirn (.bankWrite data) ht rfl) ?_
    have heq := bankWrite_passed (f := s.f.begun (c.as 0x32)) (r := c.as 0x32) hrun hlook hpass
    rw [perform, heq, done_hel]
    exact ⟨setCtx_look_same _ _ _, fun m hm => setCtx_look_other _ _ hm, done_frame _ _, done_answeredAs _ _⟩
  · refine State.endsField_of_performs rfl (command_performs_noFirn .ctxSwap ht rfl) ?_
    rw [perform, ctxSwap_passed (f := s.f.begun (c.as 0x33)) (r := c.as 0x33) hrun hlook hpass]
    exact ⟨setCtx_look_same _ _ _, fun m hm => setCtx_look_other _ _ hm, rfl⟩

/-! ### Totals -/

namespace Field

theorem logAt_frame (f : Field) (ty : Byte) (t : Count) (b : Bytes) (cs : List Bytes) :
    f.logAt ty t b cs = { f with nvm := (f.logAt ty t b cs).nvm } := by
  unfold logAt
  dsimp only
  split
  · rfl
  · split <;> rfl

@[simp] theorem logAt_nev (f : Field) (ty : Byte) (t : Count) (b : Bytes) (cs : List Bytes) : (f.logAt ty t b cs).nev = f.nev := by
  rw [logAt_frame]

@[simp] theorem modMet_met (f : Field) (x : BitVec 17) (m : Meter → Meter) : ((f.modMet x m).chan x).met = m (f.chan x).met := by
  simp [modMet]
@[simp] theorem modMet_chan_nev (f : Field) (x : BitVec 17) (m : Meter → Meter) : ((f.modMet x m).chan x).nev = (f.chan x).nev := by
  simp [modMet]
theorem chan_modMet_other (f : Field) {x y : BitVec 17} (m : Meter → Meter) (h : y ≠ x) : (f.modMet x m).chan y = f.chan y :=
  chan_modChan_other f _ h.symm
@[simp] theorem chan_done (f : Field) (r : CmdRef) (x : BitVec 17) : (f.done r).chan x = f.chan x := chan_congr (done_nev f r) x
@[simp] theorem chan_logAt (f : Field) (ty : Byte) (t : Count) (b : Bytes) (cs : List Bytes) (x : BitVec 17) :
    (f.logAt ty t b cs).chan x = f.chan x := chan_congr (logAt_nev f ty t b cs) x

/-- Writing a codeword of stores without errors changes nothing beside the data. -/
theorem heal2_intact {f : Field} (h : f.intact = true) (x : BitVec 17) (k : Nat) : f.heal2 x k = f := by
  obtain ⟨-, herrs, hpoison, halien⟩ := intact_errs h
  obtain ⟨mer, nev, sel, hel, firn, lan, dch, adc, trn, prt, thm, saf, pwr, nvm, sec, freeN, out⟩ := f
  cases firn
  simp_all [heal2, heal1, tabDel]

section
variable {f : Field} {r : CmdRef} (hi : f.intact = true)
include hi

theorem energySet_passed {imp exp : BitVec 64} (h : firstFail (f.checks15 r.part r.handle (f.commissioner r.part) none) = none) :
    (∀ y, (f.energySet r imp exp).chan y = (f.modMet (idx r.handle)
      (fun m => { m with imp := imp, exp := exp, setByHost := true, recordLost := false })).chan y) ∧
      (f.energySet r imp exp).answeredAs r .ok 0 r.handle = true := by
  rw [energySet, guard_of_none r _ h]
  simp only [readMeter_intact hi, chan_done, chan_logAt, chan_heal2]
  exact ⟨fun _ => trivial, done_answeredAs _ r⟩

theorem demandReset_passed (h : firstFail (f.checks15 r.part r.handle (f.operator r.part) none) = none) :
    f.demandReset r = (f.modMet (idx r.handle) (fun m => { m with demPeak := 0 })).done r := by
  rw [demandReset, guard_of_none r _ h, readMeter_intact hi, heal2_intact (by exact hi)]

end

end Field

/-- Settles O14: with intact stores reading and writing the energy codewords changes the energy of the one channel alone. -/
theorem energyCommandsWrite : Obligations.EnergyCommandsWrite := by
  intro s c hf hi
  refine ⟨fun imp exp ht hpass => ?_, fun ht hpass => ?_⟩
  · refine State.endsField_of_performs rfl (command_performs (.energySet imp exp) ht hf) ?_
    obtain ⟨hchan, hans⟩ := energySet_passed (f := s.f.begun (c.as 0x40)) (r := c.as 0x40) hi (imp := imp) (exp := exp) hpass
    have hmet := (congrArg Chan.met (hchan (idx c.handle))).trans (modMet_met _ _ _)
    have hnev := (congrArg Chan.nev (hchan (idx c.handle))).trans (modMet_chan_nev _ _ _)
    exact ⟨congrArg Meter.imp hmet, congrArg Meter.exp hmet, congrArg Meter.setByHost hmet, (congrArg Meter.demPeak hmet).trans rfl, hnev,
      fun y hy => (hchan y).trans (chan_modMet_other _ _ hy), hans⟩
  · refine State.endsField_of_performs rfl (command_performs .demandReset ht hf) ?_
    rw [perform, demandReset_passed (f := s.f.begun (c.as 0x41)) (r := c.as 0x41) hi hpass, done_nev]
    simp only [chan_done]
    exact ⟨modMet_met _ _ _, fun y hy => chan_modMet_other _ _ hy, done_frame _ _, done_answeredAs _ _⟩

/-! ### Capture slots -/

namespace Field

theorem heals_slots (cw : Nat → Nat) (l : List Nat) : ∀ f : Field,
    (l.foldl (fun (g : Field) k => g.heal1 (cw k)) f).firn.slots = f.firn.slots := by
  induction l with
  | nil => intro f; rfl
  | cons k l ih => intro f; exact ih (f.heal1 (cw k))

theorem writeSlot_slots (f : Field) (n : Nat) (s : Slot) (i : Nat) : (f.writeSlot n s i).firn.slots = tabPut f.firn.slots n s :=
  heals_slots (fun k => slotCw n (2 + k)) _ _

theorem heals_hel (cw : Nat → Nat) (l : List Nat) : ∀ f : Field,
    (l.foldl (fun (g : Field) k => g.heal1 (cw k)) f).hel = f.hel := by
  induction l with
  | nil => intro f; rfl
  | cons k l ih => intro f; exact ih (f.heal1 (cw k))

@[simp] theorem writeSlot_hel (f : Field) (n : Nat) (s : Slot) (i : Nat) : (f.writeSlot n s i).hel = f.hel :=
  heals_hel (fun k => slotCw n (2 + k)) _ _

/-- An entry just put is found there. -/
theorem exists_look_of_put {α : Type} {t t' : Tab α} {i : Nat} {v : α} {P : α → Prop} (h : t' = tabPut t i v) (hv : P v) :
    ∃ k, tabLook t' i = some k ∧ P k := ⟨v, by rw [h, tabLook_tabPut_same], hv⟩

/-- A capture that starts holds its context and its slot, and completes the command that asked for it (R230). -/
theorem capStart_holds (f : Field) (w : CapWait) (r : CmdRef) (n sl : Nat) (hw : w.ref = some r) :
    (∃ k, (f.capStart w n sl).slot? sl = some k ∧ k.kind = w.kind ∧ k.running = true ∧ k.dest = r.part ∧ k.left = w.post ∧
        k.handle = f.handle w.ch) ∧
      (∃ k, tabLook (f.capStart w n sl).hel.ctx n = some k ∧ k.ch = w.ch ∧ k.capSlot = some sl) ∧
      (f.capStart w n sl).answeredAs r .ok 0 r.handle = true := by
  have hmod : ∀ (g : Field) (o : Option (BitVec 4)) (m : Dch → Dch),
      (match o with | some d => g.modDch d m | none => g).firn = g.firn ∧ (match o with | some d => g.modDch d m | none => g).hel = g.hel :=
    fun g o m => by cases o <;> exact ⟨rfl, rfl⟩
  unfold capStart
  simp only [hw]
  have hslots := fun (g : Field) (o : Option (BitVec 4)) (m : Dch → Dch) (v : Slot) =>
    (congrArg Firn.slots ((done_firn _ r).trans (hmod (g.writeSlot sl v 0) o m).1)).trans (writeSlot_slots g sl v 0)
  have hctx := fun (g : Field) (k : Ctx) (o : Option (BitVec 4)) (m : Dch → Dch) (v : Slot) =>
    congrArg Hel.ctx ((done_hel _ r).trans ((hmod ((g.setCtx n k).writeSlot sl v 0) o m).2.trans (writeSlot_hel _ sl v 0)))
  exact ⟨exists_look_of_put (hslots _ _ _ _) ⟨rfl, rfl, rfl, rfl, rfl⟩, exists_look_of_put (hctx _ _ _ _ _) ⟨rfl, rfl⟩,
    done_answeredAs _ r⟩

/-- A capture that R174 admits, with none that it admits before it, starts in the first free context and slot (R232). -/
theorem capAsk_admitted {f : Field} {w : CapWait} {n sl : Nat} (hadmits : f.capAdmits w.ch = true)
    (hfirst : f.firn.capWait.any (fun v => f.capAdmits v.ch) = false) (hctx : f.freeCtx = some n) (hslot : f.freeSlot = some sl) :
    f.capAsk w = f.capStart w n sl := by
  rw [capAsk, hslot]
  dsimp only
  rw [hadmits, hfirst, hctx]
  rfl

theorem captureCmd_passed {f : Field} {r : CmdRef} {pre post : BitVec 16} (h : firstFail (f.captureChecks r pre post) = none) :
    f.captureCmd r pre post = f.capAsk
      { ch := idx r.handle, kind := .request, cause := 0, t := f.now, pre := pre.toNat, post := post.toNat, ref := some r } :=
  guard_of_none r _ h

theorem captureFree_passed {f : Field} {r : CmdRef} {slot : BitVec 16} (h : firstFail (f.captureFreeChecks r slot) = none) :
    (f.captureFree r slot).firn.slots = tabDel (f.stopCapture slot.toNat).firn.slots slot.toNat ∧
      (f.captureFree r slot).answeredAs r .ok 0 r.handle = true := by
  rw [captureFree, guard_of_none r _ h]
  exact ⟨by rw [done_firn], done_answeredAs _ r⟩

end Field

/-- Settles O15: the capture starts in the first free context and slot; freeing a slot first ends the capture that runs in it. -/
theorem captureCommandsHoldSlots : Obligations.CaptureCommandsHoldSlots := by
  intro s c
  refine ⟨fun pre post n sl ht hf hpass hadmits hfirst hctx hslot => ?_, fun slot ht hpass => ?_⟩
  · refine State.endsField_of_performs rfl (command_performs (.capture pre post) ht hf) ?_
    have hask : ∀ w : CapWait, w.ch = idx c.handle → (s.f.begun (c.as 0x42)).capAsk w = (s.f.begun (c.as 0x42)).capStart w n sl :=
      fun w hw => capAsk_admitted (by rw [hw]; exact hadmits) hfirst hctx hslot
    rw [perform, captureCmd_passed (f := s.f.begun (c.as 0x42)) hpass, hask _ rfl]
    exact capStart_holds _ _ (c.as 0x42) n sl (by rfl)
  · refine State.endsField_of_performs rfl (command_performs_noFirn (.captureFree slot) ht rfl) ?_
    obtain ⟨hslots, hans⟩ := captureFree_passed (f := s.f.begun (c.as 0x43)) (r := c.as 0x43) hpass
    rw [perform]
    refine ⟨?_, fun m hm hnone => ?_, hans⟩
    · rw [slot?, hslots, tabLook_tabDel_same]
    · have hstop : (s.f.begun (c.as 0x43)).stopCapture slot.toNat = s.f.begun (c.as 0x43) := by simp [stopCapture, hnone]
      rw [slot?, hslots, tabLook_tabDel_other _ hm.symm, hstop]
      rfl

end Sys2Proof.Machine
end

section
/-! PROOF. The commands that change a channel's state: CLOSE and OPEN (R69 to R71, R165, R180). -/
namespace Sys2Proof.Machine
set_option Elab.async false
namespace Field

/-! ### CLOSE -/

/-- The channel at x has used a retry token and has its counters at 0: what an entry into INSERTING does before its transition. -/
@[irreducible] def disarmed (f : Field) (x : BitVec 17) : Field := (f.useToken x).modNev x (fun e => disarm e.state e)

theorem disarmed_frame (f : Field) (x : BitVec 17) : f.disarmed x = { f with nev := (f.disarmed x).nev } := by
  unfold disarmed useToken
  split <;> rfl

theorem chan_disarmed_other (f : Field) {x y : BitVec 17} (h : y ≠ x) : (f.disarmed x).chan y = f.chan y := by
  unfold disarmed useToken
  split
  · exact chan_modChan_other f _ h.symm
  · exact (chan_modChan_other _ _ h.symm).trans (chan_modChan_other f _ h.symm)

@[simp] theorem disarmed_hel (f : Field) (x : BitVec 17) : (f.disarmed x).hel = f.hel := by rw [disarmed_frame]
@[simp] theorem disarmed_mer (f : Field) (x : BitVec 17) : (f.disarmed x).mer = f.mer := by rw [disarmed_frame]

/-- The die f with an entry at the tail of the insertion queue. -/
def joined (f : Field) (e : InsEnt) : Field := { f with hel := { f.hel with queue := f.hel.queue ++ [e] } }

theorem startInserting_eq (f : Field) (x : BitVec 17) (o : Origin) (iss : Option Part) :
    f.startInserting x o iss = ((f.disarmed x).enter x .inserting 0 (BitVec.ofNat 8 o.code) iss).joined
      { ch := x, origin := o, tJoin := ((f.disarmed x).enter x .inserting 0 (BitVec.ofNat 8 o.code) iss).now } := by
  unfold startInserting disarmed joined
  rfl

section
variable (f : Field) (x : BitVec 17) (o : Origin) (iss : Option Part)

theorem startInserting_nev : (f.startInserting x o iss).nev = ((f.disarmed x).transit x .inserting 0).nev := by
  rw [startInserting_eq, joined, enter_nev _ _ _ _ _ (by decide)]

theorem startInserting_hel : (f.startInserting x o iss).hel =
    { f.hel with queue := f.hel.queue ++ [{ ch := x, origin := o, tJoin := f.now }] } := by
  have henter := enter_frame (f.disarmed x) x .inserting (cause := 0) (BitVec.ofNat 8 o.code) iss (by decide)
  have hhel := (hel_of_records henter).trans ((transit_hel _ _ _ _).trans (disarmed_hel f x))
  have hmer := (mer_of_records henter).trans (disarmed_mer f x)
  rw [startInserting_eq, joined, hhel, now, hmer]
  rfl

/-- Beside the channel and the queue, an entry into INSERTING writes codeword 1 of the record and raises an event. -/
theorem startInserting_frame : f.startInserting x o iss =
    { f.heal2 x 1 with nev := (f.startInserting x o iss).nev, hel := (f.startInserting x o iss).hel }.withRecords
      (f.startInserting x o iss) := by
  have henter := enter_frame (f.disarmed x) x .inserting (cause := 0) (BitVec.ofNat 8 o.code) iss (by decide)
  rw [startInserting_eq]
  generalize (f.disarmed x).enter x .inserting 0 (BitVec.ofNat 8 o.code) iss = g at henter
  rw [transit, disarmed_frame] at henter
  rw [henter]
  rfl

/-- What an entry into INSERTING leaves: the state, no wheel entry and the other channels as they were (R64, R151). -/
theorem startInserting_chan : ((f.startInserting x o iss).chan x).nev.state = .inserting ∧
    ((f.startInserting x o iss).chan x).fr.wheel = .none ∧ ∀ y, y ≠ x → (f.startInserting x o iss).chan y = f.chan y := by
  have hchan := chan_congr (startInserting_nev f x o iss)
  refine ⟨?_, ?_, fun y hy => ?_⟩
  · rw [hchan, transit_state]
  · rw [hchan, transit_wheel _ _ _ (by decide)]
  · rw [hchan, chan_transit_other _ _ _ hy.symm, chan_disarmed_other f hy]

/-- A CLOSE that begins an insertion. -/
theorem startInserting_done (r : CmdRef) :
    let g := (f.startInserting x o iss).done r
    (g.chan x).nev.state = .inserting ∧ (g.chan x).fr.wheel = .none ∧
      g.hel = { f.hel with queue := f.hel.queue ++ [{ ch := x, origin := o, tJoin := f.now }] } ∧
      (∀ y, y ≠ x → g.chan y = f.chan y) ∧ g = { f.heal2 x 1 with nev := g.nev, hel := g.hel }.withRecords g ∧
      g.answeredAs r .ok 0 r.handle = true := by
  obtain ⟨hstate, hwheel, hother⟩ := startInserting_chan f x o iss
  simp only [chan_done, done_hel, done_nev]
  exact ⟨hstate, hwheel, startInserting_hel f x o iss, hother, records_trans (startInserting_frame f x o iss) (done_frame _ r),
    done_answeredAs _ r⟩

end

/-! ### The checks of CLOSE and OPEN -/

section
variable {f : Field} {r : CmdRef}

theorem closeCmd_same {soft : Bool} (h : firstFail (f.switchChecks r 0) = none) (hs : f.alreadyShut r = true) :
    f.closeCmd r soft = f.completeH r .ok 0 true r.handle := by
  rw [closeCmd, guard_of_none r _ h, hs]
  rfl

theorem closeCmd_inserts {soft : Bool} (h : firstFail (f.switchChecks r 0) = none)
    (hst : (f.chan (idx r.handle)).nev.state = .opened ∨ (f.chan (idx r.handle)).nev.state = .tripped ∨
      (f.chan (idx r.handle)).nev.state = .retryWait) (hc : firstFail (f.closeChecks (idx r.handle) soft) = none) :
    f.closeCmd r soft = (f.startInserting (idx r.handle) (if soft then .soft else .close) (some r.part)).done r := by
  have hshut : f.alreadyShut r = false := by rcases hst with h | h | h <;> simp [alreadyShut, h]
  have hstate : firstFail [f.stateCheck r] = none := by rcases hst with h | h | h <;> simp [stateCheck, h, firstFail_cons]
  rw [closeCmd, guard_of_none r _ h, hshut]
  rw [if_neg Bool.false_ne_true, guard_of_none r _ hstate, guard_of_none r _ hc]

end
end Field

open Machine.Field

/-- Settles O6: the entry into INSERTING, or a completion alone. -/
theorem closeStartsInsertion : Obligations.CloseStartsInsertion := by
  intro s c soft ht hf hpass x st
  refine ⟨fun hst => ?_, fun hst hc => ?_⟩
  · refine State.endsField_of_performs rfl (command_performs (.closeCh soft) ht hf) ?_
    have hshut : s.f.alreadyShut (c.as 0x13) = true := by
      rcases hst with h | h
      · exact Bool.or_eq_true_iff.mpr (.inl (decide_eq_true h))
      · exact Bool.or_eq_true_iff.mpr (.inr (decide_eq_true h))
    rw [perform, closeCmd_same (f := s.f.begun (c.as 0x13)) hpass hshut]
    exact ⟨records_of_begun (completeH_frame _ _ _ _ _ _), completeH_answeredAs _ _ _ _ _ _⟩
  · refine State.endsField_of_performs rfl (command_performs (.closeCh soft) ht hf) ?_
    rw [perform, closeCmd_inserts (f := s.f.begun (c.as 0x13)) (r := c.as 0x13) hpass hst hc]
    have hdone := startInserting_done (s.f.begun (c.as 0x13)) (idx (c.as 0x13).handle) (if soft then .soft else .close) (some (c.as 0x13).part) (c.as 0x13)
    generalize ((s.f.begun (c.as 0x13)).startInserting _ _ _).done _ = g at hdone ⊢
    exact hdone

end Sys2Proof.Machine
end

section
/-! PROOF. OPEN (R69, R70). What the end of a gate's level and of a context leaves of the channels, the contexts and the gates. -/
namespace Sys2Proof.Machine
set_option Elab.async false
namespace Field

/-! ### Which contexts are held -/

/-- Is context n held? -/
def holds (f : Field) (n : Nat) : Bool := (tabLook f.hel.ctx n).isSome

theorem holds_of_hel {f g : Field} (h : g.hel = f.hel) (n : Nat) : g.holds n = f.holds n := by rw [holds, holds, h]

theorem holds_setCtx {f : Field} {m : Nat} {c : Ctx} (k : Ctx) (h : tabLook f.hel.ctx m = some c) (n : Nat) :
    (f.setCtx m k).holds n = f.holds n := by
  by_cases hn : n = m
  · subst hn; simp [holds, h]
  · rw [holds, holds, setCtx_look_other _ _ hn]

theorem holds_modCtx (f : Field) (m : Nat) (k : Ctx → Ctx) (n : Nat) : (f.modCtx m k).holds n = f.holds n := by
  unfold modCtx
  split
  · next c hc => exact holds_setCtx _ hc n
  · rfl

theorem holds_dropSwap (f : Field) (m n : Nat) : (f.dropSwap m).holds n = f.holds n := by
  unfold dropSwap
  split
  · next c hc =>
    split
    · rw [holds_of_hel (hel_of_records (complete_frame _ _ _ _))]
      exact holds_setCtx (f := { f with hel := { f.hel with swapDisc := satAdd f.hel.swapDisc 1 } }) _ hc n
    · rfl
  · rfl

@[simp] theorem capEnd_hel (f : Field) (n : Nat) (a : Bool) : (f.capEnd n a).hel = f.hel := by
  unfold capEnd
  split
  · split
    · exact (raise_hel _ _ _ _ _).trans (writeSlot_hel f n _ _)
    · rfl
  · rfl

theorem dropCtx_ctx {f : Field} {m : Nat} {c : Ctx} (a : Bool) (hc : tabLook f.hel.ctx m = some c) :
    (f.dropCtx m a).hel.ctx = tabDel (f.dropSwap m).hel.ctx m := by
  have hcap : ∀ (g : Field) (o : Option Nat), (match o with | some s => g.capEnd s a | none => g).hel = g.hel :=
    fun g o => by cases o with | none => rfl | some s => exact capEnd_hel g s a
  rw [dropCtx, hc]
  exact congrArg (fun h : Hel => tabDel h.ctx m) ((hcap _ _).trans (hcap _ _))

/-- A context that ends is held no more, and no other is taken. -/
theorem holds_dropCtx (f : Field) (m : Nat) (a : Bool) (n : Nat) : (f.dropCtx m a).holds n = (f.holds n && decide (n ≠ m)) := by
  cases hc : tabLook f.hel.ctx m with
  | some c =>
    rw [holds, dropCtx_ctx a hc]
    by_cases hn : n = m
    · simp [hn]
    · rw [tabLook_tabDel_other _ (Ne.symm hn)]
      rw [decide_eq_true hn, Bool.and_true]
      exact holds_dropSwap f m n
  | none =>
    rw [dropCtx, hc]
    by_cases hn : n = m
    · simp [hn, holds, hc]
    · simp [hn]

theorem holds_rampOver {f : Field} {n : Nat} (m : Nat) (h : f.holds n = false) : (f.rampOver m).holds n = false := by
  unfold rampOver
  split
  · exact h
  · split
    · rw [holds_modCtx, h]
    · rw [holds_dropCtx, holds_of_hel (stopStream_hel f _ _), h]; rfl

/-- The end of ramp-offs takes no context. -/
theorem holds_rampsEnd {f : Field} {n : Nat} (x : BitVec 17) (h : f.holds n = false) : (f.rampsEnd x).holds n = false := by
  unfold rampsEnd
  generalize f.ctxsOf x = l
  induction l generalizing f with
  | nil => exact h
  | cons e l ih =>
    refine ih ?_
    dsimp only
    split
    · exact holds_rampOver _ h
    · exact h

/-! ### The gate -/

/-- No channel's entry or record changes from f to g, but what is held beside them may. -/
def SameEntries (f g : Field) : Prop := ∀ y, (g.chan y).nev = (f.chan y).nev ∧ (g.chan y).fr = (f.chan y).fr

theorem SameEntries.ofNev {f g : Field} (h : g.nev = f.nev) : SameEntries f g := fun y => by rw [chan_congr h y]; exact ⟨rfl, rfl⟩

theorem SameEntries.trans {f g h : Field} (a : SameEntries f g) (b : SameEntries g h) : SameEntries f h :=
  fun y => ⟨(b y).1.trans (a y).1, (b y).2.trans (a y).2⟩

theorem SameEntries.modAux (f : Field) (x : BitVec 17) (m : Aux → Aux) : SameEntries f (f.modAux x m) := fun y => by
  by_cases h : x = y
  · subst h; simp [Field.modAux]
  · rw [Field.modAux, chan_modChan_other f _ h]; exact ⟨rfl, rfl⟩

/-- The switch of a TRIPPED channel is confirmed open (R65). -/
def confirmedOpen (f : Field) (x : BitVec 17) : Field :=
  if (f.chan x).nev.state = .tripped then f.modAux x (fun a => { a with confirmed := true }) else f

theorem confirmedOpen_spec (f : Field) (x : BitVec 17) :
    SameEntries f (f.confirmedOpen x) ∧ (f.confirmedOpen x).dch = f.dch ∧ (f.confirmedOpen x).hel = f.hel := by
  unfold confirmedOpen
  split
  · exact ⟨SameEntries.modAux f x _, rfl, rfl⟩
  · exact ⟨fun _ => ⟨rfl, rfl⟩, rfl, rfl⟩

/-- What a gate-off writes to its direct channel: OFF, and low. -/
def GatesOff (m : Dch → Dch) : Prop := ∀ d, (m d).mode = .off ∧ (m d).dg = false

/-- A gate that goes OFF ends the ramp-offs of its channel, and confirms a trip of it. -/
theorem gateOff_eq (f : Field) (n : BitVec 4) (freeze : Bool) : ∃ m, GatesOff m ∧
    f.gateOff n freeze = match (f.dchan n).bound with
      | some x => ((f.modDch n m).rampsEnd x).confirmedOpen x
      | none => f.modDch n m :=
  ⟨_, fun _ => ⟨rfl, rfl⟩, rfl⟩

theorem dchan_modDch_same (f : Field) (n : BitVec 4) (m : Dch → Dch) : (f.modDch n m).dchan n = m (f.dchan n) := dchan_setDch_same f n _

/-- A gate that goes OFF is low, changes no channel's entry, and takes no context (R288). -/
theorem gateOff_spec (f : Field) (n : BitVec 4) (freeze : Bool) :
    SameEntries f (f.gateOff n freeze) ∧ ((f.gateOff n freeze).dchan n).mode = .off ∧ ((f.gateOff n freeze).dchan n).dg = false ∧
      ∀ m, f.holds m = false → (f.gateOff n freeze).holds m = false := by
  obtain ⟨m, hm, heq⟩ := gateOff_eq f n freeze
  have hd : (f.gateOff n freeze).dch = (f.modDch n m).dch := by
    rw [heq]
    split
    · rw [(confirmedOpen_spec _ _).2.1, rampsEnd_dch]
    · rfl
  have hdn : (f.gateOff n freeze).dchan n = m (f.dchan n) := by rw [dchan, hd]; exact dchan_modDch_same f n m
  obtain ⟨hmode, hdg⟩ := hm (f.dchan n)
  refine ⟨?_, by rw [hdn, hmode], by rw [hdn, hdg], fun k hk => ?_⟩
  · rw [heq]
    split
    · exact (SameEntries.ofNev ((rampsEnd_nev _ _).trans (modDch_nev f n m))).trans (confirmedOpen_spec _ _).1
    · exact SameEntries.ofNev rfl
  · rw [heq]
    split
    · rw [holds_of_hel (confirmedOpen_spec _ _).2.2]; exact holds_rampsEnd _ hk
    · exact hk

/-- The opening of a channel's point changes no channel's entry and takes no context; a DIRECT channel's gate goes OFF, and its command
completes (R70). -/
theorem sendOpen_spec (f : Field) (r : CmdRef) (x : BitVec 17) :
    SameEntries f (f.sendOpen r x) ∧ (∀ m, f.holds m = false → (f.sendOpen r x).holds m = false) ∧
      ∀ n, f.directOf x = some n → ((f.sendOpen r x).dchan n).mode = .off ∧ ((f.sendOpen r x).dchan n).dg = false ∧
        (f.sendOpen r x).answeredAs r .ok 0 r.handle = true := by
  unfold sendOpen
  split
  · next n hn =>
    obtain ⟨hent, hmode, hdg, hheld⟩ := gateOff_spec f n false
    have hdch := done_dch (f.gateOff n false) r
    refine ⟨hent.trans (SameEntries.ofNev (done_nev _ r)), fun m hm => ?_, fun k hk => ?_⟩
    · rw [holds_of_hel (done_hel _ r)]; exact hheld m hm
    · obtain rfl : n = k := by simpa [hn] using hk
      rw [dchan, hdch]
      exact ⟨hmode, hdg, done_answeredAs _ r⟩
  · next hn =>
    exact ⟨SameEntries.ofNev (cmdTo_nev f x _ _), fun m hm => by rw [holds_of_hel (cmdTo_hel f x _ _)]; exact hm, fun n h => by simp [hn] at h⟩

/-! ### The cases of an OPEN -/

/-- A channel that enters OPEN is OPEN, with no wheel entry; what follows beside the channels leaves it so. -/
theorem enter_opened (f : Field) (x : BitVec 17) (iss : Option Part) :
    ((f.enter x .opened 0 0 iss).chan x).nev.state = .opened ∧ ((f.enter x .opened 0 0 iss).chan x).fr.wheel = .none := by
  rw [chan_enter f x x .opened 0 iss (by decide)]
  exact ⟨transit_state f x .opened 0, transit_wheel f x 0 (by decide)⟩

@[simp] theorem modRec_fr (f : Field) (x : BitVec 17) (m : ChRec → ChRec) : ((f.modRec x m).chan x).fr = m (f.chan x).fr := by simp [modRec]
@[simp] theorem modRec_chan_nev (f : Field) (x : BitVec 17) (m : ChRec → ChRec) : ((f.modRec x m).chan x).nev = (f.chan x).nev := by
  simp [modRec]

section
variable {f : Field} {r : CmdRef}

theorem openCmd_same (h : firstFail (f.switchChecks r 1) = none) (hst : (f.chan (idx r.handle)).nev.state = .opened) :
    f.openCmd r = f.completeH r .ok 0 true r.handle := by
  rw [openCmd, guard_of_none r _ h]
  simp only [hst]

/-- An OPEN from CLOSED, TRIPPED or RETRY_WAIT. -/
theorem openCmd_opens (h : firstFail (f.switchChecks r 1) = none) (hst : (f.chan (idx r.handle)).nev.state = .closed ∨
    (f.chan (idx r.handle)).nev.state = .tripped ∨ (f.chan (idx r.handle)).nev.state = .retryWait) :
    f.openCmd r = ((f.enter (idx r.handle) .opened 0 0 (some r.part)).modRec (idx r.handle) (fun c => { c with rcount := 0 })).sendOpen
      r (idx r.handle) := by
  rw [openCmd, guard_of_none r _ h]
  rcases hst with hst | hst | hst <;> simp only [hst]

theorem openCmd_inserting (h : firstFail (f.switchChecks r 1) = none) (hst : (f.chan (idx r.handle)).nev.state = .inserting) :
    f.openCmd r = (f.openInsertion r (idx r.handle)).modRec (idx r.handle) (fun c => { c with rcount := 0 }) := by
  rw [openCmd, guard_of_none r _ h]
  simp only [hst]

end

@[simp] theorem modRec_hel (f : Field) (x : BitVec 17) (m : ChRec → ChRec) : (f.modRec x m).hel = f.hel := rfl
@[simp] theorem answeredAs_modRec (f : Field) (x : BitVec 17) (m : ChRec → ChRec) (r : CmdRef) (s : Status) (d : Nat) (h : Word) :
    (f.modRec x m).answeredAs r s d h = f.answeredAs r s d h := rfl

/-- The channel at x is OPEN with its retry count at 0, once the count is cleared after an entry into OPEN. -/
theorem opened_of_sameEntries {f g : Field} {x : BitVec 17} {iss : Option Part} (h : SameEntries (f.enter x .opened 0 0 iss) g) :
    ((g.modRec x (fun c => { c with rcount := 0 })).chan x).nev.state = .opened ∧
      ((g.modRec x (fun c => { c with rcount := 0 })).chan x).fr.rcount = 0 := by
  rw [modRec_chan_nev, modRec_fr, (h x).1]
  exact ⟨(enter_opened f x iss).1, rfl⟩

theorem directOf_opened (f : Field) (x : BitVec 17) (iss : Option Part) :
    ((f.enter x .opened 0 0 iss).modRec x (fun c => { c with rcount := 0 })).directOf x = f.directOf x := by
  have hbind : ((f.enter x .opened 0 0 iss).chan x).fr.bind = (f.chan x).fr.bind := by
    rw [chan_enter f x x .opened 0 iss (by decide), transit, chan_heal2, chan_modChan_same]
  simp only [directOf, modRec_fr, hbind]

/-- A context that is held goes into its ramp-off (R212). -/
theorem toRampOff_phase {f : Field} {n : Nat} (code : Option Byte) (h : f.holds n = true) :
    ∃ j, tabLook (f.toRampOff n code).hel.ctx n = some j ∧ j.phase = .rampOff := by
  rw [← holds_dropSwap f n] at h
  obtain ⟨c, hc⟩ := Option.isSome_iff_exists.mp h
  rw [toRampOff, modCtx_of_look _ hc]
  exact ⟨_, setCtx_look_same _ n _, rfl⟩

/-- The loop capture of an insertion that an open command ends is over. -/
def endLoop (f : Field) (n : Nat) (c : Ctx) : Field :=
  match c.loopSlot with
  | some s => (f.capEnd s false).modCtx n (fun k => { k with loopSlot := none })
  | none => f

theorem holds_endLoop (f : Field) (n : Nat) (c : Ctx) (m : Nat) : (f.endLoop n c).holds m = f.holds m := by
  unfold endLoop
  split
  · rw [holds_modCtx, holds_of_hel (capEnd_hel f _ _)]
  · rfl

section
variable {f : Field} {r : CmdRef} {x : BitVec 17}

/-- An insertion without a context leaves the queue (R172). -/
theorem openInsertion_queued (h : f.insCtx x = none) :
    f.openInsertion r x = ((f.unqueue x).enter x .opened 0 0 (some r.part)).done r := by
  rw [openInsertion, h]

theorem openInsertion_handover {n : Nat} {k : Ctx} (h : f.insCtx x = some (n, k)) (hp : k.phase = .handover) :
    f.openInsertion r x = (((f.dropCtx n false).enter x .opened 0 0 (some r.part)).insEnd n k 0x20).sendOpen r x := by
  rw [openInsertion, h]
  exact if_pos hp

theorem openInsertion_ramp {n : Nat} {k : Ctx} (h : f.insCtx x = some (n, k)) (hp : k.phase ≠ .handover) :
    f.openInsertion r x = ((((f.endLoop n k).enter x .opened 0 0 (some r.part)).insEnd n k 0x20).toRampOff n none).done r := by
  rw [openInsertion, h]
  exact if_neg hp

end

section
variable {f : Field} {r : CmdRef} (h : firstFail (f.switchChecks r 1) = none)
include h

theorem openCmd_opens_spec (hst : (f.chan (idx r.handle)).nev.state = .closed ∨ (f.chan (idx r.handle)).nev.state = .tripped ∨
    (f.chan (idx r.handle)).nev.state = .retryWait) :
    ((f.openCmd r).chan (idx r.handle)).nev.state = .opened ∧ ((f.openCmd r).chan (idx r.handle)).fr.rcount = 0 ∧
      ((f.openCmd r).chan (idx r.handle)).fr.wheel = .none ∧
      ∀ n, f.directOf (idx r.handle) = some n → ((f.openCmd r).dchan n).mode = .off ∧ ((f.openCmd r).dchan n).dg = false ∧
        (f.openCmd r).answeredAs r .ok 0 r.handle = true := by
  rw [openCmd_opens h hst]
  obtain ⟨hent, -, hdirect⟩ := sendOpen_spec ((f.enter (idx r.handle) .opened 0 0 (some r.part)).modRec (idx r.handle)
    (fun c => { c with rcount := 0 })) r (idx r.handle)
  obtain ⟨hstate, hwheel⟩ := enter_opened f (idx r.handle) (some r.part)
  rw [(hent _).1, (hent _).2, modRec_chan_nev, modRec_fr]
  exact ⟨hstate, rfl, hwheel, fun n hn => hdirect n (by rw [directOf_opened]; exact hn)⟩

section
variable (hst : (f.chan (idx r.handle)).nev.state = .inserting)
include hst

theorem openCmd_queued_spec (hn : f.insCtx (idx r.handle) = none) :
    ((f.openCmd r).chan (idx r.handle)).nev.state = .opened ∧ ((f.openCmd r).chan (idx r.handle)).fr.rcount = 0 ∧
      (∀ e ∈ (f.openCmd r).hel.queue, e.ch ≠ idx r.handle) ∧ (f.openCmd r).answeredAs r .ok 0 r.handle = true := by
  rw [openCmd_inserting h hst, openInsertion_queued hn]
  obtain ⟨hstate, hcount⟩ := opened_of_sameEntries (SameEntries.ofNev
    (done_nev ((f.unqueue (idx r.handle)).enter (idx r.handle) .opened 0 0 (some r.part)) r))
  have hhel : (((f.unqueue (idx r.handle)).enter (idx r.handle) .opened 0 0 (some r.part)).done r).hel =
      (f.unqueue (idx r.handle)).hel := (done_hel _ _).trans (enter_hel _ _ .opened 0 _ (by decide))
  rw [modRec_hel, hhel, answeredAs_modRec]
  exact ⟨hstate, hcount, fun e he => of_decide_eq_true (List.mem_filter.mp he).2, done_answeredAs _ r⟩

variable {n : Nat} {k : Ctx} (hctx : f.insCtx (idx r.handle) = some (n, k))
include hctx

theorem openCmd_ramp_spec (hlook : tabLook f.hel.ctx n = some k) (hp : k.phase ≠ .handover) :
    ((f.openCmd r).chan (idx r.handle)).nev.state = .opened ∧ ((f.openCmd r).chan (idx r.handle)).fr.rcount = 0 ∧
      (∃ j, tabLook (f.openCmd r).hel.ctx n = some j ∧ j.phase = .rampOff) ∧ (f.openCmd r).answeredAs r .ok 0 r.handle = true := by
  rw [openCmd_inserting h hst, openInsertion_ramp hctx hp]
  obtain ⟨hstate, hcount⟩ := opened_of_sameEntries (SameEntries.ofNev ((done_nev _ r).trans ((toRampOff_nev _ n none).trans
    (insEnd_nev ((f.endLoop n k).enter (idx r.handle) .opened 0 0 (some r.part)) n k 0x20))))
  have hheld : (((f.endLoop n k).enter (idx r.handle) .opened 0 0 (some r.part)).insEnd n k 0x20).holds n = true := by
    rw [holds_of_hel ((insEnd_hel _ n k _).trans (enter_hel _ _ .opened 0 _ (by decide))), holds_endLoop, holds, hlook]
    rfl
  obtain ⟨j, hj, hphase⟩ := toRampOff_phase none hheld
  rw [modRec_hel, done_hel, answeredAs_modRec]
  exact ⟨hstate, hcount, ⟨j, hj, hphase⟩, done_answeredAs _ r⟩

theorem openCmd_handover_spec (hp : k.phase = .handover) :
    ((f.openCmd r).chan (idx r.handle)).nev.state = .opened ∧ ((f.openCmd r).chan (idx r.handle)).fr.rcount = 0 ∧
      tabLook (f.openCmd r).hel.ctx n = none := by
  rw [openCmd_inserting h hst, openInsertion_handover hctx hp]
  obtain ⟨hent, hheld, -⟩ := sendOpen_spec (((f.dropCtx n false).enter (idx r.handle) .opened 0 0 (some r.part)).insEnd n k 0x20) r
    (idx r.handle)
  obtain ⟨hstate, hcount⟩ := opened_of_sameEntries ((SameEntries.ofNev
    (insEnd_nev ((f.dropCtx n false).enter (idx r.handle) .opened 0 0 (some r.part)) n k 0x20)).trans hent)
  have hfree : (((f.dropCtx n false).enter (idx r.handle) .opened 0 0 (some r.part)).insEnd n k 0x20).holds n = false := by
    rw [holds_of_hel ((insEnd_hel _ n k _).trans (enter_hel _ _ .opened 0 _ (by decide))), holds_dropCtx]
    simp
  rw [modRec_hel]
  exact ⟨hstate, hcount, by simpa only [holds, Option.isSome_eq_false_iff, Option.isNone_iff_eq_none] using hheld n hfree⟩

end
end
end Field

open Machine.Field

/-- Settles O7: the channel enters OPEN, and what follows, at its gate, its point or its context, leaves its entry alone. -/
theorem openOpensChannel : Obligations.OpenOpensChannel := by
  intro s c ht hf hpass x st
  have run {P : Field → Prop} (h : P ((s.f.begun (c.as 0x14)).openCmd (c.as 0x14))) : s.endsField (.openCh c) P :=
    State.endsField_of_performs rfl (command_performs .openCh ht hf) h
  have hpass' : firstFail ((s.f.begun (c.as 0x14)).switchChecks (c.as 0x14) 1) = none := hpass
  refine ⟨fun hst => run ?_, fun hst => run (openCmd_opens_spec hpass' hst), fun hst hn => run (openCmd_queued_spec hpass' hst hn),
    fun n k hst hctx hlook => ⟨fun hp => run (openCmd_ramp_spec hpass' hst hctx hlook hp),
      fun hp => run (openCmd_handover_spec hpass' hst hctx hp)⟩⟩
  rw [openCmd_same hpass' hst]
  exact ⟨records_of_begun (completeH_frame _ _ _ _ _ _), completeH_answeredAs _ _ _ _ _ _⟩

end Sys2Proof.Machine
end

section
/-! PROOF. RECONFIGURE (R72): the descriptor's groups are written at once, and what follows, the depths that are pending, a record
that is rewritten, a queue timeout and a fallback configuration, leaves the configuration. -/
namespace Sys2Proof.Machine
set_option Elab.async false
namespace Field

/-- The descriptor names another profile than the channel's. -/
def rebinds (f : Field) (x : BitVec 17) (o : ReconfOps) : Bool := o.profileSel && decide (o.profile ≠ (f.chan x).nev.profile)
/-- The parent that a RECONFIGURE asks for. -/
def askedParent (o : ReconfOps) : Option (BitVec 17) := if o.root then none else some (idx o.parent)
/-- The descriptor names another parent than the channel's. -/
def moves (f : Field) (x : BitVec 17) (o : ReconfOps) : Bool := o.parentSel && decide (askedParent o ≠ f.parentOf x)
/-- The mirror source that a RECONFIGURE asks for. -/
def askedMirror (o : ReconfOps) : Option (BitVec 17) := if o.mirror = 0 then none else some (idx o.mirror)

/-- The selected groups written to a channel (R72, R92). -/
def regroup (f : Field) (x : BitVec 17) (o : ReconfOps) (c : Chan) : Chan :=
  let n1 := if f.rebinds x o then rebind c.nev o.profile (f.prof o.profile) else c.nev
  let n2 := if o.gainsSel then { n1 with igain := o.igain, vgain := o.vgain } else n1
  let n3 := if f.moves x o then { n2 with parent := (askedParent o).getD 0, parentValid := (askedParent o).isSome } else n2
  { c with nev := n3, fr := if o.mirrorSel then { c.fr with mirror := askedMirror o } else c.fr,
           met := if o.mirrorSel && decide (askedMirror o ≠ c.fr.mirror) then { c.met with sync := .first } else c.met }

/-- The depths of a moved channel and of those below it are pending (R114). -/
def pendDepths (f : Field) (x : BitVec 17) : Field :=
  (x :: f.descendants x).foldl (fun (g : Field) y => g.modAux y (fun a => { a with depthPend := true })) f

theorem reconfAt_eq (f : Field) (p : Part) (x : BitVec 17) (o : ReconfOps) :
    f.reconfAt p x o =
      let f1 := f.modChan x (f.regroup x o)
      let f2 := if f.moves x o then f1.pendDepths x else f1
      let f3 := f2.rewriteRecord x p
      let f4 := if f.rebinds x o then f3.queueRecheck (fun y => y = x) else f3
      if f.rebinds x o || (o.gainsSel && decide (o.igain ≠ (f.chan x).nev.igain)) then f4.queueFb x else f4 := rfl

theorem pendDepths_sameEntries (f : Field) (x : BitVec 17) : SameEntries f (f.pendDepths x) := by
  unfold pendDepths
  generalize x :: f.descendants x = l
  induction l generalizing f with
  | nil => exact fun _ => ⟨rfl, rfl⟩
  | cons y l ih => exact (SameEntries.modAux f y _).trans (ih _)

theorem config_of_sameEntries {f g : Field} (h : SameEntries f g) (x : BitVec 17) : (g.chan x).config = (f.chan x).config := by
  rw [Chan.config, (h x).1, (h x).2]; rfl

/-- After a RECONFIGURE the channel has the configuration of the groups written, and no other channel's entry or record has changed. -/
theorem reconfAt_spec (f : Field) (p : Part) (x : BitVec 17) (o : ReconfOps) :
    ((f.reconfAt p x o).chan x).config = (f.regroup x o (f.chan x)).config ∧
      ∀ y, y ≠ x → ((f.reconfAt p x o).chan y).nev = (f.chan y).nev ∧ ((f.reconfAt p x o).chan y).fr = (f.chan y).fr := by
  have hf2 : SameEntries (f.modChan x (f.regroup x o))
      (if f.moves x o then (f.modChan x (f.regroup x o)).pendDepths x else f.modChan x (f.regroup x o)) := by
    split
    · exact pendDepths_sameEntries _ x
    · exact fun _ => ⟨rfl, rfl⟩
  rw [reconfAt_eq]
  dsimp only
  generalize (if f.moves x o then (f.modChan x (f.regroup x o)).pendDepths x else f.modChan x (f.regroup x o)) = f2 at hf2
  have hrest : ∀ (c d : Prop) [Decidable c] [Decidable d], KeepsConfig x f2
      (if c then (if d then (f2.rewriteRecord x p).queueRecheck (fun y => y = x) else f2.rewriteRecord x p).queueFb x
        else (if d then (f2.rewriteRecord x p).queueRecheck (fun y => y = x) else f2.rewriteRecord x p)) := by
    intro c d _ _
    have h4 : KeepsConfig x f2 (if d then (f2.rewriteRecord x p).queueRecheck (fun y => y = x) else f2.rewriteRecord x p) :=
      .ite d ((KeepsConfig.rewriteRecord x f2 p).trans (.queueRecheck x _)) (.rewriteRecord x f2 p)
    exact .ite c (h4.trans (.queueFb x _)) h4
  obtain ⟨htouch, hconf⟩ := hrest ((f.rebinds x o || (o.gainsSel && decide (o.igain ≠ (f.chan x).nev.igain))) = true) (f.rebinds x o = true)
  refine ⟨?_, fun y hy => ?_⟩
  · rw [hconf, config_of_sameEntries hf2, chan_modChan_same]
  · rw [htouch.2 y hy, (hf2 y).1, (hf2 y).2, chan_modChan_other f _ hy.symm]
    exact ⟨rfl, rfl⟩

section
variable (f : Field) (x : BitVec 17) (o : ReconfOps)

theorem regroup_profile : (f.regroup x o (f.chan x)).nev.profile = if o.profileSel then o.profile else (f.chan x).nev.profile := by
  have h : (f.regroup x o (f.chan x)).nev.profile = if f.rebinds x o then o.profile else (f.chan x).nev.profile := by
    simp only [regroup, rebind, apply_ite Nev.profile, ite_self]
  rw [h, rebinds]
  by_cases hp : o.profile = (f.chan x).nev.profile <;> simp [hp]

theorem regroup_gains (hsel : o.gainsSel = true) :
    (f.regroup x o (f.chan x)).nev.igain = o.igain ∧ (f.regroup x o (f.chan x)).nev.vgain = o.vgain := by
  simp only [regroup, hsel, if_true, apply_ite Nev.igain, apply_ite Nev.vgain, ite_self, and_self]

/-- The parent of an entry, where it has one. -/
def parentOfNev (n : Nev) : Option (BitVec 17) := if n.parentValid then some n.parent else none

theorem regroup_parent (hsel : o.parentSel = true) : parentOfNev (f.regroup x o (f.chan x)).nev = askedParent o := by
  have hput : ∀ (n : Nev) (a : Option (BitVec 17)), parentOfNev { n with parent := a.getD 0, parentValid := a.isSome } = a := by
    intro n a
    cases a <;> rfl
  have hmoves : f.moves x o = decide (askedParent o ≠ f.parentOf x) := by rw [moves, hsel, Bool.true_and]
  by_cases hm : askedParent o = f.parentOf x
  · have hkeep : parentOfNev (f.regroup x o (f.chan x)).nev = parentOfNev (f.chan x).nev := by
      simp only [regroup, rebind, hmoves, hm, ne_eq, not_true_eq_false, decide_false, Bool.false_eq_true, if_false, parentOfNev,
        apply_ite Nev.parent, apply_ite Nev.parentValid, ite_self]
    exact hkeep.trans hm.symm
  · simp only [regroup, hmoves, hm, ne_eq, not_false_eq_true, decide_true, if_true]
    exact hput _ _

theorem regroup_mirror (hsel : o.mirrorSel = true) : (f.regroup x o (f.chan x)).fr.mirror = askedMirror o := by
  simp only [regroup, hsel, if_true]

end

section
variable {f : Field} {r : CmdRef} {o : ReconfOps}
  (h : firstFail (f.checks15 r.part r.handle (f.operator r.part) none ++ f.reconfFields (idx r.handle) o) = none)
include h

theorem reconfigure_same (hs : o.selects = false) : f.reconfigure r o = f.completeH r .ok 0 true r.handle := by
  rw [reconfigure, guard_of_none r _ h, hs]
  rfl

theorem reconfigure_writes (hs : o.selects = true) (hc : firstFail (f.reconfChecks (idx r.handle) o) = none) :
    f.reconfigure r o = (f.reconfAt r.part (idx r.handle) o).done r := by
  rw [reconfigure, guard_of_none r _ h, hs, Bool.not_true, if_neg Bool.false_ne_true, guard_of_none r _ hc]

/-- A RECONFIGURE that passes its checks gives each selected group the descriptor's value. -/
theorem reconfigure_spec (hs : o.selects = true) (hc : firstFail (f.reconfChecks (idx r.handle) o) = none) :
    let g := f.reconfigure r o
    let x := idx r.handle
    (o.profileSel = true → (g.chan x).nev.profile = o.profile) ∧
      (o.gainsSel = true → (g.chan x).nev.igain = o.igain ∧ (g.chan x).nev.vgain = o.vgain) ∧
      (o.parentSel = true → g.parentOf x = askedParent o) ∧ (o.mirrorSel = true → (g.chan x).fr.mirror = askedMirror o) ∧
      (o.profileSel = false → (g.chan x).nev.profile = (f.chan x).nev.profile) ∧
      (∀ y, y ≠ x → (g.chan y).nev = (f.chan y).nev ∧ (g.chan y).fr = (f.chan y).fr) ∧ g.answeredAs r .ok 0 r.handle = true := by
  rw [reconfigure_writes h hs hc]
  dsimp only
  obtain ⟨hconf, hother⟩ := reconfAt_spec f r.part (idx r.handle) o
  have hprof := regroup_profile f (idx r.handle) o
  simp only [Chan.config, Prod.mk.injEq] at hconf
  obtain ⟨hp, hi, hv, hpar, hval, hmir⟩ := hconf
  have hparent : ((f.reconfAt r.part (idx r.handle) o).done r).parentOf (idx r.handle) =
      parentOfNev (f.regroup (idx r.handle) o (f.chan (idx r.handle))).nev := by
    rw [parentOf, chan_done, hpar, hval]; rfl
  simp only [chan_done, hp, hi, hv, hmir, hparent, hprof]
  refine ⟨fun hsel => by rw [hsel]; rfl, fun hsel => regroup_gains f _ o hsel, fun hsel => regroup_parent f _ o hsel,
    fun hsel => regroup_mirror f _ o hsel, fun hsel => by rw [hsel]; rfl, hother, done_answeredAs _ r⟩

end
end Field

open Machine.Field

/-- Settles O5: what a RECONFIGURE writes is written at once, and the rest keeps it. -/
theorem reconfigureTakesGroups : Obligations.ReconfigureTakesGroups := by
  intro s c o ht hf hpass
  have hpass' : firstFail ((s.f.begun (c.as 0x12)).checks15 (c.as 0x12).part (c.as 0x12).handle
      ((s.f.begun (c.as 0x12)).operator (c.as 0x12).part) none ++
      (s.f.begun (c.as 0x12)).reconfFields (idx (c.as 0x12).handle) o) = none := hpass
  refine ⟨fun hs => State.endsField_of_performs rfl (command_performs (.reconfigure o) ht hf) ?_, fun hs hc =>
    State.endsField_of_performs rfl (command_performs (.reconfigure o) ht hf) (reconfigure_spec hpass' hs hc)⟩
  rw [perform, reconfigure_same hpass' hs]
  exact ⟨records_of_begun (completeH_frame _ _ _ _ _ _), completeH_answeredAs _ _ _ _ _ _⟩

end Sys2Proof.Machine
end

section
/-! PROOF. CREATE and DESTROY (R49 to R58, R349). What they change beside the index leaves its entry, and the free list is changed once. -/
namespace Sys2Proof.Machine
set_option Elab.async false
namespace Field

@[simp] theorem countKind_ch (n : Nevs) (k : Kind) (up : Bool) : (countKind n k up).ch = n.ch := by cases k <;> rfl
@[simp] theorem countKind_freeList (n : Nevs) (k : Kind) (up : Bool) : (countKind n k up).freeList = n.freeList := by cases k <;> rfl

/-! ### DESTROY -/

theorem nev_foldl {α : Type} {op : Field → α → Field} (hop : ∀ f a, (op f a).nev = f.nev) (l : List α) :
    ∀ f : Field, (l.foldl op f).nev = f.nev := by
  induction l with
  | nil => exact fun _ => rfl
  | cons a l ih => exact fun f => (ih _).trans (hop f a)

theorem destroyCtxs_nev (f : Field) (x : BitVec 17) : (f.destroyCtxs x).nev = f.nev := by
  refine nev_foldl ?_ _ f
  exact fun g e => (dropCtx_nev _ e.1 true).trans (stopStream_nev g _ _)

/-- The free list stands as it was while what hangs on a channel goes (R382). -/
theorem forget_freeList (f : Field) (x : BitVec 17) : (f.forget x).nev.freeList = f.nev.freeList := by
  have hmirror : ∀ (g : Field) (o : Option (BitVec 17)), (match o with
      | some m => (g.modRec m (fun r => { r with mirror := none })).element m 0x0E
      | none => g).nev.freeList = g.nev.freeList := by
    intro g o
    cases o with
    | none => rfl
    | some m => exact ((Touches.modChan m g _).trans (Touches.element m _ _)).freeList
  have hwaits : ∀ (g : Field) (l : List CapWait), (l.foldl (fun (g : Field) w => g.capNoCtx w) g).nev = g.nev :=
    fun g l => nev_foldl (fun g w => nev_of_work (work_of_ctxs (capNoCtx_ctxs g w))) l g
  exact ((hmirror _ _).trans (congrArg Nevs.freeList (hwaits _ _))).trans rfl

/-- A direct channel is bound to no channel. -/
def unbind (f : Field) (o : Option (BitVec 4)) : Field :=
  match o with | some n => f.modDch n (fun d => { d with bound := none }) | none => f

theorem unbind_nev (f : Field) (o : Option (BitVec 4)) : (f.unbind o).nev = f.nev := by cases o <;> rfl

/-- What is done before a destroyed channel's entry is freed: its contexts end, it leaves its state with both events, and what hangs on it
goes (R58, R223, R382). -/
def beforeFree (f : Field) (p : Part) (x : BitVec 17) : Field :=
  let f2 := (((f.unqueue x).destroyCtxs x).enter x .free 0 0 (some p)).raise (f.chan x).nev.owner 0x20 (f.handle x)
    (le 8 (f.chan x).met.imp ++ le 8 (f.chan x).met.exp)
  (f2.unbind (f2.directOf x)).forget x

theorem beforeFree_freeList (f : Field) (p : Part) (x : BitVec 17) : (f.beforeFree p x).nev.freeList = f.nev.freeList := by
  rw [beforeFree, forget_freeList, unbind_nev, raise_nev, (Touches.enter x _ .free 0 0 (some p)).freeList, destroyCtxs_nev, unqueue_nev]

/-- The entry of an index is written as free, and the index goes to the tail of the free list. -/
def freeEntry (f : Field) (x : BitVec 17) (c : Chan) (k : Kind) : Field :=
  let g := (f.setChan x c).heal2 x 0
  { g with nev := countKind { g.nev with freeList := spanAppend x.toNat g.nev.freeList } k false }

theorem freeEntry_spec (f : Field) (x : BitVec 17) (c : Chan) (k : Kind) :
    (f.freeEntry x c k).chan x = c ∧ (f.freeEntry x c k).nev.freeList = spanAppend x.toNat f.nev.freeList := by
  refine ⟨?_, countKind_freeList _ k false⟩
  have hch : (f.freeEntry x c k).nev.ch = (f.setChan x c).nev.ch := countKind_ch _ k false
  rw [chan, hch]
  exact chan_setChan_same f x c

theorem destroyAt_eq (f : Field) (p : Part) (x : BitVec 17) : f.destroyAt p x = (f.beforeFree p x).freeEntry x
    { nev := Nev.free ((f.chan x).nev.gen + 1), fr := destroyedRec (f.chan x).fr, met := { (f.chan x).met with elsb2 := f.elsbOf x },
      hist := Hist.empty, aux := Aux.empty } (f.chan x).nev.kind := by
  unfold destroyAt
  extract_lets c h f1 f2 f3 f4 f5 f6
  have h3 : f3 = f2.unbind (f2.directOf x) := by
    simp only [f3, unbind] <;> (generalize f2.directOf x = o; cases o <;> rfl)
  have h4 : f4 = f.beforeFree p x := by simp only [f4, h3, beforeFree]; rfl
  rw [freeEntry, ← h4]

/-- A destroyed index is FREE with the next generation, keeps its totals and codeword 1, and is the last of the free list (R51, R58,
R349). -/
theorem destroyAt_spec (f : Field) (p : Part) (x : BitVec 17) :
    (f.destroyAt p x).chan x = { nev := Nev.free ((f.chan x).nev.gen + 1), fr := destroyedRec (f.chan x).fr,
                                 met := { (f.chan x).met with elsb2 := f.elsbOf x }, hist := Hist.empty, aux := Aux.empty } ∧
      (f.destroyAt p x).nev.freeList = spanAppend x.toNat f.nev.freeList := by
  rw [destroyAt_eq, ← beforeFree_freeList f p x]
  exact freeEntry_spec _ x _ _

theorem destroy_passed {f : Field} {r : CmdRef} (h : firstFail (f.destroyChecks r) = none) :
    f.destroy r = (f.destroyAt r.part (idx r.handle)).done r := guard_of_none r _ h

end Field

open Machine.Field

/-- Settles O4: the entry is written last, and the free list by that write alone. -/
theorem destroyFreesIndex : Obligations.DestroyFreesIndex := by
  intro s c ht hf hpass
  have hpass' : firstFail ((s.f.begun (c.as 0x11)).destroyChecks (c.as 0x11)) = none := hpass
  refine State.endsField_of_performs rfl (command_performs .destroy ht hf) ?_
  rw [perform, destroy_passed hpass']
  obtain ⟨hchan, hlist⟩ := destroyAt_spec (s.f.begun (c.as 0x11)) (c.as 0x11).part (idx (c.as 0x11).handle)
  have hans := done_answeredAs ((s.f.begun (c.as 0x11)).destroyAt (c.as 0x11).part (idx (c.as 0x11).handle)) (c.as 0x11)
  have hchan' := (chan_done _ (c.as 0x11) (idx (c.as 0x11).handle)).trans hchan
  have hlist' := (congrArg Nevs.freeList (done_nev _ (c.as 0x11))).trans hlist
  generalize ((s.f.begun (c.as 0x11)).destroyAt _ _).done _ = g at hchan' hlist' hans ⊢
  have hlive : g.handleLive c.handle = false := by
    rw [handleLive, show g.chan (idx c.handle) = _ from hchan']; rfl
  exact ⟨congrArg Chan.nev hchan', congrArg (ChRec.bind ·.fr) hchan', congrArg (ChRec.wheel ·.fr) hchan', congrArg (ChRec.cause ·.fr) hchan',
    congrArg (ChRec.rcount ·.fr) hchan', congrArg (ChRec.thermSnap ·.fr) hchan', congrArg (Meter.imp ·.met) hchan',
    congrArg (Meter.exp ·.met) hchan', hlist', hlive, hans⟩

namespace Field

/-! ### CREATE -/

/-- A fallback configuration changes FB_SYNC of its channel's entry and nothing else of it (R111). -/
theorem queueFb_entry (f : Field) (x : BitVec 17) : ∃ b, ((f.queueFb x).chan x).nev = { (f.chan x).nev with fbSync := b } := by
  unfold queueFb
  dsimp only
  split
  · refine ⟨false, ?_⟩
    rw [chan_congr (sendCmd_nev _ _ _ _), chan_congr (nev_of_lanes (setLink_lanes _ _ _)), chan_modChan_same]
  · exact ⟨_, rfl⟩

/-- The switch of the point that a CREATE adopts is closed (R56). -/
def adopts (f : Field) (o : CreateOps) : Bool :=
  decide (Kind.ofCode o.kind.toNat = .switched) && o.adopt && (match f.recentWord o.bind with | some w => bit w 0 | none => false)

/-- The first state of a created channel (R56). -/
def firstState (f : Field) (o : CreateOps) : ChState := if (Kind.ofCode o.kind.toNat).switches && !f.adopts o then .opened else .closed

/-- The index x leaves the free list, and a channel of the kind is counted (R51, R77). -/
def taken (f : Field) (x : BitVec 17) (k : Kind) : Field :=
  { f with nev := countKind { f.nev with freeList := spanRemove x.toNat f.nev.freeList } k true }

@[simp] theorem chan_taken (f : Field) (x y : BitVec 17) (k : Kind) : (f.taken x k).chan y = f.chan y := by
  rw [chan, taken, countKind_ch, chan]

/-- The record of a created channel is written whole (R349). -/
def writeRecord (f : Field) (x : BitVec 17) : Field := (List.range 5).foldl (fun (g : Field) j => g.heal2 x j) f

@[simp] theorem chan_writeRecord (f : Field) (x y : BitVec 17) : (f.writeRecord x).chan y = f.chan y :=
  chan_congr (nev_foldl (fun g j => heal2_nev g x j) _ f) y

/-- The channel at x as a CREATE makes it, in its first state, before what its kind asks for. -/
def entered (f : Field) (p : Part) (o : CreateOps) (x : BitVec 17) : Field :=
  (((f.taken x (Kind.ofCode o.kind.toNat)).setChan x (f.created p o x)).writeRecord x).enter x (f.firstState o) 0 0 (some p)

/-- The entry of x is the created one in its first state, and no other channel changes. -/
theorem entered_chan (f : Field) (p : Part) (o : CreateOps) (x : BitVec 17) :
    (∃ pr, ((f.entered p o x).chan x).nev = { (f.created p o x).nev with state := f.firstState o, prior := pr }) ∧
      ∀ y, y ≠ x → (f.entered p o x).chan y = f.chan y := by
  have hchan := fun y => chan_enter (((f.taken x (Kind.ofCode o.kind.toNat)).setChan x (f.created p o x)).writeRecord x) x y
    (f.firstState o) (cause := 0) 0 (some p) (by decide)
  refine ⟨?_, fun y hy => ?_⟩
  · rw [entered, hchan, transit, chan_heal2, chan_modChan_same, chan_writeRecord, chan_setChan_same]
    exact ⟨_, rfl⟩
  · rw [entered, hchan, chan_transit_other _ _ _ hy.symm, chan_writeRecord, chan_setChan_other _ _ hy.symm, chan_taken]

/-- A direct channel is bound to x with its sums, accumulators and pre-trigger buffer cleared (R298 to R300). -/
def bindDirect (f : Field) (n : BitVec 4) (x : BitVec 17) : Field :=
  f.modDch n (fun d => { d with bound := some x, sumI := 0, sumV := 0, n := 0, ovr := false, inval := false, accImp := 0, accExp := 0,
                                pre := [], preFrozen := none })

theorem bindDirect_nev (f : Field) (n : BitVec 4) (x : BitVec 17) : (f.bindDirect n x).nev = f.nev := rfl
@[simp] theorem chan_bindDirect (f : Field) (n : BitVec 4) (x y : BitVec 17) : (f.bindDirect n x).chan y = f.chan y := rfl
theorem bindDirect_bound (f : Field) (n : BitVec 4) (x : BitVec 17) : ((f.bindDirect n x).dchan n).bound = some x :=
  congrArg Dch.bound (dchan_modDch_same f n _)

/-- What a CREATE does after its channel's first state, by kind (R56, R111, R298). -/
theorem createAt_eq (f : Field) (p : Part) (o : CreateOps) (x : BitVec 17) :
    f.createAt p o x = match Kind.ofCode o.kind.toNat with
      | .switched => (if f.adopts o then f.entered p o x else (f.entered p o x).cmdTo x .openPoint none).queueFb x
      | .direct => ((f.entered p o x).bindDirect (bits o.bind 0 4) x).gateOff (bits o.bind 0 4) false
      | .sense | .virt => f.entered p o x := by
  unfold createAt
  extract_lets k adopted st _ f1 f2 f3
  have hadopt : adopted = f.adopts o := by
    simp only [adopted, adopts]
    generalize f.recentWord o.bind = w
    cases w <;> rfl
  have hst : st = f.firstState o := by simp only [st, hadopt, firstState]; rfl
  have h3 : f3 = f.entered p o x := by
    show f2.enter x st 0 0 (some p) = _
    rw [hst]
    rfl
  rw [h3, hadopt]
  simp only [k]
  generalize Kind.ofCode o.kind.toNat = k
  cases k <;> rfl

/-- What follows the first state leaves every other channel, and of x's entry all but FB_SYNC. -/
theorem createAt_spec (f : Field) (p : Part) (o : CreateOps) (x : BitVec 17) :
    (∃ b pr, ((f.createAt p o x).chan x).nev = { (f.created p o x).nev with state := f.firstState o, prior := pr, fbSync := b }) ∧
      ∀ y, y ≠ x → (f.createAt p o x).chan y = f.chan y := by
  obtain ⟨⟨pr, hx⟩, hother⟩ := entered_chan f p o x
  rw [createAt_eq]
  cases hk : Kind.ofCode o.kind.toNat with
  | switched =>
    have hcmd : ∀ y, (if f.adopts o then f.entered p o x else (f.entered p o x).cmdTo x .openPoint none).chan y = (f.entered p o x).chan y := by
      intro y
      split
      · rfl
      · exact chan_congr (cmdTo_nev _ _ _ _) y
    obtain ⟨b, hb⟩ := queueFb_entry (if f.adopts o then f.entered p o x else (f.entered p o x).cmdTo x .openPoint none) x
    refine ⟨⟨b, pr, ?_⟩, fun y hy => ?_⟩
    · rw [hb, hcmd, hx]
    · exact ((KeepsConfig.queueFb x _).1.2 y hy).trans ((hcmd y).trans (hother y hy))
  | direct =>
    have hstate : ((f.entered p o x).chan x).nev.state = .opened := by rw [hx]; simp [firstState, hk, Kind.switches, adopts]
    have hnev : (((f.entered p o x).bindDirect (bits o.bind 0 4) x).gateOff (bits o.bind 0 4) false).nev = (f.entered p o x).nev := by
      refine (gateOff_nev ((f.entered p o x).bindDirect (bits o.bind 0 4) x) (bits o.bind 0 4) false fun z hz => ?_).trans (bindDirect_nev _ _ _)
      obtain rfl : x = z := Option.some.inj ((bindDirect_bound _ _ _).symm.trans hz)
      rw [chan_bindDirect, hstate]
      decide
    exact ⟨⟨_, pr, by rw [chan_congr hnev, hx]⟩, fun y hy => (chan_congr hnev y).trans (hother y hy)⟩
  | sense => exact ⟨⟨_, pr, hx⟩, hother⟩
  | virt => exact ⟨⟨_, pr, hx⟩, hother⟩

/-- The index that a CREATE takes (R51, R52). -/
def createIndex (f : Field) (o : CreateOps) : BitVec 17 :=
  if o.reqIndex then o.index else match spanHead f.nev.freeList with | some (i, _) => BitVec.ofNat 17 i | none => 0

theorem create_passed {f : Field} {r : CmdRef} {o : CreateOps} (hfirst : firstFail (f.createFirst r.part o) = none)
    (h : firstFail (f.createChecks r.part o) = none) :
    f.create r o = (f.createAt r.part o (f.createIndex o)).completeH r .ok 0 false ((f.createAt r.part o (f.createIndex o)).handle (f.createIndex o)) := by
  rw [create, guard_of_none r _ hfirst, guard_of_none r _ h]
  unfold createIndex
  generalize spanHead f.nev.freeList = l
  cases l <;> rfl

end Field

open Machine.Field

/-- Settles O3: the entry is as created, in its first state, whatever its kind asks for then. -/
theorem createMakesChannel : Obligations.CreateMakesChannel := by
  intro s c o ht hfirst hpass
  refine ⟨s.f.createIndex o, fun hreq => by rw [createIndex, hreq]; rfl, fun hreq i l hl => by rw [createIndex, hreq, hl]; rfl, ?_⟩
  refine State.endsField_of_performs rfl (command_performs_noFirn (.create o) ht rfl) ?_
  have hgo := create_passed (f := s.f.begun (c.as 0x10)) (r := c.as 0x10) hfirst hpass
  obtain ⟨⟨b, pr, hx⟩, hother⟩ := createAt_spec (s.f.begun (c.as 0x10)) (c.as 0x10).part o ((s.f.begun (c.as 0x10)).createIndex o)
  rw [perform, hgo]
  generalize (s.f.begun (c.as 0x10)).createAt _ o _ = g1 at hx hother ⊢
  have hrec := completeH_frame g1 (c.as 0x10) .ok 0 false (g1.handle ((s.f.begun (c.as 0x10)).createIndex o))
  have hans := completeH_answeredAs g1 (c.as 0x10) .ok 0 false (g1.handle ((s.f.begun (c.as 0x10)).createIndex o))
  have hchan := chan_congr (nev_of_records hrec)
  generalize g1.completeH _ _ _ _ _ = g at hrec hans hchan ⊢
  have hnev : (g.chan (s.f.createIndex o)).nev = { (s.f.created c.part o (s.f.createIndex o)).nev with
    state := s.f.firstState o, prior := pr, fbSync := b } := (congrArg Chan.nev (hchan _)).trans hx
  have hhandle : g1.handle (s.f.createIndex o) = g.handle (s.f.createIndex o) := by rw [handle, handle, hchan]
  have hswitched : Kind.ofCode o.kind.toNat = .switched → o.adopt = false → s.f.firstState o = .opened := by
    intro hk ha
    simp [firstState, adopts, hk, ha, Kind.switches]
  refine ⟨?_, ?_, ?_, ?_, ?_, ?_, ?_, ?_, ?_, ?_, fun y hy => (hchan y).trans (hother y hy), ?_⟩
  · rw [hnev]; rfl
  · rw [hnev]; rfl
  · rw [hnev]; rfl
  · rw [hnev]; rfl
  · rw [hnev]; rfl
  · rw [hnev]; rfl
  · rw [parentOf, hnev]; cases hr : o.root <;> simp [created, hr]
  · rw [hnev]; rintro (hk | hk) <;> simp [firstState, show Kind.ofCode o.kind.toNat = _ from hk, Kind.switches]
  · rw [hnev]; intro hk; simp [firstState, adopts, show Kind.ofCode o.kind.toNat = _ from hk, Kind.switches]
  · rw [hnev]; exact hswitched
  · exact hhandle ▸ hans

end Sys2Proof.Machine
end

section
/-! PROOF. The widest frames: what the channels' stores, their recovery and their work may change. Meridian, the safety function,
power, thermometry, the NVM and the security block stay, and of the lanes all but their stream slots. -/
namespace Sys2Proof.Machine
set_option Elab.async false
namespace Field

/-- The field die f with the channels, tables, storms, contexts, stores, gates, lanes and records of g. -/
def withStores (f g : Field) : Field :=
  { f with nev := g.nev, sel := g.sel, hel := g.hel, firn := g.firn, dch := g.dch, lan := g.lan,
           trn := { f.trn with dat := g.trn.dat }, prt := { f.prt with evq := g.prt.evq, busy := g.prt.busy }, out := g.out }

/-- From f to g nothing changes beside what `withStores` names. -/
def Inner (f g : Field) : Prop := g = f.withStores g

namespace Inner
theorem refl (f : Field) : Inner f f := rfl

theorem trans {f g h : Field} (a : Inner f g) (b : Inner g h) : Inner f h := by
  unfold Inner at *
  rw [a] at b
  exact b

theorem ofTouches {x : BitVec 17} {f g : Field} (h : Touches x f g) : Inner f g := by unfold Inner; rw [h.1]; rfl
theorem ofWork {f g : Field} (h : g = f.withWork g) : Inner f g := by unfold Inner; rw [h]; rfl
theorem ofCtxs {f g : Field} (h : g = f.withCtxs g) : Inner f g := ofWork (work_of_ctxs h)
theorem ofLanes {f g : Field} (h : g = f.withLanes g) : Inner f g := ofWork (work_of_lanes h)
theorem ofRecords {f g : Field} (h : g = f.withRecords g) : Inner f g := ofWork (work_of_records h)
theorem nev (f : Field) (n : Nevs) : Inner f { f with nev := n } := rfl
theorem firn (f : Field) (m : Firn) : Inner f { f with firn := m } := rfl
theorem hel (f : Field) (m : Hel) : Inner f { f with hel := m } := rfl
theorem sel (f : Field) (m : Sel) : Inner f { f with sel := m } := rfl
theorem lan (f : Field) (m : Lans) : Inner f { f with lan := m } := rfl
theorem dch (f : Field) (m : Tab Dch) : Inner f { f with dch := m } := rfl

theorem ite {f g h : Field} (c : Prop) [Decidable c] (a : Inner f g) (b : Inner f h) : Inner f (if c then g else h) := by
  split
  · exact a
  · exact b

theorem foldl {α : Type} {op : Field → α → Field} (hop : ∀ f a, Inner f (op f a)) (l : List α) : ∀ f : Field, Inner f (l.foldl op f) := by
  induction l with
  | nil => exact refl
  | cons a l ih => exact fun f => (hop f a).trans (ih _)

section
variable {f g : Field} (h : Inner f g)
include h
theorem mer : g.mer = f.mer := congrArg (·.mer) h
theorem saf : g.saf = f.saf := congrArg (·.saf) h
theorem pwr : g.pwr = f.pwr := congrArg (·.pwr) h
theorem thm : g.thm = f.thm := congrArg (·.thm) h
theorem sec : g.sec = f.sec := congrArg (·.sec) h
theorem nvm : g.nvm = f.nvm := congrArg (·.nvm) h
theorem adc : g.adc = f.adc := congrArg (·.adc) h
theorem trnSt : g.trn.st = f.trn.st := congrArg (·.trn.st) h
theorem setup : g.prt.setup = f.prt.setup := congrArg (·.prt.setup) h
end

theorem modChan (f : Field) (x : BitVec 17) (m : Chan → Chan) : Inner f (f.modChan x m) := nev f _
theorem raise (f : Field) (p : Part) (ty : Byte) (h : Word) (b : Bytes) : Inner f (f.raise p ty h b) := ofRecords (raise_frame f p ty h b)
theorem raiseAll (f : Field) (ty : Byte) (b : Bytes) : Inner f (f.raiseAll ty b) := ofRecords (raiseAll_frame f ty b)
theorem complete (f : Field) (r : CmdRef) (s : Status) (d : Nat) : Inner f (f.complete r s d) := ofRecords (complete_frame f r s d)
theorem enter (f : Field) (x : BitVec 17) (s : ChState) (cause detail : Byte) (iss : Option Part) : Inner f (f.enter x s cause detail iss) :=
  ofTouches (Touches.enter x f s cause detail iss)
theorem tripChan (f : Field) (x : BitVec 17) (cause : Byte) : Inner f (f.tripChan x cause) := ofTouches (KeepsConfig.tripChan x f cause).1
end Inner

/-! ### Closure under the recovery of a codeword

A lost codeword may cost a channel its record, and so its insertion: whatever relation each small step of that keeps, the whole keeps. -/

/-- What recovery leaves of Firn: its state, the commands that wait for it, and its patrol. -/
def firnLasting (m : Firn) : FirnState × List FirnWait × (BitVec 24 × BitVec 16 × BitVec 7) × (Nat × Bool × Nat) :=
  (m.st, m.waiting, (m.block, m.passes, m.capGib), m.trainFails, m.filled, m.histSf)

/-- From m to k Firn's state, the commands that wait for it and its patrol stand. -/
def FirnStands (m k : Firn) : Prop := firnLasting k = firnLasting m

/-- What recovery leaves of Névé: the superframe, and the arrivals that wait for a pipe. -/
def NevStands (m k : Nevs) : Prop := k.sfn = m.sfn ∧ k.sfCount = m.sfCount ∧ k.arrivals = m.arrivals

/-- A relation between field dies that every small step of a recovery keeps. -/
structure Frame where
  rel : Field → Field → Prop
  refl : ∀ f, rel f f
  trans : ∀ {f g h}, rel f g → rel g h → rel f h
  nev : ∀ (f : Field) (n : Nevs), NevStands f.nev n → rel f { f with nev := n }
  firn : ∀ (f : Field) (m : Firn), FirnStands f.firn m → rel f { f with firn := m }
  hel : ∀ (f : Field) (m : Hel), m.fails = f.hel.fails → rel f { f with hel := m }
  storms : ∀ (f : Field) (t : List Storm), rel f { f with sel := { f.sel with storms := t } }
  raise : ∀ (f : Field) (p : Part) (ty : Byte) (h : Word) (b : Bytes), rel f (f.raise p ty h b)
  complete : ∀ (f : Field) (r : CmdRef) (s : Status) (d : Nat), rel f (f.complete r s d)
  abandonStream : ∀ (f : Field) (c : Ctx), rel f (f.abandonStream c)

/-- A frame's relation. -/
def Frame.Keeps (r : Frame) (f g : Field) : Prop := r.rel f g

namespace Frame.Keeps
variable {r : Frame}
theorem refl (f : Field) : r.Keeps f f := r.refl f
theorem trans {f g h : Field} (a : r.Keeps f g) (b : r.Keeps g h) : r.Keeps f h := r.trans a b
theorem nev (f : Field) (n : Nevs) (h : NevStands f.nev n := by exact ⟨rfl, rfl, rfl⟩) : r.Keeps f { f with nev := n } := r.nev f n h
theorem firn (f : Field) (m : Firn) (h : FirnStands f.firn m := by exact rfl) : r.Keeps f { f with firn := m } := r.firn f m h
theorem hel (f : Field) (m : Hel) (h : m.fails = f.hel.fails := by rfl) : r.Keeps f { f with hel := m } := r.hel f m h
theorem storms (f : Field) (t : List Storm) : r.Keeps f { f with sel := { f.sel with storms := t } } := r.storms f t
theorem raise (f : Field) (p : Part) (ty : Byte) (h : Word) (b : Bytes) : r.Keeps f (f.raise p ty h b) := r.raise f p ty h b
theorem complete (f : Field) (c : CmdRef) (s : Status) (d : Nat) : r.Keeps f (f.complete c s d) := r.complete f c s d
theorem abandonStream (f : Field) (c : Ctx) : r.Keeps f (f.abandonStream c) := r.abandonStream f c

/-! ### Channels -/

theorem ite {f g h : Field} (c : Prop) [Decidable c] (a : r.Keeps f g) (b : r.Keeps f h) : r.Keeps f (if c then g else h) := by
  split
  · exact a
  · exact b

theorem foldl {α : Type} {op : Field → α → Field} (hop : ∀ f a, r.Keeps f (op f a)) (l : List α) : ∀ f : Field, r.Keeps f (l.foldl op f) := by
  induction l with
  | nil => exact refl
  | cons a l ih => exact fun f => (hop f a).trans (ih _)

theorem modChan (f : Field) (x : BitVec 17) (m : Chan → Chan) : r.Keeps f (f.modChan x m) := nev f _
theorem modAux (f : Field) (x : BitVec 17) (m : Aux → Aux) : r.Keeps f (f.modAux x m) := modChan f x _
theorem modMet (f : Field) (x : BitVec 17) (m : Meter → Meter) : r.Keeps f (f.modMet x m) := modChan f x _
theorem modHist (f : Field) (x : BitVec 17) (m : Hist → Hist) : r.Keeps f (f.modHist x m) := modChan f x _
theorem raiseAll (f : Field) (ty : Byte) (b : Bytes) : r.Keeps f (f.raiseAll ty b) := foldl (fun g p => raise g p ty 0 b) _ f
theorem heal1 (f : Field) (k : Nat) : r.Keeps f (f.heal1 k) := firn f _
theorem heal2 (f : Field) (x : BitVec 17) (k : Nat) : r.Keeps f (f.heal2 x k) := (heal1 f _).trans (heal1 _ _)
theorem insEnd (f : Field) (n : Nat) (c : Ctx) (k : Byte) : r.Keeps f (f.insEnd n c k) := raise f _ _ _ _
theorem unqueue (f : Field) (x : BitVec 17) : r.Keeps f (f.unqueue x) := hel f _
theorem setCtx (f : Field) (n : Nat) (c : Ctx) : r.Keeps f (f.setCtx n c) := hel f _

theorem dropSwap (f : Field) (n : Nat) : r.Keeps f (f.dropSwap n) := by
  unfold Field.dropSwap
  split
  · split
    · exact ((hel f _).trans (setCtx _ _ _)).trans (complete _ _ _ _)
    · exact refl f
  · exact refl f

theorem writeSlot (f : Field) (n : Nat) (s : Slot) (i : Nat) : r.Keeps f (f.writeSlot n s i) :=
  ((firn f _).trans ((heal1 _ _).trans (heal1 _ _))).trans (foldl (fun g _ => heal1 g _) _ _)

theorem capEnd (f : Field) (n : Nat) (a : Bool) : r.Keeps f (f.capEnd n a) := by
  unfold Field.capEnd
  split
  · exact ite _ ((writeSlot f _ _ _).trans (raise _ _ _ _ _)) (refl f)
  · exact refl f

theorem dropCtx (f : Field) (n : Nat) (a : Bool) : r.Keeps f (f.dropCtx n a) := by
  unfold Field.dropCtx
  split
  · extract_lets f1 f2 f3
    have h1 : r.Keeps f f1 := dropSwap f n
    have h2 : r.Keeps f f2 := by
      simp only [f2]
      split
      · exact h1.trans (capEnd _ _ _)
      · exact h1
    have h3 : r.Keeps f f3 := by
      simp only [f3]
      split
      · exact h2.trans (capEnd _ _ _)
      · exact h2
    exact h3.trans (hel _ _)
  · exact refl f

theorem setStorm (f : Field) (s : Storm) : r.Keeps f (f.setStorm s) := storms f _

theorem coalesced (f : Field) (x : BitVec 17) (code ty : Byte) (b : Bytes) : r.Keeps f (f.coalesced x code ty b) :=
  ite _ (raise f _ _ _ _) (ite _ (setStorm f _) (ite _ ((setStorm f _).trans (raise _ _ _ _ _)) ((setStorm f _).trans (raise _ _ _ _ _))))

theorem stateChange (f : Field) (x : BitVec 17) (old new : ChState) (cause detail : Byte) (iss : Option Part) :
    r.Keeps f (f.stateChange x old new cause detail iss) := ite _ (coalesced f _ _ _ _) (raise f _ _ _ _)

theorem transit (f : Field) (x : BitVec 17) (new : ChState) (cause : Byte) : r.Keeps f (f.transit x new cause) :=
  (modChan f x _).trans (heal2 _ x 1)

theorem enter (f : Field) (x : BitVec 17) (new : ChState) (cause detail : Byte) (iss : Option Part) :
    r.Keeps f (f.enter x new cause detail iss) := (transit f x new cause).trans (stateChange _ _ _ _ _ _ _)

theorem toFallback (f : Field) (x : BitVec 17) : r.Keeps f (f.toFallback x) := by
  unfold Field.toFallback
  extract_lets c ctx f1 f2 f3 f4
  have h2 : r.Keeps f f2 := (unqueue f x).trans (by
    simp only [f2, f1]
    generalize ctx = o
    cases o with
    | some e => exact (abandonStream _ _).trans (dropCtx _ _ _)
    | none => exact refl _)
  have h3 : r.Keeps f f3 := h2.trans (foldl (fun g (e : Nat × Ctx) => (abandonStream g e.2).trans (dropCtx _ e.1 true)) _ f2)
  have h4 : r.Keeps f f4 := h3.trans (enter _ _ _ _ _ _)
  split
  · exact refl f
  · generalize ctx = o
    cases o with
    | some e => exact h4.trans (insEnd _ _ _ _)
    | none => exact h4

theorem loseRecord (f : Field) (x : BitVec 17) : r.Keeps f (f.loseRecord x) := (toFallback f x).trans (modAux _ _ _)

/-! ### Codewords -/

theorem poison (f : Field) (cw : Nat) : r.Keeps f (f.poison cw) := (heal1 f cw).trans (firn _ _)
theorem writeBack (f : Field) (cw : Nat) (w : Bytes) : r.Keeps f (f.writeBack cw w) := ite _ ((heal1 f cw).trans (firn _ _)) (firn f _)

theorem corrected (f : Field) (cw : Nat) (es : List (Nat × Byte)) : r.Keeps f (f.corrected cw es) := by
  unfold Field.corrected
  extract_lets _ f1
  have h1 : r.Keeps f f1 := firn f _
  clear_value f1
  split
  · exact h1
  · extract_lets key n f2
    have h2 : r.Keeps f f2 := h1.trans (firn f1 _)
    clear_value f2
    exact ite _ (h2.trans ((firn f2 _).trans (raiseAll _ _ _))) h2

theorem tellUe (f : Field) : r.Keeps f f.tellUe := ite _ ((firn f _).trans (raiseAll _ _ _)) (refl f)

theorem uncorrectable (f : Field) (cw : Nat) : r.Keeps f (f.uncorrectable cw) := ((firn f _).trans (poison _ cw)).trans (tellUe _)

theorem readRaw (f : Field) (cw : Nat) : r.Keeps f (f.readRaw cw).1 := by
  unfold Field.readRaw
  split
  · exact refl f
  · extract_lets w out
    generalize out = o
    split
    · exact refl f
    · exact (firn f _).trans (poison _ _)
    · exact (corrected f _ _).trans (writeBack _ _ _)
    · exact uncorrectable f _

theorem readEither (f : Field) (x : BitVec 17) (k : Nat) : r.Keeps f (f.readEither x k).1 := by
  unfold Field.readEither
  extract_lets a b g
  have ha : r.Keeps f a.1 := readRaw f _
  have hb : r.Keeps f b.1 := ha.trans (readRaw _ _)
  split
  · exact ha
  · split
    · exact hb.trans ((heal1 _ _).trans (firn _ _))
    · exact hb

theorem readChip (f : Field) (k : Nat) : r.Keeps f (f.readChip k).1 := by
  unfold Field.readChip
  split
  · exact refl f
  · split
    · exact refl f
    · exact nev f _
    · exact refl f
    · exact refl f

theorem healChip (f : Field) (k : Nat) : r.Keeps f (f.healChip k) := nev f _

theorem loseTotals (f : Field) (x : BitVec 17) : r.Keeps f (f.loseTotals x) := by
  unfold Field.loseTotals
  extract_lets f1 _ f2
  have h2 : r.Keeps f f2 := ((modMet f x _).trans (heal2 _ _ _)).trans (firn f1 _)
  exact ite _ h2 (h2.trans (raise _ _ _ _ _))

theorem loseCw1 (f : Field) (x : BitVec 17) : r.Keeps f (f.loseCw1 x) :=
  (firn f _).trans (ite _ (refl _) (loseRecord _ x))

theorem loseBoth (f : Field) (x : BitVec 17) (k : Nat) : r.Keeps f (f.loseBoth x k) := by
  unfold Field.loseBoth
  extract_lets e f1
  have he : r.Keeps f e.1 := readEither f x 2
  exact ite _ (ite _ (he.trans ((heal2 _ _ _).trans (firn _ _))) ((he.trans (loseTotals _ _)).trans (loseCw1 _ _)))
    (ite _ (loseCw1 f x) (ite _ (loseTotals f x) (ite _ ((modMet f x _).trans (heal2 _ _ _)) ((modMet f x _).trans (heal2 _ _ _)))))

theorem loseProfile (f : Field) (p : BitVec 12) : r.Keeps f (f.loseProfile p) :=
  (nev f _).trans (foldl (fun g x => loseRecord g x) _ _)

theorem recoverCw (f : Field) (cw : Nat) : r.Keeps f (f.recoverCw cw) := by
  unfold Field.recoverCw
  split
  · exact ite _ ((readRaw f _).trans ((heal1 _ _).trans (firn _ _))) ((readRaw f _).trans (loseBoth _ _ _))
  · refine ite _ (ite _ ((readChip f _).trans (heal1 _ _)) ((readChip f _).trans ((healChip _ _).trans (loseProfile _ _)))) (refl f)

theorem readCw (f : Field) (cw : Nat) : r.Keeps f (f.readCw cw).1 := by
  unfold Field.readCw
  extract_lets r
  split
  · exact readRaw f cw
  · exact (readRaw f cw).trans (recoverCw _ cw)

theorem readCws (f : Field) (l : List Nat) : r.Keeps f (f.readCws l) := foldl (fun g c => readCw g c) l f
theorem readMeter (f : Field) (x : BitVec 17) : r.Keeps f (f.readMeter x) := ite _ (readCws f _) (refl f)
theorem writeMeter (f : Field) (x : BitVec 17) : r.Keeps f (f.writeMeter x) := ((heal2 f x 2).trans (heal2 _ x 3)).trans (heal2 _ x 4)

theorem readEntry (f : Field) (x : BitVec 17) : r.Keeps f (f.readEntry x) := by
  unfold Field.readEntry
  extract_lets o
  have ho : r.Keeps f o.1 := readChip f _
  exact ite _ ho (ite _ (ho.trans (healChip _ _)) (ite _ ho (ho.trans (nev _ _))))

theorem readProfCw (f : Field) (p : BitVec 12) (k : Nat) : r.Keeps f (f.readProfCw p k) := by
  unfold Field.readProfCw
  extract_lets o s g
  have ho : r.Keeps f o.1 := readChip f _
  have hg : r.Keeps f g := (ho.trans (readRaw _ _)).trans (healChip _ _)
  exact ite _ ho (ite _ (hg.trans (nev _ _)) (hg.trans (loseProfile _ _)))

theorem readProf (f : Field) (p : BitVec 12) : r.Keeps f (f.readProf p) := foldl (fun g k => readProfCw g p k) _ f

theorem readLoopCw (f : Field) (s : Byte) (k : Nat) : r.Keeps f (f.readLoopCw s k) := by
  unfold Field.readLoopCw
  extract_lets o t g b
  have ho : r.Keeps f o.1 := readChip f _
  have hg : r.Keeps f g := (ho.trans (readRaw _ _)).trans (healChip _ _)
  exact ite _ ho (ite _ (hg.trans (nev _ _)) (hg.trans (nev _ _)))

theorem readLoop (f : Field) (s : Byte) : r.Keeps f (f.readLoop s) := foldl (fun g k => readLoopCw g s k) _ f

/-! ### Metering and history -/

theorem addCounts (f : Field) (x : BitVec 17) (di de : Nat) : r.Keeps f (f.addCounts x di de) := (modMet f x _).trans (writeMeter _ x)

theorem demandEnd (f : Field) (t : Count) (step : Bool) : r.Keeps f (f.demandEnd t step) :=
  (foldl (fun g x => ((readMeter g x).trans (modMet _ x _)).trans (writeMeter _ x)) _ f).trans (firn _ _)

theorem meterReady (f : Field) : r.Keeps f f.meterReady := by
  refine foldl (fun g (e : BitVec 17 × Chan) => ?_) _ f
  extract_lets m g1
  have h1 : r.Keeps g g1 := ite _ (refl g) (((readMeter g e.1).trans (addCounts _ _ _ _)).trans (modMet _ _ _))
  exact h1.trans (modMet _ _ _)

end Frame.Keeps

/-! ### The three frames -/

/-- From f to g every lane stays as it is but for its stream slots. -/
def SlotsOnly (f g : Field) : Prop := ∀ l, ∃ sl, g.lane l = { f.lane l with slots := sl }

theorem SlotsOnly.ofLan {f g : Field} (h : g.lan = f.lan) : SlotsOnly f g := fun l => ⟨(f.lane l).slots, by rw [lane, lane, h]⟩

theorem SlotsOnly.abandonStream (f : Field) (c : Ctx) : SlotsOnly f (f.abandonStream c) := by
  unfold Field.abandonStream
  split
  next l s _ =>
    intro m
    by_cases h : m = l
    · subst h
      exact ⟨_, lane_modLane_same _ _ _⟩
    · exact ⟨(f.lane m).slots, lane_setLane_other _ _ (Ne.symm h)⟩
  · exact .ofLan rfl

/-- Recovery leaves a lane's state, its receivers and its wire alone. -/
def laneFrame : Frame where
  rel := SlotsOnly
  refl _ := .ofLan rfl
  trans a b l := by
    obtain ⟨s, hs⟩ := a l
    obtain ⟨t, ht⟩ := b l
    exact ⟨t, by rw [ht, hs]⟩
  nev _ _ _ := .ofLan rfl
  firn _ _ _ := .ofLan rfl
  hel _ _ _ := .ofLan rfl
  storms _ _ := .ofLan rfl
  raise f p ty h b := .ofLan (raise_lan f p ty h b)
  complete f r s d := .ofLan (lan_of_records (complete_frame f r s d))
  abandonStream := SlotsOnly.abandonStream

/-- Recovery leaves Firn's state and the commands that wait for it. -/
def firnFrame : Frame where
  rel f g := FirnStands f.firn g.firn
  refl _ := rfl
  trans a b := b.trans a
  nev _ _ _ := rfl
  firn _ _ h := h
  hel _ _ _ := rfl
  storms _ _ := rfl
  raise f p ty h b := by rw [raise_firn, FirnStands]
  complete f r s d := by rw [firn_of_records (complete_frame f r s d), FirnStands]
  abandonStream f c := by rw [firn_of_lanes (abandonStream_lanes f c), FirnStands]

/-- Recovery stays within the stores, the channels, the lanes and the records. -/
def innerFrame : Frame where
  rel := Inner
  refl := Inner.refl
  trans := Inner.trans
  nev f n _ := Inner.nev f n
  firn f m _ := Inner.firn f m
  hel f m _ := Inner.hel f m
  storms f _ := Inner.sel f _
  raise := Inner.raise
  complete := Inner.complete
  abandonStream f c := .ofLanes (abandonStream_lanes f c)

namespace Inner
theorem readMeter (f : Field) (x : BitVec 17) : Inner f (f.readMeter x) := Frame.Keeps.readMeter (r := innerFrame) f x
theorem readEntry (f : Field) (x : BitVec 17) : Inner f (f.readEntry x) := Frame.Keeps.readEntry (r := innerFrame) f x
theorem readProf (f : Field) (p : BitVec 12) : Inner f (f.readProf p) := Frame.Keeps.readProf (r := innerFrame) f p
theorem readLoop (f : Field) (s : Byte) : Inner f (f.readLoop s) := Frame.Keeps.readLoop (r := innerFrame) f s
theorem readCw (f : Field) (cw : Nat) : Inner f (f.readCw cw).1 := Frame.Keeps.readCw (r := innerFrame) f cw
theorem loseRecord (f : Field) (x : BitVec 17) : Inner f (f.loseRecord x) := Frame.Keeps.loseRecord (r := innerFrame) f x
theorem toFallback (f : Field) (x : BitVec 17) : Inner f (f.toFallback x) := Frame.Keeps.toFallback (r := innerFrame) f x
theorem demandEnd (f : Field) (t : Count) (step : Bool) : Inner f (f.demandEnd t step) := Frame.Keeps.demandEnd (r := innerFrame) f t step
theorem meterReady (f : Field) : Inner f f.meterReady := Frame.Keeps.meterReady (r := innerFrame) f
end Inner
end Field
end Sys2Proof.Machine
end

section
/-! PROOF. Register accesses of Meridian: the commit of a staged value, the slew, and the claim and load of a timer. -/
namespace Sys2Proof.Machine
set_option Elab.async false

/-- A command that runs an operation of the field die ends as the operation does. -/
theorem State.endsField_of_exec {s : State} {i : Instr} {op : Field → Field} {P : Field → Prop} (h : exec i s = s.onField op)
    (hp : P (op s.f)) : s.endsField i P := ⟨op s.f, h, hp⟩

namespace Field

/-! ### Accesses that reach the die -/

theorem anyRole_of_operator {f : Field} {p : Part} (h : f.operator p = true) : f.anyRole p = true := by
  simp only [operator, anyRole, decide_eq_true_eq] at *
  intro h0
  rw [h0] at h
  exact absurd h (by decide)

theorem anyRole_of_commissioner {f : Field} {p : Part} (h : f.commissioner p = true) : f.anyRole p = true := by
  simp only [commissioner, anyRole, decide_eq_true_eq] at *
  intro h0
  rw [h0] at h
  exact absurd h (by decide)

theorem writes_of_commissioner {f : Field} {p : Part} (hs : f.seqRuns = true) (h : f.commissioner p = true) : f.writes p = true := by
  rw [writes, hs, anyRole_of_commissioner h]; rfl

theorem byPart_of_writes {f : Field} {p : Part} (g : Field → Field) (h : f.writes p = true) : f.byPart p g = g f := by
  obtain ⟨hs, hr⟩ := Bool.and_eq_true_iff.1 h
  rw [byPart, tunnelled_of_seqRuns _ hs]
  exact if_pos hr

theorem byPart_of_noRole {f : Field} {p : Part} (g : Field → Field) (h : f.anyRole p = false) : f.byPart p g = f := by
  simp [byPart, tunnelled, h]

end Field

/-- A register write that reaches the die does what its operation does. -/
theorem State.endsField_of_write {s : State} {i : Instr} {p : Part} {op : Field → Field} {P : Field → Prop}
    (h : exec i s = s.onField (fun f => f.byPart p op)) (hw : s.f.writes p = true) (hp : P (op s.f)) : s.endsField i P :=
  s.endsField_of_exec h (by rw [Field.byPart_of_writes _ hw]; exact hp)

namespace Field

/-! ### One channel of a table -/

@[simp] theorem cmp_setCmp_same (f : Field) (n : Nat) (c : Cmp) : (f.setCmp n c).cmp n = c := by simp [cmp, setCmp]
theorem cmp_setCmp_other (f : Field) {m n : Nat} (c : Cmp) (h : m ≠ n) : (f.setCmp n c).cmp m = f.cmp m :=
  tabGet_tabSet_other _ _ _ h.symm
@[simp] theorem pcmp_setPcmp_same (f : Field) (n : Nat) (c : Pcmp) : (f.setPcmp n c).pcmp n = c := by simp [pcmp, setPcmp]
theorem pcmp_setPcmp_other (f : Field) {m n : Nat} (c : Pcmp) (h : m ≠ n) : (f.setPcmp n c).pcmp m = f.pcmp m :=
  tabGet_tabSet_other _ _ _ h.symm
@[simp] theorem dct_setDct_same (f : Field) (n : Nat) (d : Dct) : (f.setDct n d).dct n = d := by simp [dct, setDct]
theorem dct_setDct_other (f : Field) {m n : Nat} (d : Dct) (h : m ≠ n) : (f.setDct n d).dct m = f.dct m :=
  tabGet_tabSet_other _ _ _ h.symm

theorem merPart_of_part {f g : Field} (h : g.mer.part = f.mer.part) (p : Part) : g.merPart p = f.merPart p := by rw [merPart, merPart, h]

end Field

/-! ### Staged values (R315) -/

namespace Field

theorem stoHi_eq {f : Field} {p : Part} (v : Word) (h : f.commissioner p = true) :
    (f.stoHi p v).mer = { f.mer with sto := wide v ((f.merPart p).stoLo.getD (bits f.mer.sto 0 32)), slew := 0,
                                     part := (f.setMerPart p { f.merPart p with stoLo := none }).mer.part } := by
  rw [stoHi, if_pos h]
  have hm := (Inner.demandEnd (f.setMerPart p { f.merPart p with stoLo := none }) (f.setMerPart p { f.merPart p with stoLo := none }).now true).mer
  simp only [stoCommit, hm]
  rfl

theorem hiWriteCommit_cmp (f : Field) (p : Part) {n : Nat} (v : Word) (h : n < 24) :
    f.hiWriteCommit p (BitVec.ofNat 32 (0x16104 + 16 * n)) v = f.cmpHi p n v := by
  have ho : (BitVec.ofNat 32 (0x16104 + 16 * n)).toNat = 0x16104 + 16 * n := by rw [BitVec.toNat_ofNat]; omega
  have hn : (0x16104 + 16 * n - 0x16100) / 16 = n := by omega
  simp only [hiWriteCommit, ho, hn]
  rw [if_neg (by omega), if_pos (by simp; omega)]

theorem hiWriteCommit_pcmp (f : Field) (p : Part) {m : Nat} (v : Word) (h : m < 8) :
    f.hiWriteCommit p (BitVec.ofNat 32 (0x16304 + 16 * m)) v = f.pcmpHi p m v := by
  have ho : (BitVec.ofNat 32 (0x16304 + 16 * m)).toNat = 0x16304 + 16 * m := by rw [BitVec.toNat_ofNat]; omega
  have hm : (0x16304 + 16 * m - 0x16300) / 16 = m := by omega
  simp only [hiWriteCommit, ho, hm]
  rw [if_neg (by omega), if_neg (by simp; omega), if_pos (by simp; omega)]

theorem cmpHi_eq {f : Field} {p : Part} {n : Nat} (v : Word) (h8 : 8 ≤ n) (h24 : n < 24) (ho : (f.cmp n).owner = some p) :
    f.cmpHi p n v = (f.setMerPart p { f.merPart p with cmpLo := tabDel (f.merPart p).cmpLo n }).setCmp n
      { f.cmp n with v := wide v ((tabLook (f.merPart p).cmpLo n).getD (bits (f.cmp n).v 0 32)) } :=
  if_pos (by simp [ownsCmp, h8, h24, ho])

end Field

/-- Settles O20: each HI register's commit writes the wide value and forgets the staged low word; a commit of MER_STO also ends the
demand intervals, which leaves Meridian alone. -/
theorem stagedWritesCommit : Obligations.StagedWritesCommit := by
  intro s p v hw
  refine ⟨fun hc => s.endsField_of_write rfl hw ?_, fun n h8 h24 ho => s.endsField_of_write rfl hw ?_,
    fun m hm hc => s.endsField_of_write rfl hw ?_, fun hrole => s.endsField_of_write rfl hw ?_⟩
  · have hmer := Field.stoHi_eq v hc
    generalize hg : s.f.hiWriteCommit p 0x16014 v = g
    rw [show s.f.stoHi p v = g from hg] at hmer
    have hpart : g.mer.part = (s.f.setMerPart p { s.f.merPart p with stoLo := none }).mer.part := by rw [hmer]
    refine ⟨by rw [hmer]; rfl, ?_, fun q hq => ?_⟩
    · rw [Field.merPart_of_part hpart, Field.merPart_setMerPart_same]
    · rw [Field.merPart_of_part hpart, Field.merPart_setMerPart_other _ _ hq.symm]
  · rw [Field.hiWriteCommit_cmp _ _ _ h24, Field.cmpHi_eq v h8 h24 ho]
    refine ⟨Field.cmp_setCmp_same _ _ _, ?_, fun m hm => Field.cmp_setCmp_other _ _ hm, rfl⟩
    refine (congrArg (fun q => tabLook (MerPart.cmpLo q) n) (Field.merPart_setMerPart_same s.f p _)).trans ?_
    exact tabLook_tabDel_same _ _
  · rw [Field.hiWriteCommit_pcmp _ _ _ hm, Field.pcmpHi, if_pos hc]
    exact ⟨Field.pcmp_setPcmp_same _ _ _, fun k hk => Field.pcmp_setPcmp_other _ _ hk, rfl⟩
  · have hr : (s.f.operator p || s.f.commissioner p) = true := by simpa using hrole
    have he : s.f.hiWriteCommit p 0x3000C v = s.f.wakeHi p v := rfl
    rw [he, Field.wakeHi, if_pos hr]
    exact ⟨rfl, rfl⟩

/-! ### The slew (R321) -/

namespace Field

theorem bit31_iff (x : Word) : bit x 31 = true ↔ x.toInt < 0 := by
  rw [bit, ← BitVec.msb_eq_getLsbD_last, BitVec.msb_eq_toInt, decide_eq_true_eq]

theorem slewStep_eq {f : Field} (hon : f.pwr.st ≠ .thermalOff) (hs : f.mer.slew ≠ 0) (hc : f.mer.count.toNat % 10000 = 0)
    (ha : f.mer.slewAt ≠ some f.mer.count) : f.slewStep = if bit f.mer.slew 31
      then { f with mer := { f.mer with sto := f.mer.sto - 1, slew := f.mer.slew + 1, slewAt := some f.mer.count } }
      else { f with mer := { f.mer with sto := f.mer.sto + 1, slew := f.mer.slew - 1, slewAt := some f.mer.count } } :=
  if_neg (by simpa [merOn, hon, hc, ha] using hs)

end Field

/-- Settles O21: the write replaces the amount, and the step's sign is that of the amount. -/
theorem slewMovesStation : Obligations.SlewMovesStation := by
  intro s
  refine ⟨fun p v hs hc => s.endsField_of_write rfl (Field.writes_of_commissioner hs hc) ?_, fun hon hs hc ha => s.endsField_of_exec rfl ?_⟩
  · rw [Field.merSlew, if_pos hc]
  · rw [Field.slewStep_eq hon hs hc ha]
    by_cases hneg : s.f.mer.slew.toInt < 0
    · rw [if_pos ((Field.bit31_iff _).2 hneg)]
      exact ⟨fun _ => ⟨rfl, rfl⟩, fun hpos => absurd hpos (by omega), rfl⟩
    · rw [if_neg (mt (Field.bit31_iff _).1 hneg)]
      exact ⟨fun h => absurd h hneg, fun _ => ⟨rfl, rfl⟩, rfl⟩

/-! ### Timers (R328, R334) -/

namespace Field

theorem four_getLsbD (i : Nat) (h : i ≠ 2) : (4 : Word).getLsbD i = false := by
  rw [show (4 : Word) = BitVec.twoPow 32 2 from rfl, BitVec.getLsbD_twoPow]
  simp; omega

/-- A field of a word that does not hold bit 2 is the same with LOAD written. -/
theorem bits_or_load (x : Word) (lo n : Nat) (h : 2 < lo) : (bits (x ||| 4) lo n : BitVec n) = bits x lo n := by
  apply BitVec.eq_of_getLsbD_eq
  intro i hi
  simp only [bits, BitVec.getLsbD_extractLsb', BitVec.getLsbD_or, four_getLsbD (lo + i) (by omega), Bool.or_false]

theorem bit_or_load (x : Word) (i : Nat) (h : i ≠ 2) : bit (x ||| 4) i = bit x i := by
  rw [bit, bit, BitVec.getLsbD_or, four_getLsbD i h, Bool.or_false]

/-- What a LOAD by the owner leaves in the counter. -/
theorem dctLoad_eq {f : Field} {p : Part} {k : BitVec 4} {ctl : Word} (ho : (f.dct k.toNat).owner = some p) (hrel : bit ctl 30 = false)
    (hself : (bits ctl 10 6 : BitVec 6).toNat ≠ k.toNat) (hmax : (bits ctl 10 6 : BitVec 6).toNat ≤ 32)
    (hgate : (bits ctl 8 2 : BitVec 2) = 2 → (bits ctl 10 6 : BitVec 6).toNat ≤ 15) :
    ∃ d : Dct, f.dctLoad p k ctl = f.setDct k.toNat d ∧ d.count = (f.dct k.toNat).reload ∧ d.reload = (f.dct k.toNat).reload ∧
      d.run = bit ctl 0 ∧ d.auto = bit ctl 1 ∧ d.mode = bits ctl 8 2 ∧ d.owner = some p := by
  have hbad : ((bits ctl 10 6 : BitVec 6).toNat = k.toNat || ((bits ctl 8 2 : BitVec 2) = 2 && 15 < (bits ctl 10 6 : BitVec 6).toNat) ||
      32 < (bits ctl 10 6 : BitVec 6).toNat) = false := by
    simp only [Bool.or_eq_false_iff, Bool.and_eq_false_imp, decide_eq_false_iff_not, decide_eq_true_eq]
    exact ⟨⟨hself, fun h => by have := hgate h; omega⟩, by omega⟩
  have h2 : bit (ctl ||| 4) 2 = true := by
    rw [bit, BitVec.getLsbD_or, show (4 : Word).getLsbD 2 = true from rfl, Bool.or_true]
  simp only [dctLoad, dctCtlWrite, bits_or_load ctl 10 6 (by decide), bits_or_load ctl 8 2 (by decide), bit_or_load ctl 30 (by decide),
    bit_or_load ctl 0 (by decide), bit_or_load ctl 1 (by decide), hrel, hbad, h2, ho, ne_eq, not_true_eq_false, ↓reduceIte, Bool.false_eq_true]
  exact ⟨_, rfl, rfl, rfl, rfl, rfl, rfl, rfl⟩

end Field

/-- Settles O22: a claim, a release and a load each write one entry of a timer table. -/
theorem timersAreClaimed : Obligations.TimersAreClaimed := by
  intro s p hw
  have one (n : Nat) (c : Cmp) : (s.f.setCmp n c).cmp n = c ∧ (∀ m, m ≠ n → (s.f.setCmp n c).cmp m = s.f.cmp m) ∧
      s.f.setCmp n c = { s.f with mer := { s.f.mer with cmp := (s.f.setCmp n c).mer.cmp } } :=
    ⟨Field.cmp_setCmp_same _ _ _, fun _ hm => Field.cmp_setCmp_other _ _ hm, rfl⟩
  have two (n : Nat) (d : Dct) : (s.f.setDct n d).dct n = d ∧ (∀ m, m ≠ n → (s.f.setDct n d).dct m = s.f.dct m) ∧
      s.f.setDct n d = { s.f with mer := { s.f.mer with dct := (s.f.setDct n d).mer.dct } } :=
    ⟨Field.dct_setDct_same _ _ _, fun _ hm => Field.dct_setDct_other _ _ hm, rfl⟩
  refine ⟨fun hrole => ⟨fun n h8 h24 hn => s.endsField_of_write rfl hw ?_, fun k hk => s.endsField_of_write rfl hw ?_⟩,
    fun n hn => s.endsField_of_write rfl hw ?_, fun k hk => s.endsField_of_write rfl hw ?_,
    fun k ctl hk hrel hself hmax hgate => s.endsField_of_write rfl hw ?_⟩
  · have hr : (s.f.operator p || s.f.commissioner p) = true := by simpa using hrole
    simp only [Field.timerClaim, hr, h8, h24, hn, Bool.not_true, Bool.false_eq_true, decide_true, Bool.and_self, ↓reduceIte]
    exact one _ _
  · have hr : (s.f.operator p || s.f.commissioner p) = true := by simpa using hrole
    simp only [Field.timerClaim, hr, hk, Bool.not_true, Bool.false_eq_true, ↓reduceIte]
    exact two _ _
  · simp only [Field.timerRelease, hn, ↓reduceIte]
    exact one _ _
  · simp only [Field.timerRelease, hk, ↓reduceIte]
    exact two _ _
  · obtain ⟨d, heq, hcount, hreload, hrun, hauto, hmode, howner⟩ := Field.dctLoad_eq hk hrel hself hmax hgate
    rw [heq]
    obtain ⟨hsame, hother, hframe⟩ := two k.toNat d
    rw [hsame]
    exact ⟨hcount, hreload, hrun, hauto, hmode, howner, hother, hframe⟩

end Sys2Proof.Machine
end

section
/-! PROOF. Reads and writes of the field window: what a read leaves, and what a write by its role and the commissioning state does. -/
namespace Sys2Proof.Machine
set_option Elab.async false

/-! ### Reads (R15, R18) -/

/-- A command that runs an operation of the host die ends as the operation does. -/
theorem State.endsHost_of_exec {s : State} {i : Instr} {op : HDie → HDie} {P : HDie → Prop} (h : exec i s = s.onHost op)
    (hp : P (op s.h)) : s.endsHost i P := ⟨op s.h, h, hp⟩

namespace Field

/-- From f to g no more than clearing fields and latches changes: what protection, the tables, the records, the log and the states
of the die consist of stays. -/
structure ReadOnly (f g : Field) : Prop where
  ch : g.nev.ch = f.nev.ch
  prof : g.nev.prof = f.nev.prof
  loops : g.nev.loops = f.nev.loops
  ctx : g.hel.ctx = f.hel.ctx
  queue : g.hel.queue = f.hel.queue
  prt : g.prt = f.prt
  dat : g.trn.dat = f.trn.dat
  ctl : g.trn.ctl = f.trn.ctl
  log : g.nvm.log = f.nvm.log
  sec : g.sec = f.sec
  count : g.mer.count = f.mer.count
  safe : g.saf.safe = f.saf.safe
  power : g.pwr.st = f.pwr.st
  out : g.out = f.out

namespace ReadOnly
theorem refl (f : Field) : ReadOnly f f := ⟨rfl, rfl, rfl, rfl, rfl, rfl, rfl, rfl, rfl, rfl, rfl, rfl, rfl, rfl⟩

/-- A register whose read changes nothing. -/
theorem same {v : Word} (f : Field) : ReadOnly f (v, f).2 := refl f

theorem ite {f : Field} {a b : Word × Field} (c : Prop) [Decidable c] (ha : ReadOnly f a.2) (hb : ReadOnly f b.2) :
    ReadOnly f (if c then a else b).2 := by
  split
  · exact ha
  · exact hb

theorem nev (f : Field) : ∀ o, ReadOnly f (f.readNev o).2 := fun o => by
  unfold readNev
  extract_lets n
  repeat' refine ite _ ?_ ?_
  all_goals exact ⟨rfl, rfl, rfl, rfl, rfl, rfl, rfl, rfl, rfl, rfl, rfl, rfl, rfl, rfl⟩

theorem sel (f : Field) : ∀ o, ReadOnly f (f.readSel o).2 := fun o => by
  unfold readSel
  extract_lets s
  repeat' refine ite _ ?_ ?_
  all_goals exact ⟨rfl, rfl, rfl, rfl, rfl, rfl, rfl, rfl, rfl, rfl, rfl, rfl, rfl, rfl⟩

theorem hel (f : Field) : ∀ o, ReadOnly f (f.readHel o).2 := fun o => by
  unfold readHel
  extract_lets h
  repeat' refine ite _ ?_ ?_
  all_goals exact ⟨rfl, rfl, rfl, rfl, rfl, rfl, rfl, rfl, rfl, rfl, rfl, rfl, rfl, rfl⟩

theorem firn (f : Field) : ∀ o, ReadOnly f (f.readFirn o).2 := fun o => by
  unfold readFirn
  extract_lets m
  repeat' refine ite _ ?_ ?_
  all_goals exact ⟨rfl, rfl, rfl, rfl, rfl, rfl, rfl, rfl, rfl, rfl, rfl, rfl, rfl, rfl⟩

theorem dch (f : Field) (n : BitVec 4) (w : Nat) : ReadOnly f (f.readDch n w).2 := by
  unfold readDch
  extract_lets d
  repeat' refine ite _ ?_ ?_
  all_goals exact ⟨rfl, rfl, rfl, rfl, rfl, rfl, rfl, rfl, rfl, rfl, rfl, rfl, rfl, rfl⟩

theorem inj (f : Field) (m w : Nat) : ReadOnly f (f.readInj m w).2 := by
  unfold readInj
  extract_lets i
  repeat' refine ite _ ?_ ?_
  all_goals exact ⟨rfl, rfl, rfl, rfl, rfl, rfl, rfl, rfl, rfl, rfl, rfl, rfl, rfl, rfl⟩

theorem adc (f : Field) (o : Nat) : ReadOnly f (f.readAdc o).2 := by
  have clears : ReadOnly f { f with adc := { f.adc with xchkBad := 0, yields := 0 } } :=
    ⟨rfl, rfl, rfl, rfl, rfl, rfl, rfl, rfl, rfl, rfl, rfl, rfl, rfl, rfl⟩
  unfold readAdc
  exact ite _ (same f) (ite _ clears (ite _ (same f) (ite _ (same f) (ite _ (same f) (ite _ (same f) (ite _ (same f) (ite _ (same f)
    (ite _ (inj f _ _) (same f)))))))))

theorem cmp (f : Field) (n w : Nat) : ReadOnly f (f.readCmp n w).2 := by
  unfold readCmp
  extract_lets c
  repeat' refine ite _ ?_ ?_
  all_goals exact ⟨rfl, rfl, rfl, rfl, rfl, rfl, rfl, rfl, rfl, rfl, rfl, rfl, rfl, rfl⟩

theorem pcmp (f : Field) (n w : Nat) : ReadOnly f (f.readPcmp n w).2 := by
  unfold readPcmp
  extract_lets c
  repeat' refine ite _ ?_ ?_
  all_goals exact ⟨rfl, rfl, rfl, rfl, rfl, rfl, rfl, rfl, rfl, rfl, rfl, rfl, rfl, rfl⟩

theorem wideLo (f : Field) (p : Part) (r : WideReg) : ReadOnly f (f.wideLoRead p r).1 :=
  ⟨rfl, rfl, rfl, rfl, rfl, rfl, rfl, rfl, rfl, rfl, rfl, rfl, rfl, rfl⟩

theorem mer (f : Field) (p : Part) (o : Nat) : ReadOnly f (f.readMer p o).2 := by
  have clears : ReadOnly f { f with mer := { f.mer with holdEntries := 0, ppsBad := 0 } } :=
    ⟨rfl, rfl, rfl, rfl, rfl, rfl, rfl, rfl, rfl, rfl, rfl, rfl, rfl, rfl⟩
  unfold readMer
  exact ite _ (wideLo f p .cnt) (ite _ (same f) (ite _ (same f) (ite _ clears (ite _ (same f) (ite _ (same f) (ite _ (same f)
    (ite _ (wideLo f p .stn) (ite _ (same f) (ite _ (wideLo f p .pps) (ite _ (same f) (ite _ (same f) (ite _ (cmp f _ _)
    (ite _ (pcmp f _ _) (ite _ (same f) (same f)))))))))))))))

theorem saf (f : Field) : ∀ o, ReadOnly f (f.readSaf o).2 := fun o => by
  unfold readSaf
  extract_lets s
  repeat' refine ite _ ?_ ?_
  all_goals exact ⟨rfl, rfl, rfl, rfl, rfl, rfl, rfl, rfl, rfl, rfl, rfl, rfl, rfl, rfl⟩

theorem lane (f : Field) (l : BitVec 5) (w : Nat) : ReadOnly f (f.readLane l w).2 := by
  unfold readLane
  extract_lets v
  repeat' refine ite _ ?_ ?_
  all_goals exact ⟨rfl, rfl, rfl, rfl, rfl, rfl, rfl, rfl, rfl, rfl, rfl, rfl, rfl, rfl⟩

theorem pwr (f : Field) (p : Part) (o : Nat) : ReadOnly f (f.readPwr p o).2 := by
  unfold readPwr
  extract_lets w t
  repeat' refine ite _ ?_ ?_
  all_goals exact ⟨rfl, rfl, rfl, rfl, rfl, rfl, rfl, rfl, rfl, rfl, rfl, rfl, rfl, rfl⟩

theorem thm (f : Field) : ∀ o, ReadOnly f (f.readThm o).2 := fun o => by
  unfold readThm
  extract_lets t
  repeat' refine ite _ ?_ ?_
  all_goals exact ⟨rfl, rfl, rfl, rfl, rfl, rfl, rfl, rfl, rfl, rfl, rfl, rfl, rfl, rfl⟩

theorem nvm (f : Field) (p : Part) (o : Nat) : ReadOnly f (f.readNvm p o).2 := by
  unfold readNvm
  extract_lets n g
  repeat' refine ite _ ?_ ?_
  all_goals exact ⟨rfl, rfl, rfl, rfl, rfl, rfl, rfl, rfl, rfl, rfl, rfl, rfl, rfl, rfl⟩

/-- A register read is a read of its block. -/
theorem regRead (f : Field) (p : Part) (o : Nat) : ReadOnly f (f.regRead p o).2 := by
  unfold Field.regRead
  exact ite _ (same f) (ite _ (same f) (ite _ (nev f o) (ite _ (sel f o) (ite _ (hel f o) (ite _ (firn f o)
    (ite _ (ite _ (dch f _ _) (same f)) (ite _ (adc f o) (ite _ (mer f p o) (ite _ (saf f o) (ite _ (same f) (ite _ (lane f _ _)
    (ite _ (same f) (ite _ (same f) (ite _ (same f) (ite _ (pwr f p o) (ite _ (thm f o) (nvm f p o)))))))))))))))))

end ReadOnly

theorem readReg_eq {f : Field} (p : Part) (o : Nat) (h : f.seqRuns = true) :
    f.readReg p o = (f.regRead p o).2.emit (.read p (f.regRead p o).1) := tunnelled_of_seqRuns _ h

theorem regRead_below (f : Field) (p : Part) {o : Nat} (hword : o % 4 = 0) (h : o < 0x10000) : f.regRead p o = (0, f) := by
  rw [regRead, if_neg (by simp [hword]), if_pos h]

end Field

/-- A read of one whole aligned word of the field window. -/
theorem exec_registerRead_word (s : State) (p : Part) {off : Word} (h : off.toNat % 4 = 0) :
    exec (.registerRead p .field off .dword) s = s.onField (fun f => f.readReg p off.toNat) :=
  (show exec (.registerRead p .field off .dword) s = if (decide (Access.dword = .dword) && decide (off.toNat % 4 = 0)) = true
    then s.onField (fun f => f.readReg p off.toNat) else s.onHost (fun k => k.emit (.unsupported p)) from rfl).trans
    (if_pos (by simp [h]))

/-- A read of the field window of another form. -/
theorem exec_registerRead_form (s : State) (p : Part) {off : Word} {acc : Access} (h : acc ≠ .dword ∨ off.toNat % 4 ≠ 0) :
    exec (.registerRead p .field off acc) s = s.onHost (fun k => k.emit (.unsupported p)) :=
  (show exec (.registerRead p .field off acc) s = if (decide (acc = .dword) && decide (off.toNat % 4 = 0)) = true
    then s.onField (fun f => f.readReg p off.toNat) else s.onHost (fun k => k.emit (.unsupported p)) from rfl).trans
    (if_neg (by simpa [Decidable.imp_iff_not_or] using h))

/-- Settles O16: every block's read changes clearing fields and latches alone. -/
theorem registerReadsAnswer : Obligations.RegisterReadsAnswer := by
  intro s p off
  refine ⟨fun hs hword => s.endsField_of_exec (exec_registerRead_word s p hword) ?_,
    fun acc hform => s.endsHost_of_exec (exec_registerRead_form s p hform) rfl⟩
  rw [Field.readReg_eq p off.toNat hs]
  obtain ⟨hch, hprof, hloops, hctx, hqueue, hprt, hdat, hctl, hlog, hsec, hcount, hsafe, hpower, hout⟩ := Field.ReadOnly.regRead s.f p off.toNat
  refine ⟨congrArg (· ++ [_]) hout, hch, hprof, hloops, hctx, hqueue, hprt, hdat, hctl, hlog, hsec, hcount, hsafe, hpower, ?_, ?_, ?_, ?_⟩
  · rintro rfl
    rfl
  · rintro rfl
    rfl
  · rintro rfl
    rfl
  · intro hlow
    rw [Field.regRead_below _ _ hword hlow]
    rfl

/-! ### Writes (R16, R375, R384) -/

theorem setWidth_append_low (hi v : Word) : (hi ++ v : BitVec 64).setWidth 32 = v := by
  rw [BitVec.setWidth_append]
  simp

namespace Field

theorem regWrite_sel {f : Field} {p : Part} (v : Word) (h : f.commissioner p = true) : f.regWrite p 0x11000 v =
    { f with sel := { f.sel with enable := bit v 0, stormN := bits v 8 8, stormQuiet := bits v 16 4 } } := by
  have he : f.regWrite p 0x11000 v = if (!f.anyRole p) = true then f else f.selCtrlWrite p v := rfl
  rw [he, anyRole_of_commissioner h, if_neg (by decide), selCtrlWrite, if_pos h]

theorem regWrite_rwc {f : Field} {p : Part} {o : Nat} (v : Word) (ho : o = 0x13100 ∨ o = 0x30304) (h : f.anyRole p = true) :
    f.regWrite p o v = f.rwcWrite p o v := by
  have he : f.regWrite p o v = if (!f.anyRole p) = true then f else f.rwcWrite p o v := by rcases ho with rfl | rfl <;> rfl
  rw [he, h, if_neg (by decide)]

theorem rwcWrite_closed {f : Field} {p : Part} {o : Nat} (v : Word) (ho : o ≠ 0x17018) (h : f.sec.comm = false) :
    f.rwcWrite p o v = f.logRwc (BitVec.ofNat 32 o) p := by
  rw [rwcWrite, if_neg ho, h]
  rfl

theorem log_frame (f : Field) (ty : Byte) (b : Bytes) : f.log ty b = { f with nvm := (f.log ty b).nvm } := logAt_frame f ty f.now b []

theorem logRwc_frame (f : Field) (off : Word) (p : Part) : f.logRwc off p = { f with nvm := (f.logRwc off p).nvm } :=
  log_frame f 0x02 (le 4 off ++ [p.setWidth 8])

/-- A legal value of THM_LIMIT within the commissioning state. -/
theorem rwcWrite_limit {f : Field} {p : Part} {v : Word} (hc : f.commissioner p = true) (hcomm : f.sec.comm = true)
    (hv : limitOk v = true) : (f.rwcWrite p 0x30304 v).thm = { f.thm with limit := v &&& 0x00FFFFFF } := by
  have hset : f.rwcSet 0x30304 v = { f with thm := { f.thm with limit := v &&& 0x00FFFFFF } } :=
    (show f.rwcSet 0x30304 v = if limitOk v = true then { f with thm := { f.thm with limit := v &&& 0x00FFFFFF } } else f from rfl).trans
      (if_pos hv)
  have he : f.rwcWrite p 0x30304 v = if (!f.sec.comm) = true then f.logRwc (BitVec.ofNat 32 0x30304) p
      else if (!f.commissioner p) = true then f
      else if (f.rwcSet 0x30304 v).cregsOf = f.cregsOf then f.rwcSet 0x30304 v
      else (f.rwcSet 0x30304 v).imgStart 3 (f.rwcSet 0x30304 v).cregsOf := rfl
  rw [he, hcomm, hc, if_neg (by decide), if_neg (by decide), hset]
  split <;> rfl

end Field

/-- A write of one whole aligned word of the field window. -/
theorem exec_registerWrite_word (s : State) (p : Part) {off : Word} (v hi : Word) (h : off.toNat % 4 = 0) :
    exec (.registerWrite p .field off (hi ++ v) .dword) s = s.onField (fun f => f.byPart p (fun g => g.regWrite p off.toNat v)) :=
  (show exec (.registerWrite p .field off (hi ++ v) .dword) s = if (decide (Access.dword = .dword) && decide (off.toNat % 4 = 0)) = true
    then s.onField (fun f => f.byPart p (fun g => g.regWrite p off.toNat ((hi ++ v : BitVec 64).setWidth 32)))
    else s.onHost (fun k => k.badWrite p) from rfl).trans (by rw [if_pos (by simp [h]), setWidth_append_low])

/-- A write of the field window of another form. -/
theorem exec_registerWrite_form (s : State) (p : Part) {off : Word} (v : BitVec 64) {acc : Access} (h : acc ≠ .dword ∨ off.toNat % 4 ≠ 0) :
    exec (.registerWrite p .field off v acc) s = s.onHost (fun k => k.badWrite p) :=
  (show exec (.registerWrite p .field off v acc) s = if (decide (acc = .dword) && decide (off.toNat % 4 = 0)) = true
    then s.onField (fun f => f.byPart p (fun g => g.regWrite p off.toNat (v.setWidth 32)))
    else s.onHost (fun k => k.badWrite p) from rfl).trans (if_neg (by simpa [Decidable.imp_iff_not_or] using h))

/-- Settles O18: the role, then the commissioning state, decide before the register. -/
theorem registerWritesAct : Obligations.RegisterWritesAct := by
  intro s p v hi hs
  refine ⟨fun off hword hr => s.endsField_of_exec (exec_registerWrite_word s p v hi hword) (Field.byPart_of_noRole _ hr),
    fun hc => s.endsField_of_write (exec_registerWrite_word s p v hi rfl) (Field.writes_of_commissioner hs hc) (Field.regWrite_sel v hc),
    fun off hoff hr hcomm => ?_, fun hc hcomm hv => ?_,
    fun off acc hform => s.endsHost_of_exec (exec_registerWrite_form s p _ hform) ⟨HDie.hp_modHp_same _ _ _, fun q hq => HDie.hp_modHp_other _ _ hq.symm, rfl⟩⟩
  · have hoff' : off.toNat = 0x13100 ∨ off.toNat = 0x30304 := hoff.imp (congrArg BitVec.toNat) (congrArg BitVec.toNat)
    refine s.endsField_of_write (exec_registerWrite_word s p v hi (by omega)) (by rw [Field.writes, hs, hr]; rfl) ?_
    rw [Field.regWrite_rwc v hoff' hr, Field.rwcWrite_closed v (by omega) hcomm]
    exact Field.logRwc_frame _ _ _
  · refine s.endsField_of_write (exec_registerWrite_word s p v hi rfl) (Field.writes_of_commissioner hs hc) ?_
    exact (congrArg Field.thm (Field.regWrite_rwc v (.inr rfl) (Field.anyRole_of_commissioner hc))).trans (Field.rwcWrite_limit hc hcomm hv)

end Sys2Proof.Machine
end

section
/-! PROOF. Events that find room are told (R400): one raised for a partition is in its queue, and one raised for another leaves its
queue alone. -/
namespace Sys2Proof.Machine
set_option Elab.async false
namespace Field

/-- From f to g the queue of a partition and the commands in flight stay as they are. -/
def QueueStays (p : Part) (f g : Field) : Prop := g.evq p = f.evq p ∧ g.prt.busy = f.prt.busy

namespace QueueStays
theorem refl (p : Part) (f : Field) : QueueStays p f f := ⟨rfl, rfl⟩
theorem trans {p : Part} {f g h : Field} (a : QueueStays p f g) (b : QueueStays p g h) : QueueStays p f h :=
  ⟨b.1.trans a.1, b.2.trans a.2⟩
theorem ofPrt {p : Part} {f g : Field} (h : g.prt = f.prt) : QueueStays p f g := ⟨by rw [evq, evq, h], by rw [h]⟩

theorem ite {p : Part} {f g h : Field} (c : Prop) [Decidable c] (a : QueueStays p f g) (b : QueueStays p f h) :
    QueueStays p f (if c then g else h) := by
  split
  · exact a
  · exact b

theorem foldl {α : Type} {p : Part} {op : Field → α → Field} (hop : ∀ f a, QueueStays p f (op f a)) (l : List α) :
    ∀ f : Field, QueueStays p f (l.foldl op f) := by
  induction l with
  | nil => exact refl p
  | cons a l ih => exact fun f => (hop f a).trans (ih _)

theorem sendData (p : Part) (f : Field) (m : Msg) : QueueStays p f (f.sendData m).1 := by
  unfold Field.sendData
  extract_lets r _ f1
  have h1 : QueueStays p f f1 := ofPrt rfl
  exact ite _ (h1.trans (ofPrt (emit_prt _ _))) h1

variable {p q : Part} (hne : q ≠ p)
include hne

theorem setEvq (f : Field) (v : EvQ) : QueueStays p f (f.setEvq q v) := ⟨evq_setEvq_other f v hne, rfl⟩

omit hne in
theorem sendRecs (l : List QRec) : ∀ f : Field, QueueStays p f (f.sendRecs q l).1 := by
  induction l with
  | nil => exact refl p
  | cons r rs ih =>
    intro f
    simp only [Field.sendRecs]
    split
    · exact ih f
    · split
      · exact ih f
      · exact (sendData p f _).trans (ih _)

theorem pump (f : Field) : QueueStays p f (f.pump q) := ite _ ((sendRecs _ f).trans (setEvq hne _ _)) (refl p f)
theorem enqueue (f : Field) (r : Rec) : QueueStays p f (f.enqueue q r) := (setEvq hne f _).trans (pump hne _)

theorem raiseCore (f : Field) (ty : Byte) (h : Word) (t : Count) (b : Bytes) : QueueStays p f (f.raiseCore q ty h t b) := by
  have h1 (v : EvQ) (r : Rec) : QueueStays p f ((f.setEvq q v).enqueue q r) := (setEvq hne f v).trans (enqueue hne _ r)
  have h2 (v w : EvQ) : QueueStays p f ((f.setEvq q v).setEvq q w) := (setEvq hne f v).trans (setEvq hne _ w)
  exact ite _ (ite _ (h1 _ _) (h2 _ _)) (ite _ (h1 _ _) (h2 _ _))

theorem overflow (f : Field) : QueueStays p f (f.overflow q) := by
  unfold Field.overflow
  extract_lets v n f1 q1
  have h1 : QueueStays p f f1 := ite _ (refl p f) ((setEvq hne f _).trans (foldl (fun g (e : Evt) => enqueue hne g _) _ _))
  exact ite _ (h1.trans ((setEvq hne _ _).trans (raiseCore hne _ _ _ _ _))) h1

theorem raise (f : Field) (ty : Byte) (h : Word) (b : Bytes) : QueueStays p f (f.raise q ty h b) :=
  (overflow hne f).trans (raiseCore hne _ _ _ _ _)

end QueueStays

theorem unreserved_of_stays {p : Part} {f g : Field} (h : QueueStays p f g) : g.unreserved p = f.unreserved p := by
  rw [unreserved, unreserved, h.1, h.2]

theorem roomFor_of_stays {p : Part} {f g : Field} (h : QueueStays p f g) : g.roomFor p = f.roomFor p := by
  rw [roomFor, roomFor, unreserved_of_stays h, h.1]

theorem told_of_stays {p : Part} {f g : Field} (h : QueueStays p f g) (ty : Byte) (hd : Word) : g.told p ty hd = f.told p ty hd := by
  rw [told, told, h.1]

theorem enqueue_told (f : Field) (p : Part) (e : Evt) : (f.enqueue p (.evt e)).told p e.rtype e.handle = true := by
  obtain ⟨q, hq, hr⟩ := enqueue_mem f p (.evt e)
  exact List.any_eq_true.2 ⟨q, hq, by simp [hr]⟩

theorem overflow_of_room {f : Field} {p : Part} (h : f.roomFor p = true) : f.overflow p = f := by
  simp only [roomFor, Bool.and_eq_true, decide_eq_true_eq] at h
  obtain ⟨⟨hdrop, hheld⟩, _⟩ := h
  simp [overflow, hdrop, hheld]

/-- An event that finds room is in its partition's queue. -/
theorem raiseAt_told {f : Field} {p : Part} (ty : Byte) (hd : Word) (t : Count) (b : Bytes) (h : f.roomFor p = true) :
    (f.raiseAt p ty hd t b).told p ty hd = true := by
  have hfree : 272 < f.unreserved p := by
    simp only [roomFor, Bool.and_eq_true, decide_eq_true_eq] at h
    exact h.2
  have hcore : f.raiseAt p ty hd t b = (f.setEvq p { f.evq p with seq := (f.evq p).seq + 1 }).enqueue p
      (.evt { rtype := ty, seq := (f.evq p).seq, handle := hd, t := t, body := pad 16 b }) := by
    rw [raiseAt, overflow_of_room h]
    unfold raiseCore
    extract_lets q e free f1
    have h2 : 2 ≤ free := Nat.le_trans (by decide) (Nat.le_of_lt hfree)
    have h256 : 256 < free := Nat.lt_of_le_of_lt (by decide) hfree
    have hkept : (if rtypeKept ty = true then 2 ≤ free else 256 < free) := by split <;> assumption
    rw [if_pos h2, if_pos hkept, ite_self]
  rw [hcore]
  exact enqueue_told _ _ _

theorem raise_told {f : Field} {p : Part} (ty : Byte) (hd : Word) (b : Bytes) (h : f.roomFor p = true) :
    (f.raise p ty hd b).told p ty hd = true := raiseAt_told ty hd f.now b h

/-- An event for every partition that finds room is in each queue. -/
theorem raiseAll_told {f : Field} {p : Part} (ty : Byte) (b : Bytes) (h : f.roomFor p = true) : (f.raiseAll ty b).told p ty 0 = true := by
  have here (l : List Part) (hl : p ∉ l) (g : Field) : QueueStays p g (l.foldl (fun g p => g.raise p ty 0 b) g) := by
    induction l generalizing g with
    | nil => exact .refl p g
    | cons q l ih =>
      exact (QueueStays.raise (fun hq => hl (by rw [hq]; exact List.mem_cons_self)) g ty 0 b).trans (ih (fun hm => hl (List.mem_cons_of_mem _ hm)) _)
  have both (a c : List Part) (ha : p ∉ a) (hc : p ∉ c) : ((a ++ p :: c).foldl (fun g p => g.raise p ty 0 b) f).told p ty 0 = true := by
    rw [List.foldl_append, List.foldl_cons, told_of_stays (here c hc _)]
    exact raise_told ty 0 b ((roomFor_of_stays (here a ha f)).trans h)
  have four : ∀ q : Part, q = 0 ∨ q = 1 ∨ q = 2 ∨ q = 3 := by decide
  rcases four p with rfl | rfl | rfl | rfl
  · exact both [] [1, 2, 3] (by decide) (by decide)
  · exact both [0] [2, 3] (by decide) (by decide)
  · exact both [0, 1] [3] (by decide) (by decide)
  · exact both [0, 1, 2] [] (by decide) (by decide)

end Field
end Sys2Proof.Machine
end

section
/-! PROOF. Configuration writes, and the references of Meridian: the loss and return of REFCLK, and the PPS edge. -/
namespace Sys2Proof.Machine
set_option Elab.async false

/-! ### Folds over lists of channels -/

theorem mem_of_tabLook {α : Type} {t : Tab α} {i : Nat} {v : α} (h : tabLook t i = some v) : (i, v) ∈ t := by
  induction t with
  | nil => simp at h
  | cons e r ih =>
    rw [tabLook] at h
    split at h
    next hk =>
      obtain rfl := Option.some.inj h
      exact hk ▸ List.mem_cons_self
    next => exact List.mem_cons_of_mem _ (ih h)

/-- A value other than the default is listed. -/
theorem mem_of_tabGet {α : Type} {d : α} {t : Tab α} {i : Nat} (h : tabGet d t i ≠ d) : (i, tabGet d t i) ∈ t := by
  rw [tabGet] at *
  cases hl : tabLook t i with
  | none => rw [hl] at h; exact absurd rfl h
  | some v => exact mem_of_tabLook hl

/-- What no step of a fold changes, the fold does not change. -/
theorem foldl_same {α β γ : Type} {op : β → α → β} (π : β → γ) (hop : ∀ b a, π (op b a) = π b) (l : List α) (b : β) :
    π (l.foldl op b) = π b := by
  induction l generalizing b with
  | nil => rfl
  | cons a l ih => exact (ih _).trans (hop b a)

namespace Field

theorem mem_existing {f : Field} {x : BitVec 17} (h : (f.chan x).nev.state ≠ .free) : (x, f.chan x) ∈ f.existing := by
  have hne : f.chan x ≠ Chan.free := fun he => h (by rw [he]; rfl)
  refine List.mem_map.2 ⟨(x.toNat, f.chan x), List.mem_filter.2 ⟨mem_of_tabGet hne, by simpa using h⟩, ?_⟩
  simp

theorem mem_select {f : Field} {x : BitVec 17} {p : Chan → Bool} (h : (f.chan x).nev.state ≠ .free) (hp : p (f.chan x) = true) :
    x ∈ f.select p := List.mem_map.2 ⟨_, List.mem_filter.2 ⟨mem_existing h, hp⟩, rfl⟩

theorem modHist_chan_nev (f : Field) (x y : BitVec 17) (m : Hist → Hist) : ((f.modHist x m).chan y).nev = (f.chan y).nev := by
  by_cases h : x = y
  · subst h
    rw [modHist, chan_modChan_same]
  · rw [modHist, chan_modChan_other _ _ h]

/-! ### The history depth (R229) -/

/-- The ring of a channel is emptied. -/
def dropRing (f : Field) (x : BitVec 17) : Field := f.modHist x (fun h => { h with ring := [] })

theorem dropRings_ring (l : List (BitVec 17)) : ∀ (f : Field) (x : BitVec 17), x ∈ l ∨ (f.chan x).hist.ring = [] →
    ((l.foldl dropRing f).chan x).hist.ring = [] := by
  induction l with
  | nil => exact fun f x h => h.resolve_left List.not_mem_nil
  | cons y l ih =>
    intro f x h
    refine ih _ x ?_
    by_cases hxy : y = x
    · subst hxy
      exact .inr (by rw [dropRing, modHist, chan_modChan_same])
    · refine h.imp (fun hm => (List.mem_cons.1 hm).resolve_left (Ne.symm hxy)) (fun hr => ?_)
      rwa [dropRing, modHist, chan_modChan_other _ _ hxy]

/-- Does a depth fit (R229)? -/
theorem histCfgWrite_eq (f : Field) (v : Word) : f.histCfgWrite v =
    if (decide ((bits v 0 5 : BitVec 5) = 0) || (decide (8 ≤ (bits v 0 5 : BitVec 5).toNat) && decide ((bits v 0 5 : BitVec 5).toNat ≤ 16) &&
        decide (4 * 2 ^ (bits v 0 5 : BitVec 5).toNat ≤ f.firn.capGib.toNat * 1024 - 256))) = true
    then { (f.select (fun _ => true)).foldl dropRing f with
      firn := { ((f.select (fun _ => true)).foldl dropRing f).firn with depth := bits v 0 5, fitErr := false } }
    else { f with firn := { f.firn with fitErr := true } } := rfl

theorem histCfg_fits {f : Field} {p : Part} {v : Word} (hc : f.commissioner p = true)
    (h : (bits v 0 5 : BitVec 5).toNat = 0 ∨ (8 ≤ (bits v 0 5 : BitVec 5).toNat ∧ (bits v 0 5 : BitVec 5).toNat ≤ 16 ∧
      4 * 2 ^ (bits v 0 5 : BitVec 5).toNat ≤ f.firn.capGib.toNat * 1024 - 256)) :
    (f.histCfg p v).firn = { f.firn with depth := bits v 0 5, fitErr := false } ∧
      (∀ x, (f.chan x).nev.state ≠ .free → ((f.histCfg p v).chan x).hist.ring = []) ∧
      (∀ x, ((f.histCfg p v).chan x).nev = (f.chan x).nev) := by
  rw [histCfg, if_pos hc, histCfgWrite_eq, if_pos (by
    rcases h with h0 | ⟨h1, h2, h3⟩
    · simp [BitVec.eq_of_toNat_eq (y := 0) h0]
    · simp only [h1, h2, h3, decide_true, Bool.and_self, Bool.or_true])]
  have hfirn : ((f.select (fun _ => true)).foldl dropRing f).firn = f.firn := foldl_same (op := dropRing) Field.firn (fun _ _ => rfl) _ f
  refine ⟨by rw [hfirn], fun x hx => dropRings_ring _ f x (.inl (mem_select hx rfl)), fun x => ?_⟩
  exact foldl_same (fun g : Field => (g.chan x).nev) (fun g y => modHist_chan_nev g y x _) _ f

theorem histCfg_misfits {f : Field} {p : Part} {v : Word} (hc : f.commissioner p = true) (h0 : (bits v 0 5 : BitVec 5).toNat ≠ 0)
    (h : (bits v 0 5 : BitVec 5).toNat < 8 ∨ 16 < (bits v 0 5 : BitVec 5).toNat ∨
      f.firn.capGib.toNat * 1024 - 256 < 4 * 2 ^ (bits v 0 5 : BitVec 5).toNat) :
    f.histCfg p v = { f with firn := { f.firn with fitErr := true } } := by
  rw [histCfg, if_pos hc, histCfgWrite_eq]
  refine if_neg ?_
  have hne : (bits v 0 5 : BitVec 5) ≠ 0 := fun he => h0 (by rw [he]; rfl)
  simp only [hne, decide_false, Bool.false_or, Bool.and_eq_true, decide_eq_true_eq, not_and]
  intro ⟨h8, h16⟩
  rcases h with h | h | h
  · omega
  · omega
  · exact Nat.not_le.2 h

/-! ### COLD_ACK (R75) -/

theorem coldAck_bit_own : ∀ (c : BitVec 4) (p : Part), bit (c &&& ~~~((1 : BitVec 4) <<< p.toNat)) p.toNat = false := by decide
theorem coldAck_bit_other : ∀ (c : BitVec 4) (p q : Part), q ≠ p →
    bit (c &&& ~~~((1 : BitVec 4) <<< p.toNat)) q.toNat = bit c q.toNat := by decide

end Field

/-- Settles O19: each write's own field, by the register's definition. -/
theorem configurationWritesAct : Obligations.ConfigurationWritesAct := by
  intro s p hw
  refine ⟨fun v hv => s.endsField_of_write rfl hw ?_, fun b hc => s.endsField_of_write rfl hw (if_pos hc),
    fun v hc => ⟨fun h => s.endsField_of_write rfl hw (Field.histCfg_fits hc h),
      fun ⟨h0, h⟩ => s.endsField_of_write rfl hw (Field.histCfg_misfits hc h0 h)⟩, fun q => s.endsField_of_write rfl hw ?_⟩
  · rw [Field.coldAckWrite, if_pos hv]
    exact ⟨Field.coldAck_bit_own _ _, fun q hq => Field.coldAck_bit_other _ _ _ hq, rfl⟩
  · rw [Field.logSelect, if_pos (Bool.and_eq_true_iff.1 hw).2]
    exact ⟨rfl, tabGet_tabSet_same _ _ _ _, fun r hr => tabGet_tabSet_other _ _ _ (fun h => hr (BitVec.eq_of_toNat_eq h.symm))⟩

/-! ### REFCLK (R316 to R318) -/

namespace Field

theorem retrainLanes_frame (f : Field) : f.retrainLanes = { f with lan := f.retrainLanes.lan } := by
  unfold retrainLanes
  generalize f.lan.lane.filter (fun e => e.2.en) = l
  induction l generalizing f with
  | nil => rfl
  | cons e l ih => exact (ih (f.train (BitVec.ofNat 5 e.1))).trans rfl

theorem train_st (f : Field) (l : BitVec 5) : ((f.train l).lane l).st = .train := by rw [train, lane_modLane_same]

theorem train_other (f : Field) {l m : BitVec 5} (h : m ≠ l) : (f.train m).lane l = f.lane l := lane_setLane_other _ _ h

theorem trains_st (t : List (Nat × Lane)) (l : BitVec 5) : ∀ f : Field, ((f.lane l).st = .train ∨ ∃ e ∈ t, BitVec.ofNat 5 e.1 = l) →
    ((t.foldl (fun (g : Field) e => g.train (BitVec.ofNat 5 e.1)) f).lane l).st = .train := by
  induction t with
  | nil => exact fun f h => h.resolve_right (by simp)
  | cons e t ih =>
    intro f h
    refine ih _ ?_
    by_cases he : BitVec.ofNat 5 e.1 = l
    · exact .inl (he ▸ train_st f _)
    · rw [train_other f he]
      exact h.imp_right fun ⟨a, ha, hal⟩ => ⟨a, (List.mem_cons.1 ha).resolve_left (fun hae => he (hae ▸ hal)), hal⟩

theorem trains_other (t : List (Nat × Lane)) (l : BitVec 5) : ∀ f : Field, (∀ e ∈ t, BitVec.ofNat 5 e.1 ≠ l) →
    (t.foldl (fun (g : Field) e => g.train (BitVec.ofNat 5 e.1)) f).lane l = f.lane l := by
  induction t with
  | nil => exact fun _ _ => rfl
  | cons e t ih =>
    intro f h
    exact (ih _ (fun a ha => h a (List.mem_cons_of_mem _ ha))).trans (train_other f (h e List.mem_cons_self))

/-- A lane that is enabled trains. -/
theorem retrainLanes_en {f : Field} {l : BitVec 5} (h : (f.lane l).en = true) : ((f.retrainLanes).lane l).st = .train := by
  have hne : f.lane l ≠ Lane.reset := fun he => by rw [he] at h; exact absurd h (by decide)
  exact trains_st _ l f (.inr ⟨(l.toNat, f.lane l), List.mem_filter.2 ⟨mem_of_tabGet hne, h⟩, by simp⟩)

theorem retrainLanes_other {f : Field} {l : BitVec 5} (h : ∀ e ∈ f.lan.lane, e.2.en = true → BitVec.ofNat 5 e.1 ≠ l) :
    (f.retrainLanes).lane l = f.lane l :=
  trains_other _ l f fun e he => h e (List.mem_filter.1 he).1 (List.mem_filter.1 he).2

/-- The stores hold no error: no recovery is ever needed, and the lanes stay. -/
def CleanLanes (f g : Field) : Prop := g.intact = true ∧ g.lan = f.lan

theorem intact_of_modChan (f : Field) (x : BitVec 17) (m : Chan → Chan) : (f.modChan x m).intact = f.intact := rfl

theorem writeMeter_intact {f : Field} (h : f.intact = true) (x : BitVec 17) : f.writeMeter x = f := by
  rw [writeMeter, heal2_intact h, heal2_intact h, heal2_intact h]

theorem addCounts_intact {f : Field} (h : f.intact = true) (x : BitVec 17) (di de : Nat) :
    (f.addCounts x di de).intact = true ∧ (f.addCounts x di de).lan = f.lan := by
  unfold addCounts
  rw [writeMeter_intact (f := f.modMet x _) ((intact_of_modChan f x _).trans h)]
  exact ⟨h, rfl⟩

/-- Held counts of intact stores are added without a recovery. -/
theorem meterReady_lan {f : Field} (h : f.intact = true) : f.meterReady.lan = f.lan := by
  have step (g : Field) (e : BitVec 17 × Chan) (hg : CleanLanes f g) : ∀ di de : Nat, ∀ m : Meter → Meter,
      CleanLanes f (((g.readMeter e.1).addCounts e.1 di de).modMet e.1 m) := fun di de m => by
    rw [readMeter_intact hg.1]
    obtain ⟨hi, hl⟩ := addCounts_intact hg.1 e.1 di de
    exact ⟨hi, hl.trans hg.2⟩
  refine (List.foldlRecOn (motive := CleanLanes f) f.existing _ ⟨h, rfl⟩ fun g hg e _ => ?_).2
  extract_lets m g1
  have h1 : CleanLanes f g1 := by
    simp only [g1]
    split
    · exact hg
    · exact step g e hg _ _ _
  exact h1

theorem refclkLost_first {f : Field} (hon : f.pwr.st ≠ .thermalOff) (h : f.mer.holdover = false) : ∃ n, f.refclkLost =
    { f with mer := { f.mer with holdover := true, holdEntries := satAdd f.mer.holdEntries 1, holdAt := f.now,
                                 holdOwed := f.mer.holdOwed ++ [f.now] },
             trn := { f.trn with st := if f.trn.st = LinkState.up then LinkState.down else f.trn.st },
             sec := { f.sec with comm := false }, nvm := n } := by
  rw [refclkLost, if_neg (by simp [merOn, hon]), if_neg (by simp [h]), log_frame]
  exact ⟨_, rfl⟩

theorem refclkLost_again {f : Field} (hon : f.pwr.st ≠ .thermalOff) (h : f.mer.holdover = true) :
    f.refclkLost = { f with mer := { f.mer with holdAt := f.now } } := by
  rw [refclkLost, if_neg (by simp [merOn, hon]), if_pos h]

theorem refclkRestored_eq {f : Field} (hon : f.pwr.st ≠ .thermalOff) (h : f.mer.holdover = true)
    (ht : f.mer.holdAt.toNat + 100000 ≤ f.mer.count.toNat) (hcore : f.coreOn = true) :
    f.refclkRestored = (({ f with mer := { f.mer with holdover := false } } : Field).retrainLanes.trainLink).firnClock := by
  have hnow : ¬ f.now.toNat < f.mer.holdAt.toNat + 100000 := Nat.not_lt.2 ht
  rw [refclkRestored, if_neg (by simp [merOn, hon, h, hnow])]
  exact if_neg (by rw [show ({ f with mer := { f.mer with holdover := false } } : Field).coreOn = f.coreOn from rfl, hcore]; decide)

theorem firnClock_inner (f : Field) : Inner f f.firnClock := .ite _ (.meterReady f) (.refl f)
theorem firnClock_slots (f : Field) : SlotsOnly f f.firnClock :=
  Frame.Keeps.ite (r := laneFrame) _ (.meterReady f) (.refl f)
theorem firnClock_lan {f : Field} (h : f.intact = true) : f.firnClock.lan = f.lan := by
  rw [firnClock]
  split
  · exact meterReady_lan h
  · rfl

theorem firnClock_waiting (f : Field) : f.firnClock.firn.waiting = f.firn.waiting :=
  congrArg (·.2.1) (Frame.Keeps.ite (r := firnFrame) _ (.meterReady f) (.refl f))

theorem runWaiting_nil {f : Field} (h : f.firn.waiting = []) : f.runWaiting = f := by
  rw [runWaiting, h]
  show ({ f with firn := { f.firn with waiting := [] } } : Field) = f
  rw [← h]

/-- Holdover has ended: Meridian, Transit and the lanes. -/
theorem restored_spec (f : Field) : f.retrainLanes.trainLink.firnClock.mer = f.mer ∧ f.retrainLanes.trainLink.firnClock.trn.st = .train ∧
    (∀ l, (f.lane l).en = true → (f.retrainLanes.trainLink.firnClock.lane l).st = .train) ∧
    (f.intact = true → ∀ l, (∀ e ∈ f.lan.lane, e.2.en = true → BitVec.ofNat 5 e.1 ≠ l) →
      f.retrainLanes.trainLink.firnClock.lane l = f.lane l) := by
  have hin := firnClock_inner f.retrainLanes.trainLink
  have hfr := retrainLanes_frame f
  refine ⟨hin.mer.trans ?_, hin.trnSt.trans rfl, fun l hen => ?_, fun hi l hl => ?_⟩
  · rw [show f.retrainLanes.trainLink.mer = f.retrainLanes.mer from rfl, hfr]
  · obtain ⟨sl, hsl⟩ := firnClock_slots f.retrainLanes.trainLink l
    rw [hsl]
    exact retrainLanes_en hen
  · have hint : f.retrainLanes.trainLink.intact = true := by
      rw [show f.retrainLanes.trainLink.intact = f.retrainLanes.intact from rfl, hfr]
      exact hi
    rw [lane, firnClock_lan hint]
    exact retrainLanes_other hl

/-! ### PPS (R319, R320) -/

theorem ppsEdge_taken {f : Field} (hon : f.pwr.st ≠ .thermalOff) (hen : f.mer.ppsEn = true)
    (h : f.mer.ppsEdges = 0 ∨ 100000 < f.mer.count.toNat - f.mer.pps.toNat) :
    f.ppsEdge.mer.pps = f.mer.count ∧ f.ppsEdge.mer.ppsFrom = f.mer.count ∧ f.ppsEdge.mer.ppsLost = false ∧
      (f.ppsEdge.mer.ppsOk = true ↔ f.mer.ppsEdges ≠ 0 ∧ 100000000 ≤ f.mer.count.toNat - f.mer.pps.toNat + f.ppsTol ∧
        f.mer.count.toNat - f.mer.pps.toNat ≤ 100000000 + f.ppsTol) := by
  unfold ppsEdge
  extract_lets m d near bad
  have hoff : ¬ (!f.merOn || !m.ppsEn) = true := by
    rw [show m.ppsEn = true from hen]
    simp [merOn, hon]
  have hbad : ¬ (decide (m.ppsEdges ≠ 0) && decide (d ≤ 100000)) = true := by
    simp only [Bool.and_eq_true, decide_eq_true_eq, not_and, Nat.not_le]
    exact fun hne => h.resolve_left hne
  rw [if_neg hoff, if_neg hbad]
  refine ⟨rfl, rfl, rfl, ?_⟩
  show (decide (m.ppsEdges ≠ 0) && near) = true ↔ _
  simp only [near, Bool.and_eq_true, decide_eq_true_eq]
  exact Iff.rfl

theorem ppsEdge_rejected {f : Field} (hon : f.pwr.st ≠ .thermalOff) (hen : f.mer.ppsEn = true) (hne : f.mer.ppsEdges ≠ 0)
    (h : f.mer.count.toNat - f.mer.pps.toNat ≤ 100000) :
    f.ppsEdge = { f with mer := { f.mer with ppsBad := satAdd f.mer.ppsBad 1 } } := by
  rw [ppsEdge, if_neg (by simp [merOn, hon, hen]), if_pos (by simp [hne, h])]

theorem ppsLost_eq {f : Field} (hon : f.pwr.st ≠ .thermalOff) (hen : f.mer.ppsEn = true) (hl : f.mer.ppsLost = false)
    (h : f.mer.ppsFrom.toNat + 100000000 + f.ppsTol ≤ f.mer.count.toNat) : f.ppsLost =
      if f.coreOn then ({ f with mer := { f.mer with ppsOk := false, ppsLost := true } } : Field).raiseAll 0x39 []
      else { f with mer := { f.mer with ppsOk := false, ppsLost := true } } := by
  rw [Field.ppsLost, if_neg (by simp [merOn, hon, hen, hl, h])]
  rfl

end Field

/-- Settles O24: the end of holdover starts every enabled lane, and applying what was held changes no lane's state. -/
theorem referencesAreWatched : Obligations.ReferencesAreWatched := by
  intro s hon
  refine ⟨fun h => s.endsField_of_exec rfl ?_, fun h => s.endsField_of_exec rfl (Field.refclkLost_again hon h),
    fun h ht hcore hwait => s.endsField_of_exec rfl ?_, fun hen => ⟨fun h => s.endsField_of_exec rfl (Field.ppsEdge_taken hon hen h),
      fun hne h => s.endsField_of_exec rfl (Field.ppsEdge_rejected hon hen hne h), fun hl h => s.endsField_of_exec rfl ?_⟩⟩
  · obtain ⟨n, hn⟩ := Field.refclkLost_first hon h
    rw [hn]
    exact ⟨rfl, fun hup => if_pos hup, rfl, rfl, rfl, rfl⟩
  · have hw : (({ s.f with mer := { s.f.mer with holdover := false } } : Field).retrainLanes.trainLink).firnClock.firn.waiting = [] := by
      rw [Field.firnClock_waiting, show ∀ g : Field, g.trainLink.firn = g.firn from fun _ => rfl, Field.retrainLanes_frame]
      exact hwait
    rw [Field.refclkRestoredRow, Field.refclkRestored_eq hon h ht hcore, Field.runWaiting_nil hw]
    exact Field.restored_spec _
  · rw [Field.ppsLost_eq hon hen hl h]
    refine ⟨?_, fun p hcore hroom => ?_⟩
    · split
      · exact Field.mer_of_records (Field.raiseAll_frame _ _ _)
      · rfl
    · rw [if_pos hcore]
      exact Field.raiseAll_told _ _ hroom

end Sys2Proof.Machine
end

section
/-! PROOF. Closure under a trip: whatever relation each small step of a trip, of a gate's end and of a failed insertion keeps, the
whole keeps. So a trip leaves the selectivity events alone, counts no failed insertion, and leaves of a direct channel all but its
gate. -/
namespace Sys2Proof.Machine
set_option Elab.async false

/-- A direct channel without its gate: its comparator, its driver, its sums and its set-up. -/
def Dch.lasting (d : Dch) : Dch :=
  { d with mode := .off, dg := false, acc := 0, gOut := 0, fall := none, timer := .idle, clearedSent := false, stuck := false, tOff := 0,
           preFrozen := none }

namespace Field

/-- A relation that every small step of a trip keeps, the gate aside. -/
structure TripFrame extends Frame where
  lanes : ∀ {f g : Field}, g = f.withLanes g → rel f g
  thaw : ∀ (f : Field) (n : BitVec 4), rel f (f.modDch n (fun v => { v with preFrozen := none }))

/-- One that the end of a gate and the timers of a comparator keep too. -/
structure GateFrame extends TripFrame where
  gate : ∀ (f : Field) (n : BitVec 4) (m : Dch → Dch), (∀ d, (m d).lasting = d.lasting) → rel f (f.modDch n m)

namespace Frame.Keeps

/-! ### A trip -/

section
variable {r : TripFrame}

theorem lanes {f g : Field} (h : g = f.withLanes g) : r.toFrame.Keeps f g := r.lanes h
theorem thaw (f : Field) (n : BitVec 4) : r.toFrame.Keeps f (f.modDch n (fun v => { v with preFrozen := none })) := r.thaw f n
theorem stopStream (f : Field) (c : Ctx) (a : BitVec 2) : r.toFrame.Keeps f (f.stopStream c a) := lanes (stopStream_lanes f c a)
theorem startStream (f : Field) (x : BitVec 17) (rate : Nat) (pre cap : Bool) : r.toFrame.Keeps f (f.startStream x rate pre cap).1 :=
  lanes (startStream_lanes f x rate pre cap)
theorem expressTo (f : Field) (x : BitVec 17) (ty : Byte) : r.toFrame.Keeps f (f.expressTo x ty).1 := lanes (expressTo_lanes f x ty)
theorem done (f : Field) (c : CmdRef) : r.toFrame.Keeps f (f.done c) := complete f c .ok 0

theorem modCtx (f : Field) (n : Nat) (m : Ctx → Ctx) : r.toFrame.Keeps f (f.modCtx n m) := by
  unfold Field.modCtx
  split
  · exact setCtx f _ _
  · exact refl f

theorem capNoCtx (f : Field) (w : CapWait) : r.toFrame.Keeps f (f.capNoCtx w) := by
  unfold Field.capNoCtx
  split
  · exact complete f _ _ _
  · exact firn f _

theorem capNoSlot (f : Field) (w : CapWait) : r.toFrame.Keeps f (f.capNoSlot w) := by
  unfold Field.capNoSlot
  split
  · exact complete f _ _ _
  · exact firn f _

theorem capStart (f : Field) (w : CapWait) (n sl : Nat) : r.toFrame.Keeps f (f.capStart w n sl) := by
  unfold Field.capStart
  extract_lets c pre st f1 rate ents direct dest s _ ctx f2 f3
  have h1 : r.toFrame.Keeps f f1 := startStream f _ _ _ _
  have h2 : r.toFrame.Keeps f f2 := h1.trans ((setCtx f1 n ctx).trans (writeSlot _ sl s 0))
  clear_value f2
  have h3 : r.toFrame.Keeps f f3 := by
    simp only [f3]
    generalize f1.directOf w.ch = o
    cases o with
    | some d => exact h2.trans (thaw f2 d)
    | none => exact h2
  clear_value f3
  split
  · exact h3.trans (done f3 _)
  · exact h3

theorem capAsk (f : Field) (w : CapWait) : r.toFrame.Keeps f (f.capAsk w) := by
  unfold Field.capAsk
  split
  · exact capNoSlot f w
  · split
    · split
      · exact capStart f w _ _
      · exact capNoCtx f w
    · exact ite _ (firn f _) (capNoCtx f w)

theorem tripCapture (f : Field) (x : BitVec 17) (cause : Byte) : r.toFrame.Keeps f (f.tripCapture x cause) := ite _ (capAsk f _) (refl f)

/-- A switch whose gate is off already is confirmed open. -/
theorem confirm (f : Field) (x : BitVec 17) (o : Option (BitVec 4)) (b : BitVec 4 → Prop) [∀ n, Decidable (b n)] :
    r.toFrame.Keeps f (match o with | some n => if b n then f.modAux x (fun a => { a with confirmed := true }) else f | none => f) := by
  cases o with
  | some n => exact ite _ (modAux f x _) (refl f)
  | none => exact refl f

theorem tripChan (f : Field) (x : BitVec 17) (cause : Byte) : r.toFrame.Keeps f (f.tripChan x cause) := by
  unfold Field.tripChan
  extract_lets ctx f1 f2 f3 f4 f5
  have h2 : r.toFrame.Keeps f f2 := (unqueue f x).trans (by
    simp only [f2, f1]
    generalize ctx = o
    cases o with
    | some e => exact (stopStream _ _ _).trans (dropCtx _ _ _)
    | none => exact refl _)
  clear_value f2
  have h4 : r.toFrame.Keeps f f4 := (h2.trans (enter f2 x .tripped cause 0 none)).trans (by
    simp only [f4]
    generalize ctx = o
    cases o with
    | some e => exact insEnd f3 _ _ _
    | none => exact refl f3)
  clear_value f4
  exact (h4.trans (confirm f4 x (f4.directOf x) _)).trans (tripCapture f5 x cause)

theorem rampOver (f : Field) (n : Nat) : r.toFrame.Keeps f (f.rampOver n) := by
  unfold Field.rampOver
  split
  · exact refl f
  · exact ite _ (modCtx f _ _) ((stopStream f _ _).trans (dropCtx _ _ _))

theorem rampsEnd (f : Field) (x : BitVec 17) : r.toFrame.Keeps f (f.rampsEnd x) :=
  foldl (fun g (e : Nat × Ctx) => ite _ (rampOver g e.1) (refl g)) _ f

end

/-! ### The gate -/

section
variable {r : GateFrame}

theorem gate (f : Field) (n : BitVec 4) (m : Dch → Dch) (h : ∀ d, (m d).lasting = d.lasting) : r.toFrame.Keeps f (f.modDch n m) :=
  r.gate f n m h

theorem gateOff (f : Field) (n : BitVec 4) (freeze : Bool) : r.toFrame.Keeps f (f.gateOff n freeze) := by
  unfold Field.gateOff
  extract_lets d f1
  have h1 : r.toFrame.Keeps f f1 := gate f n _ (fun _ => rfl)
  clear_value f1
  split
  · exact ite _ ((h1.trans (rampsEnd f1 _)).trans (modAux _ _ _)) (h1.trans (rampsEnd f1 _))
  · exact h1

theorem openSwitch (f : Field) (x : BitVec 17) (ty : Byte) : r.toFrame.Keeps f (f.openSwitch x ty).1 := by
  unfold Field.openSwitch
  split
  · exact gateOff f _ _
  · exact (rampsEnd f x).trans (expressTo _ _ _)

theorem tripWith (f : Field) (x : BitVec 17) (cause ty : Byte) : r.toFrame.Keeps f (f.tripWith x cause ty).1 := by
  unfold Field.tripWith
  split
  · exact (gateOff f _ _).trans (tripChan _ _ _)
  · exact (tripChan f x cause).trans (openSwitch _ _ _)

theorem selTrip (f : Field) (x : BitVec 17) (cause ty : Byte) : r.toFrame.Keeps f (f.selTrip x cause ty).1 := by
  unfold Field.selTrip
  extract_lets st
  split
  · exact refl f
  · split
    · exact tripWith f x cause ty
    · exact openSwitch f x ty

theorem sendHold (f : Field) (x : BitVec 17) : r.toFrame.Keeps f (f.sendHold x).1 := by
  unfold Field.sendHold
  split
  · exact refl f
  · split
    next n _ =>
      refine gate (r := r) f n (fun d => match d.timer with
        | .holdoff _ => { d with timer := .hold (BitVec.ofNat 64 (f.now.toNat + 100 * d.holdLimUs)) }
        | _ => d) (fun d => ?_)
      cases d.timer <;> rfl
    next => exact expressTo f x 0x03

theorem holdOnce (f : Field) (n : BitVec 16) (x : BitVec 17) : r.toFrame.Keeps f (f.holdOnce n x).1 := by
  unfold Field.holdOnce
  split
  · exact refl f
  · exact sendHold f x

theorem sendCancel (f : Field) (x : BitVec 17) : r.toFrame.Keeps f (f.sendCancel x) := by
  unfold Field.sendCancel
  split
  · exact gate f _ _ (fun _ => rfl)
  · exact expressTo f x 0x05

/-! ### The end of an insertion -/

theorem failCapture (f : Field) (n : Nat) (c : Ctx) (code : Byte) : r.toFrame.Keeps f (f.failCapture n c code) := by
  unfold Field.failCapture
  split
  · split
    · exact refl f
    · exact ite _ ((writeSlot f _ _ _).trans (capEnd _ _ _)) ((writeSlot f _ _ _).trans (modCtx (r := r.toTripFrame) _ _ _))
  · exact refl f

theorem toRampOff (f : Field) (n : Nat) (code : Option Byte) : r.toFrame.Keeps f (f.toRampOff n code) :=
  (dropSwap f n).trans (modCtx (r := r.toTripFrame) _ n _)

/-- A failed insertion beside its count. -/
theorem failIns {f : Field} {n : Nat} {c : Ctx} (code : Byte) (h : tabLook f.hel.ctx n = some c) :
    r.toFrame.Keeps (f.countFail code) (f.failIns n code) := by
  unfold Field.failIns
  split
  next he => rw [h] at he; cases he
  next k he =>
  obtain rfl := Option.some.inj (h.symm.trans he)
  extract_lets f1 f2 f3 f4 g3 g4 g5
  have h2 : r.toFrame.Keeps f1 f2 := by
    simp only [f2]
    split
    · exact (capEnd f1 _ _).trans (modCtx (r := r.toTripFrame) _ _ _)
    · exact refl f1
  clear_value f2
  refine ite _ ?_ ?_
  · exact ((((h2.trans (dropCtx f2 n false)).trans (enter f3 _ _ _ _ _)).trans (insEnd _ n c code)).trans
      (openSwitch f4 _ _)).trans (tripCapture (r := r.toTripFrame) _ _ _)
  · have h4 : r.toFrame.Keeps f1 g4 := ((h2.trans ((enter f2 _ _ _ _ _).trans (insEnd _ n c code))).trans (failCapture g3 n c code)).trans
      (toRampOff _ n _)
    clear_value g4
    exact (h4.trans (confirm (r := r.toTripFrame) g4 _ _ _)).trans (tripCapture (r := r.toTripFrame) g5 _ _)

theorem completeIns (f : Field) (n : Nat) : r.toFrame.Keeps f (f.completeIns n) := by
  unfold Field.completeIns
  split
  · exact refl f
  · exact (((dropCtx f n false).trans (enter _ _ _ _ _ _)).trans (hel _ _)).trans (insEnd _ _ _ _)

end
end Frame.Keeps

/-! ### What a trip leaves -/

theorem dchan_modDch (f : Field) (m n : BitVec 4) (k : Dch → Dch) : (f.modDch n k).dchan m = if m = n then k (f.dchan n) else f.dchan m := by
  by_cases h : m = n
  · subst h
    rw [if_pos rfl]
    exact dchan_modDch_same f m k
  · rw [if_neg h]
    exact dchan_setDch_other f _ (Ne.symm h)

theorem dchan_of_dch {f g : Field} (h : g.dch = f.dch) (n : BitVec 4) : g.dchan n = f.dchan n := by rw [dchan, dchan, h]

/-- Each direct channel of g is that of f as far as a view of it goes. -/
def SameDch {β : Type} (view : Dch → β) (f g : Field) : Prop := ∀ n, view (g.dchan n) = view (f.dchan n)

theorem SameDch.ofDch {β : Type} {view : Dch → β} {f g : Field} (h : g.dch = f.dch) : SameDch view f g := fun n => by rw [dchan_of_dch h]

theorem SameDch.modDch {β : Type} {view : Dch → β} (f : Field) (n : BitVec 4) (m : Dch → Dch) (h : ∀ d, view (m d) = view d) :
    SameDch view f (f.modDch n m) := fun k => by
  rw [dchan_modDch]
  split
  next he => rw [h, he]
  next => rfl

/-- A trip without the gate leaves of each direct channel all but the freeze of its buffer. -/
def dchFrame {β : Type} (view : Dch → β) (hview : ∀ d, view { d with preFrozen := none } = view d) : TripFrame where
  rel := SameDch view
  refl _ := .ofDch rfl
  trans a b n := (b n).trans (a n)
  nev _ _ _ := .ofDch rfl
  firn _ _ _ := .ofDch rfl
  hel _ _ _ := .ofDch rfl
  storms _ _ := .ofDch rfl
  raise f p ty h b := .ofDch (raise_dch f p ty h b)
  complete f r s d := .ofDch (dch_of_records (complete_frame f r s d))
  abandonStream f c := .ofDch (dch_of_lanes (abandonStream_lanes f c))
  lanes h := .ofDch (dch_of_lanes h)
  thaw f n := .modDch f n _ hview

/-- A trip leaves of each direct channel all but its gate. -/
def lastingFrame : GateFrame where
  toTripFrame := dchFrame Dch.lasting (fun _ => rfl)
  gate f n m h := .modDch f n m h

/-- A trip leaves the events of selectivity, and of it all but the storms. -/
def selFrame : GateFrame where
  rel f g := g.sel = { f.sel with storms := g.sel.storms }
  refl _ := rfl
  trans a b := by rw [a] at b; exact b
  nev _ _ _ := rfl
  firn _ _ _ := rfl
  hel _ _ _ := rfl
  storms _ _ := rfl
  raise f p ty h b := by rw [raise_sel]
  complete f r s d := by rw [sel_of_records (complete_frame f r s d)]
  abandonStream f c := by rw [sel_of_work (work_of_lanes (abandonStream_lanes f c))]
  lanes h := by rw [sel_of_work (work_of_lanes h)]
  thaw _ _ := rfl
  gate _ _ _ _ := rfl

/-- A trip counts no failed insertion. -/
def failsFrame : GateFrame where
  rel f g := g.hel.fails = f.hel.fails
  refl _ := rfl
  trans a b := b.trans a
  nev _ _ _ := rfl
  firn _ _ _ := rfl
  hel _ _ h := h
  storms _ _ := rfl
  raise f p ty h b := by rw [raise_hel]
  complete f r s d := by rw [hel_of_records (complete_frame f r s d)]
  abandonStream f c := by rw [hel_of_lanes (abandonStream_lanes f c)]
  lanes h := by rw [hel_of_lanes h]
  thaw _ _ := rfl
  gate _ _ _ _ := rfl

/-- A trip stays within the stores, the channels, the lanes, the gates and the records. -/
def innerGateFrame : GateFrame where
  toFrame := innerFrame
  lanes h := Inner.ofLanes h
  thaw f _ := Inner.dch f _
  gate f _ _ _ := Inner.dch f _

end Field
end Sys2Proof.Machine
end

section
/-! PROOF. The selectivity engine leaves the set-up of a direct channel alone; a trip ends in TRIPPED with its cause. With these the
comparator, the driver feedback and the scan slot of a direct channel act as R290 to R299 say. -/
namespace Sys2Proof.Machine
set_option Elab.async false
namespace Field

/-! ### Closure under a report -/

/-- A relation that every small step of the selectivity engine keeps. -/
structure SelectFrame extends GateFrame where
  sel : ∀ (f : Field) (s : Sel), rel f { f with sel := s }
  raiseAt : ∀ (f : Field) (p : Part) (ty : Byte) (h : Word) (t : Count) (b : Bytes), rel f (f.raiseAt p ty h t b)

namespace Frame.Keeps
section
variable {r : SelectFrame}

theorem sel (f : Field) (s : Sel) : r.toFrame.Keeps f { f with sel := s } := r.sel f s
theorem setEv (f : Field) (e : SelEv) : r.toFrame.Keeps f (f.setEv e) := sel f _
theorem addEv (f : Field) (e : SelEv) : r.toFrame.Keeps f (f.addEv e) := sel f _
theorem ignored (f : Field) : r.toFrame.Keeps f f.ignored := sel f _
theorem noteDec (f : Field) (n : Nat) : r.toFrame.Keeps f (f.noteDec n) := sel f _
theorem raiseAt (f : Field) (p : Part) (ty : Byte) (h : Word) (t : Count) (b : Bytes) : r.toFrame.Keeps f (f.raiseAt p ty h t b) :=
  r.raiseAt f p ty h t b

theorem raiseMembers (f : Field) (e : SelEv) (ty : Byte) (h : Word) (b : Bytes) : r.toFrame.Keeps f (f.raiseMembers e ty h b) :=
  foldl (fun g p => raise g p ty h b) _ f

theorem commit (f : Field) (e : SelEv) (t : Times) (sent : Bool) : r.toFrame.Keeps f (f.commit e t sent) :=
  (setEv f _).trans (foldl (fun g p => raiseAt g p _ _ _ _) _ _)

theorem tripCommit (f : Field) (e : SelEv) (t : Times) : r.toFrame.Keeps f (f.tripCommit e t).1 :=
  (selTrip (r := r.toGateFrame) f e.cand 0x10 0x02).trans (commit _ e t _)

theorem decideEv (f : Field) (e : SelEv) (opened : Bool) (t : Times) : r.toFrame.Keeps f (f.decideEv e opened t).1 := by
  unfold Field.decideEv
  extract_lets p
  split
  · exact commit f e t false
  · split
    · exact tripCommit f e t
    · exact setEv f _

theorem hold (f : Field) (n : BitVec 16) (x : BitVec 17) : r.toFrame.Keeps f (f.holdOnce n x).1 := holdOnce (r := r.toGateFrame) f n x

/-- A pass over the events that hold a channel above their candidate. -/
theorem holds (op : Field × Bool → SelEv → Field × Bool) (hop : ∀ g e, r.toFrame.Keeps g.1 (op g e).1) (l : List SelEv) :
    ∀ g : Field × Bool, r.toFrame.Keeps g.1 (l.foldl op g).1 := by
  induction l with
  | nil => exact fun g => refl g.1
  | cons e l ih => exact fun g => (hop g e).trans (ih _)

theorem resolve (f : Field) (n : BitVec 17) (opened : Bool) (t : Times) : r.toFrame.Keeps f (f.resolve n opened t).1 := by
  unfold Field.resolve
  extract_lets path c d fs _ e0
  split
  · exact ignored f
  · split
    next e _ =>
      split
      · exact refl f
      · split
        · extract_lets e1 k h
          exact ((setEv f e1).trans (decideEv _ e1 opened t)).trans (hold k.1 _ _)
        · exact (selTrip (r := r.toGateFrame) f n 0x10 0x02).trans (setEv d.1 _)
    next =>
      split
      · exact holds _ (fun g e =>
          (show r.toFrame.Keeps g.1 ((g.1.holdOnce e.num n).1.setEv _) from (hold g.1 e.num n).trans (setEv _ _))) fs (f, false)
      · split
        · exact sel f _
        · exact (addEv f e0).trans (decideEv _ e0 opened t)

theorem report (f : Field) (n : BitVec 17) (opened : Bool) (lat pres : Nat) : r.toFrame.Keeps f (f.report n opened lat pres) := by
  unfold Field.report
  extract_lets _ f1 o
  have h1 : r.toFrame.Keeps f f1 := sel f _
  clear_value f1
  have ho : r.toFrame.Keeps f o.1 := h1.trans (resolve f1 n opened _)
  exact ite _ (ite _ (ho.trans (noteDec _ _)) ho) (h1.trans (ignored f1))

theorem closeEv (f : Field) (e : SelEv) (o : SelResult) (h : Word) : r.toFrame.Keeps f (f.closeEv e o h) := by
  unfold Field.closeEv
  extract_lets s f1 due f2
  have h1 : r.toFrame.Keeps f f1 := sel f _
  clear_value f1
  have h2 : r.toFrame.Keeps f f2 := h1.trans (ite _ (refl f1) (foldl (fun g (m : Held) => sendCancel (r := r.toGateFrame) g m.ch) _ f1))
  exact h2.trans (raiseMembers f2 e _ _ _)

theorem clearedFor (f : Field) (e : SelEv) (x : BitVec 17) : r.toFrame.Keeps f (f.clearedFor e x) := ite _ (closeEv f _ _ _) (refl f)
theorem cleared (f : Field) (x : BitVec 17) : r.toFrame.Keeps f (f.cleared x) :=
  ite _ (refl f) (foldl (fun g e => clearedFor g e x) _ f)

theorem clearSweep (f : Field) : r.toFrame.Keeps f f.clearSweep := by
  refine ite _ (refl f) (foldl (fun g k => ?_) _ f)
  extract_lets n d
  split
  · exact ite _ ((gate (r := r.toGateFrame) g n (fun d => { d with clearedSent := true }) (fun _ => rfl)).trans (cleared _ _)) (refl g)
  · exact refl g

end
end Frame.Keeps

/-- The selectivity engine leaves of each direct channel all but its gate and timers. -/
def lastingSelect : SelectFrame where
  toGateFrame := lastingFrame
  sel _ _ := .ofDch rfl
  raiseAt f p ty h t b := .ofDch (dch_of_records (raiseAt_frame f p ty h t b))

/-- The selectivity engine stays within the stores, the channels, the lanes, the gates and the records. -/
def innerSelect : SelectFrame where
  toGateFrame := innerGateFrame
  sel f s := Inner.sel f s
  raiseAt f p ty h t b := Inner.ofRecords (raiseAt_frame f p ty h t b)

/-! ### CLEARED ends timers alone -/

/-- From f to g no channel changes, and of a direct channel no more than that it has sent its CLEARED, or its hold-off or hold has
ended. -/
structure TimersEnd (f g : Field) : Prop where
  nev : g.nev = f.nev
  dchan : ∀ n, ∃ t c, g.dchan n = { f.dchan n with timer := t, clearedSent := c } ∧ (t = (f.dchan n).timer ∨ t = .idle)

namespace TimersEnd
theorem ofDch {f g : Field} (hn : g.nev = f.nev) (h : g.dch = f.dch) : TimersEnd f g :=
  ⟨hn, fun n => ⟨_, _, dchan_of_dch h n, .inl rfl⟩⟩

theorem refl (f : Field) : TimersEnd f f := ofDch rfl rfl

theorem trans {f g h : Field} (a : TimersEnd f g) (b : TimersEnd g h) : TimersEnd f h := by
  refine ⟨b.nev.trans a.nev, fun n => ?_⟩
  obtain ⟨t, c, hg, ht⟩ := a.dchan n
  obtain ⟨u, e, hh, hu⟩ := b.dchan n
  refine ⟨u, e, by rw [hh, hg], ?_⟩
  rw [hg] at hu
  exact hu.elim (fun hu => hu ▸ ht) .inr

theorem ite {f g h : Field} (c : Prop) [Decidable c] (a : TimersEnd f g) (b : TimersEnd f h) : TimersEnd f (if c then g else h) := by
  split
  · exact a
  · exact b

theorem foldl {α : Type} {op : Field → α → Field} (hop : ∀ f a, TimersEnd f (op f a)) (l : List α) : ∀ f : Field, TimersEnd f (l.foldl op f) := by
  induction l with
  | nil => exact refl
  | cons a l ih => exact fun f => (hop f a).trans (ih _)

theorem modDch (f : Field) (n : BitVec 4) (m : Dch → Dch)
    (h : ∀ d, ∃ t c, m d = { d with timer := t, clearedSent := c } ∧ (t = d.timer ∨ t = .idle)) : TimersEnd f (f.modDch n m) := by
  refine ⟨rfl, fun k => ?_⟩
  rw [dchan_modDch]
  split
  next he => exact he ▸ h _
  next => exact ⟨_, _, rfl, .inl rfl⟩

theorem raise (f : Field) (p : Part) (ty : Byte) (h : Word) (b : Bytes) : TimersEnd f (f.raise p ty h b) :=
  ofDch (raise_nev f p ty h b) (raise_dch f p ty h b)

theorem sendCancel (f : Field) (x : BitVec 17) : TimersEnd f (f.sendCancel x) := by
  unfold Field.sendCancel
  split
  · exact modDch f _ _ fun d => ⟨_, _, rfl, .inr rfl⟩
  · exact ofDch (nev_of_lanes (expressTo_lanes f x _)) (dch_of_lanes (expressTo_lanes f x _))

theorem closeEv (f : Field) (e : SelEv) (o : SelResult) (h : Word) : TimersEnd f (f.closeEv e o h) := by
  unfold Field.closeEv
  extract_lets s f1 due f2
  have h1 : TimersEnd f f1 := ofDch rfl rfl
  clear_value f1
  have h2 : TimersEnd f f2 := h1.trans (ite _ (refl f1) (foldl (fun g (m : Held) => sendCancel g m.ch) _ f1))
  exact h2.trans (foldl (fun g p => raise g p _ _ _) _ f2)

theorem clearedFor (f : Field) (e : SelEv) (x : BitVec 17) : TimersEnd f (f.clearedFor e x) := ite _ (closeEv f _ _ _) (refl f)
theorem cleared (f : Field) (x : BitVec 17) : TimersEnd f (f.cleared x) := ite _ (refl f) (foldl (fun g e => clearedFor g e x) _ f)

theorem clearSweep (f : Field) : TimersEnd f f.clearSweep := by
  refine ite _ (refl f) (foldl (fun g k => ?_) _ f)
  extract_lets n d
  split
  · exact ite _ ((modDch g n (fun d => { d with clearedSent := true }) fun d => ⟨_, _, rfl, .inl rfl⟩).trans (cleared _ _)) (refl g)
  · exact refl g
end TimersEnd

/-! ### A trip -/

/-- The channel is TRIPPED with a cause. -/
def Tripped (x : BitVec 17) (cause : Byte) (f : Field) : Prop := (f.chan x).nev.state = .tripped ∧ (f.chan x).fr.cause = cause

theorem Tripped.of_sameEntries {x : BitVec 17} {cause : Byte} {f g : Field} (a : Tripped x cause f) (h : SameEntries f g) : Tripped x cause g :=
  ⟨by rw [(h x).1]; exact a.1, by rw [(h x).2]; exact a.2⟩

theorem Tripped.of_nev {x : BitVec 17} {cause : Byte} {f g : Field} (a : Tripped x cause f) (h : g.nev = f.nev) : Tripped x cause g :=
  a.of_sameEntries (.ofNev h)

theorem enter_tripped (f : Field) (x : BitVec 17) (cause detail : Byte) (iss : Option Part) :
    Tripped x cause (f.enter x .tripped cause detail iss) := by
  have ht : Tripped x cause (f.transit x .tripped cause) := by
    unfold transit
    exact ⟨by simp, by simp⟩
  exact ht.of_nev (enter_nev_any f x .tripped cause detail iss)

theorem SameEntries.confirm (f : Field) (x : BitVec 17) (o : Option (BitVec 4)) (b : BitVec 4 → Prop) [∀ n, Decidable (b n)] :
    SameEntries f (match o with | some n => if b n then f.modAux x (fun a => { a with confirmed := true }) else f | none => f) := by
  cases o with
  | none => exact .ofNev rfl
  | some n =>
    dsimp only
    split
    · exact .modAux f x _
    · exact .ofNev rfl

theorem tripChan_tripped (f : Field) (x : BitVec 17) (cause : Byte) : Tripped x cause (f.tripChan x cause) := by
  unfold tripChan
  extract_lets ctx f1 f2 f3 f4 f5
  have h3 : Tripped x cause f3 := enter_tripped f2 x cause 0 none
  have h4 : f4.nev = f3.nev := by
    simp only [f4]
    generalize ctx = o
    cases o with
    | some e => exact insEnd_nev f3 _ _ _
    | none => rfl
  exact ((h3.of_nev h4).of_sameEntries (.confirm f4 x (f4.directOf x) _)).of_nev (tripCapture_nev f5 x cause)

/-! ### The gate of a direct channel -/


end Field
end Sys2Proof.Machine
end

section
/-! PROOF. Comparators and drivers of direct channels (R290 to R299). -/
namespace Sys2Proof.Machine
set_option Elab.async false

/-- A direct channel whose gate goes OFF at count t (R288). -/
def Dch.off (d : Dch) (freeze : Bool) (t : Count) : Dch :=
  { d with
    mode := .off, dg := false, acc := 0, gOut := 0, fall := none, timer := .idle, clearedSent := false,
    stuck := if d.mode = .off then d.stuck else false, tOff := if d.mode = .off then d.tOff else t,
    preFrozen := if freeze && d.mode ≠ .off && d.preFrozen.isNone then some t else d.preFrozen }

/-- A direct channel but for the freeze of its buffer. -/
def Dch.unfrozen (d : Dch) : Dch := { d with preFrozen := none }

namespace Field

/-! ### The gate -/

theorem gateOff_dch (f : Field) (n : BitVec 4) (freeze : Bool) :
    (f.gateOff n freeze).dch = (f.modDch n (fun d => d.off freeze f.now)).dch := by
  unfold gateOff
  extract_lets d f1
  have h1 : f1.dch = (f.modDch n (fun d => d.off freeze f.now)).dch := rfl
  clear_value f1
  split
  next y _ => exact ((confirmedOpen_spec (f1.rampsEnd y) y).2.1.trans (rampsEnd_dch f1 y)).trans h1
  next => exact h1

theorem gateOff_dchan (f : Field) (n m : BitVec 4) (freeze : Bool) :
    (f.gateOff n freeze).dchan m = if m = n then (f.dchan n).off freeze f.now else f.dchan m :=
  (dchan_of_dch (gateOff_dch f n freeze) m).trans (dchan_modDch f m n _)

theorem gateOff_entries (f : Field) (n : BitVec 4) (freeze : Bool) : SameEntries f (f.gateOff n freeze) := (gateOff_spec f n freeze).1

/-- A trip without the gate leaves a direct channel all but the freeze of its buffer. -/
theorem tripChan_unfrozen (f : Field) (x : BitVec 17) (cause : Byte) (n : BitVec 4) :
    ((f.tripChan x cause).dchan n).unfrozen = (f.dchan n).unfrozen :=
  Frame.Keeps.tripChan (r := dchFrame Dch.unfrozen (fun _ => rfl)) f x cause n

/-! ### The comparator (R290 to R292) -/

/-- What a comparator action leaves in its direct channel. -/
theorem comparatorOpen_dchan (f : Field) (n : BitVec 4) (x : BitVec 17) :
    ((f.comparatorOpen n x).dchan n).unfrozen =
      { (f.dchan n).off true f.now with cmpOpen := satAdd (f.dchan n).cmpOpen 1, preFrozen := none } := by
  unfold comparatorOpen
  extract_lets f1 s f2
  have h1 : f1.dchan n = { (f.dchan n).off true f.now with cmpOpen := satAdd (f.dchan n).cmpOpen 1 } := by
    simp only [f1]
    rw [dchan_modDch_same, gateOff_dchan, if_pos rfl]
    rfl
  have h2 : (f2.dchan n).unfrozen = (f1.dchan n).unfrozen := by
    simp only [f2]
    split
    · exact tripChan_unfrozen f1 x 0x07 n
    · rfl
  rw [show (f2.modAux x _).dchan n = f2.dchan n from rfl, h2, h1]
  rfl

theorem comparatorOpen_localTrip (f : Field) (n : BitVec 4) (x : BitVec 17) : ((f.comparatorOpen n x).chan x).aux.localTrip = true := by
  unfold comparatorOpen
  simp [modAux]

theorem coreOn_of_pwr {f g : Field} (h : g.pwr = f.pwr) : g.coreOn = f.coreOn := by rw [coreOn, coreOn, h]

theorem gateOff_coreOn (f : Field) (n : BitVec 4) (freeze : Bool) : (f.gateOff n freeze).coreOn = f.coreOn :=
  coreOn_of_pwr (Inner.pwr (Frame.Keeps.gateOff (r := innerGateFrame) f n freeze))

/-- A comparator action on a CLOSED channel, the core running, trips it with LOCAL_TRIP. -/
theorem comparatorOpen_tripped {f : Field} {n : BitVec 4} {x : BitVec 17} (hcore : f.coreOn = true) (hst : (f.chan x).nev.state = .closed) :
    Tripped x 0x07 (f.comparatorOpen n x) := by
  unfold comparatorOpen
  extract_lets f1 s f2
  have hs : s = .closed := (congrArg Nev.state (gateOff_entries f n true x).1).trans hst
  have hc : f1.coreOn = true := (gateOff_coreOn f n true).trans hcore
  have h2 : Tripped x 0x07 f2 := by
    simp only [f2, hs, hc]
    exact tripChan_tripped f1 x 0x07
  exact h2.of_sameEntries (.modAux f2 x _)

/-- The direct channel of a recognised crossing. -/
def recognised (f : Field) (n : BitVec 4) : Field :=
  f.setDch n { f.dchan n with cmp := true, clear := false, tAssert := f.now, preFrozen := some ((f.dchan n).preFrozen.getD f.now) }

/-- The direct channel as a crossing that is reported leaves it, before its gate or its hold-off. -/
def crossed (f : Field) (n : BitVec 4) : Field :=
  (f.recognised n).modDch n (fun d => { d with mayReport := false, reports := satAdd d.reports 1 })

/-- The hold-off of a crossing starts (R291). -/
def heldOff (f : Field) (n : BitVec 4) : Field :=
  f.modDch n (fun d => { d with timer := .holdoff (f.now + BitVec.ofNat 64 (100 * d.holdoffUs)) })

/-- A report where the core runs. -/
def reportIf (f : Field) (x : BitVec 17) (opened : Bool) (lat pres : Nat) : Field := if f.coreOn then f.report x opened lat pres else f

theorem crossed_dchan (f : Field) (n : BitVec 4) : (f.crossed n).dchan n = { f.dchan n with
    cmp := true, clear := false, tAssert := f.now, preFrozen := some ((f.dchan n).preFrozen.getD f.now), mayReport := false,
    reports := satAdd (f.dchan n).reports 1 } := by
  rw [crossed, dchan_modDch_same, recognised, dchan_setDch_same]

section
variable {f : Field} {n : BitVec 4} {x : BitVec 17} {run lat pres : Nat} (hb : (f.dchan n).bound = some x) (ht : (f.dchan n).thresh ≠ 0)
include hb ht

theorem crossing_short (hr : run ≠ 0) (h : (f.dchan n).mode = .off ∨ run ≤ (f.dchan n).cmpFilt.toNat) :
    f.comparatorCrossing n run lat pres = f.setDch n { f.dchan n with clear := false, tAssert := f.now } := by
  have h' : (decide ((f.dchan n).mode = .off) || decide (run ≤ (f.dchan n).cmpFilt.toNat)) = true := by simpa using h
  simp only [comparatorCrossing, hb]
  rw [if_neg (by simpa [hr] using ht), if_pos h']

/-- A crossing that has passed the filter (R290). -/
theorem crossing_long (hm : (f.dchan n).mode ≠ .off) (hr : (f.dchan n).cmpFilt.toNat < run) : f.comparatorCrossing n run lat pres =
    if (f.dchan n).mayReport = false then f.recognised n
    else if (f.dchan n).immediate = true then (((f.crossed n).gateOff n true).reportIf x true lat pres).comparatorOpen n x
    else (((f.crossed n).heldOff n).reportIf x false lat pres).clearSweep := by
  have h0 : run ≠ 0 := by omega
  have hlong : ¬ (decide ((f.dchan n).mode = .off) || decide (run ≤ (f.dchan n).cmpFilt.toNat)) = true := by simp [hm, hr]
  unfold comparatorCrossing
  extract_lets d f1 f2
  rw [hb]
  dsimp only
  rw [if_neg (by simpa [h0] using ht), if_neg hlong]
  by_cases hmay : (f.dchan n).mayReport = false
  · rw [if_pos hmay, if_pos (by rw [show d.mayReport = false from hmay]; rfl)]
    rfl
  · rw [if_neg hmay, if_neg (by rw [show d.mayReport = true by simpa using hmay]; decide)]
    rfl

end

/-- A reported crossing with IMMEDIATE: the gate is OFF and counted, whatever its report brings. -/
theorem crossing_immediate_spec {f : Field} {n : BitVec 4} {x : BitVec 17} {run lat pres : Nat} (hb : (f.dchan n).bound = some x)
    (ht : (f.dchan n).thresh ≠ 0) (hm : (f.dchan n).mode ≠ .off) (hr : (f.dchan n).cmpFilt.toNat < run)
    (hmay : (f.dchan n).mayReport = true) (himm : (f.dchan n).immediate = true) :
    ∃ d : Dch, ((f.comparatorCrossing n run lat pres).dchan n).unfrozen = d ∧ d.mode = .off ∧ d.dg = false ∧ d.cmp = true ∧
      d.mayReport = false ∧ d.reports = satAdd (f.dchan n).reports 1 ∧ d.cmpOpen = satAdd (f.dchan n).cmpOpen 1 ∧
      ((f.comparatorCrossing n run lat pres).chan x).aux.localTrip = true := by
  rw [crossing_long hb ht hm hr, if_neg (by rw [hmay]; decide), if_pos himm]
  generalize hg : ((f.crossed n).gateOff n true).reportIf x true lat pres = g
  have hlast : (g.dchan n).lasting = ((f.crossed n).dchan n).lasting := by
    have h1 := Frame.Keeps.gateOff (r := lastingFrame) (f.crossed n) n true n
    rw [← hg, reportIf]
    split
    · exact (Frame.Keeps.report (r := lastingSelect) ((f.crossed n).gateOff n true) x true lat pres n).trans h1
    · exact h1
  rw [crossed_dchan] at hlast
  refine ⟨_, comparatorOpen_dchan g n x, rfl, rfl, ?_, ?_, ?_, ?_, comparatorOpen_localTrip g n x⟩
  · exact (congrArg Dch.cmp hlast :)
  · exact (congrArg Dch.mayReport hlast :)
  · exact (congrArg Dch.reports hlast :)
  · exact (congrArg (fun d : Dch => satAdd d.cmpOpen 1) hlast :)

/-! ### The timers (R291) -/

section
variable {f : Field} {n : BitVec 4} {x : BitVec 17} (hb : (f.dchan n).bound = some x)
include hb

theorem timerEnd_idle : f.timerEnd n false = f.modDch n (fun d => { d with timer := .idle, cmp := false, clear := d.clear && !false, tAssert := d.tAssert }) := by
  unfold timerEnd
  rw [hb]
  rfl

/-- The end of a hold-off or hold whose comparator is asserted: the gate is OFF, and the CLOSED channel trips with LOCAL_TRIP. -/
theorem timerEnd_trips (hm : (f.dchan n).mode ≠ .off) (hcore : f.coreOn = true) (hst : (f.chan x).nev.state = .closed) :
    ((f.timerEnd n true).dchan n).mode = .off ∧ ((f.timerEnd n true).dchan n).dg = false ∧ ((f.timerEnd n true).dchan n).timer = .idle ∧
      Tripped x 0x07 (f.timerEnd n true) := by
  unfold timerEnd
  rw [hb]
  extract_lets f1
  have hcore1 : f1.coreOn = true := hcore
  have hst1 : (f1.chan x).nev.state = .closed := hst
  clear_value f1
  dsimp only
  rw [if_pos (by simp [hm])]
  have hd := comparatorOpen_dchan f1 n x
  refine ⟨congrArg Dch.mode hd, congrArg Dch.dg hd, congrArg Dch.timer hd, comparatorOpen_tripped hcore1 hst1⟩

end
theorem holdoffExpiry_due {f : Field} {n : BitVec 4} {d : Count} (b : Bool) (ht : (f.dchan n).timer = .holdoff d) (hd : d ≤ f.now) :
    f.holdoffExpiry n b = f.timerEnd n b := by
  unfold holdoffExpiry
  rw [ht]
  exact if_pos (decide_eq_true hd)

theorem holdLimitExpiry_due {f : Field} {n : BitVec 4} {d : Count} (b : Bool) (ht : (f.dchan n).timer = .hold d) (hd : d ≤ f.now) :
    f.holdLimitExpiry n b = f.timerEnd n b := by
  unfold holdLimitExpiry
  rw [ht]
  exact if_pos (decide_eq_true hd)

theorem clearTimeExpiry_early {f : Field} {n : BitVec 4} (h : f.now.toNat < (f.dchan n).tAssert.toNat + 100 * (f.dchan n).clearUs) :
    f.clearTimeExpiry n = f := if_pos (by simp [h])

theorem clearTimeExpiry_due {f : Field} {n : BitVec 4} {x : BitVec 17} (hb : (f.dchan n).bound = some x)
    (hc : (f.dchan n).clear = false ∨ (f.dchan n).mayReport = false)
    (h : (f.dchan n).tAssert.toNat + 100 * (f.dchan n).clearUs ≤ f.now.toNat) :
    f.clearTimeExpiry n = (f.setDch n { f.dchan n with cmp := false, clear := true, mayReport := true, timer := .idle }).clearSweep := by
  have hb' : ((f.dchan n).clear && (f.dchan n).mayReport) = false := by rcases hc with hc | hc <;> simp [hc]
  exact if_neg (by simp [hb, hb', Nat.not_lt.2 h])

/-- The comparator has been clear for its clear time: what CLEARED sends leaves the gate alone. -/
theorem clearTimeExpiry_spec {f : Field} {n : BitVec 4} {x : BitVec 17} (hb : (f.dchan n).bound = some x)
    (hc : (f.dchan n).clear = false ∨ (f.dchan n).mayReport = false)
    (h : (f.dchan n).tAssert.toNat + 100 * (f.dchan n).clearUs ≤ f.now.toNat) :
    ((f.clearTimeExpiry n).dchan n).clear = true ∧ ((f.clearTimeExpiry n).dchan n).mayReport = true ∧
      ((f.clearTimeExpiry n).dchan n).cmp = false ∧ ((f.clearTimeExpiry n).dchan n).timer = .idle ∧
      ((f.clearTimeExpiry n).dchan n).mode = (f.dchan n).mode ∧ (f.clearTimeExpiry n).saf = f.saf ∧ (f.clearTimeExpiry n).mer = f.mer := by
  rw [clearTimeExpiry_due hb hc h]
  generalize hg : f.setDch n { f.dchan n with cmp := false, clear := true, mayReport := true, timer := .idle } = g
  have hin : Inner g g.clearSweep := Frame.Keeps.clearSweep (r := innerSelect) g
  have hd : g.dchan n = { f.dchan n with cmp := false, clear := true, mayReport := true, timer := .idle } := by rw [← hg, dchan_setDch_same]
  obtain ⟨t, c, hs, hti⟩ := (TimersEnd.clearSweep g).dchan n
  rw [hd] at hs hti
  rw [hs]
  refine ⟨rfl, rfl, rfl, hti.elim id id, rfl, hin.saf.trans ?_, hin.mer.trans ?_⟩
  · rw [← hg]; rfl
  · rw [← hg]; rfl

end Field

/-- Settles O25: each row's write of its direct channel; what a report or CLEARED brings leaves the comparator alone. -/
theorem comparatorsAct : Obligations.ComparatorsAct := by
  intro s n x hb
  have setOnly (d : Dch) : (s.f.setDch n d).dchan n = d ∧ (∀ m, m ≠ n → (s.f.setDch n d).dchan m = s.f.dchan m) ∧
      s.f.setDch n d = { s.f with dch := (s.f.setDch n d).dch } :=
    ⟨Field.dchan_setDch_same _ _ _, fun m hm => Field.dchan_setDch_other _ _ hm.symm, rfl⟩
  have crossing (run lat pres : Nat) {P : Field → Prop} := s.endsField_of_exec (i := .comparatorCrossing n ⟨run, lat, pres⟩)
    (op := fun f => f.comparatorCrossing n run lat pres) (P := P) rfl
  have holdoff (b : Bool) {P : Field → Prop} := s.endsField_of_exec (i := .holdoffExpiry n b) (op := fun f => f.holdoffExpiry n b) (P := P) rfl
  have hold (b : Bool) {P : Field → Prop} := s.endsField_of_exec (i := .holdLimitExpiry n b) (op := fun f => f.holdLimitExpiry n b) (P := P) rfl
  refine ⟨fun run lat pres ht hr h => crossing run lat pres ?_, fun run lat pres ht hm hr hmay => crossing run lat pres ?_,
    fun run lat pres ht hm hr hmay himm => crossing run lat pres ?_, fun run lat pres ht hm hr hmay himm hcore => crossing run lat pres ?_,
    fun d ht hd hm hcore hst => holdoff true ?_, fun d ht hd hm hcore hst => hold true ?_, fun d ht hd => holdoff false ?_, fun hc h => s.endsField_of_exec (op := fun f => f.clearTimeExpiry n) rfl (Field.clearTimeExpiry_spec hb hc h),
    fun h => s.endsField_of_exec (op := fun f => f.clearTimeExpiry n) rfl (Field.clearTimeExpiry_early h)⟩
  · rw [Field.crossing_short hb ht hr h]
    exact setOnly _
  · rw [Field.crossing_long hb ht hm hr, if_pos hmay]
    exact setOnly _
  · obtain ⟨d, hd, hmode, hdg, hcmp, hrep, hreps, hopen, hloc⟩ := Field.crossing_immediate_spec (lat := lat) (pres := pres) hb ht hm hr hmay himm
    generalize s.f.comparatorCrossing n run lat pres = g at hd hloc ⊢
    subst hd
    exact ⟨hmode, hdg, hcmp, hrep, hreps, hopen, hloc⟩
  · rw [Field.crossing_long hb ht hm hr, if_neg (by rw [hmay]; decide), if_neg (by rw [himm]; decide)]
    have hoff : ¬ ((s.f.crossed n).heldOff n).coreOn = true := by
      rw [show ((s.f.crossed n).heldOff n).coreOn = s.f.coreOn from rfl, hcore]; decide
    rw [Field.reportIf, if_neg hoff, Field.clearSweep, if_pos (by simpa using hoff)]
    refine ⟨?_, fun m hm => ?_, rfl⟩
    · rw [Field.heldOff, Field.dchan_modDch_same, Field.crossed_dchan]
      rfl
    · rw [Field.heldOff, Field.dchan_modDch, if_neg hm, Field.crossed, Field.dchan_modDch, if_neg hm, Field.recognised,
        Field.dchan_setDch_other _ _ hm.symm]
  · rw [Field.holdoffExpiry_due true ht hd]
    exact Field.timerEnd_trips hb hm hcore hst
  · rw [Field.holdLimitExpiry_due true ht hd]
    exact Field.timerEnd_trips hb hm hcore hst
  · rw [Field.holdoffExpiry_due false ht hd, Field.timerEnd_idle hb]
    refine ⟨?_, fun m hm => ?_, rfl⟩
    · rw [Field.dchan_modDch_same, Bool.not_false, Bool.and_true]
    · rw [Field.dchan_modDch, if_neg hm]

end Sys2Proof.Machine
end

section
/-! PROOF. Driver feedback and scan slots (R294 to R299), the reference and the cross-check (R302 to R304), and the host sequences
(R305 to R308). -/
namespace Sys2Proof.Machine
set_option Elab.async false
namespace Field

/-! ### Driver feedback (R294) -/

/-- An element event leaves every direct channel as it is. -/
def sameDchFrame : Frame where
  rel f g := g.dch = f.dch
  refl _ := rfl
  trans a b := b.trans a
  nev _ _ _ := rfl
  firn _ _ _ := rfl
  hel _ _ _ := rfl
  storms _ _ := rfl
  raise f p ty h b := raise_dch f p ty h b
  complete f r s d := dch_of_records (complete_frame f r s d)
  abandonStream f c := dch_of_lanes (abandonStream_lanes f c)

/-- A driver fault: the gate is OFF, the fault counted, and the CLOSED channel tripped with DRIVER. -/
theorem driverFault_spec {f : Field} {n : BitVec 4} {x : BitVec 17} (hb : (f.dchan n).bound = some x) (hcore : f.coreOn = true)
    (hdfb : (f.dchan n).dfb = false) (hst : (f.chan x).nev.state = .closed) :
    ((f.driverFault n).dchan n).unfrozen =
      { (f.dchan n).off true f.now with drvFault := satAdd (f.dchan n).drvFault 1, preFrozen := none } ∧
      Tripped x 0x14 (f.driverFault n) := by
  have he : f.driverFault n = ((f.gateOff n true).modDch n (fun d => { d with drvFault := satAdd d.drvFault 1 })).tripChan x 0x14 := by
    unfold driverFault
    rw [hb]
    exact if_pos (by simp [hcore, hdfb, hst])
  rw [he]
  refine ⟨(tripChan_unfrozen _ x 0x14 n).trans ?_, tripChan_tripped _ x 0x14⟩
  rw [dchan_modDch_same, gateOff_dchan, if_pos rfl]
  rfl

/-- The feedback of a driver survives what its fall brings. -/
theorem driverFault_dfb (f : Field) (n : BitVec 4) : ((f.driverFault n).dchan n).dfb = (f.dchan n).dfb := by
  unfold driverFault
  split
  next x hb =>
    split
    · refine (congrArg Dch.dfb (tripChan_unfrozen _ x 0x14 n)).trans ?_
      rw [dchan_modDch_same, gateOff_dchan, if_pos rfl]
      rfl
    · rfl
  next => rfl

/-- A level that has stood for DFB_FILT samples, as it is recognised. -/
def levelled (f : Field) (n : BitVec 4) (pin : Bool) : Field := f.setDch n { f.dchan n with dfb := pin != (f.dchan n).dfbPol }

theorem levelled_dchan (f : Field) (n : BitVec 4) (pin : Bool) :
    (f.levelled n pin).dchan n = { f.dchan n with dfb := pin != (f.dchan n).dfbPol } := dchan_setDch_same f n _

theorem dfbLevel_unbound {f : Field} {n : BitVec 4} {pin : Bool} {run : Nat} (hr : max 1 (f.dchan n).dfbFilt.toNat ≤ run)
    (hp : f.pwr.st ≠ .thermalOff) (hb : (f.dchan n).bound = none) : f.dfbLevel n pin run = f.levelled n pin := by
  unfold dfbLevel
  extract_lets d lvl f1
  rw [if_neg (by simpa [hp, Nat.pos_iff_ne_zero, Nat.succ_le_iff] using hr), hb]
  rfl

theorem dfbLevel_bound {f : Field} {n : BitVec 4} {x : BitVec 17} {pin : Bool} {run : Nat} (hr : max 1 (f.dchan n).dfbFilt.toNat ≤ run)
    (hp : f.pwr.st ≠ .thermalOff) (hb : (f.dchan n).bound = some x) : f.dfbLevel n pin run =
      if (f.levelled n pin).coreOn = false then f.levelled n pin
      else if (pin != (f.dchan n).dfbPol) = true then
        (match (f.levelled n pin).insCtx x with
        | some (k, c) => if c.phase = Phase.handover && ((f.levelled n pin).chan x).nev.state = .inserting
            then (f.levelled n pin).completeIns k else f.levelled n pin
        | none => f.levelled n pin)
      else ((f.levelled n pin).driverFault n).clearSweep := by
  unfold dfbLevel
  extract_lets d lvl f1
  rw [if_neg (by simpa [hp, Nat.pos_iff_ne_zero, Nat.succ_le_iff] using hr), hb]
  dsimp only
  have hc : (!f1.coreOn) = true ↔ (f.levelled n pin).coreOn = false := by rw [Bool.not_eq_true']; rfl
  refine (if_congr hc rfl ?_).trans rfl
  refine if_congr Iff.rfl ?_ rfl
  show _ = match f1.insCtx x with | some (k, c) => _ | none => _
  generalize f1.insCtx x = o
  cases o <;> rfl

theorem dfbLevel_dfb {f : Field} {n : BitVec 4} {pin : Bool} {run : Nat} (hr : max 1 (f.dchan n).dfbFilt.toNat ≤ run)
    (hp : f.pwr.st ≠ .thermalOff) : ((f.dfbLevel n pin run).dchan n).dfb = (pin != (f.dchan n).dfbPol) := by
  cases hb : (f.dchan n).bound with
  | none => rw [dfbLevel_unbound hr hp hb, levelled_dchan]
  | some x =>
    rw [dfbLevel_bound hr hp hb]
    have h1 : ((f.levelled n pin).dchan n).dfb = (pin != (f.dchan n).dfbPol) := by rw [levelled_dchan]
    generalize f.levelled n pin = f1 at h1
    rw [← h1]
    split
    · rfl
    · split
      · split
        · split
          · exact (congrArg Dch.dfb (Frame.Keeps.completeIns (r := lastingFrame) f1 _ n) :)
          · rfl
        · rfl
      · obtain ⟨t, c, hs, _⟩ := (TimersEnd.clearSweep (f1.driverFault n)).dchan n
        rw [hs]
        exact driverFault_dfb f1 n

/-- A driver that falls while its channel is CLOSED. -/
theorem dfbLevel_falls {f : Field} {n : BitVec 4} {x : BitVec 17} {pin : Bool} {run : Nat} (hr : max 1 (f.dchan n).dfbFilt.toNat ≤ run)
    (hp : f.pwr.st ≠ .thermalOff) (hb : (f.dchan n).bound = some x) (hl : (pin != (f.dchan n).dfbPol) = false) (hcore : f.coreOn = true)
    (hst : (f.chan x).nev.state = .closed) : ((f.dfbLevel n pin run).dchan n).mode = .off ∧ ((f.dfbLevel n pin run).dchan n).dg = false ∧
      ((f.dfbLevel n pin run).dchan n).drvFault = satAdd (f.dchan n).drvFault 1 ∧ Tripped x 0x14 (f.dfbLevel n pin run) := by
  have hc : (f.levelled n pin).coreOn = true := hcore
  have hs : ((f.levelled n pin).chan x).nev.state = .closed := hst
  have hd := levelled_dchan f n pin
  rw [dfbLevel_bound hr hp hb, if_neg (by rw [hc]; decide), if_neg (by rw [hl]; decide)]
  generalize f.levelled n pin = f1 at hc hs hd
  obtain ⟨hfault, htrip⟩ := driverFault_spec (by rw [hd]; exact hb) hc (by rw [hd]; exact hl) hs
  have hsweep := TimersEnd.clearSweep (f1.driverFault n)
  obtain ⟨t, c, hsd, _⟩ := hsweep.dchan n
  rw [hsd]
  refine ⟨congrArg Dch.mode hfault, congrArg Dch.dg hfault, (congrArg Dch.drvFault hfault).trans ?_, htrip.of_nev hsweep.nev⟩
  rw [hd]

theorem driverStuck_spec {f : Field} {n : BitVec 4} {x : BitVec 17} (hb : (f.dchan n).bound = some x) (hcore : f.coreOn = true)
    (hm : (f.dchan n).mode = .off) (hd : (f.dchan n).dfb = true) (ht : (f.dchan n).dfbT ≠ 0) (hs : (f.dchan n).stuck = false)
    (h : (f.dchan n).tOff.toNat + 100 * (f.dchan n).dfbT.toNat ≤ f.now.toNat) :
    (f.driverStuck n).dchan n = { f.dchan n with stuck := true } ∧ ((f.driverStuck n).chan x).aux.lastElem = 0x15 ∧
      ((f.driverStuck n).chan x).nev = (f.chan x).nev ∧ (∀ m, m ≠ n → (f.driverStuck n).dchan m = f.dchan m) := by
  have he : f.driverStuck n = (f.setDch n { f.dchan n with stuck := true }).element x 0x15 := by
    unfold driverStuck
    extract_lets d
    rw [hb]
    exact if_pos (by simpa [d, hcore, hm, hd, hs, h] using ht)
  rw [he]
  generalize hg : f.setDch n { f.dchan n with stuck := true } = g
  have hch (y : BitVec 17) : g.chan y = f.chan y := by rw [← hg]; rfl
  have hdch (m : BitVec 4) : (g.element x 0x15).dchan m = g.dchan m := by
    unfold element
    exact dchan_of_dch (Frame.Keeps.coalesced (r := sameDchFrame) (g.modAux x _) _ _ _ _) m
  have hnev : (g.element x 0x15).chan x = (g.modAux x (fun a => { a with lastElem := 0x15 })).chan x := by
    unfold element
    exact chan_congr (coalesced_nev _ _ _ _ _) x
  refine ⟨?_, ?_, ?_, fun m hmn => ?_⟩
  · rw [hdch, ← hg, dchan_setDch_same]
  · rw [hnev]
    simp [modAux]
  · rw [hnev]
    simp [modAux, hch]
  · rw [hdch, ← hg, dchan_setDch_other _ _ hmn.symm]

theorem scanSlot_eq {f : Field} {n : BitVec 4} {rawI rawV : BitVec 16} (hb : (f.dchan n).bound.isSome = true) (hp : f.pwr.st ≠ .standby)
    (hp' : f.pwr.st ≠ .thermalOff) (hn : f.now.toNat % 2000 = 50 * scanOf n) (ht : (f.dchan n).tScan ≠ some f.now) :
    ∃ d : Dch, f.scanSlot n rawI rawV = f.setDch n d ∧ d.n = (f.dchan n).n + 1 ∧
      d.sumI = (f.dchan n).sumI + (f.convert (2 * n.toNat) rawI).1.toInt ∧
      d.sumV = (f.dchan n).sumV + (f.convert (2 * n.toNat + 1) rawV).1.toInt ∧ d.mode = (f.dchan n).mode := by
  unfold scanSlot
  extract_lets d i v p s
  have hnone : d.bound.isNone = false := by rw [Option.isNone_eq_false_iff]; exact hb
  rw [if_neg (by simp [hnone, hp, hp', hn, show d.tScan ≠ some f.now from ht])]
  exact ⟨_, rfl, rfl, rfl, rfl, rfl⟩

end Field

/-- Settles O26: a level not filtered changes nothing; a fall trips, and what CLEARED sends leaves gate and channel alone. -/
theorem driversAreWatched : Obligations.DriversAreWatched := by
  intro s n
  refine ⟨fun pin run h => s.endsField_of_exec (op := fun f => f.dfbLevel n pin run) rfl (if_pos (by simpa using Or.inl h)),
    fun pin run hr hp => s.endsField_of_exec (op := fun f => f.dfbLevel n pin run) rfl ⟨Field.dfbLevel_dfb hr hp, fun hb => ?_,
      fun x hb hl hcore hst => Field.dfbLevel_falls hr hp hb hl hcore hst⟩,
    fun x hb hcore hm hd ht hs h => s.endsField_of_exec (op := fun f => f.driverStuck n) rfl (Field.driverStuck_spec hb hcore hm hd ht hs h),
    fun rawI rawV hb hp hp' hn ht => s.endsField_of_exec (op := fun f => f.scanSlot n rawI rawV) rfl ?_⟩
  · rw [Field.dfbLevel_unbound hr hp hb]
    exact ⟨Field.levelled_dchan _ _ _, rfl⟩
  · obtain ⟨d, he, h1, h2, h3, h4⟩ := Field.scanSlot_eq (rawI := rawI) (rawV := rawV) hb hp hp' hn ht
    rw [he, Field.dchan_setDch_same]
    exact ⟨h1, h2, h3, h4, fun m hm => Field.dchan_setDch_other _ _ hm.symm, rfl⟩

end Sys2Proof.Machine
end

section
/-! PROOF. The reference, the cross-check and the calibration (R302 to R304), and the host sequences (R305 to R308). -/
namespace Sys2Proof.Machine
set_option Elab.async false
namespace Field

theorem adc_of_records {f g : Field} (h : g = f.withRecords g) : g.adc = f.adc := congrArg (·.adc) h

/-! ### Slot 39 (R303, R304) -/

theorem calibrationStep_runs {f : Field} {t : Count} (h : f.at39 t = true) (hd : f.xchkDue = false) (hy : f.yields = false) :
    f.calibrationStep t = { f with adc := { f.adc with calSteps := f.adc.calSteps + 1, yieldRun := 0, slot39 := some f.now } } := by
  rw [calibrationStep, if_neg (by simp [h, hd]), if_neg (by simp [hy])]

theorem calibrationStep_yields {f : Field} {t : Count} (h : f.at39 t = true) (hd : f.xchkDue = false) (hy : f.yields = true) :
    f.calibrationStep t = f.yieldSlot := by
  rw [calibrationStep, if_neg (by simp [h, hd]), if_pos hy]

theorem crossCheck_yields {f : Field} {t : Count} {rawA rawB : BitVec 16} (h : f.at39 t = true) (hd : f.xchkDue = true)
    (hy : f.yields = true) : f.crossCheck t rawA rawB = f.yieldSlot := by
  unfold crossCheck
  extract_lets
  rw [if_neg (by simp [h, hd]), if_pos hy]

/-- A slot 39 that an injected entry takes. -/
theorem yieldSlot_spec {f : Field} (hy : f.yields = true) : f.yieldSlot.adc.yields = satAdd f.adc.yields 1 ∧
    f.yieldSlot.adc.yieldRun = f.adc.yieldRun + 1 ∧ f.yieldSlot.adc.slot39 = some f.now ∧ f.yieldSlot.adc.injSlot = some f.now ∧
    f.yieldSlot.adc.calSteps = f.adc.calSteps ∧ f.yieldSlot.adc.xchkAt = f.adc.xchkAt ∧ f.yieldSlot = { f with adc := f.yieldSlot.adc } := by
  obtain ⟨m, hm⟩ := Option.isSome_iff_exists.1 (Bool.and_eq_true_iff.1 hy).1
  unfold yieldSlot
  rw [hm]
  exact ⟨rfl, rfl, rfl, rfl, rfl, rfl, rfl⟩

/-- What a cross-check leaves (R303). -/
theorem crossCheck_spec {f : Field} {t : Count} {rawA rawB : BitVec 16} (h : f.at39 t = true) (hd : f.xchkDue = true) (hy : f.yields = false)
    {d : Int} (hdiff : d = (f.convert 32 rawA).1.toInt - (f.convert 32 rawB).1.toInt) {fails : Prop} (hf : fails = ((f.adc.tol.toNat : Int) < d.natAbs))
    {g : Field} (hg : f.crossCheck t rawA rawB = g) :
    (-32768 ≤ d → d ≤ 32767 → g.adc.lastDiff = BitVec.ofInt 16 d) ∧
      g.adc.xchkAt = f.now.toNat / 2000 ∧ g.adc.slot39 = some f.now ∧ g.adc.yieldRun = 0 ∧
      (fails → g.adc.xchkBad = satAdd f.adc.xchkBad 1 ∧ g.adc.failRun = min (f.adc.failRun + 1) 3 ∧ g.adc.passRun = 0) ∧
      (¬fails → g.adc.xchkBad = f.adc.xchkBad ∧ g.adc.failRun = 0 ∧ g.adc.passRun = min (f.adc.passRun + 1) 3) ∧
      (fails → f.adc.failRun = 2 → g.adc.xchkFail = true) ∧ (¬fails → f.adc.passRun = 2 → g.adc.xchkFail = false) ∧
      (fails → f.adc.failRun = 2 → f.adc.xchkFail = false → ∀ p, f.roomFor p = true → g.told p 0x3C 0 = true) ∧
      g = { f with adc := g.adc, freeN := g.freeN }.withRecords g := by
  unfold crossCheck at hg
  extract_lets a diff fits f0 shown bad nf np set f1 at hg
  rw [if_neg (by simp [h, hd]), if_neg (by simp [hy])] at hg
  have hbad : fails ↔ bad = true := by
    rw [hf, hdiff]
    simp only [bad, decide_eq_true_eq]
    exact Int.ofNat_lt
  have hf0 : f0 = { f with freeN := f0.freeN } := by
    simp only [f0]
    split <;> rfl
  have hroom (p : Part) : f1.roomFor p = f.roomFor p := by
    refine roomFor_of_stays (.ofPrt ?_)
    show f0.prt = f.prt
    rw [hf0]
  have hadc : g.adc = f1.adc := by
    rw [← hg]
    split
    · exact adc_of_records (raiseAll_frame f1 _ _)
    · rfl
  have hframe : g = f1.withRecords g := by
    rw [← hg]
    split
    · exact raiseAll_frame f1 _ _
    · rfl
  have hf1 : f1 = { f with adc := f1.adc, freeN := f1.freeN } := by
    show ({ f0 with adc := f1.adc } : Field) = _
    rw [hf0]
  have hset (hb : bad = true) (h2 : f.adc.failRun = 2) (hx : f.adc.xchkFail = false) : set = true := by
    simp only [set, nf, hb, a, h2, hx]
    rfl
  refine ⟨fun hlo hhi => ?_, by rw [hadc], by rw [hadc], by rw [hadc], fun hfail => ?_, fun hpass => ?_, fun hfail h2 => ?_, fun hpass h2 => ?_,
    fun hfail h2 hx p hp => ?_, ?_⟩
  · have hfits : fits = true := by
      rw [hdiff] at hlo hhi
      simp [fits, diff, hlo, hhi]
    rw [hadc]
    show shown = _
    simp only [shown, hfits, hdiff]
    rfl
  · have hb := hbad.1 hfail
    rw [hadc]
    simp [f1, nf, np, hb, a]
  · have hb : bad = false := by simpa using mt hbad.2 hpass
    rw [hadc]
    simp [f1, nf, np, hb, a]
  · have hb := hbad.1 hfail
    rw [hadc]
    show (if set = true then true else if 3 ≤ np then false else a.xchkFail) = true
    cases hx : f.adc.xchkFail with
    | false => rw [if_pos (hset hb h2 hx)]
    | true => simp [np, hb, a, hx]
  · have hb : bad = false := by simpa using mt hbad.2 hpass
    rw [hadc]
    show (if set = true then true else if 3 ≤ np then false else a.xchkFail) = false
    simp [set, np, hb, a, h2]
  · rw [← hg, if_pos (hset (hbad.1 hfail) h2 hx)]
    exact raiseAll_told _ _ ((hroom p).trans hp)
  · rw [hf1] at hframe
    have hfree : g.freeN = f1.freeN := by rw [hframe]; rfl
    rw [hadc, hfree]
    exact hframe

end Field

/-- Settles O27: slot 39 goes to an injected entry, a cross-check or a calibration step. -/
theorem referenceIsChecked : Obligations.ReferenceIsChecked := by
  intro s
  refine ⟨fun p b hs hc => ?_, fun hen hr hp hp' ht => ?_, fun t rawA rawB h hd hy => ?_, fun t h hd hy => ?_, fun t c hcase h hy => ?_⟩
  · have write {P : Field → Prop} := s.endsField_of_write (i := .refbufEn p b) (p := p) (op := fun f => f.refbufEn p b) (P := P) rfl
      (Field.writes_of_commissioner hs hc)
    refine ⟨fun hb hen => write ?_, fun hb h0 => write ?_, fun hb h0 => write ?_⟩
    · subst hb
      simp [Field.refbufEn, hc, hen]
    · subst hb
      simp [Field.refbufEn, hc, h0]
    · subst hb
      simpa [Field.refbufEn, hc] using fun h => absurd h h0
  · exact s.endsField_of_exec (op := fun f => f.refReadyAt) rfl (if_pos (by simp [hen, hr, hp, hp', ht]))
  · exact s.endsField_of_exec (op := fun f => f.crossCheck t rawA rawB) rfl (Field.crossCheck_spec h hd hy rfl rfl rfl)
  · exact s.endsField_of_exec (op := fun f => f.calibrationStep t) rfl (Field.calibrationStep_runs h hd hy)
  · rcases hcase with ⟨rfl, hd⟩ | ⟨⟨rawA, rawB, rfl⟩, hd⟩
    · refine s.endsField_of_exec (op := fun f => f.calibrationStep t) rfl ?_
      rw [Field.calibrationStep_yields h hd hy]
      exact Field.yieldSlot_spec hy
    · refine s.endsField_of_exec (op := fun f => f.crossCheck t rawA rawB) rfl ?_
      rw [Field.crossCheck_yields h hd hy]
      exact Field.yieldSlot_spec hy

end Sys2Proof.Machine
end

section
/-! PROOF. The host sequences of the converters (R305 to R308). -/
namespace Sys2Proof.Machine
set_option Elab.async false

/-! ### Tables cut by their keys -/

theorem tabLook_filter_in {α : Type} {p : Nat → Bool} {i : Nat} (hi : p i = true) (t : Tab α) :
    tabLook (t.filter (fun q => p q.1)) i = tabLook t i := by
  induction t with
  | nil => rfl
  | cons e r ih =>
    obtain ⟨k, v⟩ := e
    by_cases hk : k = i
    · subst hk
      rw [List.filter_cons_of_pos (by simpa using hi), tabLook, tabLook, if_pos rfl, if_pos rfl]
    · rw [List.filter_cons]
      split
      · rw [tabLook, tabLook, if_neg hk, if_neg hk, ih]
      · rw [ih, tabLook, if_neg hk]

theorem tabLook_filter_out {α : Type} {p : Nat → Bool} {i : Nat} (hi : p i = false) (t : Tab α) :
    tabLook (t.filter (fun q => p q.1)) i = none := by
  induction t with
  | nil => rfl
  | cons e r ih =>
    obtain ⟨k, v⟩ := e
    rw [List.filter_cons]
    split
    next hk =>
      have hne : k ≠ i := fun h => by rw [h, hi] at hk; cases hk
      rw [tabLook, if_neg hne, ih]
    next => exact ih

theorem tabLook_append {α : Type} (s t : Tab α) (i : Nat) : tabLook (s ++ t) i = (tabLook s i).or (tabLook t i) := by
  induction s with
  | nil => rfl
  | cons e r ih =>
    obtain ⟨k, v⟩ := e
    rw [List.cons_append, tabLook, tabLook]
    split
    · rfl
    · exact ih

/-- Of two tables, each cut to its own keys, the one whose key it is answers. -/
theorem tabGet_cut_left {α : Type} (d : α) {p q : Nat → Bool} {i : Nat} (hp : p i = true) (hq : q i = false) (s t : Tab α) :
    tabGet d (s.filter (fun e => p e.1) ++ t.filter (fun e => q e.1)) i = tabGet d s i := by
  rw [tabGet, tabLook_append, tabLook_filter_in hp, tabLook_filter_out hq, Option.or_none, tabGet]

theorem tabGet_cut_right {α : Type} (d : α) {p q : Nat → Bool} {i : Nat} (hp : p i = false) (hq : q i = true) (s t : Tab α) :
    tabGet d (s.filter (fun e => p e.1) ++ t.filter (fun e => q e.1)) i = tabGet d t i := by
  rw [tabGet, tabLook_append, tabLook_filter_out hp, tabLook_filter_in hq, Option.none_or, tabGet]

namespace Field

theorem writes_of_operator {f : Field} {p : Part} (hs : f.seqRuns = true) (h : f.operator p = true) : f.writes p = true := by
  rw [writes, hs, anyRole_of_operator h]; rfl

/-! ### Regular conversions (R305) -/

/-- The count of passes after one entry of a pass of len entries. -/
theorem passes_after {len k : Nat} (a : BitVec 16) :
    a + (if (if len ≤ k + 1 then 0 else k + 1) = 0 then 1 else 0) = if len ≤ k + 1 then a + 1 else a := by
  by_cases h : len ≤ k + 1
  · simp [h]
  · simp [h]

/-- The place of converter A, or of B, in its pass. -/
def regPlace (f : Field) (isA : Bool) : Nat := if isA then f.adc.nextA else f.adc.nextB
/-- Entries of one converter. -/
def entsOf (isA : Bool) (t : Tab (BitVec 6)) : Tab (BitVec 6) := t.filter (fun q => decide ((q.1 < 16) = isA))
/-- Entries of the other converter. -/
def entsNotOf (isA : Bool) (t : Tab (BitVec 6)) : Tab (BitVec 6) := t.filter (fun q => decide ((q.1 < 16) ≠ isA))
/-- The ADC once a pass that starts now has taken up the configuration (R305). -/
def passTaken (f : Field) (isA : Bool) : Adc :=
  if f.regPlace isA = 0 then
    { f.adc with
      entNow := if isA then entsOf isA f.adc.ent ++ entsNotOf isA f.adc.entNow else entsNotOf isA f.adc.entNow ++ entsOf isA f.adc.ent,
      lenNowA := if isA then f.adc.lenA else f.adc.lenNowA, lenNowB := if isA then f.adc.lenNowB else f.adc.lenB }
  else f.adc
/-- Entries of the running pass. -/
def passLen (f : Field) (isA : Bool) : Nat := (if isA then (f.passTaken isA).lenNowA else (f.passTaken isA).lenNowB).toNat
/-- A converter's place after one entry. -/
def nextPlace (f : Field) (isA : Bool) : Nat := if f.passLen isA ≤ f.regPlace isA + 1 then 0 else f.regPlace isA + 1
/-- The place of the running entry in the results. -/
def resPlace (f : Field) (isA : Bool) : Nat := (if isA then 0 else 16) + f.regPlace isA
/-- The ADC after one regular conversion. -/
def regConverted (f : Field) (isA : Bool) (raw : BitVec 16) : Adc :=
  let a := f.passTaken isA
  let wrap : BitVec 16 := if f.nextPlace isA = 0 then 1 else 0
  { a with
    regSlotA := if isA then some f.now else a.regSlotA, regSlotB := if isA then a.regSlotB else some f.now,
    res := tabSet AdcRes.reset a.res (f.resPlace isA) (f.hostRes (tabGet 0 a.entNow (f.resPlace isA)).toNat raw),
    nextA := if isA then f.nextPlace isA else a.nextA, nextB := if isA then a.nextB else f.nextPlace isA,
    passesA := if isA then a.passesA + wrap else a.passesA, passesB := if isA then a.passesB else a.passesB + wrap }

/-- A pass that starts takes up the configuration, and nothing else. -/
theorem passTaken_frame (f : Field) (isA : Bool) : f.passTaken isA = { f.adc with
    entNow := (f.passTaken isA).entNow, lenNowA := (f.passTaken isA).lenNowA, lenNowB := (f.passTaken isA).lenNowB } := by
  unfold passTaken
  split <;> rfl

theorem regConversion_eq {f : Field} {e : End} (raw : BitVec 16) (hcore : f.coreOn = true) (hlen : f.passLen (e = .a) ≠ 0)
    (hslot : f.regSlot e = true) : f.regConversion e raw = { f with adc := f.regConverted (e = .a) raw } := by
  have h : f.regConversion e raw = if !f.coreOn || f.passLen (e = .a) = 0 || !f.regSlot e then f
      else { f with adc := f.regConverted (e = .a) raw } := rfl
  rw [h, if_neg (by simp [hcore, hlen, hslot])]

/-- The entry that converts is the configuration's at the start of a pass, else the running pass's. -/
theorem passTaken_ent (f : Field) (isA : Bool) (hk : f.regPlace isA < 16) : tabGet 0 (f.passTaken isA).entNow (f.resPlace isA) =
    tabGet 0 (if f.regPlace isA = 0 then f.adc.ent else f.adc.entNow) (f.resPlace isA) := by
  unfold passTaken
  split
  next h0 =>
    cases isA with
    | true =>
      exact tabGet_cut_left 0 (p := fun n => decide ((n < 16) = (true = true))) (q := fun n => decide ((n < 16) ≠ (true = true)))
        (by simp [resPlace, hk]) (by simp [resPlace, hk]) _ _
    | false =>
      exact tabGet_cut_right 0 (p := fun n => decide ((n < 16) ≠ (false = true))) (q := fun n => decide ((n < 16) = (false = true)))
        (by simp [resPlace]) (by simp [resPlace]) _ _
  next => rfl

/-- So is the length of the pass. -/
theorem passLen_eq (f : Field) (isA : Bool) : f.passLen isA =
    (if f.regPlace isA = 0 then (if isA then f.adc.lenA else f.adc.lenB) else (if isA then f.adc.lenNowA else f.adc.lenNowB)).toNat := by
  unfold passLen passTaken
  by_cases h : f.regPlace isA = 0
  · simp only [if_pos h]
    cases isA <;> rfl
  · simp only [if_neg h]

theorem regConverted_res (f : Field) (isA : Bool) (raw : BitVec 16) (hk : f.regPlace isA < 16) :
    tabGet AdcRes.reset (f.regConverted isA raw).res (f.resPlace isA) =
      f.hostRes (tabGet 0 (if f.regPlace isA = 0 then f.adc.ent else f.adc.entNow) (f.resPlace isA)).toNat raw := by
  rw [← passTaken_ent f isA hk]
  exact tabGet_tabSet_same ..

theorem regConverted_next (f : Field) (isA : Bool) (raw : BitVec 16) :
    (f.regConverted isA raw).nextA = (if isA then f.nextPlace isA else f.adc.nextA) ∧
    (f.regConverted isA raw).nextB = (if isA then f.adc.nextB else f.nextPlace isA) := by
  unfold regConverted
  rw [passTaken_frame]
  exact ⟨rfl, rfl⟩

theorem regConverted_passes (f : Field) (isA : Bool) (raw : BitVec 16) :
    (f.regConverted isA raw).passesA = (if isA && f.passLen isA ≤ f.regPlace isA + 1 then f.adc.passesA + 1 else f.adc.passesA) ∧
    (f.regConverted isA raw).passesB = (if !isA && f.passLen isA ≤ f.regPlace isA + 1 then f.adc.passesB + 1 else f.adc.passesB) := by
  unfold regConverted
  rw [passTaken_frame]
  cases isA with
  | true => exact ⟨(passes_after _).trans (by simp), rfl⟩
  | false => exact ⟨rfl, (passes_after _).trans (by simp)⟩

theorem regConverted_keeps (f : Field) (isA : Bool) (raw : BitVec 16) : (f.regConverted isA raw).inj = f.adc.inj ∧
    (f.regConverted isA raw).corr = f.adc.corr ∧ (f.regConverted isA raw).ent = f.adc.ent := by
  unfold regConverted
  rw [passTaken_frame]
  exact ⟨rfl, rfl, rfl⟩

/-! ### Injected sequences (R306, R308) -/

theorem inj_setInj_same (f : Field) (m : Nat) (v : AdcInj) : (f.setInj m v).inj m = v := tabGet_tabSet_same ..

theorem inj_setInj_other (f : Field) {m k : Nat} (v : AdcInj) (h : k ≠ m) : (f.setInj m v).inj k = f.inj k :=
  tabGet_tabSet_other _ _ _ h.symm

theorem setInj_frame (f : Field) (m : Nat) (v : AdcInj) :
    f.setInj m v = { f with adc := { f.adc with inj := (f.setInj m v).adc.inj } } := rfl

theorem withInj_trans {f g h : Field} (hg : g = { f with adc := { f.adc with inj := g.adc.inj } })
    (hh : h = { g with adc := { g.adc with inj := h.adc.inj } }) : h = { f with adc := { f.adc with inj := h.adc.inj } } := by
  rw [hh, hg]

end Field

/-- A sequence that a trigger of tick t has reached (R306). -/
def AdcInj.triggered (v : AdcInj) (t : Count) : AdcInj :=
  if v.busy then { v with trig := none, overrun := satAdd v.overrun 1 }
  else if v.lenA = 0 && v.lenB = 0 then { v with trig := none, empty := satAdd v.empty 1 }
  else { v with trig := none, busy := true, tRecog := t, conv := [], runGrid := v.grid, runPart := v.part, runEvtEn := v.evtEn,
                runLenA := v.lenA, runLenB := v.lenB, runEntA := v.entA, runEntB := v.entB }

namespace AdcInj
variable {v : AdcInj} (t : Count)

theorem triggered_trig : (v.triggered t).trig = none := by
  unfold triggered
  split
  · rfl
  · split <;> rfl

theorem triggered_busy (h : v.busy = true) : v.triggered t = { v with trig := none, overrun := satAdd v.overrun 1 } := if_pos h

theorem triggered_empty (h : v.busy = false) (ha : v.lenA = 0) (hb : v.lenB = 0) :
    v.triggered t = { v with trig := none, empty := satAdd v.empty 1 } := by
  rw [triggered, if_neg (by simp [h]), if_pos (by simp [ha, hb])]

theorem triggered_run (h : v.busy = false) (hl : v.lenA ≠ 0 ∨ v.lenB ≠ 0) : v.triggered t =
    { v with trig := none, busy := true, tRecog := t, conv := [], runGrid := v.grid, runPart := v.part, runEvtEn := v.evtEn,
             runLenA := v.lenA, runLenB := v.lenB, runEntA := v.entA, runEntB := v.entB } := by
  rw [triggered, if_neg (by simp [h]), if_neg]
  simpa [imp_iff_not_or] using hl

end AdcInj

namespace Field

theorem injStart_eq (f : Field) (m : Nat) (t : Count) : f.injStart m t = f.setInj m ((f.inj m).triggered t) := by
  unfold injStart AdcInj.triggered
  extract_lets v
  rw [apply_ite (f.setInj m), apply_ite (f.setInj m)]

/-- A trigger of software, where the mask and SRC ask for one. -/
def softTrig (mask : BitVec 4) (g : Field) (m : Nat) : Field := if bit mask m && (g.inj m).src = 1 then g.injStart m g.now else g

theorem softTrig_same {mask : BitVec 4} {g : Field} {m : Nat} (hbit : bit mask m = true) (hsrc : (g.inj m).src = 1) :
    (softTrig mask g m).inj m = (g.inj m).triggered g.now := by
  rw [softTrig, if_pos (by simp [hbit, hsrc]), injStart_eq, inj_setInj_same]

theorem softTrig_off {mask : BitVec 4} {g : Field} {m : Nat} (h : bit mask m = false ∨ (g.inj m).src ≠ 1) : softTrig mask g m = g := by
  rw [softTrig, if_neg]
  rcases h with h | h
  · simp [h]
  · exact fun hc => h (of_decide_eq_true (Bool.and_eq_true_iff.1 hc).2)

theorem softTrig_frame (mask : BitVec 4) (g : Field) (m : Nat) :
    softTrig mask g m = { g with adc := { g.adc with inj := (softTrig mask g m).adc.inj } } := by
  unfold softTrig
  split
  · rw [injStart_eq]
    exact setInj_frame ..
  · rfl

theorem softTrig_other {mask : BitVec 4} {g : Field} {m k : Nat} (h : k ≠ m) : (softTrig mask g m).inj k = g.inj k := by
  unfold softTrig
  split
  · rw [injStart_eq, inj_setInj_other _ _ h]
  · rfl

theorem softTrigs_frame (mask : BitVec 4) (l : List Nat) (f : Field) :
    l.foldl (softTrig mask) f = { f with adc := { f.adc with inj := (l.foldl (softTrig mask) f).adc.inj } } := by
  induction l generalizing f with
  | nil => rfl
  | cons m r ih => exact withInj_trans (softTrig_frame mask f m) (ih _)

theorem softTrigs_other (mask : BitVec 4) (l : List Nat) (f : Field) {k : Nat} (h : k ∉ l) :
    (l.foldl (softTrig mask) f).inj k = f.inj k := by
  induction l generalizing f with
  | nil => rfl
  | cons m r ih =>
    rw [List.mem_cons, not_or] at h
    exact (ih _ h.2).trans (softTrig_other h.1)

theorem softTrigs_off (mask : BitVec 4) (l : List Nat) (f : Field) {k : Nat} (h : bit mask k = false ∨ (f.inj k).src ≠ 1) :
    (l.foldl (softTrig mask) f).inj k = f.inj k := by
  induction l generalizing f with
  | nil => rfl
  | cons m r ih =>
    have hm : (softTrig mask f m).inj k = f.inj k := by
      by_cases hk : k = m
      · rw [softTrig_off (hk ▸ h)]
      · exact softTrig_other hk
    exact (ih _ (hm ▸ h)).trans hm

/-- Each sequence of the mask whose SRC is software is triggered once. -/
theorem softTrigs_same (mask : BitVec 4) {l : List Nat} (f : Field) {k : Nat} (hl : l.Nodup) (hk : k ∈ l) (hbit : bit mask k = true)
    (hsrc : (f.inj k).src = 1) : (l.foldl (softTrig mask) f).inj k = (f.inj k).triggered f.now := by
  induction l generalizing f with
  | nil => cases hk
  | cons m r ih =>
    rw [List.nodup_cons] at hl
    rw [List.foldl_cons]
    by_cases hm : k = m
    · subst hm
      rw [softTrigs_other mask r _ hl.1, softTrig_same hbit hsrc]
    · have h := softTrig_other (mask := mask) (g := f) hm
      rw [ih (softTrig mask f m) hl.2 ((List.mem_cons.1 hk).resolve_left hm) (h ▸ hsrc), h, softTrig_frame]
      rfl

theorem injSwtrig_eq {f : Field} {p : Part} (mask : BitVec 4) (h : f.operator p = true ∨ f.commissioner p = true) :
    f.injSwtrig p mask = (List.range 4).foldl (softTrig mask) f := if_pos (by simpa using h)

theorem injTrigger_eq {f : Field} {m : BitVec 2} {t : Count} (hcore : f.coreOn = true) (ht : (f.inj m.toNat).trig = some t) :
    f.injTrigger m = f.setInj m.toNat ((f.inj m.toNat).triggered t) := by
  simp only [injTrigger, ht, hcore, if_true, injStart_eq]

/-- A sequence whose run has ended, with its results (R308). -/
def injEnded (f : Field) (v : AdcInj) (rawA rawB : List (BitVec 16)) : AdcInj :=
  { v with busy := false, done := true, t := v.tStart.setWidth 32,
           res := f.injRes 4 v.runLenB.toNat v.runEntB v.conv rawB (f.injRes 0 v.runLenA.toNat v.runEntA v.conv rawA v.res) }

theorem injDone_eq {f : Field} {m : BitVec 2} (rawA rawB : List (BitVec 16)) (hcore : f.coreOn = true)
    (hbusy : (f.inj m.toNat).busy = true) (hconv : injNeed (f.inj m.toNat) ≤ (f.inj m.toNat).conv.length) :
    f.injDone m (f.inj m.toNat).tStart rawA rawB =
      if (f.inj m.toNat).runEvtEn then
        (f.setInj m.toNat (f.injEnded (f.inj m.toNat) rawA rawB)).raiseAt (f.inj m.toNat).runPart 0x32 0 (f.inj m.toNat).tStart [m.setWidth 8]
      else f.setInj m.toNat (f.injEnded (f.inj m.toNat) rawA rawB) := by
  unfold injDone
  extract_lets v r1 r2 f1
  rw [if_neg (by simp [v, hcore, hbusy, hconv])]
  rfl

/-! ### O28 -/

/-- Settles O28: a regular conversion stores its result and moves on, a trigger reaches its sequences, a finished run is shown. -/
theorem sequencesConvert : Obligations.SequencesConvert := by
  unfold Obligations.SequencesConvert
  intro s
  refine ⟨?regular, ?software, ?trigger, ?finished⟩
  case regular =>
    intro e raw hcore a k place len hk hlen hslot
    have hplace : s.f.regPlace (e = .a) = k := by cases e <;> rfl
    have hpass : s.f.passLen (e = .a) = len := by
      rw [passLen_eq, hplace]
      cases e <;> rfl
    have hres : s.f.resPlace (e = .a) = place := by
      rw [resPlace, hplace]
      cases e
      · exact Nat.zero_add k
      · rfl
    refine s.endsField_of_exec (op := fun f => f.regConversion e raw) rfl ?_
    rw [regConversion_eq raw hcore (hpass ▸ hlen) hslot]
    have hr := regConverted_res s.f (e = .a) raw (hplace ▸ hk)
    obtain ⟨hna, hnb⟩ := regConverted_next s.f (e = .a) raw
    obtain ⟨hpa, hpb⟩ := regConverted_passes s.f (e = .a) raw
    rw [hres, hplace] at hr
    rw [hpass, hplace] at hpa hpb
    rw [nextPlace, hpass, hplace] at hna hnb
    refine ⟨hr, ?_, ?_, rfl, regConverted_keeps s.f (e = .a) raw⟩
    · rintro rfl
      exact ⟨hna, hnb, by simpa using hpa, by simpa using hpb⟩
    · rintro rfl
      exact ⟨hnb, hna, by simpa using hpb, by simpa using hpa⟩
  case software =>
    intro p mask hseq hrole
    refine s.endsField_of_write (op := fun f => f.injSwtrig p mask) rfl
      (hrole.elim (writes_of_operator hseq) (writes_of_commissioner hseq)) ?_
    rw [injSwtrig_eq mask hrole]
    refine ⟨fun m hm hbit hsrc => ?_, fun m h => softTrigs_off mask _ s.f h, softTrigs_frame mask _ s.f⟩
    rw [softTrigs_same mask s.f List.nodup_range (List.mem_range.2 hm) hbit hsrc]
    refine ⟨fun hb hl => ?_, fun hb ha hlb => ?_, fun hb => ?_⟩
    · rw [AdcInj.triggered_run _ hb hl]
      exact ⟨rfl, rfl, rfl⟩
    · rw [AdcInj.triggered_empty _ hb ha hlb]
      exact ⟨hb, rfl⟩
    · rw [AdcInj.triggered_busy _ hb]
  case trigger =>
    intro m t hcore ht
    refine s.endsField_of_exec (op := fun f => f.injTrigger m) rfl ?_
    rw [injTrigger_eq hcore ht]
    refine ⟨?_, fun hb hl => ?_, fun hb => ?_, fun k hk => inj_setInj_other _ _ hk, setInj_frame ..⟩
    all_goals rw [inj_setInj_same]
    · exact AdcInj.triggered_trig _
    · rw [AdcInj.triggered_run _ hb hl]
      exact ⟨rfl, rfl⟩
    · rw [AdcInj.triggered_busy _ hb]
  case finished =>
    intro m rawA rawB hcore hbusy hconv
    refine s.endsField_of_exec (op := fun f => f.injDone m (s.f.inj m.toNat).tStart rawA rawB) rfl ?_
    rw [injDone_eq rawA rawB hcore hbusy hconv]
    set f1 := s.f.setInj m.toNat (s.f.injEnded (s.f.inj m.toNat) rawA rawB) with hf1
    generalize hg : (if (s.f.inj m.toNat).runEvtEn then _ else f1) = g
    have hrec : g = f1.withRecords g := by
      rw [← hg]
      split
      · exact raiseAt_frame ..
      · rfl
    have hinj : ∀ k, g.inj k = f1.inj k := fun k => by rw [Field.inj, adc_of_records hrec, Field.inj]
    refine ⟨?_, ?_, ?_, fun k hk => ?_, fun hev hroom => ?_, ?_⟩
    · rw [hinj, hf1, inj_setInj_same, injEnded]
    · rw [hinj, hf1, inj_setInj_same, injEnded]
    · rw [hinj, hf1, inj_setInj_same, injEnded]
    · rw [hinj, hf1, inj_setInj_other _ _ hk]
    · rw [← hg, if_pos hev]
      exact raiseAt_told _ _ _ _ hroom
    · rw [adc_of_records hrec]
      exact hrec

end Field
end Sys2Proof.Machine
end

section
/-! PROOF. The retry policy and the timing wheel (R148 to R158), storms, depths and the sync of a fallback configuration. -/
namespace Sys2Proof.Machine
set_option Elab.async false
namespace Field

/-! ### A transition's entry -/

theorem enter_chan_other (f : Field) {x y : BitVec 17} (new : ChState) (cause detail : Byte) (iss : Option Part) (h : y ≠ x) :
    (f.enter x new cause detail iss).chan y = f.chan y := by
  rw [chan_congr (enter_nev_any ..), chan_transit_other _ _ _ h.symm]

theorem enter_state (f : Field) (x : BitVec 17) (new : ChState) (cause detail : Byte) (iss : Option Part) :
    ((f.enter x new cause detail iss).chan x).nev.state = new := by
  rw [chan_congr (enter_nev_any ..), transit_state]

theorem enter_lockReason (f : Field) (x : BitVec 17) (new : ChState) (cause detail : Byte) (iss : Option Part) :
    ((f.enter x new cause detail iss).chan x).fr.lockReason = (f.chan x).fr.lockReason := by
  rw [chan_congr (enter_nev_any ..), transit, chan_heal2, chan_modChan_same]

/-- A transition leaves all of selectivity but the storms. -/
theorem enter_sel (f : Field) (x : BitVec 17) (new : ChState) (cause detail : Byte) (iss : Option Part) :
    (f.enter x new cause detail iss).sel = { f.sel with storms := (f.enter x new cause detail iss).sel.storms } :=
  Frame.Keeps.enter (r := selFrame.toFrame) f x new cause detail iss

/-! ### Locking out (R156) -/

theorem lockOut_nev (f : Field) (x : BitVec 17) (reason : BitVec 3) : (f.lockOut x reason).nev =
    ((f.modRec x (fun r => { r with lockReason := reason, lockPrior := if reason = 4 then r.lockReason else 0 })).enter
      x .lockedOut (f.chan x).fr.cause (reason.setWidth 8) none).nev := rfl

theorem lockOut_entry (f : Field) (x : BitVec 17) (reason : BitVec 3) : ((f.lockOut x reason).chan x).nev.state = .lockedOut ∧
    ((f.lockOut x reason).chan x).fr.lockReason = reason ∧ ∀ y, y ≠ x → (f.lockOut x reason).chan y = f.chan y := by
  have h := chan_congr (lockOut_nev f x reason)
  refine ⟨?_, ?_, fun y hy => ?_⟩
  · rw [h, enter_state]
  · rw [h, enter_lockReason, modRec, chan_modChan_same]
  · rw [h, enter_chan_other _ _ _ _ _ hy]
    exact chan_modChan_other f _ hy.symm

theorem lockOut_counted (f : Field) (x : BitVec 17) (reason : BitVec 3) :
    (f.lockOut x reason).sel.lForbidden = (if reason = 1 then satAdd f.sel.lForbidden 1 else f.sel.lForbidden) ∧
    (f.lockOut x reason).sel.lExhausted = (if reason = 2 then satAdd f.sel.lExhausted 1 else f.sel.lExhausted) := by
  unfold lockOut
  extract_lets c f1 s
  have hs : s = { f.sel with storms := s.storms } :=
    enter_sel (f.modRec x (fun r => { r with lockReason := reason, lockPrior := if reason = 4 then r.lockReason else 0 })) ..
  generalize s = s' at hs
  rw [hs]
  exact ⟨rfl, rfl⟩

/-! ### The policy of a class (R148) -/

/-- The policy of a channel's last trip. -/
def tripPolicy (f : Field) (x : BitVec 17) : Nat × Bool × Nat × Nat := policyOf (f.profOf x) (causeClass (f.chan x).fr.cause)

/-- A channel whose trip waits for its policy. -/
def AwaitsPolicy (f : Field) (x : BitVec 17) : Prop :=
  (f.chan x).nev.state = .tripped ∧ (f.chan x).aux.confirmed = true ∧ (f.chan x).aux.policyApplied = false

section
variable {f : Field} {x : BitVec 17} (h : AwaitsPolicy f x)
include h

theorem retryPolicy_applies : f.retryPolicy x =
    if (f.tripPolicy x).1 = 0 then f.modAux x (fun a => { a with policyApplied := true })
    else if (f.tripPolicy x).1 ≠ 1 then f.lockOut x 1
    else if (f.tripPolicy x).2.2.1 ≤ (f.chan x).fr.rcount.toNat then f.lockOut x 2
    else (f.enter x .retryWait (f.chan x).fr.cause 0 none).modRec x (fun r =>
      { r with rcount := BitVec.ofNat 4 ((f.chan x).fr.rcount.toNat + 1),
               wheel := .retry (dueAt f.now (retryDelay (f.profOf x) x (f.tripPolicy x).2.2.2 ((f.chan x).fr.rcount.toNat + 1))) }) := by
  obtain ⟨hst, hconf, happ⟩ := h
  unfold retryPolicy
  extract_lets c p pol n d
  rw [if_neg (by simp [c, hst, hconf, happ])]
  rfl

theorem retryPolicy_stays (h0 : (f.tripPolicy x).1 = 0) : f.retryPolicy x = f.modAux x (fun a => { a with policyApplied := true }) := by
  rw [retryPolicy_applies h, if_pos h0]

theorem retryPolicy_forbids (h1 : 1 < (f.tripPolicy x).1) : f.retryPolicy x = f.lockOut x 1 := by
  rw [retryPolicy_applies h, if_neg (by omega), if_pos (by omega)]

theorem retryPolicy_exhausted (h1 : (f.tripPolicy x).1 = 1) (hn : (f.tripPolicy x).2.2.1 ≤ (f.chan x).fr.rcount.toNat) :
    f.retryPolicy x = f.lockOut x 2 := by
  rw [retryPolicy_applies h, if_neg (by omega), if_neg (by simp [h1]), if_pos hn]

theorem retryPolicy_retries (h1 : (f.tripPolicy x).1 = 1) (hn : (f.chan x).fr.rcount.toNat < (f.tripPolicy x).2.2.1) :
    f.retryPolicy x = (f.enter x .retryWait (f.chan x).fr.cause 0 none).modRec x (fun r =>
      { r with rcount := BitVec.ofNat 4 ((f.chan x).fr.rcount.toNat + 1),
               wheel := .retry (dueAt f.now (retryDelay (f.profOf x) x (f.tripPolicy x).2.2.2 ((f.chan x).fr.rcount.toNat + 1))) }) := by
  rw [retryPolicy_applies h, if_neg (by omega), if_neg (by simp [h1]), if_neg (by omega)]

/-- Whatever its policy says, no other channel changes. -/
theorem retryPolicy_other {y : BitVec 17} (hy : y ≠ x) : (f.retryPolicy x).chan y = f.chan y := by
  rw [retryPolicy_applies h]
  split
  · exact chan_modChan_other f _ hy.symm
  split
  · exact (lockOut_entry f x 1).2.2 y hy
  split
  · exact (lockOut_entry f x 2).2.2 y hy
  · exact (chan_modChan_other _ _ hy.symm).trans (enter_chan_other _ _ _ _ _ hy)

end

/-! ### The timing wheel (R151 to R155) -/

theorem startInserting_sel (f : Field) (x : BitVec 17) (o : Origin) (iss : Option Part) : (f.startInserting x o iss).sel = f.sel :=
  (sel_of_records (startInserting_frame f x o iss)).trans rfl

/-- The wheel acts on the entry of channel x with due count d. -/
def WheelActs (f : Field) (x : BitVec 17) (d : Count) : Prop := d ≤ f.now ∧ f.wheelFirst x d = true ∧ f.coreOn = true

theorem wheelRuns_of_coreOn {f : Field} (h : f.coreOn = true) : f.wheelRuns = true := h

/-- The largest lag of the wheel, taken up. -/
def lagged (f : Field) (lag : Nat) : Field := { f with sel := { f.sel with lagPeak := satMax f.sel.lagPeak lag } }
/-- A due retry counted. -/
def retried (f : Field) (lag : Nat) : Field := { f.lagged lag with sel := { (f.lagged lag).sel with retries := satAdd f.sel.retries 1 } }

section
variable {f : Field} {x : BitVec 17} {d : Count} (lag : Nat) (ha : WheelActs f x d)
include ha

theorem stableDue_acts (hw : (f.chan x).fr.wheel = .stable d) :
    f.stableDue x lag = (f.lagged lag).modRec x (fun r => { r with rcount := 0, wheel := .none }) := by
  obtain ⟨hdue, hfirst, hcore⟩ := ha
  simp only [stableDue, hw]
  rw [if_neg (by simp [wheelRuns_of_coreOn hcore, due, hdue, hfirst])]
  rfl

variable (hw : (f.chan x).fr.wheel = .retry d) (hst : (f.chan x).nev.state = .retryWait)
include hw hst

/-- What a due retry meets: HOLD_ALL, its channel's retry tokens, the safe state, a full queue. -/
theorem retryDue_acts : f.retryDue x lag =
    if f.sel.holdAll then (f.lagged lag).modRec x (fun r => { r with wheel := .retry f.nextSlot })
    else if rateMax (f.profOf x) ≠ 0 && (f.chan x).nev.tok = 0 then (f.lagged lag).lockOut x 3
    else if f.saf.safe then (f.lagged lag).modRec x (fun r => { r with wheel := .retry f.nextSlot })
    else if 1024 ≤ f.hel.queue.length then
      { f.lagged lag with sel := { (f.lagged lag).sel with qfull := satAdd f.sel.qfull 1 } }.modRec x (fun r => { r with wheel := .retry f.nextSlot })
    else (f.retried lag).startInserting x .retry none := by
  obtain ⟨hdue, hfirst, hcore⟩ := ha
  simp only [retryDue, hw]
  rw [if_neg (by simp [wheelRuns_of_coreOn hcore, due, hdue, hfirst, hst])]
  rfl

theorem retryDue_held (hh : f.sel.holdAll = true) :
    f.retryDue x lag = (f.lagged lag).modRec x (fun r => { r with wheel := .retry f.nextSlot }) := by
  rw [retryDue_acts lag ha hw hst, if_pos hh]

theorem retryDue_inserts (hh : f.sel.holdAll = false) (htok : rateMax (f.profOf x) = 0 ∨ (f.chan x).nev.tok ≠ 0)
    (hsafe : f.saf.safe = false) (hroom : f.hel.queue.length < 1024) :
    f.retryDue x lag = (f.retried lag).startInserting x .retry none := by
  have hrate : ¬ (decide (rateMax (f.profOf x) ≠ 0) && decide ((f.chan x).nev.tok = 0)) = true := by
    rcases htok with h | h
    · simp [h]
    · simp only [Bool.and_eq_true, decide_eq_true_eq, not_and]
      exact fun _ => h
  rw [retryDue_acts lag ha hw hst, if_neg (by simp [hh]), if_neg hrate, if_neg (by simp [hsafe]), if_neg (Nat.not_le.2 hroom)]

end

/-! ### O38 -/

/-- Settles O38: each policy and each due entry changes its own channel and what counts it. -/
theorem retriesFollowPolicy : Obligations.RetriesFollowPolicy := by
  unfold Obligations.RetriesFollowPolicy
  intro s x
  refine ⟨fun hst hconf happ => ?policy, fun d lag hw hdue hfirst hcore hst => ⟨fun hh htok hsafe hroom => ?retry, fun hh => ?held⟩,
    fun d lag hw hdue hfirst hcore => ?stable⟩
  case policy =>
    have h : AwaitsPolicy s.f x := ⟨hst, hconf, happ⟩
    refine s.endsField_of_exec (op := fun f => f.retryPolicy x) rfl
      ⟨fun h0 => ?_, fun h1 => ?_, fun h1 hn => ?_, fun h1 hn => ?_, fun y hy => retryPolicy_other h hy⟩
    · rw [retryPolicy_stays h h0, modAux, chan_modChan_same]
      exact ⟨hst, rfl⟩
    · rw [retryPolicy_forbids h h1]
      exact ⟨(lockOut_entry s.f x 1).1, (lockOut_entry s.f x 1).2.1, (lockOut_counted s.f x 1).1⟩
    · rw [retryPolicy_exhausted h h1 hn]
      exact ⟨(lockOut_entry s.f x 2).1, (lockOut_entry s.f x 2).2.1, (lockOut_counted s.f x 2).2⟩
    · rw [retryPolicy_retries h h1 hn, modRec, chan_modChan_same]
      exact ⟨enter_state .., by simp [BitVec.ofNat_add], rfl⟩
  case retry =>
    refine s.endsField_of_exec (op := fun f => f.retryDue x lag) rfl ?_
    rw [retryDue_inserts lag ⟨hdue, hfirst, hcore⟩ hw hst hh htok hsafe hroom]
    have hcount : (s.f.retried lag).sel.retries = satAdd s.f.sel.retries 1 := rfl
    have hhel : (s.f.retried lag).hel = s.f.hel := rfl
    have hnow : (s.f.retried lag).now = s.f.now := rfl
    have hch (y) : (s.f.retried lag).chan y = s.f.chan y := rfl
    generalize s.f.retried lag = f1 at hcount hhel hnow hch
    obtain ⟨hs, hwheel, hother⟩ := startInserting_chan f1 x .retry none
    refine ⟨hs, hwheel, ?_, ?_, fun y hy => (hother y hy).trans (hch y)⟩
    · rw [startInserting_hel, hhel, hnow]
    · rw [startInserting_sel, hcount]
  case held =>
    refine s.endsField_of_exec (op := fun f => f.retryDue x lag) rfl ?_
    rw [retryDue_held lag ⟨hdue, hfirst, hcore⟩ hw hst hh]
    refine ⟨?_, ?_, rfl, fun y hy => chan_modChan_other _ _ hy.symm⟩
    · rw [modRec, chan_modChan_same]
      rfl
    · rw [modRec, chan_modChan_same]
  case stable =>
    refine s.endsField_of_exec (op := fun f => f.stableDue x lag) rfl ?_
    rw [stableDue_acts lag ⟨hdue, hfirst, hcore⟩ hw]
    refine ⟨?_, ?_, fun y hy => chan_modChan_other _ _ hy.symm⟩
    · rw [modRec, chan_modChan_same]
      rfl
    · rw [modRec, chan_modChan_same]
      rfl

/-! ### Storms, depths and unsynced configurations (R142, R114, R111) -/

theorem stormQuiet_closes {f : Field} {node : BitVec 17} {code : Byte} {p : Part} {k : Storm} (hk : f.stormOf node code p = some k)
    (hopen : k.opened = true) (hq : (if f.sel.stormQuiet = 0 then 1 else f.sel.stormQuiet.toNat) ≤ k.quiet) :
    f.stormQuiet node code p = ({ f with sel := { f.sel with storms := f.sel.storms.erase k } }).raiseAt p 0x1C (f.handle node) k.tLast
      ([code, 0, 0, 0] ++ toLe k.suppressed 4 ++ le 8 k.tFirst) := by
  simp only [Field.stormQuiet, hk]
  rw [if_pos (by simp only [hopen, Bool.true_and, decide_eq_true_eq]; exact hq)]

theorem element_nev (f : Field) (x : BitVec 17) (code : Byte) :
    (f.element x code).nev = (f.modAux x (fun a => { a with lastElem := code })).nev := coalesced_nev ..

theorem fallbackUnsynced_raises {f : Field} {x : BitVec 17} {t : Count} (hq : (f.chan x).aux.fbQueued = some t)
    (hst : (f.chan x).nev.state ≠ .free) (hs : (f.chan x).nev.fbSync = false) (hr : (f.chan x).aux.fbRaised = false)
    (hdue : t + 10000000 ≤ f.now) :
    f.fallbackUnsynced x = (f.modAux x (fun a => { a with fbRaised := true })).element x 0x0C := by
  simp only [fallbackUnsynced, hq]
  rw [if_pos (by simp only [due, hs, hr, hdue, ne_eq, hst]; rfl)]

/-- Settles O37: a quiet storm goes, a moved channel takes its depth, an unsynced configuration is told once. -/
theorem stormsDepthsAndSync : Obligations.StormsDepthsAndSync := by
  unfold Obligations.StormsDepthsAndSync
  intro s
  refine ⟨fun node code p k hk hopen hq => ?quiet, fun x hp => ?depth, fun x t hq hst hs hr hdue => ?unsynced⟩
  case quiet =>
    refine s.endsField_of_exec (op := fun f => f.stormQuiet node code p) rfl ?_
    rw [stormQuiet_closes hk hopen hq]
    exact ⟨raiseAt_frame .., fun hroom => raiseAt_told _ _ _ _ hroom⟩
  case depth =>
    refine s.endsField_of_exec (op := fun f => f.depthRewrite x) rfl ?_
    rw [depthRewrite, if_pos hp]
    refine ⟨?_, ?_, fun y hy => chan_modChan_other _ _ hy.symm, rfl⟩
    all_goals rw [chan_modChan_same]
  case unsynced =>
    refine s.endsField_of_exec (op := fun f => f.fallbackUnsynced x) rfl ?_
    rw [fallbackUnsynced_raises hq hst hs hr hdue]
    have h := chan_congr (element_nev (s.f.modAux x (fun a => { a with fbRaised := true })) x 0x0C)
    refine ⟨?_, ?_, ?_, fun y hy => ?_⟩
    · rw [h, modAux, chan_modChan_same, modAux, chan_modChan_same]
    · rw [h, modAux, chan_modChan_same]
    · rw [h, modAux, chan_modChan_same, modAux, chan_modChan_same]
    · rw [h]
      exact (chan_modChan_other _ _ hy.symm).trans (chan_modChan_other _ _ hy.symm)

end Field
end Sys2Proof.Machine
end

section
/-! PROOF. A context is claimed for an entry of the insertion queue (R168, R170, R192); an insertion past the time of its phase ends in
TRIPPED (R171, R175, R176, R180). -/
namespace Sys2Proof.Machine
set_option Elab.async false
namespace Field

/-! ### The insertion queue through a trip -/

@[simp] theorem coalesced_hel (f : Field) (x : BitVec 17) (code ty : Byte) (b : Bytes) : (f.coalesced x code ty b).hel = f.hel := by
  unfold coalesced
  dsimp only
  split
  · exact raise_hel _ _ _ _ _
  · split
    · rfl
    · split <;> exact raise_hel _ _ _ _ _

@[simp] theorem stateChange_hel (f : Field) (x : BitVec 17) (old new : ChState) (cause detail : Byte) (iss : Option Part) :
    (f.stateChange x old new cause detail iss).hel = f.hel := by
  unfold stateChange
  dsimp only
  split
  · exact coalesced_hel _ _ _ _ _
  · exact raise_hel _ _ _ _ _

theorem enter_hel_any (f : Field) (x : BitVec 17) (new : ChState) (cause detail : Byte) (iss : Option Part) :
    (f.enter x new cause detail iss).hel = f.hel := (stateChange_hel ..).trans (transit_hel ..)

theorem complete_hel (f : Field) (r : CmdRef) (s : Status) (d : Nat) : (f.complete r s d).hel = f.hel := hel_of_records (complete_frame f r s d)

theorem dropSwap_queue (f : Field) (n : Nat) : (f.dropSwap n).hel.queue = f.hel.queue := by
  unfold dropSwap
  split
  · split
    · rw [complete_hel]
      rfl
    · rfl
  · rfl

theorem dropCtx_queue (f : Field) (n : Nat) (a : Bool) : (f.dropCtx n a).hel.queue = f.hel.queue := by
  unfold dropCtx
  split
  next c _ =>
    have hcap (g : Field) (o : Option Nat) : (match o with | some s => g.capEnd s a | none => g).hel = g.hel := by
      cases o with
      | some s => exact capEnd_hel g s a
      | none => rfl
    extract_lets f1 f2 f3
    have h2 : f2.hel = f1.hel := hcap f1 c.loopSlot
    have h3 : f3.hel = f2.hel := hcap f2 c.capSlot
    show f3.hel.queue = _
    rw [h3, h2]
    exact dropSwap_queue f n
  next => rfl

theorem capNoCtx_hel (f : Field) (w : CapWait) : (f.capNoCtx w).hel = f.hel := by
  unfold capNoCtx
  split
  · exact complete_hel _ _ _ _
  · rfl

theorem capNoSlot_hel (f : Field) (w : CapWait) : (f.capNoSlot w).hel = f.hel := by
  unfold capNoSlot
  split
  · exact complete_hel _ _ _ _
  · rfl

theorem capStart_queue (f : Field) (w : CapWait) (n sl : Nat) : (f.capStart w n sl).hel.queue = f.hel.queue := by
  unfold capStart
  extract_lets c pre st f1 rate ents direct dest s _ ctx f2 f3
  have h2 : f2.hel.queue = f.hel.queue := by
    simp only [f2, writeSlot_hel]
    show f1.hel.queue = _
    exact congrArg Hel.queue (startStream_hel f _ _ _ _)
  clear_value f2
  have h3 : f3.hel = f2.hel := by
    simp only [f3]
    generalize f1.directOf w.ch = o
    cases o <;> rfl
  clear_value f3
  rw [← h2, ← h3]
  split
  · rw [done_hel]
  · rfl

theorem capAsk_queue (f : Field) (w : CapWait) : (f.capAsk w).hel.queue = f.hel.queue := by
  unfold capAsk
  split
  · rw [capNoSlot_hel]
  · split
    · split
      · exact capStart_queue f w _ _
      · rw [capNoCtx_hel]
    · split
      · rfl
      · rw [capNoCtx_hel]

theorem tripCapture_queue (f : Field) (x : BitVec 17) (cause : Byte) : (f.tripCapture x cause).hel.queue = f.hel.queue := by
  unfold tripCapture
  extract_lets p
  split
  · exact capAsk_queue _ _
  · rfl

/-- A trip takes its channel's entry from the queue, and no other (R172, R180). -/
theorem tripChan_queue (f : Field) (x : BitVec 17) (cause : Byte) :
    (f.tripChan x cause).hel.queue = f.hel.queue.filter (fun e => e.ch ≠ x) := by
  unfold tripChan
  extract_lets ctx f1 f2 f3 f4 f5
  have h2 : f2.hel.queue = f1.hel.queue := by
    simp only [f2]
    generalize ctx = o
    cases o with
    | some e => exact (dropCtx_queue _ _ _).trans (by rw [stopStream_hel])
    | none => rfl
  have h4 : f4.hel = f3.hel := by
    simp only [f4]
    generalize ctx = o
    cases o with
    | some e => exact insEnd_hel f3 _ _ _
    | none => rfl
  have h5 : f5.hel = f4.hel := by
    simp only [f5]
    generalize f4.directOf x = o
    cases o with
    | some n => dsimp only; split <;> rfl
    | none => rfl
  rw [tripCapture_queue, h5, h4]
  exact (congrArg Hel.queue (enter_hel_any f2 x .tripped cause 0 none)).trans h2

theorem tripChan_fails (f : Field) (x : BitVec 17) (cause : Byte) : (f.tripChan x cause).hel.fails = f.hel.fails :=
  Frame.Keeps.tripChan (r := failsFrame.toTripFrame) f x cause

/-- What is left of a counted failure whose channel trips: its state, its cause, its count, and nothing of it in the queue. -/
theorem countFail_tripChan (f : Field) (x : BitVec 17) (code : Byte) : Tripped x code ((f.countFail code).tripChan x code) ∧
    (∀ q ∈ ((f.countFail code).tripChan x code).hel.queue, q.ch ≠ x) ∧
    ((f.countFail code).tripChan x code).hel.fails =
      listSet f.hel.fails (code.toNat - 0x18) (satAdd (f.hel.fails.getD (code.toNat - 0x18) 0) 1) := by
  refine ⟨tripChan_tripped _ _ _, fun q hq => ?_, tripChan_fails _ _ _⟩
  rw [tripChan_queue] at hq
  simpa using (List.mem_filter.1 hq).2

/-! ### The claim (R168, R170, R192) -/

/-- The context that a claim sets up. -/
def claimed (f : Field) (e : InsEnt) : Ctx :=
  let st := f.startStream e.ch (insRate (f.profOf e.ch)) false false
  let bank := pad 128 (f.loopSet (u8 (f.profOf e.ch) 178))
  { st.1.newCtx e.ch e.origin .prepare st.2 (slice (f.profOf e.ch) 176 64) bank (freshStages bank) with
    kc := kcOf (slice (f.profOf e.ch) 176 64) st.2.rate }

/-- The field die once an entry has left the queue for a context. -/
def unqueued (f : Field) (e : InsEnt) : Field :=
  { f with hel := { f.hel with queue := f.hel.queue.erase e, waitPeak := satMax f.hel.waitPeak ((f.now.toNat - e.tJoin.toNat) / 10000) } }

theorem claim_eq (f : Field) (e : InsEnt) (n : Nat) :
    f.claim e n = ((f.unqueued e).startStream e.ch (insRate (f.profOf e.ch)) false false).1.setCtx n ((f.unqueued e).claimed e) := rfl

theorem contextClaim_claims {f : Field} {n : Nat} {e : InsEnt} (hi : f.intact = true) (hn : f.freeCtx = some n) (he : f.claimNext = some e)
    (hv : bit (u8 (f.loopSet (u8 (f.profOf e.ch) 178)) 1) 0 = true) : f.contextClaim = f.claim e n := by
  simp only [contextClaim, hn, he, readLoop_intact hi]
  exact if_pos hv

theorem contextClaim_fails {f : Field} {n : Nat} {e : InsEnt} (hi : f.intact = true) (hn : f.freeCtx = some n) (he : f.claimNext = some e)
    (hv : bit (u8 (f.loopSet (u8 (f.profOf e.ch) 178)) 1) 0 = false) : f.contextClaim = (f.countFail 0x19).tripChan e.ch 0x19 := by
  simp only [contextClaim, hn, he, readLoop_intact hi]
  exact if_neg (by simp [claimBank, hv])

theorem claimed_claimT (f : Field) (e : InsEnt) : (f.claimed e).claimT = f.now := by
  have h := mer_of_lanes (startStream_lanes f e.ch (insRate (f.profOf e.ch)) false false)
  show Field.now _ = f.now
  rw [now, h, now]

theorem claimed_handle (f : Field) (e : InsEnt) : (f.claimed e).handle = f.handle e.ch := by
  have h := nev_of_lanes (startStream_lanes f e.ch (insRate (f.profOf e.ch)) false false)
  show Field.handle _ e.ch = _
  rw [handle, chan_congr h, handle]

/-! ### O29 -/

/-- Settles O29: the entry's context is set up from its channel's tables; without VALID, and after QUEUE_TO, the channel trips. -/
theorem contextsAreClaimed : Obligations.ContextsAreClaimed := by
  unfold Obligations.ContextsAreClaimed
  intro s
  refine ⟨fun n e hi hn he hv => ?claimed, fun n e hi hn he hv => ?invalid, fun x e hq hpos hto => ?late⟩
  case claimed =>
    refine s.endsField_of_exec (op := fun f => f.contextClaim) rfl ?_
    rw [contextClaim_claims hi hn he hv, claim_eq]
    have hl := startStream_lanes (s.f.unqueued e) e.ch (insRate (s.f.profOf e.ch)) false false
    have hclaimT := claimed_claimT (s.f.unqueued e) e
    have hhandle := claimed_handle (s.f.unqueued e) e
    have hctx : (s.f.unqueued e).hel.ctx = s.f.hel.ctx := rfl
    generalize (Field.startStream _ _ _ _ _).1 = g at hl
    refine ⟨congrArg (·.hel.queue) hl, ⟨_, tabLook_tabPut_same .., rfl, rfl, rfl, hclaimT, rfl, hhandle, rfl, rfl, rfl, rfl⟩,
      fun m hm => ?_, congrArg (·.nev) hl, congrArg (·.saf) hl⟩
    refine (tabLook_tabPut_other _ _ hm.symm).trans ?_
    rw [hel_of_lanes hl, hctx]
  case invalid =>
    refine s.endsField_of_exec (op := fun f => f.contextClaim) rfl ?_
    rw [contextClaim_fails hi hn he hv]
    obtain ⟨ht, hqueue, hfails⟩ := countFail_tripChan s.f e.ch 0x19
    exact ⟨ht.1, ht.2, hqueue, hfails⟩
  case late =>
    refine s.endsField_of_exec (op := fun f => f.queueTimeout x) rfl ?_
    obtain ⟨ht, hqueue, hfails⟩ := countFail_tripChan s.f x 0x18
    simp only [queueTimeout, hq]
    rw [if_pos (by simp [hpos, hto])]
    exact ⟨ht.1, ht.2, hqueue, hfails⟩

/-! ### A failed insertion -/

theorem openSwitch_entries (f : Field) (x : BitVec 17) (ty : Byte) : SameEntries f (f.openSwitch x ty).1 := by
  unfold openSwitch
  split
  · exact gateOff_entries f _ true
  · exact .ofNev ((nev_of_lanes (expressTo_lanes _ x ty)).trans (rampsEnd_nev f x))

theorem failCapture_nev (f : Field) (n : Nat) (c : Ctx) (code : Byte) : (f.failCapture n c code).nev = f.nev := by
  unfold failCapture
  split
  · split
    · rfl
    · dsimp only
      split
      · rw [capEnd_nev, writeSlot_nev]
      · rw [modCtx_nev, writeSlot_nev]
  · rfl

/-- An insertion that fails leaves its channel TRIPPED with the failure's code (R180). -/
theorem failIns_tripped {f : Field} {n : Nat} {c : Ctx} (code : Byte) (h : tabLook f.hel.ctx n = some c) :
    Tripped c.ch code (f.failIns n code) := by
  unfold failIns
  simp only [h]
  split
  next =>
    refine Tripped.of_nev (Tripped.of_sameEntries ?_ (openSwitch_entries _ c.ch 0x02)) (tripCapture_nev _ _ _)
    exact (enter_tripped _ c.ch code 0 none).of_nev (insEnd_nev _ n c code)
  next =>
    refine Tripped.of_nev (Tripped.of_sameEntries ?_ (.confirm _ c.ch _ _)) (tripCapture_nev _ _ _)
    exact ((enter_tripped _ c.ch code 0 none).of_nev (insEnd_nev _ n c code)).of_nev
      ((toRampOff_nev _ _ _).trans (failCapture_nev _ _ _ _))

theorem failIns_fails {f : Field} {n : Nat} {c : Ctx} (code : Byte) (h : tabLook f.hel.ctx n = some c) :
    (f.failIns n code).hel.fails = listSet f.hel.fails (code.toNat - 0x18) (satAdd (f.hel.fails.getD (code.toNat - 0x18) 0) 1) :=
  Frame.Keeps.failIns (r := failsFrame) code h

/-- A step that fails the insertion of a context ends so. -/
theorem State.endsField_of_failIns {s : State} {i : Instr} {op : Field → Field} {n : Nat} {c : Ctx} {code : Byte}
    (hexec : exec i s = s.onField op) (h : tabLook s.f.hel.ctx n = some c) (hop : op s.f = s.f.failIns n code) :
    s.endsField i (fun g => (g.chan c.ch).nev.state = .tripped ∧ (g.chan c.ch).fr.cause = code ∧
      g.hel.fails = listSet s.f.hel.fails (code.toNat - 0x18) (satAdd (s.f.hel.fails.getD (code.toNat - 0x18) 0) 1)) := by
  refine s.endsField_of_exec hexec ?_
  rw [hop]
  exact ⟨(failIns_tripped code h).1, (failIns_tripped code h).2, failIns_fails code h⟩

/-! ### O30 -/

/-- Settles O30: each timeout fails its insertion with its code; the waiting capture goes, the buffer runs again. -/
theorem insertionsTimeOut : Obligations.InsertionsTimeOut := by
  unfold Obligations.InsertionsTimeOut
  intro s
  refine ⟨fun x n c hc hx => ?insertion, fun w r hw hdue => ⟨fun href => ?dropped, fun q href => ?refused⟩, fun n t ht hdue => ?buffer⟩
  case insertion =>
    subst hx
    refine ⟨fun hin hdue => ?_, fun hin hdue => ?_, fun hin hdue => ?_, fun hno hin _ hdue => ?_⟩
    · refine State.endsField_of_failIns (op := fun f => f.streamFail c.ch) (code := 0x19) rfl hc ?_
      simp only [streamFail, hin]
      exact if_pos hdue
    · refine State.endsField_of_failIns (op := fun f => f.rampTimeout c.ch) (code := 0x1A) rfl hc ?_
      simp only [rampTimeout, hin]
      exact if_pos hdue
    · refine State.endsField_of_failIns (op := fun f => f.settleFail c.ch) (code := 0x1F) rfl hc ?_
      simp only [settleFail, hin]
      exact if_pos hdue
    · refine State.endsField_of_failIns (op := fun f => f.settleFail c.ch) (code := 0x1F) rfl hc ?_
      simp only [settleFail, hno, hin]
      exact if_pos hdue
  case dropped =>
    refine s.endsField_of_exec (op := fun f => f.captureWaitExpiry) rfl ?_
    simp only [captureWaitExpiry, hw]
    rw [if_pos hdue]
    simp only [capNoCtx, href]
  case refused =>
    refine s.endsField_of_exec (op := fun f => f.captureWaitExpiry) rfl ?_
    simp only [captureWaitExpiry, hw]
    rw [if_pos hdue]
    simp only [capNoCtx, href]
    exact ⟨complete_frame .., completeH_answeredAs ..⟩
  case buffer =>
    refine s.endsField_of_exec (op := fun f => f.pretriggerRelease n) rfl ?_
    simp only [pretriggerRelease, ht]
    rw [if_pos hdue]
    refine ⟨dchan_modDch_same s.f n _, fun m hm => ?_, rfl⟩
    rw [dchan_modDch, if_neg hm]

end Field
end Sys2Proof.Machine
end

section
/-! PROOF. The states of a lane (R242 to R247): a record once queued stays queued, a lane's state changes alone, and the outstations of
a lane that goes are declared missing. -/
namespace Sys2Proof.Machine
set_option Elab.async false

theorem tabLook_none_below {α : Type} {t : Tab α} {b i : Nat} (h : tabRises (some b) t = true) (hi : i ≤ b) : tabLook t i = none := by
  induction t generalizing b with
  | nil => rfl
  | cons e r ih =>
    obtain ⟨k, v⟩ := e
    simp only [tabRises, Bool.and_eq_true, decide_eq_true_eq] at h
    rw [tabLook, if_neg (by omega)]
    exact ih h.2 (by omega)

/-- Every entry of a table in canonical form is the one found at its key. -/
theorem tabLook_of_mem {α : Type} {t : Tab α} {e : Nat × α} (ht : tabRises none t = true) (he : e ∈ t) : tabLook t e.1 = some e.2 := by
  induction t with
  | nil => cases he
  | cons a r ih =>
    obtain ⟨k, v⟩ := a
    have hr : tabRises (some k) r = true := by
      simpa [tabRises] using ht
    rcases List.mem_cons.1 he with rfl | he
    · rw [tabLook, if_pos rfl]
    · have hl := ih (tabRises_none_of_some hr) he
      by_cases hk : k = e.1
      · rw [tabLook_none_below hr (by omega)] at hl
        cases hl
      · rw [tabLook, if_neg hk, hl]

namespace Field

/-! ### Records stay queued -/

/-- The records of a partition's queue. -/
def recs (f : Field) (p : Part) : List Rec := (f.evq p).q.map (·.r)

/-- From f to g no record leaves its queue. -/
def RecordsStay (f g : Field) : Prop := ∀ p r, r ∈ f.recs p → r ∈ g.recs p

namespace RecordsStay
theorem refl (f : Field) : RecordsStay f f := fun _ _ h => h
theorem trans {f g h : Field} (a : RecordsStay f g) (b : RecordsStay g h) : RecordsStay f h := fun p r hr => b p r (a p r hr)
theorem ofPrt {f g : Field} (h : g.prt = f.prt) : RecordsStay f g := fun p r hr => by rw [recs, evq, h]; exact hr

theorem ite {f g h : Field} (c : Prop) [Decidable c] (a : RecordsStay f g) (b : RecordsStay f h) : RecordsStay f (if c then g else h) := by
  split
  · exact a
  · exact b

theorem foldl {α : Type} {op : Field → α → Field} (hop : ∀ f a, RecordsStay f (op f a)) (l : List α) : ∀ f : Field, RecordsStay f (l.foldl op f) := by
  induction l with
  | nil => exact refl
  | cons a l ih => exact fun f => (hop f a).trans (ih _)

theorem setEvq (f : Field) (q : Part) {v : EvQ} (h : v.q = (f.evq q).q) : RecordsStay f (f.setEvq q v) := fun p r hr => by
  by_cases hp : q = p
  · subst hp
    rw [recs, evq_setEvq_same, h]
    exact hr
  · rw [recs, evq_setEvq_other f v hp]
    exact hr

theorem enqueue (f : Field) (q : Part) (c : Rec) : RecordsStay f (f.enqueue q c) := fun p r hr => by
  by_cases hp : q = p
  · subst hp
    rw [recs, enqueue_recs]
    exact List.mem_append_left _ hr
  · rw [recs, (QueueStays.enqueue hp f c).1]
    exact hr

theorem raiseCore (f : Field) (p : Part) (ty : Byte) (h : Word) (t : Count) (b : Bytes) : RecordsStay f (f.raiseCore p ty h t b) := by
  unfold Field.raiseCore
  extract_lets q e free f1
  have h1 : RecordsStay f f1 := setEvq f p rfl
  exact h1.trans (ite _ (ite _ (enqueue f1 p _) (setEvq f1 p rfl)) (ite _ (enqueue f1 p _) (setEvq f1 p rfl)))

theorem overflow (f : Field) (p : Part) : RecordsStay f (f.overflow p) := by
  unfold Field.overflow
  extract_lets v n f1 q1
  have h1 : RecordsStay f f1 := ite _ (refl f) ((setEvq f p (by rfl)).trans (foldl (fun g (e : Evt) => enqueue g p _) _ _))
  exact ite _ (h1.trans ((setEvq f1 p (by rfl)).trans (raiseCore _ _ _ _ _ _))) h1

theorem raise (f : Field) (p : Part) (ty : Byte) (h : Word) (b : Bytes) : RecordsStay f (f.raise p ty h b) :=
  (overflow f p).trans (raiseCore _ _ _ _ _ _)

theorem complete (f : Field) (r : CmdRef) (s : Status) (d : Nat) : RecordsStay f (f.complete r s d) :=
  RecordsStay.trans (g := { f with prt := { f.prt with busy := f.prt.busy.filter (fun b => b.ref ≠ r) } }) (fun _ _ h => h) (enqueue _ _ _)
end RecordsStay

/-- No step of a recovery takes a record out of its queue. -/
def recordsFrame : Frame where
  rel := RecordsStay
  refl := RecordsStay.refl
  trans := RecordsStay.trans
  nev _ _ _ := .ofPrt rfl
  firn _ _ _ := .ofPrt rfl
  hel _ _ _ := .ofPrt rfl
  storms _ _ := .ofPrt rfl
  raise := RecordsStay.raise
  complete := RecordsStay.complete
  abandonStream f c := .ofPrt (by unfold Field.abandonStream; split <;> rfl)

/-- An event that is told stays told. -/
theorem told_stays {f g : Field} (h : RecordsStay f g) {p : Part} {ty : Byte} {hd : Word} (ht : f.told p ty hd = true) :
    g.told p ty hd = true := by
  obtain ⟨q, hq, hr⟩ := List.any_eq_true.1 ht
  obtain ⟨q', hq', he⟩ := List.mem_map.1 (h p q.r (List.mem_map_of_mem hq))
  exact List.any_eq_true.2 ⟨q', hq', by rw [he]; exact hr⟩

/-! ### One lane -/

theorem lane_modLane_other (f : Field) {l m : BitVec 5} (k : Lane → Lane) (h : m ≠ l) : (f.modLane l k).lane m = f.lane m :=
  lane_setLane_other f _ h.symm

theorem lane_of_lan {f g : Field} (h : g.lan = f.lan) (l : BitVec 5) : g.lane l = f.lane l := by rw [lane, lane, h]

theorem raiseAll_lan (f : Field) (ty : Byte) (b : Bytes) : (f.raiseAll ty b).lan = f.lan := lan_of_records (raiseAll_frame f ty b)
theorem raiseAll_nev (f : Field) (ty : Byte) (b : Bytes) : (f.raiseAll ty b).nev = f.nev := nev_of_records (raiseAll_frame f ty b)

/-! ### Entry into a state -/

/-- A lane that has entered a state. -/
def laneIn (v : Lane) (new : LaneState) (now : Count) : Lane :=
  { v with st := new, tState := now, loopTicks := 0, healAsked := false, splits := if new = .split then satAdd v.splits 1 else v.splits }

section
variable (f : Field) (l : BitVec 5) (new : LaneState)

theorem enterLane_eq : f.enterLane l new =
    (f.setLane l (laneIn (f.lane l) new f.now)).raiseAll 0x28 [l.setWidth 8, BitVec.ofNat 8 (f.lane l).st.code, BitVec.ofNat 8 new.code] := by
  unfold enterLane laneEvent laneIn
  rfl

theorem enterLane_same : (f.enterLane l new).lane l = laneIn (f.lane l) new f.now := by
  rw [enterLane_eq, lane_of_lan (raiseAll_lan ..), lane_setLane_same]

theorem enterLane_other {m : BitVec 5} (h : m ≠ l) : (f.enterLane l new).lane m = f.lane m := by
  rw [enterLane_eq, lane_of_lan (raiseAll_lan ..), lane_setLane_other _ _ h.symm]

theorem enterLane_nev : (f.enterLane l new).nev = f.nev := by rw [enterLane_eq, raiseAll_nev]; rfl

theorem enterLane_told {p : Part} (h : f.roomFor p = true) : (f.enterLane l new).told p 0x28 0 = true := by
  rw [enterLane_eq]
  exact raiseAll_told _ _ ((roomFor_of_stays (.ofPrt rfl)).trans h)

theorem enterLane_records : RecordsStay f (f.enterLane l new) := by
  have h : RecordsStay f (f.setLane l (laneIn (f.lane l) new f.now)) := .ofPrt rfl
  rw [enterLane_eq]
  exact h.trans (Frame.Keeps.raiseAll (r := recordsFrame) _ 0x28 _)
end

theorem split_ring {f : Field} {l : BitVec 5} (h : (f.lane l).st = .ring) : f.split l = f.enterLane l .split := if_pos h
theorem split_not {f : Field} {l : BitVec 5} (h : (f.lane l).st ≠ .ring) : f.split l = f := if_neg h

/-! ### Enumerations asked for (R248) -/

section
variable (f : Field) (l : BitVec 5) (locked : Bool)

/-- A lane whose enumeration is asked for. -/
def enumAsked (v : Lane) : Lane :=
  if v.enumPh = .idle then { v with enumPh := .pending locked, enumAns := [] } else { v with enumHeld := true }

theorem startEnum_frame : f.startEnum l locked = { f with lan := (f.startEnum l locked).lan } := rfl
theorem startEnum_same : (f.startEnum l locked).lane l = enumAsked locked (f.lane l) := lane_modLane_same ..
theorem startEnum_other {m : BitVec 5} (h : m ≠ l) : (f.startEnum l locked).lane m = f.lane m := lane_modLane_other _ _ h

/-- An enumeration runs or is asked for. -/
theorem enumAsked_enumPh (v : Lane) : (enumAsked locked v).enumPh ≠ .idle := by
  unfold enumAsked
  split
  · exact fun h => by cases h
  next h => exact h

/-- What of a lane asking for an enumeration leaves alone. -/
theorem enumAsked_keeps (v : Lane) : (enumAsked locked v).st = v.st ∧ (enumAsked locked v).lockA = v.lockA ∧
    (enumAsked locked v).lockB = v.lockB ∧ (enumAsked locked v).loopTicks = v.loopTicks := by
  unfold enumAsked
  split <;> exact ⟨rfl, rfl, rfl, rfl⟩
end

/-! ### Training ends in a ring -/

/-- A lane in TRAIN whose receivers are locked and whose mark has come round in time. -/
def LoopClosed (f : Field) (l : BitVec 5) : Prop :=
  (f.lane l).st = .train ∧ (f.lane l).lockA = true ∧ (f.lane l).lockB = true ∧ (f.lane l).loopSeen = true ∧
    f.now.toNat ≤ (f.lane l).tState.toNat + 1000000

theorem trainLoop_closed {f : Field} {l : BitVec 5} (ticks : BitVec 16) (h : LoopClosed f l) : f.trainLoop l ticks =
    ((f.enterLane l .ring).modLane l (fun v => { v with loopTicks := ticks })).startEnum l false := by
  obtain ⟨hst, ha, hb, hs, ht⟩ := h
  exact if_pos (by simp only [hst, ha, hb, hs, decide_true, Bool.and_self, Bool.true_and, decide_eq_true_eq]; exact ht)

theorem trainLoop_not {f : Field} {l : BitVec 5} (ticks : BitVec 16) (h : (f.lane l).st ≠ .train) : f.trainLoop l ticks = f :=
  if_neg (by simp [h])

theorem trainLoop_rings {f : Field} {l : BitVec 5} (ticks : BitVec 16) (h : LoopClosed f l) :
    ((f.trainLoop l ticks).lane l).st = .ring ∧ ((f.trainLoop l ticks).lane l).lockA = (f.lane l).lockA ∧
    ((f.trainLoop l ticks).lane l).lockB = (f.lane l).lockB ∧ ((f.trainLoop l ticks).lane l).loopTicks = ticks ∧
    ((f.trainLoop l ticks).lane l).enumPh ≠ .idle ∧ ∀ m, m ≠ l → (f.trainLoop l ticks).lane m = f.lane m := by
  rw [trainLoop_closed ticks h]
  obtain ⟨hst, ha, hb, ht⟩ := enumAsked_keeps false { (laneIn (f.lane l) .ring f.now) with loopTicks := ticks }
  refine ⟨?_, ?_, ?_, ?_, ?_, fun m hm => ?_⟩
  any_goals rw [startEnum_same, lane_modLane_same, enterLane_same]
  · exact hst
  · exact ha
  · exact hb
  · exact ht
  · exact enumAsked_enumPh false _
  · rw [startEnum_other _ _ _ hm, lane_modLane_other _ _ hm, enterLane_other _ _ _ hm]

/-! ### Frames that go with a lane -/

/-- From f to g no more changes than the links to outstations and the records, and no record leaves its queue. -/
structure LinksOnly (f g : Field) : Prop where
  frame : g = f.withLanes g
  lan : g.lan = { f.lan with link := g.lan.link }
  records : RecordsStay f g

namespace LinksOnly
theorem trans {f g h : Field} (a : LinksOnly f g) (b : LinksOnly g h) : LinksOnly f h :=
  ⟨lanes_trans a.frame b.frame, by rw [b.lan, a.lan], a.records.trans b.records⟩

theorem lane {f g : Field} (h : LinksOnly f g) (l : BitVec 5) : g.lane l = f.lane l := by rw [Field.lane, h.lan, Field.lane]

theorem done (f : Field) (r : CmdRef) : LinksOnly f (f.done r) :=
  ⟨lanes_of_records (done_frame f r), by rw [done_lan], RecordsStay.complete f r _ _⟩

theorem setLink (f : Field) (id : BitVec 64) (v : OsLink) : LinksOnly f (f.setLink id v) := ⟨rfl, rfl, .ofPrt rfl⟩
end LinksOnly

/-- What a lane has queued goes. -/
def emptied (v : Lane) : Lane := { v with exq := [], pollQ := [], eHeld := [] }

theorem discardQueued_links (f : Field) (l : BitVec 5) : LinksOnly (f.modLane l emptied) (f.discardQueued l) := by
  unfold discardQueued
  refine List.foldlRecOn (motive := LinksOnly (f.modLane l emptied)) _ _ ⟨rfl, rfl, .refl _⟩ fun g hg id _ => hg.trans ?_
  refine List.foldlRecOn (motive := LinksOnly g) _ _ (.setLink g id _) fun h hh u _ => ?_
  cases u.ref with
  | some r => exact hh.trans (.done h r)
  | none => exact hh

theorem discardQueued_lane (f : Field) (l m : BitVec 5) : (f.discardQueued l).lane m = (f.modLane l emptied).lane m :=
  (discardQueued_links f l).lane m

theorem isolate_cases (f : Field) (l : BitVec 5) : f.isolate l = f ∨ f.isolate l = (f.discardQueued l).enterLane l .isolated := by
  unfold isolate
  dsimp only
  split
  · exact .inr rfl
  · exact .inl rfl

/-- A lane that may go to ISOLATED keeps the rest. -/
theorem isolate_lane (f : Field) (l : BitVec 5) :
    (f.isolate l).lane l = f.lane l ∨ (f.isolate l).lane l = laneIn (emptied (f.lane l)) .isolated f.now := by
  rcases isolate_cases f l with h | h
  · exact .inl (by rw [h])
  · refine .inr ?_
    rw [h, enterLane_same, discardQueued_lane, lane_modLane_same, now, mer_of_lanes (discardQueued_links f l).frame]
    rfl

theorem isolate_nev (f : Field) (l : BitVec 5) : (f.isolate l).nev = f.nev := by
  rcases isolate_cases f l with h | h
  · rw [h]
  · rw [h, enterLane_nev, nev_of_lanes (discardQueued_links f l).frame]
    rfl

theorem isolate_records (f : Field) (l : BitVec 5) : RecordsStay f (f.isolate l) := by
  rcases isolate_cases f l with h | h
  · rw [h]
    exact .refl f
  · rw [h]
    exact ((RecordsStay.ofPrt rfl).trans (discardQueued_links f l).records).trans (enterLane_records _ l _)

/-! ### Missing outstations (R250) -/

theorem modOs_lane {f : Field} {l : BitVec 5} {k : Nat} {o : Outst} (m : Outst → Outst) (h : tabLook (f.lane l).os k = some o) :
    (f.modOs l k m).lane l = { f.lane l with os := tabPut (f.lane l).os k (m o) } := by
  simp only [modOs, h]
  exact lane_modLane_same ..

theorem fallbackId_slots (f : Field) (id : BitVec 64) : SlotsOnly f (f.fallbackId id) :=
  Frame.Keeps.foldl (r := laneFrame) (fun g x => (Frame.Keeps.toFallback g x).trans (Frame.Keeps.modAux _ x _)) _ f

theorem fallbackId_os (f : Field) (id : BitVec 64) (l : BitVec 5) : ((f.fallbackId id).lane l).os = (f.lane l).os := by
  obtain ⟨s, hs⟩ := fallbackId_slots f id l
  rw [hs]

/-- An outstation found missing has no count of missed places. -/
theorem declareMissing_os {f : Field} {l : BitVec 5} {k : Nat} {o : Outst} (h : tabLook (f.lane l).os k = some o) (hm : o.missing = false) :
    ((f.declareMissing l k).lane l).os = tabPut (f.lane l).os k { o with missing := true, missCnt := 0 } := by
  simp only [declareMissing, h, hm]
  show ((Field.fallbackId _ o.id).lane l).os = _
  rw [fallbackId_os, modOs_lane _ h]

theorem declareMissing_missing (f : Field) (l : BitVec 5) (k : Nat) {o : Outst} (h : tabLook ((f.declareMissing l k).lane l).os k = some o) :
    o.missing = true := by
  cases ho : tabLook (f.lane l).os k with
  | none =>
    simp only [declareMissing, ho] at h
    cases h
  | some p =>
    cases hm : p.missing with
    | true =>
      simp only [declareMissing, ho, hm] at h
      obtain rfl := Option.some.inj (ho.symm.trans h)
      exact hm
    | false =>
      rw [declareMissing_os ho hm, tabLook_tabPut_same] at h
      rw [← Option.some.inj h]

theorem declareMissing_os_other (f : Field) (l : BitVec 5) {k j : Nat} (hj : j ≠ k) :
    tabLook ((f.declareMissing l k).lane l).os j = tabLook (f.lane l).os j := by
  cases ho : tabLook (f.lane l).os k with
  | none => simp only [declareMissing, ho]
  | some p =>
    cases hm : p.missing with
    | true => simp only [declareMissing, ho, hm]; rfl
    | false => rw [declareMissing_os ho hm, tabLook_tabPut_other _ _ hj.symm]

/-- Once every key of a list has been declared missing, an outstation that is not missing stands at another key, as before. -/
theorem declareKeys_missing (l : BitVec 5) (ks : List Nat) (f : Field) {j : Nat} {o : Outst}
    (h : tabLook ((ks.foldl (fun (g : Field) k => g.declareMissing l k) f).lane l).os j = some o) :
    o.missing = true ∨ (j ∉ ks ∧ tabLook (f.lane l).os j = some o) := by
  induction ks generalizing f with
  | nil => exact .inr ⟨by simp, h⟩
  | cons k ks ih =>
    rcases ih _ h with hm | ⟨hj, ho⟩
    · exact .inl hm
    · by_cases hk : j = k
      · subst hk
        exact .inl (declareMissing_missing f l j ho)
      · rw [declareMissing_os_other f l hk] at ho
        exact .inr ⟨by simp [hk, hj], ho⟩

theorem declareAll_missing (f : Field) (l : BitVec 5) {j : Nat} {o : Outst}
    (h : tabLook ((f.declareAll l (fun _ => true)).lane l).os j = some o) : o.missing = true := by
  rcases declareKeys_missing l _ f h with hm | ⟨hj, ho⟩
  · exact hm
  · exact absurd (List.mem_map_of_mem (f := (·.1)) (mem_of_tabLook ho)) hj

theorem laneOff_enabled {f : Field} {l : BitVec 5} (h : (f.lane l).st ≠ .disabled) :
    ((f.laneOff l).lane l).en = false ∧ ((f.laneOff l).lane l).st = .disabled ∧
    ∀ j o, tabLook ((f.laneOff l).lane l).os j = some o → o.missing = true := by
  rw [laneOff, if_neg h]
  refine ⟨?_, ?_, fun j o ho => ?_⟩
  any_goals rw [lane_modLane_same]
  rw [lane_modLane_same] at ho
  exact declareAll_missing _ l ho

/-! ### O39 -/

theorem receiverLock_train {f : Field} {l : BitVec 5} (e : End) (hh : f.mer.holdover = false) (hst : (f.lane l).st = .train) :
    f.receiverLock l e = (f.modLane l (fun v => { v with lockA := v.lockA || e = .a, lockB := v.lockB || e = .b })).trainLoop l
      (f.lane l).loopTicks := by
  unfold receiverLock
  rw [if_neg (by simp [hh])]
  extract_lets f1
  have h1 : f1.lane l = { f.lane l with lockA := (f.lane l).lockA || e = .a, lockB := (f.lane l).lockB || e = .b } := lane_modLane_same ..
  rw [if_neg (by rw [h1, hst]; decide), h1]

/-- A ring whose receiver has lost its signal (R244, R246). -/
theorem lossOfSignal_ring {f : Field} {l : BitVec 5} (e : End) (hh : f.mer.holdover = false) (hst : (f.lane l).st = .ring) :
    f.lossOfSignal l e =
      ((f.modLane l (fun v => { v with lockA := v.lockA && e ≠ .a, lockB := v.lockB && e ≠ .b })).enterLane l .split).isolate l := by
  unfold lossOfSignal
  rw [if_neg (by simp [hh])]
  extract_lets f1
  rw [split_ring]
  simp only [f1, lane_modLane_same]
  exact hst

theorem markReachesEndB_eq {f : Field} {l : BitVec 5} (ticks : BitVec 16) (hh : f.mer.holdover = false) (hst : (f.lane l).st ≠ .disabled) :
    f.markReachesEndB l ticks = (f.setLane l { f.lane l with
      loopSeen := true, loopTicks := if (f.lane l).st = .ring && (f.lane l).loopTicks = 0 then ticks else (f.lane l).loopTicks }).trainLoop l ticks := by
  unfold markReachesEndB
  extract_lets v f1
  rw [if_neg (by simp [v, hst, hh])]

/-- Settles O39: each row takes its lane to the state R242 to R246 say. -/
theorem lanesChangeState : Obligations.LanesChangeState := by
  unfold Obligations.LanesChangeState
  intro s l
  refine ⟨fun p hw hc => ⟨fun hst hlife => ?enable, fun hst => ?disable⟩, fun e hh hst hs ht ha hb => ?lock, fun e hh hst => ?loss,
    fun ticks hh hst h0 => ?mark, fun ticks hh hst ha hb ht => ?loop, fun hst ht => ?timeout, fun hst hs ht => ?fail⟩
  case enable =>
    refine s.endsField_of_write (op := fun f => f.laneEnable p l true) rfl hw ?_
    have heq : s.f.laneEnable p l true = (s.f.modLane l (fun v => { v with en := true })).train l := by
      unfold laneEnable
      rw [if_neg (by simp [hc]), if_pos rfl, if_pos (by simp only [hst, ne_eq, hlife]; rfl)]
    rw [heq]
    refine ⟨?_, train_st _ l, fun k hk => ?_, rfl⟩
    · rw [train, lane_modLane_same, lane_modLane_same]
    · rw [train_other _ hk.symm, lane_modLane_other _ _ hk]
  case disable =>
    refine s.endsField_of_write (op := fun f => f.laneEnable p l false) rfl hw ?_
    have heq : s.f.laneEnable p l false = s.f.laneOff l := by simp [laneEnable, hc]
    rw [heq]
    obtain ⟨hen, hoff, hmiss⟩ := laneOff_enabled hst
    exact ⟨hen, hoff, fun o ho hr => hmiss _ _ (tabLook_of_mem hr ho)⟩
  case lock =>
    refine s.endsField_of_exec (op := fun f => f.receiverLock l e) rfl ?_
    rw [receiverLock_train e hh hst]
    set f1 := s.f.modLane l (fun v => { v with lockA := v.lockA || e = .a, lockB := v.lockB || e = .b }) with hf1
    have h1 : f1.lane l = { s.f.lane l with lockA := (s.f.lane l).lockA || e = .a, lockB := (s.f.lane l).lockB || e = .b } :=
      lane_modLane_same ..
    have hA : (f1.lane l).lockA = true := by
      rw [h1]
      cases e with
      | a => simp
      | b => simpa using hb rfl
    have hB : (f1.lane l).lockB = true := by
      rw [h1]
      cases e with
      | a => simpa using ha rfl
      | b => simp
    have hloop : LoopClosed f1 l := ⟨by rw [h1]; exact hst, hA, hB, by rw [h1]; exact hs, by rw [h1]; exact ht⟩
    obtain ⟨hr, hlA, hlB, -, hen, hother⟩ := trainLoop_rings (s.f.lane l).loopTicks hloop
    exact ⟨hr, hlA.trans hA, hlB.trans hB, hen, fun k hk => (hother k hk).trans (lane_modLane_other _ _ hk)⟩
  case loss =>
    refine s.endsField_of_exec (op := fun f => f.lossOfSignal l e) rfl ?_
    rw [lossOfSignal_ring e hh hst]
    set f1 := s.f.modLane l (fun v => { v with lockA := v.lockA && e ≠ .a, lockB := v.lockB && e ≠ .b }) with hf1
    have h1 : f1.lane l = { s.f.lane l with lockA := (s.f.lane l).lockA && e ≠ .a, lockB := (s.f.lane l).lockB && e ≠ .b } :=
      lane_modLane_same ..
    have h2 := enterLane_same f1 l .split
    rw [h1] at h2
    have hlane := isolate_lane (f1.enterLane l .split) l
    rw [h2] at hlane
    refine ⟨?_, ?_, fun he => ?_, fun he => ?_, fun p hp => told_stays (isolate_records _ l) (enterLane_told f1 l .split ?_)⟩
    · rcases hlane with h | h
      · exact .inl (by rw [h]; rfl)
      · exact .inr (by rw [h]; rfl)
    · rcases hlane with h | h <;> rw [h] <;> rfl
    · subst he
      rcases hlane with h | h <;> rw [h] <;> simp [laneIn, emptied]
    · subst he
      rcases hlane with h | h <;> rw [h] <;> simp [laneIn, emptied]
    · exact (roomFor_of_stays (.ofPrt rfl)).trans hp
  case mark =>
    refine s.endsField_of_exec (op := fun f => f.markReachesEndB l ticks) rfl ?_
    rw [markReachesEndB_eq ticks hh (by rw [hst]; decide), trainLoop_not]
    · refine ⟨?_, fun k hk => lane_setLane_other _ _ hk.symm, rfl⟩
      rw [lane_setLane_same, if_pos (by simp [hst, h0])]
    · rw [lane_setLane_same]
      show (s.f.lane l).st ≠ .train
      rw [hst]
      decide
  case loop =>
    refine s.endsField_of_exec (op := fun f => f.markReachesEndB l ticks) rfl ?_
    rw [markReachesEndB_eq ticks hh (by rw [hst]; decide)]
    have hclosed (v : Lane) (hv : v = { s.f.lane l with loopSeen := true, loopTicks := v.loopTicks }) : LoopClosed (s.f.setLane l v) l := by
      rw [LoopClosed, lane_setLane_same, hv]
      exact ⟨hst, ha, hb, rfl, ht⟩
    obtain ⟨hr, -, -, ht', hen, -⟩ := trainLoop_rings ticks (hclosed { s.f.lane l with
      loopSeen := true, loopTicks := if (s.f.lane l).st = .ring && (s.f.lane l).loopTicks = 0 then ticks else (s.f.lane l).loopTicks } rfl)
    exact ⟨hr, ht', hen⟩
  case timeout =>
    refine s.endsField_of_exec (op := fun f => f.laneTrainTimeout l) rfl ?_
    have heq : s.f.laneTrainTimeout l = if (s.f.lane l).lockA || (s.f.lane l).lockB then (s.f.enterLane l .split).startEnum l true
        else (s.f.declareAll l (fun _ => true)).enterLane l .isolated := by
      unfold laneTrainTimeout
      extract_lets v
      exact if_pos (by simp only [v, hst, ht, decide_true, Bool.and_self])
    rw [heq]
    refine ⟨fun h => ?_, fun hA hB => ?_⟩
    · rw [if_pos (by simpa using h), startEnum_same, enterLane_same]
      exact ⟨(enumAsked_keeps ..).1, enumAsked_enumPh true _⟩
    · rw [if_neg (by simp [hA, hB]), enterLane_same]
      rfl
  case fail =>
    refine s.endsField_of_exec (op := fun f => f.markLoopFail l) rfl ?_
    have heq : s.f.markLoopFail l = s.f.enterLane l .split := by
      unfold markLoopFail
      extract_lets v
      rw [if_pos (by simp only [v, hst, hs, ht]; rfl), split_ring hst]
    rw [heq, enterLane_same]
    exact ⟨rfl, rfl, rfl, fun k hk => enterLane_other _ _ _ hk⟩

end Field
end Sys2Proof.Machine
end

section
/-! PROOF. Breaks, repairs, missing outstations and degraded lanes (R246 to R253). -/
namespace Sys2Proof.Machine
set_option Elab.async false
namespace Field

/-! ### Entry into FALLBACK (R66) -/

theorem toFallback_touches (f : Field) (x : BitVec 17) : Touches x f (f.toFallback x) := by
  unfold toFallback
  extract_lets c ctx f1 f2 f3 f4
  have hdrop (g : Field) (n : Nat) (k : Ctx) : Touches x g ((g.abandonStream k).dropCtx n true) :=
    (Touches.ofLanes (abandonStream_lanes g k)).trans (.ofCtxs (dropCtx_ctxs _ n true))
  have h2 : Touches x f f2 := (Touches.ofCtxs (unqueue_ctxs f x)).trans (by
    simp only [f2, f1]
    generalize ctx = o
    cases o with
    | some e => exact hdrop _ _ _
    | none => exact .refl x _)
  have h3 : Touches x f f3 := h2.trans (List.foldlRecOn (motive := Touches x f2) _ _ (.refl x f2) fun g hg e _ => hg.trans (hdrop g e.1 e.2))
  have h4 : Touches x f f4 := h3.trans (.enter x _ _ _ _ _)
  split
  · exact .refl x f
  · generalize ctx = o
    cases o with
    | some e => exact h4.trans (.ofCtxs (insEnd_ctxs _ _ _ _))
    | none => exact h4

theorem toFallback_state {f : Field} {x : BitVec 17} (h : (f.chan x).nev.state ≠ .free) : ((f.toFallback x).chan x).nev.state = .fallback := by
  unfold toFallback
  extract_lets c ctx f1 f2 f3 f4
  split
  next hc =>
    simp only [Bool.or_eq_true, decide_eq_true_eq] at hc
    exact hc.resolve_left h
  next =>
    have h4 : (f4.chan x).nev.state = .fallback := by simp only [f4, enter_state]
    clear_value f4
    generalize ctx = o
    cases o with
    | some e =>
      dsimp only
      rw [chan_congr (insEnd_nev f4 _ _ _)]
      exact h4
    | none => exact h4

/-- The channel is in FALLBACK for want of its outstation. -/
def LostOs (x : BitVec 17) (f : Field) : Prop := (f.chan x).nev.state = .fallback ∧ (f.chan x).aux.osMissing = true

/-- One channel of an identity that goes missing. -/
def loseOs (g : Field) (x : BitVec 17) : Field :=
  (g.toFallback x).modAux x (fun a => { a with osMissing := true, healthTaken := false, fbOpened := false })

theorem loseOs_other (g : Field) {x y : BitVec 17} (h : y ≠ x) : (g.loseOs x).chan y = g.chan y :=
  (chan_modChan_other _ _ h.symm).trans ((toFallback_touches g x).2 y h)

theorem loseOs_same {g : Field} {x : BitVec 17} (h : (g.chan x).nev.state ≠ .free) : LostOs x (g.loseOs x) := by
  rw [LostOs, loseOs, modAux, chan_modChan_same]
  exact ⟨toFallback_state h, rfl⟩

/-- Every existing channel of a list is in FALLBACK at the end. -/
theorem loseOs_all (xs : List (BitVec 17)) (f : Field) {x : BitVec 17} (hx : x ∈ xs ∨ LostOs x f) (h : (f.chan x).nev.state ≠ .free) :
    LostOs x (xs.foldl loseOs f) := by
  induction xs generalizing f with
  | nil => exact hx.resolve_left (by simp)
  | cons y xs ih =>
    by_cases hy : x = y
    · subst hy
      have hl := loseOs_same h
      exact ih _ (.inr hl) (by rw [hl.1]; decide)
    · have hs := loseOs_other f hy
      refine ih _ (hx.imp (fun hm => (List.mem_cons.1 hm).resolve_left hy) fun hl => ?_) (by rw [hs]; exact h)
      rw [LostOs, hs]
      exact hl

theorem fallbackId_lost {f : Field} {id : BitVec 64} {x : BitVec 17} (hx : x ∈ f.chansOf id) (h : (f.chan x).nev.state ≠ .free) :
    LostOs x (f.fallbackId id) := loseOs_all _ f (.inl hx) h

theorem modOs_nev (f : Field) (l : BitVec 5) (k : Nat) (m : Outst → Outst) : (f.modOs l k m).nev = f.nev := by
  unfold modOs
  split <;> rfl

theorem chansOf_congr {f g : Field} (h : g.nev = f.nev) (id : BitVec 64) : g.chansOf id = f.chansOf id := by
  rw [chansOf, chansOf, select, select, existing, existing, h]

theorem declareMissing_lost {f : Field} {l : BitVec 5} {k : Nat} {o : Outst} (ho : tabLook (f.lane l).os k = some o) (hm : o.missing = false)
    {x : BitVec 17} (hx : x ∈ f.chansOf o.id) (h : (f.chan x).nev.state ≠ .free) : LostOs x (f.declareMissing l k) := by
  have hn := modOs_nev f l k (fun o => { o with missing := true, missCnt := 0 })
  simp only [declareMissing, ho, hm]
  refine fallbackId_lost ?_ ?_
  · rw [chansOf_congr hn]
    exact hx
  · rw [chan_congr hn]
    exact h

theorem outstationMissing_eq {f : Field} {l : BitVec 5} {pos : BitVec 6} {o : Outst} (ho : tabLook (f.lane l).os pos.toNat = some o)
    (hm : o.missing = false) (hn : (if (f.lane l).osMiss = 0 then 6 else (f.lane l).osMiss.toNat) ≤ o.missCnt) :
    f.outstationMissing l pos = (f.declareMissing l pos.toNat).isolate l := by
  simp only [outstationMissing, ho]
  rw [if_pos (by simp only [hm, Bool.not_false, Bool.true_and, decide_eq_true_eq]; exact hn)]

theorem isolate_os (f : Field) (l : BitVec 5) : ((f.isolate l).lane l).os = (f.lane l).os := by
  rcases isolate_lane f l with h | h
  · rw [h]
  · rw [h]
    rfl

/-! ### Notices (R246, R247) -/

/-- A lane on which a notice has recorded its side. -/
def sideOf (pos : BitVec 6) (west : Bool) (v : Lane) : Lane :=
  if west then { v with westPos := pos, westValid := true, restWest := false } else { v with eastPos := pos, eastValid := true, restEast := false }

/-- The lane after a notice of one side alone. -/
theorem wrap_one {f : Field} {l : BitVec 5} {pos : BitVec 6} {west : Bool} (hn : f.notices l = true)
    (hside : (if west then (f.lane l).eastValid else (f.lane l).westValid) = false) :
    f.wrap l pos west true = (f.split l).modLane l (sideOf pos west) := by
  have hv : ((f.split l).lane l).eastValid = (f.lane l).eastValid ∧ ((f.split l).lane l).westValid = (f.lane l).westValid := by
    by_cases hr : (f.lane l).st = .ring
    · rw [split_ring hr, enterLane_same]
      exact ⟨rfl, rfl⟩
    · rw [split_not hr]
      exact ⟨rfl, rfl⟩
  unfold wrap
  extract_lets f1 v
  rw [if_neg (by simp [hn]), if_neg (by simp)]
  refine if_neg ?_
  have h1 : v = sideOf pos west ((f.split l).lane l) := lane_modLane_same ..
  rw [h1]
  cases west with
  | true => simp_all [sideOf]
  | false => simp_all [sideOf]

theorem split_lane (f : Field) (l : BitVec 5) :
    ((f.split l).lane l).st = (if (f.lane l).st = .ring then .split else (f.lane l).st) ∧ ∀ k, k ≠ l → (f.split l).lane k = f.lane k := by
  by_cases hr : (f.lane l).st = .ring
  · rw [split_ring hr, enterLane_same, if_pos hr]
    exact ⟨rfl, fun k hk => enterLane_other _ _ _ hk⟩
  · rw [split_not hr, if_neg hr]
    exact ⟨rfl, fun _ _ => rfl⟩

theorem wrap_bad {f : Field} {l : BitVec 5} (pos : BitVec 6) (west : Bool) (hn : f.notices l = true) :
    f.wrap l pos west false = f.crcExpress l := by
  simp [wrap, hn]

theorem restored_west {f : Field} {l : BitVec 5} {pos : BitVec 6} (hn : f.notices l = true) (hv : (f.lane l).westValid = true)
    (hp : (f.lane l).westPos = pos) : f.restored l pos true true = f.setLane l { f.lane l with restWest := true } := by
  simp [restored, hn, hv, hp]

theorem restored_east {f : Field} {l : BitVec 5} {pos : BitVec 6} (hn : f.notices l = true) (hv : (f.lane l).eastValid = true)
    (hp : (f.lane l).eastPos = pos) : f.restored l pos false true = f.setLane l { f.lane l with restEast := true } := by
  simp [restored, hn, hv, hp]

/-! ### Code violations (R253) -/

/-- Does one end pass the limit in the running second? -/
def pastLimit (v : Lane) (cvA cvB : Nat) : Bool :=
  v.cvLimit.toNat ≠ 0 && (v.cvLimit.toNat < v.secA + cvA || v.cvLimit.toNat < v.secB + cvB)

theorem pastLimit_iff (v : Lane) (cvA cvB : Nat) : pastLimit v cvA cvB = true ↔
    v.cvLimit.toNat ≠ 0 ∧ (v.cvLimit.toNat < v.secA + cvA ∨ v.cvLimit.toNat < v.secB + cvB) := by
  rw [pastLimit, Bool.and_eq_true, Bool.or_eq_true, decide_eq_true_eq, decide_eq_true_eq, decide_eq_true_eq]

/-- A lane whose ends have counted violations. -/
def violated (v : Lane) (cvA cvB : Nat) : Lane :=
  { v with cvA := satAdd v.cvA cvA, cvB := satAdd v.cvB cvB, secA := v.secA + cvA, secB := v.secB + cvB,
           degraded := v.degraded || pastLimit v cvA cvB }

theorem laneDegraded_cases {f : Field} (l : BitVec 5) (cvA cvB : Nat) (hh : f.mer.holdover = false) :
    ∃ b, f.laneDegraded l cvA cvB = if pastLimit (f.lane l) cvA cvB && !(f.lane l).degraded
      then (f.setLane l (violated (f.lane l) cvA cvB)).raiseAll 0x2A b else f.setLane l (violated (f.lane l) cvA cvB) := by
  unfold laneDegraded
  rw [if_neg (by simp [hh])]
  exact ⟨_, rfl⟩

/-! ### O40 -/

/-- Settles O40: each notice, request and count changes its lane as R246 to R253 say, and a missing outstation's channels fall back. -/
theorem breaksAreRecorded : Obligations.BreaksAreRecorded := by
  unfold Obligations.BreaksAreRecorded
  intro s l
  refine ⟨fun pos west hn => ⟨fun he hw => ?west, fun hw he => ?east, ?bad, fun hw hv hp => ?restWest, fun hw hv hp => ?restEast⟩,
    fun p hw hc => ⟨fun hup => ?reenum, fun hst hm => ?heal⟩, fun pos o ho hm hn => ?missing, fun cvA cvB hh => ?degraded⟩
  case west =>
    subst hw
    refine s.endsField_of_exec (op := fun f => f.wrap l pos true true) rfl ?_
    rw [wrap_one (west := true) hn he]
    refine ⟨?_, ?_, ?_, ?_, fun k hk => (lane_modLane_other _ _ hk).trans ((split_lane s.f l).2 k hk)⟩
    all_goals rw [lane_modLane_same]
    · exact (split_lane s.f l).1
    · rfl
    · rfl
    · rfl
  case east =>
    subst he
    refine s.endsField_of_exec (op := fun f => f.wrap l pos false true) rfl ?_
    rw [wrap_one (west := false) hn hw]
    refine ⟨?_, ?_, ?_, ?_, fun k hk => (lane_modLane_other _ _ hk).trans ((split_lane s.f l).2 k hk)⟩
    all_goals rw [lane_modLane_same]
    · exact (split_lane s.f l).1
    · rfl
    · rfl
    · rfl
  case bad =>
    refine s.endsField_of_exec (op := fun f => f.wrap l pos west false) rfl ?_
    rw [wrap_bad pos west hn]
    exact ⟨lane_modLane_same .., fun k hk => lane_modLane_other _ _ hk, rfl⟩
  case restWest =>
    subst hw
    refine s.endsField_of_exec (op := fun f => f.restored l pos true true) rfl ?_
    rw [restored_west hn hv hp]
    exact ⟨lane_setLane_same .., fun k hk => lane_setLane_other _ _ hk.symm, rfl⟩
  case restEast =>
    subst hw
    refine s.endsField_of_exec (op := fun f => f.restored l pos false true) rfl ?_
    rw [restored_east hn hv hp]
    exact ⟨lane_setLane_same .., fun k hk => lane_setLane_other _ _ hk.symm, rfl⟩
  case reenum =>
    refine s.endsField_of_write (op := fun f => f.reenum p l) rfl hw ?_
    have heq : s.f.reenum p l = s.f.startEnum l false := by simp [reenum, hc, hup]
    rw [heq, startEnum_same]
    exact ⟨fun h => if_pos h, fun h => if_neg h, fun k hk => startEnum_other _ _ _ hk, startEnum_frame ..⟩
  case heal =>
    refine s.endsField_of_write (op := fun f => f.heal p l) rfl hw ?_
    have heq : s.f.heal p l = s.f.modLane l (fun v => { v with healAsked := true }) := by simp [heal, hc, hst, hm]
    rw [heq]
    exact ⟨lane_modLane_same .., fun k hk => lane_modLane_other _ _ hk, rfl⟩
  case missing =>
    refine s.endsField_of_exec (op := fun f => f.outstationMissing l pos) rfl ?_
    rw [outstationMissing_eq ho hm hn]
    refine ⟨?_, fun x hx hs => ?_⟩
    · rw [isolate_os, declareMissing_os ho hm, tabLook_tabPut_same]
    · rw [chan_congr (isolate_nev _ l)]
      exact declareMissing_lost ho hm hx hs
  case degraded =>
    intro lim a b
    refine s.endsField_of_exec (op := fun f => f.laneDegraded l cvA cvB) rfl ?_
    show _ ∧ _
    obtain ⟨body, heq⟩ := laneDegraded_cases (f := s.f) l cvA cvB hh
    have hpast := pastLimit_iff (s.f.lane l) cvA cvB
    generalize s.f.laneDegraded l cvA cvB = g at heq
    set f1 := s.f.setLane l (violated (s.f.lane l) cvA cvB) with hf1
    have h1 : f1.lane l = violated (s.f.lane l) cvA cvB := lane_setLane_same ..
    have hother (k) (hk : k ≠ l) : f1.lane k = s.f.lane k := lane_setLane_other _ _ hk.symm
    have hnev : f1.nev = s.f.nev := rfl
    have hroom (p) : f1.roomFor p = s.f.roomFor p := roomFor_of_stays (.ofPrt rfl)
    clear_value f1
    have hrec : g = f1.withRecords g := by
      rw [heq]
      split
      · exact raiseAll_frame ..
      · rfl
    have hlane (k) : g.lane k = f1.lane k := lane_of_lan (lan_of_records hrec) k
    refine ⟨?_, ?_, ?_, ?_, ?_, fun p hl hab hd hp => ?_, fun k hk => (hlane k).trans (hother k hk), (nev_of_records hrec).trans hnev⟩
    any_goals rw [hlane, h1]
    · rfl
    · rfl
    · rfl
    · rfl
    · rw [violated, Bool.or_eq_true, hpast]
    · rw [heq, if_pos (by simp [hpast.2 ⟨hl, hab⟩, hd])]
      exact raiseAll_told _ _ ((hroom p).trans hp)

end Field
end Sys2Proof.Machine
end

section
/-! PROOF. An ignored report is not all that its row does: the row ends with the CLEARED that a direct channel owes (R291, step 9), and
that channel has then sent it. -/
namespace Sys2Proof.Machine
set_option Elab.async false

/-- A field die with lane 0 in RING and no outstation on it, whose direct channel 0, bound to channel 5, is OFF, clear and owes its
CLEARED. -/
def owingField : Field :=
  { State.reset.f with lan := { State.reset.f.lan with lane := [(0, { Lane.reset with st := .ring })] },
                       dch := [(0, { Dch.reset with bound := some 5 })] }

theorem owingField_reporter : owingField.reporter 0 0 0 = none := by decide +kernel
theorem owingField_hears : owingField.laneHears 0 = true := by decide +kernel
theorem owingField_owes : (owingField.dchan 0).clearedSent = false := by decide +kernel
/-- The ignored report's row sends the CLEARED of direct channel 0. -/
theorem owingField_sends : ((owingField.faultSeenRow 0 0 0 0 true true 0 0).dchan 0).clearedSent = true := by decide +kernel

theorem owingField_first : owingField.seenBefore 0 0 0 0 false = false := by decide +kernel

/-- What O36 says of an ignored report leaves every direct channel alone. -/
theorem dch_of_reportsResolve (h : Obligations.ReportsResolve) (s : State) (hh : s.f.laneHears 0 = true)
    (hs : s.f.seenBefore 0 0 0 0 false = false) (hr : s.f.reporter 0 0 0 = none) :
    (s.f.faultSeenRow 0 0 0 0 true true 0 0).dch = s.f.dch := by
  unfold Obligations.ReportsResolve at h
  obtain ⟨hreports, -⟩ := h s
  obtain ⟨g, hexec, -, hg⟩ := (hreports 0 0 0 0 true 0 0 hh hs).1 hr
  have hrun : exec (.faultSeen 0 0 0 0 true true ⟨0, 0⟩) s = .next { s with f := s.f.faultSeenRow 0 0 0 0 true true 0 0 } := rfl
  rw [hrun] at hexec
  have heq : s.f.faultSeenRow 0 0 0 0 true true 0 0 = g := congrArg State.f (Host.Outcome.next.inj hexec)
  rw [heq, hg]

/-- Refutes O36: a report that no point's channel answers changes more than the counts where a direct channel owes its CLEARED. -/
theorem not_reportsResolve : ¬ Obligations.ReportsResolve := by
  intro h
  have hdch := dch_of_reportsResolve h { State.reset with f := owingField } owingField_hears owingField_first owingField_reporter
  have hsame := Field.dchan_of_dch hdch 0
  exact absurd ((owingField_sends.symm.trans (congrArg Dch.clearedSent hsame)).trans owingField_owes) (by decide)

end Sys2Proof.Machine
end

section
/-! PROOF. In STANDBY the direct sums start again by a change of every listed direct channel, after which one that has become the default
is listed no longer. In a table that lists a channel twice the second entry then shows. -/
namespace Sys2Proof.Machine
set_option Elab.async false

/-- A field die in STANDBY at a CMP0 fire, whose table of direct channels lists channel 0 twice: with a sum alone, and bound. -/
def twiceListed : Field :=
  { State.reset.f with pwr := { State.reset.f.pwr with st := .standby }, mer := { State.reset.f.mer with sysDue := 1 },
                       dch := [(0, { Dch.reset with sumI := 1 }), (0, { Dch.reset with bound := some 5 })] }

theorem twiceListed_due : bit twiceListed.mer.sysDue 0 = true := by decide +kernel
theorem twiceListed_bound : (twiceListed.dchan 0).bound = none := by decide +kernel
/-- Once its sum has gone the first entry is the default, and the second one shows. -/
theorem twiceListed_shows : (twiceListed.superframeMark.dchan 0).bound = some 5 := by decide +kernel

/-- What O35 says of the direct sums in STANDBY leaves a direct channel's binding alone. -/
theorem bound_of_superframesAdvance (h : Obligations.SuperframesAdvance) (s : State) (hdue : bit s.f.mer.sysDue 0 = true)
    (hst : s.f.pwr.st = .standby) (n : BitVec 4) : (s.f.superframeMark.dchan n).bound = (s.f.dchan n).bound := by
  unfold Obligations.SuperframesAdvance at h
  obtain ⟨-, hstandby, -⟩ := h s
  obtain ⟨g, hexec, -, hsums⟩ := hstandby hdue hst
  have hrun : exec .superframeMark s = .next { s with f := s.f.superframeMark } := rfl
  rw [hrun] at hexec
  have heq : s.f.superframeMark = g := congrArg State.f (Host.Outcome.next.inj hexec)
  rw [heq, hsums n]

/-- Refutes O35: where the table of direct channels lists one twice, a mark in STANDBY changes more of it than its sums. -/
theorem not_superframesAdvance : ¬ Obligations.SuperframesAdvance := by
  intro h
  have hb := bound_of_superframesAdvance h { State.reset with f := twiceListed } twiceListed_due rfl 0
  exact absurd ((twiceListed_shows.symm.trans hb).trans twiceListed_bound) (by decide)

end Sys2Proof.Machine
end

section
/-! PROOF. An ingest update measures its channel (R84, R95, R101), and what follows of it, a trip with it, leaves the measurement (R96 to
R98). -/
namespace Sys2Proof.Machine
set_option Elab.async false
namespace Field

/-! ### What waits for a pipe stays -/

/-- No step of an update but the taking of its arrival touches the arrivals that wait. -/
def arrivalsFrame : SelectFrame where
  rel f g := g.nev.arrivals = f.nev.arrivals
  refl _ := rfl
  trans a b := b.trans a
  nev _ _ h := h.2.2
  firn _ _ _ := rfl
  hel _ _ _ := rfl
  storms _ _ := rfl
  raise f p ty h b := by rw [raise_nev]
  complete f r s d := by rw [nev_of_records (complete_frame f r s d)]
  abandonStream f c := by rw [nev_of_lanes (abandonStream_lanes f c)]
  lanes h := by rw [nev_of_lanes h]
  thaw _ _ := rfl
  gate _ _ _ _ := rfl
  sel _ _ := rfl
  raiseAt f p ty h t b := by rw [nev_of_records (raiseAt_frame f p ty h t b)]

namespace Frame.Keeps
section
variable {r : SelectFrame}

theorem element (f : Field) (x : BitVec 17) (code : Byte) : r.toFrame.Keeps f (f.element x code) := (modAux f x _).trans (coalesced _ _ _ _ _)

theorem tripNow (f : Field) (x : BitVec 17) (cause : Byte) : r.toFrame.Keeps f (f.tripNow x cause) := tripWith (r := r.toGateFrame) f x cause 0x02

theorem slowFault (f : Field) (x : BitVec 17) : r.toFrame.Keeps f (f.slowFault x) := by
  unfold Field.slowFault
  refine ite _ (ignored f) (ite _ (refl f) ?_)
  split
  · exact refl f
  · exact ite _ (sel f _) ((addEv f _).trans (tripCommit _ _ _))

theorem applyOutcomes (f : Field) (x : BitVec 17) (p : Bytes) (os : List Elem) : r.toFrame.Keeps f (f.applyOutcomes x p os) := by
  unfold Field.applyOutcomes
  extract_lets c canTrip first f1
  have h1 : r.toFrame.Keeps f f1 := foldl (fun g k => ite _ (tripNow g x _) (element g x _)) os f
  clear_value f1
  exact ite _ (h1.trans (slowFault f1 x)) h1

theorem localTrip (f : Field) (x : BitVec 17) (w : Word) : r.toFrame.Keeps f (f.localTrip x w) := by
  unfold Field.localTrip
  refine ite _ ?_ (refl f)
  split
  · exact (gateOff (r := r.toGateFrame) f _ _).trans (tripChan (r := r.toTripFrame) _ _ _)
  · exact (tripChan (r := r.toTripFrame) f _ _).trans (lanes (r := r.toTripFrame) (cmdTo_lanes _ _ _ _))

end
end Frame.Keeps

/-! ### A view of the entry that transitions leave alone -/

/-- From f to g a view of one channel's entry stays. -/
def SameView {α : Type} (π : Nev → α) (x : BitVec 17) (f g : Field) : Prop := π (g.chan x).nev = π (f.chan x).nev

/-- A view that looks at neither the state nor the prior state. -/
def Stateless {α : Type} (π : Nev → α) : Prop := ∀ (e : Nev) (s p : ChState), π { e with state := s, prior := p } = π e

namespace SameView
section
variable {α : Type} {π : Nev → α} {x : BitVec 17}

theorem refl (f : Field) : SameView π x f f := rfl
theorem trans {f g h : Field} (a : SameView π x f g) (b : SameView π x g h) : SameView π x f h := Eq.trans b a
theorem ofEntries {f g : Field} (h : SameEntries f g) : SameView π x f g := congrArg π (h x).1
theorem ofNev {f g : Field} (h : g.nev = f.nev) : SameView π x f g := ofEntries (.ofNev h)

theorem ite {f g h : Field} (c : Prop) [Decidable c] (a : SameView π x f g) (b : SameView π x f h) : SameView π x f (if c then g else h) := by
  split
  · exact a
  · exact b

theorem foldl {β : Type} {op : Field → β → Field} (hop : ∀ f a, SameView π x f (op f a)) (l : List β) : ∀ f : Field, SameView π x f (l.foldl op f) := by
  induction l with
  | nil => exact refl
  | cons a l ih => exact fun f => (hop f a).trans (ih _)

theorem modChan (f : Field) (y : BitVec 17) {m : Chan → Chan} (h : ∀ c, π (m c).nev = π c.nev) : SameView π x f (f.modChan y m) := by
  by_cases hy : x = y
  · subst hy
    rw [SameView, chan_modChan_same, h]
  · rw [SameView, chan_modChan_other f m (Ne.symm hy)]

theorem modNev (f : Field) (y : BitVec 17) {m : Nev → Nev} (h : ∀ e, π (m e) = π e) : SameView π x f (f.modNev y m) := modChan f y fun c => h c.nev
theorem modAux (f : Field) (y : BitVec 17) (m : Aux → Aux) : SameView π x f (f.modAux y m) := modChan f y fun _ => rfl
theorem element (f : Field) (y : BitVec 17) (code : Byte) : SameView π x f (f.element y code) := (modAux f y _).trans (ofNev (coalesced_nev ..))

variable (hπ : Stateless π)
include hπ

theorem enter (f : Field) (y : BitVec 17) (new : ChState) (cause detail : Byte) (iss : Option Part) :
    SameView π x f (f.enter y new cause detail iss) := by
  rw [SameView, chan_congr (enter_nev_any ..), Field.transit, chan_heal2]
  exact modChan f y fun c => hπ c.nev _ _

theorem tripChan (f : Field) (y : BitVec 17) (cause : Byte) : SameView π x f (f.tripChan y cause) := by
  unfold Field.tripChan
  extract_lets ctx f1 f2 f3 f4 f5
  have h2 : SameView π x f f2 := by
    simp only [f2, f1]
    generalize ctx = o
    cases o with
    | some e => exact ofNev ((dropCtx_nev ..).trans ((nev_of_lanes (stopStream_lanes _ _ _)).trans (unqueue_nev ..)))
    | none => exact ofNev (unqueue_nev ..)
  have h4 : SameView π x f3 f4 := by
    simp only [f4]
    generalize ctx = o
    cases o with
    | some e => exact ofNev (insEnd_nev ..)
    | none => exact refl _
  have h3 : SameView π x f2 f3 := enter hπ f2 y _ _ _ _
  exact (((h2.trans h3).trans h4).trans (ofEntries (.confirm f4 y (f4.directOf y) _))).trans (ofNev (tripCapture_nev f5 y cause))

theorem tripWith (f : Field) (y : BitVec 17) (cause ty : Byte) : SameView π x f (f.tripWith y cause ty).1 := by
  unfold Field.tripWith
  split
  · exact (ofEntries (gateOff_entries f _ _)).trans (tripChan hπ _ y cause)
  · exact (tripChan hπ f y cause).trans (ofEntries (openSwitch_entries _ y ty))

theorem selTrip (f : Field) (y : BitVec 17) (cause ty : Byte) : SameView π x f (f.selTrip y cause ty).1 := by
  unfold Field.selTrip
  dsimp only
  split
  · exact refl f
  · split
    · exact tripWith hπ f y cause ty
    · exact ofEntries (openSwitch_entries f y ty)

omit hπ in
theorem commit (f : Field) (e : SelEv) (t : Times) (sent : Bool) : SameView π x f (f.commit e t sent) :=
  (ofNev rfl).trans (foldl (fun g p => ofNev (nev_of_records (raiseAt_frame g p _ _ _ _))) _ _)

theorem tripCommit (f : Field) (e : SelEv) (t : Times) : SameView π x f (f.tripCommit e t).1 :=
  (selTrip hπ f e.cand 0x10 0x02).trans (commit _ e t _)

theorem slowFault (f : Field) (y : BitVec 17) : SameView π x f (f.slowFault y) := by
  unfold Field.slowFault
  refine ite _ (ofNev rfl) (ite _ (refl f) ?_)
  split
  · exact refl f
  · extract_lets _ e
    have hadd : SameView π x f (f.addEv e) := ofNev rfl
    exact ite _ (ofNev rfl) (hadd.trans (tripCommit hπ _ e _))

theorem applyOutcomes (f : Field) (y : BitVec 17) (p : Bytes) (os : List Elem) : SameView π x f (f.applyOutcomes y p os) := by
  unfold Field.applyOutcomes
  extract_lets c canTrip first f1
  have h1 : SameView π x f f1 := foldl (fun g k => ite _ (tripWith hπ g y _ _) (element g y _)) os f
  clear_value f1
  exact ite _ (h1.trans (slowFault hπ f1 y)) h1

theorem completeIns (f : Field) (n : Nat) : SameView π x f (f.completeIns n) := by
  unfold Field.completeIns
  split
  · exact refl f
  · extract_lets f1
    have h1 : SameView π x f f1 := (ofNev (dropCtx_nev f n false)).trans (enter hπ _ _ _ _ _ _)
    exact h1.trans ((ofNev rfl).trans (ofNev (insEnd_nev ..)))

theorem localTrip (f : Field) (y : BitVec 17) (w : Word) : SameView π x f (f.localTrip y w) := by
  unfold Field.localTrip
  refine ite _ ?_ (refl f)
  split
  · exact (ofEntries (gateOff_entries f _ _)).trans (tripChan hπ _ y _)
  · exact (tripChan hπ f y _).trans (ofNev (nev_of_lanes (cmdTo_lanes _ _ _ _)))

end
end SameView

end Field
end Sys2Proof.Machine
end

section
/-! PROOF. Ingest and mirror updates (R84 to R107). -/
namespace Sys2Proof.Machine
set_option Elab.async false
namespace Field

/-! ### The measurement of an entry -/

/-- What an arrival writes of an entry, with the thermal memory. -/
def takenOf (e : Nev) : BitVec 16 × BitVec 12 × BitVec 8 × BitVec 4 × BitVec 12 × BitVec 2 × BitVec 48 :=
  (e.iLast, e.vLast, e.sfnLow, e.status, e.profile, e.owner, e.therm)
/-- That and MISS. -/
def measuredOf (e : Nev) : (BitVec 16 × BitVec 12 × BitVec 8 × BitVec 4 × BitVec 12 × BitVec 2 × BitVec 48) × BitVec 4 := (takenOf e, e.miss)
/-- What the elements of R96 look at beside the measurement. -/
def elementOf (e : Nev) : ChState × Kind × BitVec 6 × BitVec 3 := (e.state, e.kind, e.pickup, e.instCnt)

theorem takenOf_stateless : Stateless takenOf := fun _ _ _ => rfl
theorem measuredOf_stateless : Stateless measuredOf := fun _ _ _ => rfl
theorem pickup_stateless : Stateless Nev.pickup := fun _ _ _ => rfl

/-- A refill touches no more than the tokens (R103). -/
theorem refill_tokens (p : Bytes) (sfn : BitVec 32) (e : Nev) : ∃ n k, refill p sfn e = { e with tok := n, rcnt := k } := by
  unfold refill
  extract_lets e1 r r1
  split
  · exact ⟨_, _, rfl⟩
  · split
    · exact ⟨_, _, rfl⟩
    · exact ⟨_, _, rfl⟩

theorem refill_taken (p : Bytes) (sfn : BitVec 32) (e : Nev) : takenOf (refill p sfn e) = takenOf e := by
  obtain ⟨n, k, h⟩ := refill_tokens p sfn e
  rw [h]
  rfl

theorem refill_element (p : Bytes) (sfn : BitVec 32) (e : Nev) : elementOf (refill p sfn e) = elementOf e := by
  obtain ⟨n, k, h⟩ := refill_tokens p sfn e
  rw [h]
  rfl

theorem measure_fresh {a : Arrival} (e : Nev) (ha : a.cls = .fresh) : measure e a =
    { e with sfnLow := a.sfn, iLast := normI a.word e.igain, vLast := normV a.word e.vgain, dir := wordI a.word < 0,
             status := bits a.word 28 4 } := by
  simp [measure, ha]

theorem thermNext_congr (p : Bytes) {e k : Nev} (h : takenOf e = takenOf k) : thermNext p e = thermNext p k := by
  simp only [takenOf, Prod.mk.injEq] at h
  obtain ⟨hi, -, -, -, -, -, ht⟩ := h
  rw [thermNext, thermNext, hi, ht]

/-! ### The steps of an update -/

theorem loadThresh_nev (f : Field) (x : BitVec 17) : (f.loadThresh x).nev = f.nev := by
  unfold loadThresh
  split <;> rfl

theorem queueMirror_chan (f : Field) (x y : BitVec 17) (a : Arrival) : (f.queueMirror x a).chan y = f.chan y := by
  unfold queueMirror
  split <;> rfl

theorem queueMirror_arrivals (f : Field) (x : BitVec 17) (a : Arrival) : (f.queueMirror x a).nev.arrivals = f.nev.arrivals := by
  unfold queueMirror
  split <;> rfl

theorem element_entries (f : Field) (x : BitVec 17) (code : Byte) : SameEntries f (f.element x code) :=
  (SameEntries.modAux f x _).trans (.ofNev (coalesced_nev ..))

section
variable {α : Type} {π : Nev → α} {x : BitVec 17}

theorem confirmOpen_entries (f : Field) (w : Word) : SameEntries f (f.confirmOpen x w) := by
  unfold confirmOpen
  split
  · exact .modAux f x _
  · exact .ofNev rfl

theorem disagree_view (hπ : ∀ (e : Nev) (a b : Bool), π { e with disPend := a, disRaised := b } = π e) (f : Field) (w : Word) (fresh : Bool) :
    SameView π x f (f.disagree x w fresh) := by
  unfold disagree
  extract_lets e f1
  have h1 : SameView π x f f1 := (SameView.modNev f x fun e => hπ e e.disPend true).trans (.element _ x _)
  refine .ite _ (.ite _ (.modNev f x fun e => hπ e true e.disRaised) (.ite _ (.ite _ h1 ?_) (.refl f))) (.modNev f x fun e => hπ e _ _)
  exact h1.trans (.ofNev (nev_of_lanes (cmdTo_lanes _ _ _ _)))

theorem saturation_view (hπ : ∀ (e : Nev) (a : Bool), π { e with satRaised := a } = π e) (f : Field) (w : Word) :
    SameView π x f (f.saturation x w) := by
  unfold saturation
  extract_lets e
  exact .ite _ (.ite _ (.refl f) ((SameView.modNev f x fun e => hπ e true).trans (.element _ x _))) (.modNev f x fun e => hπ e false)

theorem gaps_view (hπ : ∀ (e : Nev) (m : BitVec 4) (a : Bool), π { e with miss := m, staleRaised := a } = π e) (f : Field) (p : Bytes) :
    SameView π x f (f.gaps x p true) := by
  unfold gaps
  extract_lets e f1
  have h1 : SameView π x f f1 := .modNev f x fun e => hπ e 0 false
  rw [if_pos rfl]
  exact .ite _ (h1.trans (.element _ x _)) h1

theorem statusBits_view (hs : Stateless π) (hπ : ∀ (e : Nev) (a b : Bool), π { e with disPend := a, disRaised := b } = π e) (f : Field)
    (a : Arrival) : SameView π x f (f.statusBits x a) := by
  have htrip := SameView.localTrip (x := x) hs f x a.word
  have hconf (g : Field) : SameView π x g (g.confirmOpen x a.word) := .ofEntries (confirmOpen_entries g a.word)
  have hboth : SameView π x f (if (f.chan x).nev.kind = .switched then
        ((f.localTrip x a.word).confirmOpen x a.word).disagree x a.word (a.cls = .fresh)
      else if (f.chan x).nev.kind = .direct then (f.localTrip x a.word).confirmOpen x a.word else f) :=
    .ite _ ((htrip.trans (hconf _)).trans (disagree_view hπ _ _ _)) (.ite _ (htrip.trans (hconf _)) (.refl f))
  unfold statusBits
  extract_lets k
  split
  · exact hboth
  · exact hboth
  · exact .ite _ htrip (.refl f)
  · exact .refl f

theorem gaps_miss (f : Field) (p : Bytes) : ((f.gaps x p true).chan x).nev.miss = 0 := by
  have h1 : ((f.modNev x (fun e => { e with miss := 0, staleRaised := false })).chan x).nev.miss = 0 := by rw [modNev, chan_modChan_same]
  unfold gaps
  extract_lets e f1
  rw [if_pos rfl]
  split
  · exact (congrArg Nev.miss (element_entries f1 x _ x).1).trans h1
  · exact h1

end

/-- A channel CLOSED with its switch on and no local trip brings nothing but the end of a disagreement. -/
theorem statusBits_quiet {f : Field} {x : BitVec 17} {a : Arrival} (ha : a.cls = .fresh) (hk : (f.chan x).nev.kind = .switched)
    (hst : (f.chan x).nev.state = .closed) (hsw : wordSw a.word = true) (hl : wordLocal a.word = false) :
    f.statusBits x a = f.modNev x (fun e => { e with disPend := false, disRaised := false }) := by
  have htrip : f.localTrip x a.word = f := by simp [localTrip, hl]
  have hconf : f.confirmOpen x a.word = f := by simp [confirmOpen, hst]
  have hmis : mismatch (f.chan x).nev a.word true = false := by simp [mismatch, hst, hsw]
  simp only [statusBits, ha, hk, htrip, hconf, if_true]
  simp [disagree, hmis]

/-! ### An update -/

/-- What a fresh arrival writes first of its channel. -/
def written (f : Field) (x : BitVec 17) (a : Arrival) (p : Bytes) : Field :=
  f.modChan x (fun c => { c with nev := refill p f.nev.sfn (measure c.nev a), aux := { c.aux with firstArrival := false } })
/-- Its status bits and its gaps. -/
def screened (f : Field) (x : BitVec 17) (a : Arrival) (p : Bytes) : Field := ((f.loadThresh x).statusBits x a).gaps x p true
/-- Its thermal memory. -/
def heated (f : Field) (x : BitVec 17) (p : Bytes) : Field := f.modNev x (fun e => { e with therm := thermNext p e })
/-- Its history and its saturation. -/
def recorded (f : Field) (x : BitVec 17) (a : Arrival) (p : Bytes) : Field :=
  (f.modChan x (fun c => { c with hist := histTake p c.nev true (wordSat a.word) c.hist })).saturation x a.word
/-- The field die when the elements of a fresh update are judged. -/
def judged (f : Field) (x : BitVec 17) (a : Arrival) : Field :=
  let p := f.prof (f.chan x).nev.profile
  (((f.written x a p).screened x a p).heated x p).recorded x a p

/-- The elements' counters of an update, with their pickups. -/
def counted (f : Field) (x : BitVec 17) (p : Bytes) (s : ChState) : Field :=
  let e := countNext p s (f.chan x).nev
  f.modNev x (fun _ => { e with pickup := pickupNext p s e })

/-- An insertion that its channel's switch completes in HANDOVER (R178). -/
def handedOver (f : Field) (x : BitVec 17) (k : Kind) (w : Word) : Field :=
  if k = .switched && wordSw w && (f.chan x).nev.state = .inserting then
    match f.insCtx x with
    | some (n, k) => if k.phase = Phase.handover then f.completeIns n else f
    | none => f
  else f

theorem update_fresh (f : Field) (x : BitVec 17) {a : Arrival} (ha : a.cls = .fresh) : f.update x a =
    ((((f.judged x a).counted x (f.prof (f.chan x).nev.profile) (f.chan x).nev.state).applyOutcomes x (f.prof (f.chan x).nev.profile)
      (outcomes (f.prof (f.chan x).nev.profile) (f.chan x).nev.state
        (countNext (f.prof (f.chan x).nev.profile) (f.chan x).nev.state ((f.judged x a).chan x).nev))).handedOver x (f.chan x).nev.kind a.word).queueMirror x a := by
  unfold update judged written screened heated recorded counted handedOver
  simp only [ha, decide_true, if_true] <;>
  rfl

section
variable {f : Field} {x : BitVec 17} {a : Arrival}

theorem written_taken (f : Field) (x : BitVec 17) (a : Arrival) (p : Bytes) :
    takenOf ((f.written x a p).chan x).nev = takenOf (measure (f.chan x).nev a) := by
  rw [written, chan_modChan_same]
  exact refill_taken ..

theorem screened_taken (f : Field) (x : BitVec 17) (a : Arrival) (p : Bytes) :
    takenOf ((f.screened x a p).chan x).nev = takenOf (f.chan x).nev ∧ ((f.screened x a p).chan x).nev.miss = 0 := by
  have hview : SameView takenOf x f (f.screened x a p) := ((SameView.ofNev (loadThresh_nev f x)).trans
    (statusBits_view takenOf_stateless (fun _ _ _ => rfl) _ a)).trans (gaps_view (fun _ _ _ => rfl) _ p)
  exact ⟨hview, gaps_miss _ p⟩

/-- The thermal memory of a measured entry advances (R95). -/
theorem heated_measures {f : Field} {x : BitVec 17} {k : Nev} (p : Bytes) (h : takenOf (f.chan x).nev = takenOf k) (hm : (f.chan x).nev.miss = 0) :
    measuredOf ((f.heated x p).chan x).nev = (takenOf { k with therm := thermNext p k }, 0) := by
  have ht : thermNext p (f.chan x).nev = thermNext p k := thermNext_congr p h
  simp only [takenOf, Prod.mk.injEq] at h
  obtain ⟨hi, hv, hs, hst, hp, ho, -⟩ := h
  rw [heated, modNev, chan_modChan_same]
  simp only [measuredOf, takenOf, hi, hv, hs, hst, hp, ho, ht, hm]

theorem recorded_view {α : Type} {π : Nev → α} (hπ : ∀ (e : Nev) (a : Bool), π { e with satRaised := a } = π e) (f : Field) (x : BitVec 17)
    (a : Arrival) (p : Bytes) : SameView π x f (f.recorded x a p) :=
  SameView.trans (SameView.modChan f x fun _ => by rfl) (saturation_view hπ _ a.word)

theorem judged_measured (f : Field) (x : BitVec 17) (a : Arrival) : measuredOf ((f.judged x a).chan x).nev =
    (takenOf { measure (f.chan x).nev a with therm := thermNext (f.prof (f.chan x).nev.profile) (measure (f.chan x).nev a) }, 0) := by
  rw [judged]
  generalize f.prof (f.chan x).nev.profile = p
  have h1 := written_taken f x a p
  obtain ⟨h2, hmiss⟩ := screened_taken (f.written x a p) x a p
  have h3 := heated_measures p (h2.trans h1) hmiss
  exact Eq.trans (recorded_view (π := measuredOf) (fun _ _ => rfl) (((f.written x a p).screened x a p).heated x p) x a p) h3

theorem judged_measures (ha : a.cls = .fresh) : measuredOf ((f.judged x a).chan x).nev =
    ((normI a.word (f.chan x).nev.igain, normV a.word (f.chan x).nev.vgain, a.sfn, bits a.word 28 4, (f.chan x).nev.profile, (f.chan x).nev.owner,
      thermNext (f.prof (f.chan x).nev.profile) { (f.chan x).nev with iLast := normI a.word (f.chan x).nev.igain }), 0) := by
  rw [judged_measured, measure_fresh _ ha]
  generalize f.prof (f.chan x).nev.profile = p
  rfl

theorem counted_measures (g : Field) (p : Bytes) (s : ChState) : SameView measuredOf x g (g.counted x p s) := by
  rw [SameView, counted, modNev, chan_modChan_same]
  rfl

theorem handedOver_view {α : Type} {π : Nev → α} (hπ : Stateless π) (g : Field) (k : Kind) (w : Word) : SameView π x g (g.handedOver x k w) := by
  unfold handedOver
  refine .ite _ ?_ (.refl g)
  split
  · exact .ite _ (.completeIns hπ g _) (.refl g)
  · exact .refl g

theorem update_measures (ha : a.cls = .fresh) : measuredOf ((f.update x a).chan x).nev = measuredOf ((f.judged x a).chan x).nev := by
  rw [update_fresh f x ha, queueMirror_chan]
  exact ((counted_measures _ _ _).trans (.applyOutcomes measuredOf_stateless _ x _ _)).trans (handedOver_view measuredOf_stateless _ _ _)

/-! ### What waits stays -/

theorem judged_arrivals : (f.judged x a).nev.arrivals = f.nev.arrivals := by
  have hmod (g : Field) (m : Chan → Chan) : arrivalsFrame.Keeps g (g.modChan x m) := Frame.Keeps.modChan g x m
  have hcmd (g : Field) : arrivalsFrame.Keeps g (g.cmdTo x .openPoint none) := Frame.Keeps.lanes (r := arrivalsFrame.toTripFrame) (cmdTo_lanes _ _ _ _)
  have hel (g : Field) (c : Byte) : arrivalsFrame.Keeps g (g.element x c) := Frame.Keeps.element g x c
  have htrip (g : Field) : arrivalsFrame.Keeps g (g.localTrip x a.word) := Frame.Keeps.localTrip g x _
  have hthresh (g : Field) : arrivalsFrame.Keeps g (g.loadThresh x) := congrArg Nevs.arrivals (loadThresh_nev g x)
  have hconf (g : Field) : arrivalsFrame.Keeps g (g.confirmOpen x a.word) := .ite _ (hmod g _) (.refl g)
  have hdis (g : Field) (b : Bool) : arrivalsFrame.Keeps g (g.disagree x a.word b) := by
    unfold disagree
    extract_lets e f1
    have h1 : arrivalsFrame.Keeps g f1 := (hmod g _).trans (hel _ _)
    exact .ite _ (.ite _ (hmod g _) (.ite _ (.ite _ h1 (h1.trans (hcmd f1))) (.refl g))) (hmod g _)
  have hstatus (g : Field) : arrivalsFrame.Keeps g (g.statusBits x a) := by
    have hboth : arrivalsFrame.Keeps g (if (g.chan x).nev.kind = .switched then
          ((g.localTrip x a.word).confirmOpen x a.word).disagree x a.word (a.cls = .fresh)
        else if (g.chan x).nev.kind = .direct then (g.localTrip x a.word).confirmOpen x a.word else g) :=
      .ite _ (((htrip g).trans (hconf _)).trans (hdis _ _)) (.ite _ ((htrip g).trans (hconf _)) (.refl g))
    unfold statusBits
    extract_lets k
    split
    · exact hboth
    · exact hboth
    · exact .ite _ (htrip g) (.refl g)
    · exact .refl g
  have hgaps (g : Field) (p : Bytes) : arrivalsFrame.Keeps g (g.gaps x p true) := by
    unfold gaps
    extract_lets e f1
    have h1 : arrivalsFrame.Keeps g f1 := hmod g _
    rw [if_pos rfl]
    exact .ite _ (h1.trans (hel f1 _)) h1
  have hsat (g : Field) : arrivalsFrame.Keeps g (g.saturation x a.word) := by
    unfold saturation
    extract_lets e
    exact .ite _ (.ite _ (.refl g) ((hmod g _).trans (hel _ _))) (hmod g _)
  have h1 (p : Bytes) : arrivalsFrame.Keeps f (f.written x a p) := hmod f _
  have h2 (g : Field) (p : Bytes) : arrivalsFrame.Keeps g (g.screened x a p) := ((hthresh g).trans (hstatus _)).trans (hgaps _ p)
  have h3 (g : Field) (p : Bytes) : arrivalsFrame.Keeps g (g.heated x p) := hmod g _
  have h4 (g : Field) (p : Bytes) : arrivalsFrame.Keeps g (g.recorded x a p) := (hmod g _).trans (hsat _)
  exact (((h1 _).trans (h2 _ _)).trans (h3 _ _)).trans (h4 _ _)

theorem update_arrivals (ha : a.cls = .fresh) : (f.update x a).nev.arrivals = f.nev.arrivals := by
  have hover (g : Field) (k : Kind) (w : Word) : arrivalsFrame.Keeps g (g.handedOver x k w) := by
    unfold handedOver
    refine .ite _ ?_ (.refl g)
    split
    · exact .ite _ (Frame.Keeps.completeIns (r := arrivalsFrame.toGateFrame) g _) (.refl g)
    · exact .refl g
  rw [update_fresh f x ha, queueMirror_arrivals]
  refine Eq.trans ?_ (judged_arrivals (a := a) (x := x))
  exact ((Frame.Keeps.modChan (r := arrivalsFrame.toFrame) (f.judged x a) x _).trans (Frame.Keeps.applyOutcomes _ x _ _)).trans (hover _ _ _)

end

/-! ### INST trips (R96 to R98) -/

theorem outcomes_inst {p : Bytes} {s : ChState} {e : Nev} (ho : operates p s e .inst = true) (hp : bit e.pickup 0 = false) :
    ∃ os, outcomes p s e = .inst :: os ∧ Elem.inst ∉ os := by
  refine ⟨_, List.filter_cons_of_pos ?_, ?_⟩
  · rw [ho, show Elem.inst.bitNo = 0 from rfl, hp]
    rfl
  · exact fun h => absurd (List.mem_of_mem_filter h) (by decide)

/-- Bit 0 of PICKUP is INST's alone. -/
theorem pickup_bit_other : ∀ (b : BitVec 6) (k : Elem), k ≠ .inst → bit b 0 = true →
    bit (b ||| ((1 : BitVec 6) <<< k.bitNo)) 0 = true ∧ bit (b &&& ~~~((1 : BitVec 6) <<< k.bitNo)) 0 = true := by
  intro b k hk hb
  cases k with
  | inst => exact absurd rfl hk
  | st => revert b; decide
  | lt => revert b; decide
  | lta => revert b; decide
  | ov => revert b; decide
  | uv => revert b; decide

theorem pickup_bit_inst : ∀ b : BitVec 6, bit (b ||| ((1 : BitVec 6) <<< Elem.inst.bitNo)) 0 = true := by decide

theorem pickupNext_inst {p : Bytes} {s : ChState} {e : Nev} (ho : operates p s e .inst = true) : bit (pickupNext p s e) 0 = true := by
  unfold pickupNext elems
  rw [List.foldl_cons, if_pos ho]
  refine List.foldlRecOn (motive := fun b : BitVec 6 => bit b 0 = true) _ _ (pickup_bit_inst _) fun b hb k hk => ?_
  have hne : k ≠ .inst := fun h => absurd (h ▸ hk) (by decide)
  split
  · exact (pickup_bit_other b k hne hb).1
  · split
    · exact (pickup_bit_other b k hne hb).2
    · exact hb

theorem tripNow_tripped (f : Field) (x : BitVec 17) (cause : Byte) : Tripped x cause (f.tripNow x cause) := by
  unfold tripNow tripWith
  split
  · exact tripChan_tripped _ x cause
  · exact (tripChan_tripped f x cause).of_sameEntries (openSwitch_entries _ x 0x02)

/-- A closed switched channel whose INST operates with the action TRIP is tripped, and what else operates raises its event. -/
theorem applyOutcomes_inst {f : Field} {x : BitVec 17} {p : Bytes} {os : List Elem} (hk : (f.chan x).nev.kind = .switched)
    (hst : (f.chan x).nev.state = .closed) (hact : u8 p 8 = 2) (hos : Elem.inst ∉ os) : Tripped x 0x01 (f.applyOutcomes x p (.inst :: os)) := by
  unfold applyOutcomes
  extract_lets c canTrip first f1
  have hcan : canTrip = true := by simp [canTrip, c, hk, hst, Kind.switches]
  have hfirst : first = some .inst := by simp [first, hcan, Elem.act, hact]
  have h1 : Tripped x 0x01 f1 := by
    simp only [f1, List.foldl_cons, hcan, hfirst]
    refine List.foldlRecOn (motive := Tripped x 0x01) _ _ (tripNow_tripped f x _) fun g hg k hkm => ?_
    have hne : k ≠ .inst := fun h => hos (h ▸ hkm)
    rw [if_neg (by simp [Ne.symm hne])]
    exact hg.of_sameEntries (element_entries g x _)
  rw [if_neg (by simp [c, hk, Kind.switches])]
  exact h1

section
variable {f : Field} {x : BitVec 17} {a : Arrival}

/-- Until its elements are judged a quiet channel keeps its state and its counters. -/
theorem judged_element (ha : a.cls = .fresh) (hk : (f.chan x).nev.kind = .switched) (hst : (f.chan x).nev.state = .closed)
    (hsw : wordSw a.word = true) (hl : wordLocal a.word = false) :
    elementOf ((f.judged x a).chan x).nev = elementOf (f.chan x).nev := by
  rw [judged]
  generalize f.prof (f.chan x).nev.profile = p
  have h1 : elementOf ((f.written x a p).chan x).nev = elementOf (f.chan x).nev := by
    rw [written, chan_modChan_same, measure_fresh _ ha]
    exact refill_element ..
  generalize f.written x a p = f1 at h1
  have hst1 : (f1.chan x).nev.state = .closed := (congrArg (·.1) h1 : (f1.chan x).nev.state = (f.chan x).nev.state).trans hst
  have hk1 : (f1.chan x).nev.kind = .switched := (congrArg (·.2.1) h1 : (f1.chan x).nev.kind = (f.chan x).nev.kind).trans hk
  have hthresh := chan_congr (loadThresh_nev f1 x) x
  have h2 : SameView elementOf x f1 (f1.screened x a p) := by
    rw [screened, statusBits_quiet ha (by rw [hthresh]; exact hk1) (by rw [hthresh]; exact hst1) hsw hl]
    exact ((SameView.ofNev (loadThresh_nev f1 x)).trans (.modNev _ x fun _ => by rfl)).trans (gaps_view (fun _ _ _ => rfl) _ p)
  have h3 : SameView elementOf x (f1.screened x a p) ((f1.screened x a p).heated x p) := .modNev _ x fun _ => by rfl
  have h4 := recorded_view (π := elementOf) (fun _ _ => rfl) ((f1.screened x a p).heated x p) x a p
  exact Eq.trans ((h2.trans h3).trans h4) h1

/-- INST operates once its count has reached N (R96). -/
theorem countNext_inst {p : Bytes} {e : Nev} (h0 : u8 p 8 ≠ 0) (hi : leNat p 10 2 ≤ e.iLast.toNat) (h7 : (u8 p 9).toNat ≤ 7)
    (hn : (u8 p 9).toNat ≤ e.instCnt.toNat + 1) : operates p .closed (countNext p .closed e) .inst = true := by
  have hcnt : (countNext p .closed e).instCnt.toNat = (u8 p 9).toNat := by
    simp only [countNext, armed]
    rw [if_pos (by simpa [hi] using h0), BitVec.toNat_ofNat]
    omega
  simp only [operates, hcnt, decide_true, Bool.and_true, decide_eq_true_eq]
  exact h0

theorem update_inst (ha : a.cls = .fresh) (hk : (f.chan x).nev.kind = .switched) (hst : (f.chan x).nev.state = .closed)
    (hsw : wordSw a.word = true) (hl : wordLocal a.word = false) (hact : u8 (f.prof (f.chan x).nev.profile) 8 = 2)
    (hi : leNat (f.prof (f.chan x).nev.profile) 10 2 ≤ (normI a.word (f.chan x).nev.igain).toNat)
    (h7 : (u8 (f.prof (f.chan x).nev.profile) 9).toNat ≤ 7)
    (hn : (u8 (f.prof (f.chan x).nev.profile) 9).toNat ≤ (f.chan x).nev.instCnt.toNat + 1) (hp : bit (f.chan x).nev.pickup 0 = false) :
    Tripped x 0x01 (f.update x a) ∧ bit ((f.update x a).chan x).nev.pickup 0 = true := by
  have hel := judged_element ha hk hst hsw hl
  have hme := judged_measures (f := f) (x := x) ha
  rw [update_fresh f x ha, hst]
  generalize f.prof (f.chan x).nev.profile = p at *
  generalize f.judged x a = g at hel hme
  simp only [elementOf, Prod.mk.injEq] at hel
  simp only [measuredOf, takenOf, Prod.mk.injEq] at hme
  obtain ⟨hs, hkd, hpk, hin⟩ := hel
  obtain ⟨⟨hil, -⟩, -⟩ := hme
  have ho : operates p .closed (countNext p .closed (g.chan x).nev) .inst = true :=
    countNext_inst (by rw [hact]; decide) (by rw [hil]; exact hi) h7 (by rw [hin]; exact hn)
  obtain ⟨os, hos, hnot⟩ := outcomes_inst ho (by rw [show (countNext p .closed (g.chan x).nev).pickup = (g.chan x).nev.pickup from rfl, hpk]; exact hp)
  rw [hos]
  have hc : ((g.counted x p .closed).chan x).nev =
      { countNext p .closed (g.chan x).nev with pickup := pickupNext p .closed (countNext p .closed (g.chan x).nev) } := by
    rw [counted, modNev, chan_modChan_same]
  have htrip : Tripped x 0x01 ((g.counted x p .closed).applyOutcomes x p (.inst :: os)) :=
    applyOutcomes_inst (by rw [hc]; exact hkd.trans hk) (by rw [hc]; exact hs.trans hst) hact hnot
  have hover (h : Field) (ht : Tripped x 0x01 h) : h.handedOver x (f.chan x).nev.kind a.word = h := by
    rw [handedOver, if_neg (by simp [ht.1])]
  have hpick : bit (((g.counted x p .closed).applyOutcomes x p (.inst :: os)).chan x).nev.pickup 0 = true := by
    have hv := SameView.applyOutcomes (x := x) pickup_stateless (g.counted x p .closed) x p (.inst :: os)
    rw [show Nev.pickup _ = _ from hv, hc]
    exact pickupNext_inst ho
  rw [hover _ htrip, Tripped, queueMirror_chan]
  exact ⟨htrip, hpick⟩

end

/-! ### O34 -/

/-- An arrival of an existing channel outside FALLBACK, of intact stores, is an update. -/
theorem arrive_update {f : Field} {x : BitVec 17} (a : Arrival) (hrec : f.nev.recovering.contains x = false)
    (hfree : (f.chan x).nev.state ≠ .free) (hfb : (f.chan x).nev.state ≠ .fallback) (hi : f.intact = true) : f.arrive x a = f.update x a := by
  have hread : f.readFor x = f := by
    simp only [readFor, recovering, hrec, readEntry_intact hi]
    simp [readProf_intact hi]
  unfold arrive
  simp only [if_neg hfree, hread, recovering, hrec]
  cases hst : (f.chan x).nev.state with
  | free => exact absurd hst hfree
  | fallback => exact absurd hst hfb
  | _ => rfl

/-- The field die once the first waiting arrival of a channel is taken. -/
def withArrivals (f : Field) (r : List Waiting) : Field := { f with nev := { f.nev with arrivals := r } }

theorem ingestRow_update {s : Field} {x : BitVec 17} {a : Arrival} {r : List Waiting} (ht : takeWaiting x s.nev.arrivals = some (a, r))
    (hrec : s.nev.recovering.contains x = false) (hfree : (s.chan x).nev.state ≠ .free) (hfb : (s.chan x).nev.state ≠ .fallback)
    (hi : s.intact = true) : s.ingestRow x = ((s.withArrivals r).update x a).clearSweep := by
  have h := arrive_update (f := s.withArrivals r) a hrec hfree hfb hi
  rw [← h]
  simp only [ingestRow, ingestUpdate, ht]
  rfl

/-- Settles O34: the update writes the measurement and keeps it, and INST at its count trips. -/
theorem updatesMeasure : Obligations.UpdatesMeasure := by
  unfold Obligations.UpdatesMeasure
  intro s x a r ha hrec hfree hfb hi e i measured
  have hmeas (f : Field) (hch : f.chan x = s.f.chan x) (hprof : f.prof e.profile = s.f.prof e.profile) (g : Field)
      (hg : g.chan x = (f.update x a).chan x) : measured g := by
    have h := (update_measures (f := f) (x := x) ha).trans (judged_measures ha)
    rw [← hg, hch, hprof] at h
    simp only [measuredOf, takenOf, Prod.mk.injEq] at h
    obtain ⟨⟨hil, hv, hs, hst, hp, ho, ht⟩, hm⟩ := h
    exact ⟨hil, hv, hs, hm, ht, hst, hp, ho⟩
  refine ⟨fun ht => ?ingest, fun ht hnone => ?mirror, fun hsome => ?yields⟩
  case ingest =>
    refine s.endsField_of_exec (op := fun f => f.ingestRow x) rfl ?_
    rw [ingestRow_update ht hrec hfree hfb hi]
    have hsweep := (TimersEnd.clearSweep ((s.f.withArrivals r).update x a)).nev
    have hchan := chan_congr hsweep x
    refine ⟨hmeas (s.f.withArrivals r) rfl rfl _ hchan, ?_, fun hk hst hsw hl hact hle h7 hn hp => ?_⟩
    · rw [hsweep, update_arrivals ha]
      rfl
    · rw [hchan]
      obtain ⟨⟨hs, hc⟩, hpick⟩ := update_inst (f := s.f.withArrivals r) ha hk hst hsw hl hact hle h7 hn hp
      exact ⟨hs, hc, hpick⟩
  case mirror =>
    refine s.endsField_of_exec (op := fun f => f.mirrorUpdate x) rfl ?_
    have heq : s.f.mirrorUpdate x = ({ s.f with nev := { s.f.nev with mirrorQ := r } } : Field).update x a := by
      have h := arrive_update (f := { s.f with nev := { s.f.nev with mirrorQ := r } }) a hrec hfree hfb hi
      rw [← h]
      simp only [mirrorUpdate, hnone, ht]
      rfl
    rw [heq]
    refine ⟨hmeas { s.f with nev := { s.f.nev with mirrorQ := r } } rfl rfl _ rfl, ?_⟩
    rw [update_arrivals ha]
    exact hnone
  case yields =>
    refine s.endsField_of_exec (op := fun f => f.mirrorUpdate x) rfl ?_
    rw [mirrorUpdate, if_pos hsome]

end Field
end Sys2Proof.Machine
end

section
/-! PROOF. Entry to the safe state (R425, R426): what it writes of the safety block, that no gate and no switch stays on, and what it
leaves alone. -/
namespace Sys2Proof.Machine
set_option Elab.async false

/-- The safety block without what the core owes it: all that a record of R445 leaves alone. -/
def Saf.standing (s : Saf) : Saf := { s with coreOwed := false, recsOwed := [] }

/-- A field of the safety block, beside what the core owes it, is the same in two blocks that stand alike. -/
theorem Saf.agree {β : Type} (view : Saf → β) {a b : Saf} (h : a.standing = b.standing) (hv : ∀ s : Saf, view s.standing = view s := by intro _; rfl) :
    view a = view b := (hv a).symm.trans ((congrArg view h).trans (hv b))

/-- The safety block after a reason of R425, at a count. -/
def Saf.entered (s : Saf) (reason : Byte) (t : Count) : Saf :=
  { s with lastReason := reason, tReason := t, safe := true, reason := if s.safe then s.reason else reason,
           aoSeq := if s.safe then s.aoSeq else s.aoSeq + 1, entries := if s.safe then s.entries else satAdd s.entries 1,
           safeout := if s.safe then s.safeout else 0 }

theorem Saf.entered_again {s : Saf} (h : s.safe = true) (r : Byte) (t : Count) : s.entered r t = { s with lastReason := r, tReason := t } := by
  cases s
  cases h
  rfl

theorem Saf.entered_first {s : Saf} (h : s.safe = false) (r : Byte) (t : Count) : s.entered r t =
    { s with lastReason := r, tReason := t, safe := true, reason := r, aoSeq := s.aoSeq + 1, entries := satAdd s.entries 1,
             safeout := 0 } := by
  cases s
  cases h
  rfl

namespace Field

/-- From f to g nothing changes beside the stores, the lanes, the gates, the records, the NVM and the safety block. -/
def Around (f g : Field) : Prop :=
  g = { f.withStores g with nvm := g.nvm, saf := g.saf, trn := { f.trn with ctl := g.trn.ctl, dat := g.trn.dat } }

namespace Around
theorem refl (f : Field) : Around f f := rfl
theorem trans {f g h : Field} (a : Around f g) (b : Around g h) : Around f h := by
  unfold Around at *
  rw [a] at b
  exact b
theorem ofInner {f g : Field} (h : Inner f g) : Around f g := by unfold Around; rw [h]; rfl
theorem saf (f : Field) (s : Saf) : Around f { f with saf := s } := rfl
theorem nvm (f : Field) (n : FNvm) : Around f { f with nvm := n } := rfl
theorem ite {f g h : Field} (c : Prop) [Decidable c] (a : Around f g) (b : Around f h) : Around f (if c then g else h) := by
  split
  · exact a
  · exact b

section
variable {f g : Field} (h : Around f g)
include h
theorem mer : g.mer = f.mer := congrArg (·.mer) h
theorem pwr : g.pwr = f.pwr := congrArg (·.pwr) h
theorem thm : g.thm = f.thm := congrArg (·.thm) h
theorem sec : g.sec = f.sec := congrArg (·.sec) h
theorem adc : g.adc = f.adc := congrArg (·.adc) h
theorem trnSt : g.trn.st = f.trn.st := congrArg (·.trn.st) h
theorem setup : g.prt.setup = f.prt.setup := congrArg (·.prt.setup) h
end

theorem log (f : Field) (ty : Byte) (b : Bytes) : Around f (f.log ty b) := by rw [log_frame]; exact nvm f _
end Around

/-! ### Records and FSTATE -/

theorem safRecord_around (f : Field) (ty : Byte) (b : Bytes) (l : Bool) : Around f (f.safRecord ty b l) := by
  unfold safRecord
  extract_lets f1
  have h1 : Around f f1 := .ite _ (.log f ty b) (.refl f)
  clear_value f1
  exact .ite _ (h1.trans (.ofInner (Inner.raiseAll f1 ty b))) (h1.trans (.saf f1 _))

/-- A safety record changes no channel, no gate, and of the safety block no more than what the core owes it. -/
theorem safRecord_stands (f : Field) (ty : Byte) (b : Bytes) (l : Bool) :
    (f.safRecord ty b l).nev = f.nev ∧ (f.safRecord ty b l).dch = f.dch ∧ (f.safRecord ty b l).saf.standing = f.saf.standing := by
  unfold safRecord
  extract_lets f1
  have h1 : f1.nev = f.nev ∧ f1.dch = f.dch ∧ f1.saf = f.saf := by
    simp only [f1]
    split
    · rw [log_frame]; exact ⟨rfl, rfl, rfl⟩
    · exact ⟨rfl, rfl, rfl⟩
  clear_value f1
  obtain ⟨hn, hd, hs⟩ := h1
  split
  · exact ⟨(raiseAll_nev f1 ty b).trans hn, (dch_of_records (raiseAll_frame f1 ty b)).trans hd,
      by rw [Inner.saf (Inner.raiseAll f1 ty b), hs]⟩
  · exact ⟨hn, hd, Eq.trans (b := f1.saf.standing) rfl (congrArg Saf.standing hs)⟩

@[simp] theorem safRecord_nev (f : Field) (ty : Byte) (b : Bytes) (l : Bool) : (f.safRecord ty b l).nev = f.nev := (safRecord_stands f ty b l).1
@[simp] theorem safRecord_dch (f : Field) (ty : Byte) (b : Bytes) (l : Bool) : (f.safRecord ty b l).dch = f.dch := (safRecord_stands f ty b l).2.1
@[simp] theorem safRecord_standing (f : Field) (ty : Byte) (b : Bytes) (l : Bool) : (f.safRecord ty b l).saf.standing = f.saf.standing :=
  (safRecord_stands f ty b l).2.2
@[simp] theorem safClear_nev (f : Field) (k w : Byte) : (f.safClear k w).nev = f.nev := safRecord_nev f _ _ _
@[simp] theorem safClear_standing (f : Field) (k w : Byte) : (f.safClear k w).saf.standing = f.saf.standing := safRecord_standing f _ _ _

/-- What emits at the end of an entry: nothing of the channels, the gates or the safety block. -/
theorem emit_stands (f : Field) (o : Out) : (f.emit o).nev = f.nev ∧ (f.emit o).dch = f.dch ∧ (f.emit o).saf = f.saf :=
  ⟨nev_of_lanes (emit_lanes f o), dch_of_lanes (emit_lanes f o), saf_of_work (work_of_lanes (emit_lanes f o))⟩

theorem sendCtl_stands (f : Field) (m : Msg) :
    (f.sendCtl m).nev = f.nev ∧ (f.sendCtl m).dch = f.dch ∧ (f.sendCtl m).saf = f.saf ∧ Around f (f.sendCtl m) := by
  unfold sendCtl
  extract_lets r _ f1
  have h1 : f1.nev = f.nev ∧ f1.dch = f.dch ∧ f1.saf = f.saf ∧ Around f f1 := ⟨rfl, rfl, rfl, rfl⟩
  clear_value f1
  obtain ⟨hn, hd, hs, ha⟩ := h1
  split
  · obtain ⟨en, ed, es⟩ := emit_stands f1 (msgOut true _ (_, m))
    exact ⟨en.trans hn, ed.trans hd, es.trans hs, ha.trans (.ofInner (.ofLanes (emit_lanes f1 _)))⟩
  · exact ⟨hn, hd, hs, ha⟩

theorem fstate_stands (f : Field) (c : FCode) (k p : Byte) :
    (f.fstate c k p).nev = f.nev ∧ (f.fstate c k p).dch = f.dch ∧ (f.fstate c k p).saf = f.saf ∧ Around f (f.fstate c k p) := by
  unfold fstate
  split
  · exact sendCtl_stands f _
  · exact ⟨rfl, rfl, rfl, rfl⟩

/-! ### The gates and the pins (R426) -/

/-- Once some gates have gone off, each of them is off, and no gate has gone on. -/
theorem gatesOff_dchan (l : List Nat) (f : Field) (n : BitVec 4) (h : n.toNat ∈ l ∨ (f.dchan n).mode = .off) :
    ((l.foldl (fun (g : Field) k => g.gateOff (BitVec.ofNat 4 k) true) f).dchan n).mode = .off := by
  induction l generalizing f with
  | nil => exact h.resolve_left (List.not_mem_nil)
  | cons k l ih =>
    refine ih (f.gateOff (BitVec.ofNat 4 k) true) ?_
    rw [gateOff_dchan]
    split
    next => exact .inr rfl
    next hne =>
      refine h.imp_left fun hm => (List.mem_cons.1 hm).resolve_left fun hk => hne ?_
      rw [← hk, BitVec.ofNat_toNat, BitVec.setWidth_eq]

theorem pinsSafe_around (f : Field) : Around f f.pinsSafe :=
  (Around.ofInner (Frame.Keeps.foldl (r := innerGateFrame.toFrame)
    (fun g k => Frame.Keeps.gateOff (r := innerGateFrame) g (BitVec.ofNat 4 k) true) (List.range 16) f)).trans (.saf _ _)

theorem pinsSafe_saf (f : Field) : f.pinsSafe.saf = { f.saf with safeout := 0 } := by
  have h : Inner f ((List.range 16).foldl (fun (g : Field) n => g.gateOff (BitVec.ofNat 4 n) true) f) :=
    Frame.Keeps.foldl (r := innerGateFrame.toFrame) (fun g k => Frame.Keeps.gateOff (r := innerGateFrame) g (BitVec.ofNat 4 k) true) _ f
  rw [pinsSafe, ← h.saf]

theorem pinsSafe_off (f : Field) (n : BitVec 4) : (f.pinsSafe.dchan n).mode = .off := by
  have h := gatesOff_dchan (List.range 16) f n (.inl (List.mem_range.2 n.isLt))
  unfold pinsSafe
  generalize (List.range 16).foldl _ f = g at *
  exact h

/-! ### The core's part (R131, R161) -/

/-- A switching channel's part of an entry. -/
def coreTrip (g0 : Field) (x : BitVec 17) : Field :=
  let g := g0.rampsEnd x
  let c := g.chan x
  if c.nev.state = .closed || c.nev.state = .inserting || c.nev.state = .retryWait then g.tripChan x 0x13
  else if c.nev.state = .tripped && !c.aux.policyApplied then g.modRec x (fun r => { r with cause := 0x13 })
  else g

theorem coreEntry_eq (f : Field) :
    f.coreEntry = (f.closeAllEpo.select (fun c => c.nev.kind.switches)).foldl coreTrip f.closeAllEpo := rfl

/-- The channel's switch is neither closed nor about to be. -/
def Down (x : BitVec 17) (f : Field) : Prop := (f.chan x).nev.state ≠ .closed ∧ (f.chan x).nev.state ≠ .inserting

theorem coreTrip_touches (f : Field) (x : BitVec 17) : Touches x f (f.coreTrip x) := by
  have h1 : Touches x f (f.rampsEnd x) := .ofCtxs (rampsEnd_ctxs f x)
  unfold coreTrip
  extract_lets g c
  refine .ite _ (h1.trans (KeepsConfig.tripChan x _ _).1) (.ite _ (h1.trans ?_) h1)
  exact .modChan x g _

theorem coreTrip_down (f : Field) (x : BitVec 17) : Down x (f.coreTrip x) := by
  unfold coreTrip
  extract_lets g c
  split
  next => 
    obtain ⟨ht, -⟩ := tripChan_tripped g x 0x13
    exact ⟨by rw [ht]; simp, by rw [ht]; simp⟩
  next h =>
    have hd : Down x g := by
      simp only [Bool.or_eq_true, decide_eq_true_eq, not_or] at h
      exact ⟨h.1.1, h.1.2⟩
    split
    · have hs : ((g.modRec x (fun r => { r with cause := 0x13 })).chan x).nev.state = (g.chan x).nev.state := by
        rw [modRec, chan_modChan_same]
      exact ⟨by rw [hs]; exact hd.1, by rw [hs]; exact hd.2⟩
    · exact hd

theorem coreTrips_down (l : List (BitVec 17)) (f : Field) (x : BitVec 17) :
    ((l.foldl coreTrip f).chan x = f.chan x ∨ Down x (l.foldl coreTrip f)) ∧ (x ∈ l → Down x (l.foldl coreTrip f)) ∧
      (Down x f → Down x (l.foldl coreTrip f)) := by
  induction l generalizing f with
  | nil => exact ⟨.inl rfl, fun h => absurd h List.not_mem_nil, id⟩
  | cons y l ih =>
    obtain ⟨hkeep, hmem, hdown⟩ := ih (f.coreTrip y)
    by_cases hy : x = y
    · subst hy
      have hd := hdown (coreTrip_down f x)
      exact ⟨.inr hd, fun _ => hd, fun _ => hd⟩
    · have hc : (f.coreTrip y).chan x = f.chan x := (coreTrip_touches f y).2 x hy
      refine ⟨hkeep.imp_left (·.trans hc), fun h => hmem ((List.mem_cons.1 h).resolve_left hy), fun h => hdown ?_⟩
      rw [Down, hc]
      exact h

theorem closeAllEpo_dchan (f : Field) (n : BitVec 4) : (f.closeAllEpo.dchan n).mode = (f.dchan n).mode := by
  have h : TimersEnd f f.closeAllEpo := TimersEnd.foldl (fun g e => TimersEnd.closeEv g e .epo 0) f.sel.events f
  obtain ⟨_, _, he, -⟩ := h.dchan n
  rw [he]

theorem coreEntry_inner (f : Field) : Inner f f.coreEntry := by
  rw [coreEntry_eq]
  refine Inner.trans (g := f.closeAllEpo) ?_ (Inner.foldl (fun g x => .ofTouches (coreTrip_touches g x)) _ _)
  exact Frame.Keeps.foldl (r := innerSelect.toFrame) (fun g e => Frame.Keeps.closeEv (r := innerSelect) g e .epo 0) f.sel.events f

theorem coreTrip_mode (f : Field) (x : BitVec 17) (n : BitVec 4) : ((f.coreTrip x).dchan n).mode = (f.dchan n).mode := by
  have h1 : ((f.rampsEnd x).dchan n).mode = (f.dchan n).mode := congrArg Dch.mode (dchan_of_dch (rampsEnd_dch (f := f) (x := x)) n)
  unfold coreTrip
  extract_lets g c
  split
  · exact (Frame.Keeps.tripChan (r := dchFrame Dch.mode (fun _ => rfl)) g x 0x13 n).trans h1
  · split <;> exact h1

theorem coreEntry_mode (f : Field) (n : BitVec 4) : (f.coreEntry.dchan n).mode = (f.dchan n).mode := by
  rw [coreEntry_eq]
  exact (foldl_same (fun g : Field => (g.dchan n).mode) (fun g x => coreTrip_mode g x n) _ _).trans (closeAllEpo_dchan f n)

/-- After the core's part no switching channel is closed or about to be. -/
theorem coreEntry_down (f : Field) (x : BitVec 17) (h : (f.coreEntry.chan x).nev.kind.switches = true) : Down x f.coreEntry := by
  rw [coreEntry_eq] at *
  generalize f.closeAllEpo = f1 at *
  obtain ⟨hkeep, hmem, -⟩ := coreTrips_down (f1.select fun c => c.nev.kind.switches) f1 x
  obtain hsame | hdown := hkeep
  · by_cases hfree : (f1.chan x).nev.state = .free
    · exact ⟨by rw [hsame, hfree]; simp, by rw [hsame, hfree]; simp⟩
    · exact hmem (mem_select hfree (by rw [← hsame]; exact h))
  · exact hdown

/-! ### Entry (R425) -/

theorem lanes_foldl {α : Type} {op : Field → α → Field} (hop : ∀ f a, op f a = f.withLanes (op f a)) (l : List α) :
    ∀ f : Field, l.foldl op f = f.withLanes (l.foldl op f) := by
  induction l with
  | nil => exact fun _ => rfl
  | cons a l ih => exact fun f => lanes_trans (hop f a) (ih _)

theorem allOpen_lanes (f : Field) : f.allOpen = f.withLanes f.allOpen :=
  lanes_foldl (fun g _ => lanes_trans (emit_lanes g _) (emit_lanes _ _)) _ f

theorem counterPlace_frame (f : Field) : f.counterPlace = { f with nvm := f.counterPlace.nvm } := by
  unfold counterPlace
  extract_lets n e
  split <;> rfl

theorem safEntry_spec (f1 : Field) :
    let f2 := if f1.coreOn then f1.allOpen.coreEntry else { f1 with saf := { f1.saf with coreOwed := true } }
    Around f1 f2 ∧ f2.saf.standing = f1.saf.standing ∧ (∀ n, (f2.dchan n).mode = (f1.dchan n).mode) ∧
      (f1.coreOn = true → ∀ x, (f2.chan x).nev.kind.switches = true → Down x f2) := by
  dsimp only
  split
  next hc =>
    have hi : Inner f1 f1.allOpen.coreEntry := (Inner.ofLanes (allOpen_lanes f1)).trans (coreEntry_inner _)
    refine ⟨.ofInner hi, by rw [hi.saf], fun n => ?_, fun _ => coreEntry_down _⟩
    rw [coreEntry_mode, dchan_of_dch (dch_of_lanes (allOpen_lanes f1))]
  next hc => exact ⟨.saf f1 _, rfl, fun _ => rfl, fun h => absurd h hc⟩

/-- An entry to the safe state, or a further reason in it. -/
theorem enterSafe_spec (f : Field) (r w : Byte) (l : Bool) :
    Around f (f.enterSafe r w l) ∧ (f.enterSafe r w l).saf.standing = (f.saf.entered r f.now).standing ∧
      (f.saf.safe = false → (∀ n, ((f.enterSafe r w l).dchan n).mode = .off) ∧
        (f.coreOn = true → ∀ x, ((f.enterSafe r w l).chan x).nev.kind.switches = true → Down x (f.enterSafe r w l))) := by
  unfold enterSafe
  extract_lets _ f0 _ f1 _ f2
  split
  next hs =>
    refine ⟨(Around.saf f _).trans (safRecord_around f0 _ _ l), ?_, fun h => absurd ((show f.saf.safe = true from hs).symm.trans h) (by simp)⟩
    rw [safRecord_standing, Saf.entered_again (show f.saf.safe = true from hs)]
  next hs =>
    have hs' : f.saf.safe = false := by simpa [f0] using hs
    have h1 : Around f f1 := by
      refine Around.trans ?_ (pinsSafe_around _)
      rw [counterPlace_frame]
      rfl
    have h1s : f1.saf.standing = (f.saf.entered r f.now).standing := by
      simp only [f1]
      rw [pinsSafe_saf, counterPlace_frame, Saf.entered_first hs']
    have h1d : ∀ n, (f1.dchan n).mode = .off := pinsSafe_off _
    clear_value f1
    obtain ⟨h2, h2s, h2d, h2x⟩ := safEntry_spec f1
    change Around f1 f2 at h2
    change f2.saf.standing = _ at h2s
    have h2d : ∀ n, (f2.dchan n).mode = (f1.dchan n).mode := h2d
    have h2x : f1.coreOn = true → ∀ x, (f2.chan x).nev.kind.switches = true → Down x f2 := h2x
    clear_value f2
    have h3 := safRecord_around f2 0x40 [r, w, f2.saf.aoSeq, 0] l
    obtain ⟨h3n, h3d, h3s⟩ := safRecord_stands f2 0x40 [r, w, f2.saf.aoSeq, 0] l
    generalize f2.safRecord 0x40 [r, w, f2.saf.aoSeq, 0] l = f3 at h3 h3n h3d h3s
    obtain ⟨h4n, h4d, h4s, h4⟩ := fstate_stands f3 .safe 0 0x80
    generalize f3.fstate .safe 0 0x80 = f4 at h4 h4n h4d h4s
    refine ⟨((h1.trans h2).trans h3).trans h4, ?_, fun _ => ⟨fun n => ?_, fun hc x => ?_⟩⟩
    · rw [h4s, h3s, h2s, h1s]
    · rw [dchan_of_dch (h4d.trans h3d), h2d, h1d]
    · rw [Down, chan_congr (h4n.trans h3n)]
      exact h2x ((coreOn_of_pwr h1.pwr).trans hc) x

theorem enterSafe_around (f : Field) (r w : Byte) (l : Bool) : Around f (f.enterSafe r w l) := (enterSafe_spec f r w l).1
theorem enterSafe_standing (f : Field) (r w : Byte) (l : Bool) : (f.enterSafe r w l).saf.standing = (f.saf.entered r f.now).standing :=
  (enterSafe_spec f r w l).2.1

theorem safFault_around (f : Field) (r w : Byte) : Around f (f.safFault r w) := (enterSafe_around f r w true).trans (safRecord_around _ _ _ _)
theorem safFault_standing (f : Field) (r w : Byte) : (f.safFault r w).saf.standing = (f.saf.entered r f.now).standing :=
  (safRecord_standing _ _ _ _).trans (enterSafe_standing f r w true)

end Field
end Sys2Proof.Machine
end

section
/-! PROOF. The safe state by software and the safety parameters (R439 to R444). -/
namespace Sys2Proof.Machine
set_option Elab.async false
namespace Field

theorem coreOn_of_writes {f : Field} {p : Part} (h : f.writes p = true) : f.coreOn = true := by
  simp only [writes, seqRuns, Bool.and_eq_true] at h
  exact h.1.1.1

/-- The first entry to the safe state. -/
theorem enterSafe_first {f : Field} (hs : f.saf.safe = false) (hc : f.coreOn = true) (r w : Byte) (l : Bool) :
    let g := f.enterSafe r w l
    g.saf.reason = r ∧ g.saf.safeout = 0 ∧ g.saf.aoSeq = f.saf.aoSeq + 1 ∧ g.saf.entries = satAdd f.saf.entries 1 ∧
      (∀ n, (g.dchan n).mode = .off) ∧ ∀ x, (g.chan x).nev.kind.switches = true → Down x g := by
  obtain ⟨-, hst, hrest⟩ := enterSafe_spec f r w l
  obtain ⟨hmode, hdown⟩ := hrest hs
  rw [Saf.entered_first hs] at hst
  exact ⟨(Saf.agree Saf.reason hst :), (Saf.agree Saf.safeout hst :), (Saf.agree Saf.aoSeq hst :), (Saf.agree Saf.entries hst :), hmode, hdown hc⟩

/-! ### The parameter block -/

/-- A refused confirmation tells its code and offset, and leaves the active block and the NVM's updates. -/
theorem safRefuse_spec (f : Field) (code : BitVec 3) (off : Nat) :
    (f.safRefuse code off).saf.last = code ∧ (f.safRefuse code off).saf.offset = BitVec.ofNat 9 off ∧
      (f.safRefuse code off).saf.active = f.saf.active := by
  have hst := safRecord_standing { f with saf := { f.saf with last := code, offset := BitVec.ofNat 9 off } } 0x46
    ([code.setWidth 8, 0] ++ toLe off 2) true
  exact ⟨(Saf.agree Saf.last hst :), (Saf.agree Saf.offset hst :), (Saf.agree Saf.active hst :)⟩

theorem logAt_upd (f : Field) (ty : Byte) (t : Count) (b : Bytes) (cs : List Bytes) : (f.logAt ty t b cs).nvm.upd = f.nvm.upd := by
  unfold logAt
  extract_lets r
  split
  · rfl
  · split <;> rfl

theorem safRecord_upd (f : Field) (ty : Byte) (b : Bytes) (l : Bool) : (f.safRecord ty b l).nvm.upd = f.nvm.upd := by
  unfold safRecord
  extract_lets f1
  have h1 : f1.nvm.upd = f.nvm.upd := by
    simp only [f1]
    split
    · exact logAt_upd f ty f.now b []
    · rfl
  clear_value f1
  split
  · rw [Inner.nvm (Inner.raiseAll f1 ty b), h1]
  · exact h1

theorem safConfirm_judged {f : Field} {p : Part} {v : Word} (hcomm : f.sec.comm = true) (hp : f.commissioner p = true) :
    f.safConfirm p v =
      if f.saf.safe = false then f.safRefuse 2 0
      else if v ≠ crc32c f.saf.staging then f.safRefuse 3 0
      else match safBadOffset f.saf.staging with
        | some o => f.safRefuse 4 o
        | none => ({ f with saf := { f.saf with commit := some f.saf.staging } }).imgStart 2 f.saf.staging := by
  unfold safConfirm
  rw [if_neg (by simp [hcomm]), if_neg (by simp [hp])]
  simp only [Bool.not_eq_true'] <;> rfl

/-- The active block with some of its bytes changed. -/
def flipped (f : Field) (flips : List (BitVec 9 × Byte)) : Bytes :=
  flips.foldl (fun (b : Bytes) e => listSet b e.1.toNat (u8 b e.1.toNat ^^^ e.2)) f.saf.active

/-- The active block as a check finds it, and the count of the next check. -/
def checked (f : Field) (due : Count) (flips : List (BitVec 9 × Byte)) : Field :=
  { f with saf := { f.saf with paramDue := due, active := f.flipped flips } }

/-- The block is found changed: PARAM is latched (R441). -/
def paramLost (f : Field) : Field :=
  let f1 := { f with saf := { f.saf with fParam := true } }
  if f.saf.fParam then f1 else f1.safFault 0x0C 0

theorem paramCheck_early {f : Field} (flips : List (BitVec 9 × Byte)) (a b : Bool) (h : f.now < f.saf.paramDue) :
    f.paramCheck flips a b = f := by
  unfold paramCheck
  rw [if_pos (by simp [h])]

/-- A lost block is replaced: by a good copy, or by the default block (R441). -/
def paramReplaced (f : Field) (o : Option Bytes) : Field :=
  match o with
  | some c => ({ f with saf := { f.saf with active := c, fParam := false } }).safClear 0x0C 0
  | none => if f.saf.confirmed then f.unconfirm 1
    else { f with saf := { f.saf with active := safDefault, activeCrc := crc32c safDefault } }

/-- The safety image as a check finds it. -/
def safetyCopies (f : Field) (badA badB : Bool) : Img :=
  { a := if badA then { bytes := [] } else f.nvm.safety.a, b := if badB then { bytes := [] } else f.nvm.safety.b }

/-- A check that is due, with the count of the next one. -/
def paramChecked (f : Field) (due : Count) (flips : List (BitVec 9 × Byte)) (badA badB : Bool) : Field :=
  if crc32c (f.flipped flips) = f.saf.activeCrc then f.checked due flips
  else (f.checked due flips).paramLost.paramReplaced (safGoodCopy (f.safetyCopies badA badB) f.saf.activeCrc)

/-- The row of R441 with any count for the next check. -/
theorem paramChecked_eq (f : Field) (due : Count) (flips : List (BitVec 9 × Byte)) (badA badB : Bool) :
    (let f := { f with saf := { f.saf with paramDue := due } }
      let b := flips.foldl (fun (b : Bytes) e => listSet b e.1.toNat (u8 b e.1.toNat ^^^ e.2)) f.saf.active
      let f0 := { f with saf := { f.saf with active := b } }
      if crc32c b = f.saf.activeCrc then f0
      else
        let im := f.nvm.safety
        let im1 : Img := { a := if badA then { bytes := [] } else im.a, b := if badB then { bytes := [] } else im.b }
        let f1 := { f0 with saf := { f0.saf with fParam := true } }
        let f2 := if f.saf.fParam then f1 else f1.safFault 0x0C 0
        f2.paramReplaced (safGoodCopy im1 f.saf.activeCrc)) = f.paramChecked due flips badA badB := rfl

theorem paramCheck_due {f : Field} (flips : List (BitVec 9 × Byte)) (badA badB : Bool) (hp : f.pwr.st ≠ .thermalOff)
    (ht : ¬ f.now < f.saf.paramDue) :
    f.paramCheck flips badA badB = f.paramChecked (f.now + 100000000) flips badA badB := by
  unfold paramCheck
  rw [if_neg (by simp [safOn, hp, ht])]
  exact paramChecked_eq f (f.now + 100000000) flips badA badB

/-- What a latched PARAM leaves: the safe state where it is new, and of the block's standing all but the latch. -/
theorem paramLost_spec (f : Field) :
    f.paramLost.saf.fParam = true ∧ f.paramLost.saf.confirmed = f.saf.confirmed ∧
      (f.saf.fParam = false → f.paramLost.saf.safe = true ∧ f.paramLost.saf.lastReason = 0x0C) := by
  unfold paramLost
  extract_lets _ f1
  split
  next h => exact ⟨rfl, rfl, fun h' => absurd (h.symm.trans h') (by simp)⟩
  next h =>
    have hst := safFault_standing f1 0x0C 0
    exact ⟨(Saf.agree Saf.fParam hst :), (Saf.agree Saf.confirmed hst :), fun _ => ⟨(Saf.agree Saf.safe hst :), (Saf.agree Saf.lastReason hst :)⟩⟩

/-- A good copy replaces the block, and the latch goes. -/
theorem paramReplaced_copy (f : Field) (c : Bytes) :
    let g := f.paramReplaced (some c)
    g.saf.active = c ∧ g.saf.fParam = false ∧ g.saf.confirmed = f.saf.confirmed ∧ g.saf.safe = f.saf.safe ∧
      g.saf.lastReason = f.saf.lastReason := by
  have hst := safClear_standing { f with saf := { f.saf with active := c, fParam := false } } 0x0C 0
  exact ⟨(Saf.agree Saf.active hst :), (Saf.agree Saf.fParam hst :), (Saf.agree Saf.confirmed hst :), (Saf.agree Saf.safe hst :),
    (Saf.agree Saf.lastReason hst :)⟩

theorem unconfirm_standing (f : Field) (why : Byte) : (f.unconfirm why).saf.standing =
    ({ f.saf with active := safDefault, activeCrc := crc32c safDefault, confirmed := false } : Saf).standing := safRecord_standing _ _ _ _

/-- The default block replaces it unconfirmed, and the latch stays. -/
theorem paramReplaced_default (f : Field) :
    let g := f.paramReplaced none
    g.saf.active = safDefault ∧ g.saf.activeCrc = crc32c safDefault ∧ g.saf.confirmed = false ∧ g.saf.fParam = f.saf.fParam ∧
      g.saf.safe = f.saf.safe ∧ g.saf.lastReason = f.saf.lastReason := by
  have hst := f.unconfirm_standing 1
  unfold paramReplaced
  dsimp only
  split
  next => exact ⟨Saf.agree Saf.active hst, Saf.agree Saf.activeCrc hst, Saf.agree Saf.confirmed hst,
    (Saf.agree Saf.fParam hst :), (Saf.agree Saf.safe hst :), (Saf.agree Saf.lastReason hst :)⟩
  next hconf => exact ⟨rfl, rfl, by simpa using hconf, rfl, rfl, rfl⟩

/-- A changed block is replaced by a good copy. -/
theorem paramChecked_reload {f : Field} {flips : List (BitVec 9 × Byte)} {c : Bytes} (due : Count)
    (hb : crc32c (f.flipped flips) ≠ f.saf.activeCrc)
    (hc : safGoodCopy f.nvm.safety f.saf.activeCrc = some c) :
    let g := f.paramChecked due flips false false
    g.saf.active = c ∧ g.saf.fParam = false ∧ g.saf.confirmed = f.saf.confirmed ∧
      (f.saf.fParam = false → g.saf.safe = true ∧ g.saf.lastReason = 0x0C) := by
  have heq : f.paramChecked due flips false false = _ := if_neg hb
  rw [show f.safetyCopies false false = f.nvm.safety from rfl, hc] at heq
  obtain ⟨-, hconf, hsafe⟩ := paramLost_spec (f.checked due flips)
  obtain ⟨h1, h2, h3, h4, h5⟩ := paramReplaced_copy (f.checked due flips).paramLost c
  dsimp only
  rw [heq]
  exact ⟨h1, h2, h3.trans hconf, fun h => ⟨h4.trans (hsafe h).1, h5.trans (hsafe h).2⟩⟩

theorem safGoodCopy_none (crc : Word) : safGoodCopy { a := { bytes := [] }, b := { bytes := [] } } crc = none := by
  have hl : leNat ([] : Bytes) 8 4 = 0 := by decide
  simp [safGoodCopy, ImgCopy.payload, hl, slice]

/-- A changed block without a good copy gives way to the default block, unconfirmed. -/
theorem paramChecked_default {f : Field} {flips : List (BitVec 9 × Byte)} (due : Count)
    (hb : crc32c (f.flipped flips) ≠ f.saf.activeCrc) :
    let g := f.paramChecked due flips true true
    g.saf.active = safDefault ∧ g.saf.activeCrc = crc32c safDefault ∧ g.saf.confirmed = false ∧ g.saf.fParam = true ∧
      (f.saf.fParam = false → g.saf.safe = true ∧ g.saf.lastReason = 0x0C) := by
  have heq : f.paramChecked due flips true true = _ := if_neg hb
  rw [show f.safetyCopies true true = { a := { bytes := [] }, b := { bytes := [] } } from rfl, safGoodCopy_none] at heq
  obtain ⟨hlatch, -, hsafe⟩ := paramLost_spec (f.checked due flips)
  obtain ⟨h1, h2, h3, h4, h5, h6⟩ := paramReplaced_default (f.checked due flips).paramLost
  dsimp only
  rw [heq]
  exact ⟨h1, h2, h3, h4.trans hlatch, fun h => ⟨h5.trans (hsafe h).1, h6.trans (hsafe h).2⟩⟩

end Field

open Sys2Proof.Machine.Field

/-- Settles O42: each clause is one branch of the row's operation; the safety block after an entry is `Saf.entered`, records aside. -/
theorem safetyTakesParameters : Obligations.SafetyTakesParameters := by
  unfold Obligations.SafetyTakesParameters
  intro s
  refine ⟨fun p hw hrole => ?_, fun p v hw => ⟨fun hcomm => ?_, fun hcomm hp => ?_⟩, fun flips a b ht => ?_, fun hp ht => ⟨fun a b hcrc => ?_,
    fun flips => ?_⟩⟩
  · have hc := coreOn_of_writes hw
    have hon : s.f.pwr.st ≠ .thermalOff := fun h => by simp [coreOn, h] at hc
    have hrole' : (s.f.operator p || s.f.commissioner p) = true := by simpa using hrole
    refine s.endsField_of_write rfl hw ?_
    rw [safEnter, if_pos (by simp only [safOn, hrole', Bool.true_and, Bool.and_true]; simpa using hon)]
    have hst := enterSafe_standing s.f 0x12 0 true
    exact ⟨(Saf.agree Saf.safe hst :), (Saf.agree Saf.lastReason hst :), (Saf.agree Saf.tReason hst :), fun hs => enterSafe_first hs hc 0x12 0 true⟩
  · refine s.endsField_of_write rfl hw ?_
    rw [safConfirm, if_pos (by simp [hcomm])]
    exact ⟨by rw [logRwc_frame], by rw [logRwc_frame], logAt_upd _ _ _ _ _⟩
  · refine ⟨fun hs => ?_, fun hs hv => ?_, fun o hs hv ho => ?_, fun hs hv ho => ?_⟩ <;> refine s.endsField_of_write rfl hw ?_ <;>
      rw [safConfirm_judged hcomm hp]
    · rw [if_pos hs]
      obtain ⟨hlast, -, hact⟩ := safRefuse_spec s.f 2 0
      exact ⟨hlast, hact⟩
    · rw [if_neg (by simp [hs]), if_pos hv]
      obtain ⟨hlast, -, hact⟩ := safRefuse_spec s.f 3 0
      exact ⟨hlast, hact, safRecord_upd _ _ _ _⟩
    · rw [if_neg (by simp [hs]), if_neg (not_not.2 hv), ho]
      exact safRefuse_spec s.f 4 o
    · rw [if_neg (by simp [hs]), if_neg (not_not.2 hv), ho]
      rfl
  · exact s.endsField_of_exec (op := fun f => f.paramCheck flips a b) rfl (paramCheck_early flips a b ht)
  · refine s.endsField_of_exec (op := fun f => f.paramCheck [] a b) rfl ?_
    rw [paramCheck_due [] a b hp ht]
    exact if_pos hcrc
  · intro b hb
    refine ⟨fun c hc => s.endsField_of_exec (op := fun f => f.paramCheck flips false false) rfl ?_,
      s.endsField_of_exec (op := fun f => f.paramCheck flips true true) rfl ?_⟩
    · rw [paramCheck_due flips false false hp ht]
      exact paramChecked_reload _ hb hc
    · rw [paramCheck_due flips true true hp ht]
      exact paramChecked_default _ hb

end Sys2Proof.Machine
end

section
/-! PROOF. The emergency-off inputs and their test pulses (R422 to R433, R438). -/
namespace Sys2Proof.Machine
set_option Elab.async false

/-! ### Bits and tables of the eight channels -/

theorem bit_one_shift {w : Nat} (k j : Nat) : (1#w <<< k).getLsbD j = (decide (j < w) && decide (j = k)) := by
  simp only [BitVec.getLsbD_shiftLeft, BitVec.getLsbD_one]
  rw [Bool.eq_iff_iff]
  simp only [Bool.and_eq_true, Bool.not_eq_true', decide_eq_true_eq, decide_eq_false_iff_not]
  omega

theorem bit_set {w : Nat} (x : BitVec w) (k j : Nat) : bit (x ||| (1#w <<< k)) j = (bit x j || (decide (j < w) && decide (j = k))) := by
  simp only [bit, BitVec.getLsbD_or, bit_one_shift]

theorem bit_clear {w : Nat} (x : BitVec w) (k j : Nat) : bit (x &&& ~~~(1#w <<< k)) j = (bit x j && !decide (j = k)) := by
  simp only [bit, BitVec.getLsbD_and, BitVec.getLsbD_not, bit_one_shift]
  by_cases hj : j < w
  · simp [hj]
  · simp [BitVec.getLsbD_of_ge x j (by omega)]

/-- The bits of a list, set in a byte one after the other. -/
theorem bit_setAll (l : List Nat) (b : BitVec 8) (j : Nat) (hj : j < 8) :
    bit (l.foldl (fun (b : BitVec 8) ch => b ||| (1#8 <<< ch)) b) j = (bit b j || decide (j ∈ l)) := by
  induction l generalizing b with
  | nil => simp
  | cons a l ih =>
    rw [List.foldl_cons, ih, bit_set]
    simp [hj, Bool.or_assoc]

/-- The keys of a list, listed one after the other with values that depend on the key alone. -/
theorem tabLook_putAll {α : Type} (v : Nat → α) (l : List Nat) (t : Tab α) (j : Nat) :
    tabLook (l.foldl (fun t ch => tabPut t ch (v ch)) t) j = if j ∈ l then some (v j) else tabLook t j := by
  induction l generalizing t with
  | nil => simp
  | cons a l ih =>
    rw [List.foldl_cons, ih]
    by_cases hl : j ∈ l
    · simp [hl]
    · by_cases ha : j = a
      · subst ha; simp
      · rw [if_neg hl, if_neg (by simp [ha, hl]), tabLook_tabPut_other _ _ (Ne.symm ha)]

/-! ### What an input's row leaves of the safety block -/

/-- The inputs, the pulses, the test faults and the parameters of the safety block: all that neither an entry, a cross fault nor a pair's
move changes. -/
def Saf.inputs (s : Saf) : Saf :=
  { s.standing with safe := false, reason := 0, aoSeq := 0, entries := 0, safeout := 0, lastReason := 0, tReason := 0, fDisc := 0,
                    fCross := false, roundCross := false, disc := [], cycle := [] }

/-- From s to t the inputs stand, and the safe state does not end. -/
def Saf.Safer (s t : Saf) : Prop := t.inputs = s.inputs ∧ (s.safe = true → t.safe = true)

namespace Saf.Safer
theorem refl (s : Saf) : Safer s s := ⟨rfl, id⟩
theorem trans {s t u : Saf} (a : Safer s t) (b : Safer t u) : Safer s u := ⟨b.1.trans a.1, b.2 ∘ a.2⟩
theorem of_standing {s t : Saf} (h : t.standing = s.standing) : Safer s t :=
  ⟨Saf.agree Saf.inputs h, fun hs => (Saf.agree Saf.safe h).trans hs⟩
theorem of_entered {s t : Saf} {r : Byte} {n : Count} (h : t.standing = (s.entered r n).standing) : Safer s t :=
  ⟨(Saf.agree Saf.inputs h).trans rfl, fun _ => Saf.agree Saf.safe h⟩
/-- A view of the inputs is the same. -/
theorem agree {β : Type} (view : Saf → β) {s t : Saf} (h : Safer s t) (hv : ∀ s : Saf, view s.inputs = view s := by intro _; rfl) :
    view t = view s := (hv t).symm.trans ((congrArg view h.1).trans (hv s))
end Saf.Safer

namespace Field

theorem safFault_safer (f : Field) (r w : Byte) : f.saf.Safer (f.safFault r w).saf := .of_entered (safFault_standing f r w)
theorem safClear_safer (f : Field) (r w : Byte) : f.saf.Safer (f.safClear r w).saf := .of_standing (safClear_standing f r w)

theorem crossSeen_safer (f : Field) (ch : Nat) : f.saf.Safer (f.crossSeen ch).saf := by
  unfold crossSeen
  extract_lets _ f1
  have h1 : f.saf.Safer f1.saf := ⟨rfl, id⟩
  clear_value f1
  split
  · exact h1
  · exact h1.trans (safFault_safer f1 0x0A _)

theorem roundEnd_safer (f : Field) : f.saf.Safer f.roundEnd.saf := by
  unfold roundEnd
  split
  · exact Saf.Safer.trans (t := { f.saf with fCross := false }) ⟨rfl, id⟩ (safClear_safer _ 0x0A 0)
  · exact .refl _

/-- A last reason that the round's end leaves. -/
theorem roundEnd_lastReason (f : Field) : f.roundEnd.saf.lastReason = f.saf.lastReason := by
  unfold roundEnd
  split
  · exact (Saf.agree Saf.lastReason (safClear_standing { f with saf := { f.saf with fCross := false } } 0x0A 0) :)
  · rfl

/-- A pair moves: its inputs stand, and a new demand is an entry with the pair's reason (R424). -/
theorem pairMoved_spec (f : Field) (was : Saf) (k : Nat) :
    f.saf.Safer (f.pairMoved was k).saf ∧
      (pairDemand f.saf k = true → pairDemand was k = false →
        (f.pairMoved was k).saf.safe = true ∧ (f.pairMoved was k).saf.lastReason = BitVec.ofNat 8 (k + 1) ∧
          (f.saf.safe = false → (f.pairMoved was k).saf.reason = BitVec.ofNat 8 (k + 1))) := by
  unfold pairMoved
  extract_lets s old new f1 _ f2
  have h1 : f.saf.Safer f1.saf ∧ f1.saf.safe = f.saf.safe := ⟨⟨rfl, id⟩, rfl⟩
  have h2 : f.saf.Safer f2.saf ∧ f2.saf.safe = f.saf.safe := by
    simp only [f2]
    clear_value f1
    split
    · have hst := safClear_standing { f1 with saf := { f1.saf with fDisc := f1.saf.fDisc &&& ~~~(1#4 <<< k) } } 0x08 (BitVec.ofNat 8 k)
      refine ⟨h1.1.trans (Saf.Safer.trans (t := { f1.saf with fDisc := f1.saf.fDisc &&& ~~~(1#4 <<< k) }) ⟨rfl, id⟩ (.of_standing hst)), ?_⟩
      exact (Saf.agree Saf.safe hst :).trans h1.2
    · exact h1
  clear_value f2
  obtain ⟨h2, h2s⟩ := h2
  have hst := enterSafe_standing f2 (BitVec.ofNat 8 (k + 1)) (BitVec.ofNat 8 k) true
  split
  next hd =>
    refine ⟨h2.trans (.of_entered hst), fun _ _ => ⟨(Saf.agree Saf.safe hst :), (Saf.agree Saf.lastReason hst :), fun hs => ?_⟩⟩
    rw [Saf.entered_first (h2s.trans hs)] at hst
    exact (Saf.agree Saf.reason hst :)
  next hd => exact ⟨h2, fun hnew hold => absurd (by simp [s, hnew, hold]) hd⟩

/-! ### EPO_LEVEL (R424) -/

theorem epoLevel_same {f : Field} {k : BitVec 2} {side : End} {lvl : Bool} (h : bit f.saf.epo (2 * k.toNat + side.ctorIdx) = lvl) :
    f.epoLevel k side lvl = f := by
  unfold epoLevel
  rw [if_pos (by simp [h])]

/-- The level of one channel of the eight. -/
def epoWith (epo : BitVec 8) (ch : Nat) (lvl : Bool) : BitVec 8 := if lvl then epo ||| (1#8 <<< ch) else epo &&& ~~~(1#8 <<< ch)

theorem bit_epoWith (epo : BitVec 8) {ch : Nat} (hch : ch < 8) (lvl : Bool) (j : Nat) :
    bit (epoWith epo ch lvl) j = if j = ch then lvl else bit epo j := by
  unfold epoWith
  cases lvl
  · rw [if_neg (by simp), bit_clear]
    by_cases h : j = ch <;> simp [h]
  · rw [if_pos rfl, bit_set]
    by_cases h : j = ch
    · simp [h, hch]
    · simp [h]

/-- A new level is taken; what follows is the cross fault of another pulse, and the move of the pair. -/
theorem epoLevel_new {f : Field} {k : BitVec 2} {side : End} {lvl : Bool} (hp : f.pwr.st ≠ .thermalOff)
    (h : bit f.saf.epo (2 * k.toNat + side.ctorIdx) ≠ lvl) :
    ∃ dip, f.epoLevel k side lvl =
      let f1 := { f with saf := { f.saf with epo := epoWith f.saf.epo (2 * k.toNat + side.ctorIdx) lvl, dipped := dip } }
      (if (List.range 8).any (fun j => j ≠ 2 * k.toNat + side.ctorIdx && !bit f.saf.epot j) then f1.crossSeen (2 * k.toNat + side.ctorIdx)
        else f1).pairMoved f.saf k.toNat := by
  unfold epoLevel
  rw [if_neg (by simp [safOn, hp, h])]
  exact ⟨_, rfl⟩

theorem pair_channel_lt (k : BitVec 2) (side : End) : 2 * k.toNat + side.ctorIdx < 8 := by
  have := k.isLt
  cases side <;> simp only [End.ctorIdx] <;> omega

theorem epoLevel_spec {f : Field} {k : BitVec 2} {side : End} {lvl : Bool} (hp : f.pwr.st ≠ .thermalOff)
    (h : bit f.saf.epo (2 * k.toNat + side.ctorIdx) ≠ lvl) :
    let ch := 2 * k.toNat + side.ctorIdx
    let g := f.epoLevel k side lvl
    g.saf.epo = epoWith f.saf.epo ch lvl ∧ (f.saf.safe = true → g.saf.safe = true) ∧
      (f.saf.epot = 0xFF → bit f.saf.masked ch = false → pairEn f.saf k.toNat = true → isDemand f.saf ch lvl = true →
        pairDemand f.saf k.toNat = false → g.saf.safe = true ∧ g.saf.lastReason = BitVec.ofNat 8 (k.toNat + 1) ∧
          (f.saf.safe = false → g.saf.reason = BitVec.ofNat 8 (k.toNat + 1))) := by
  obtain ⟨dip, heq⟩ := epoLevel_new hp h
  dsimp only at heq ⊢
  rw [heq]
  have hlt := pair_channel_lt k side
  have hside : side.ctorIdx = 0 ∨ side.ctorIdx = 1 := by cases side <;> simp [End.ctorIdx]
  generalize hch : 2 * k.toNat + side.ctorIdx = ch at *
  set f1 : Field := { f with saf := { f.saf with epo := epoWith f.saf.epo ch lvl, dipped := dip } } with hf1
  set f2 : Field := if (List.range 8).any (fun j => j ≠ ch && !bit f.saf.epot j) then f1.crossSeen ch else f1 with hf2
  have h2 : f1.saf.Safer f2.saf := by
    rw [hf2]
    split
    · exact crossSeen_safer f1 ch
    · exact .refl _
  obtain ⟨h3, hdem⟩ := pairMoved_spec f2 f.saf k.toNat
  refine ⟨Saf.Safer.agree Saf.epo (h2.trans h3), (h2.trans h3).2, fun hepot hmask hen hlvl hold => ?_⟩
  have hno : f2 = f1 := by
    rw [hf2, if_neg]
    simp only [hepot, List.any_eq_true, List.mem_range, Bool.and_eq_true, decide_eq_true_eq, not_exists, not_and, Bool.not_eq_true,
      Bool.not_eq_false']
    intro j hj _
    interval_cases j <;> rfl
  rw [hno] at hdem ⊢
  refine hdem ?_ hold
  have hc : chDemand f1.saf ch = true := by
    have hl : effLevel f1.saf ch = lvl := by
      unfold effLevel
      rw [if_neg (by simp [hf1, hmask])]
      simp [hf1, bit_epoWith _ hlt]
    rw [chDemand, hl]
    exact hlvl
  rw [pairDemand, show pairEn f1.saf k.toNat = true from hen]
  obtain h0 | h0 := hside <;> rw [h0] at hch <;> subst hch
  · simp only [Nat.add_zero] at hc; simp [hc]
  · simp [hc]

/-! ### DISCREPANCY_EXPIRY (R429) -/

theorem discrepancyExpiry_spec {f : Field} {k : BitVec 2} {t : Count} (hp : f.pwr.st ≠ .thermalOff)
    (ht : tabLook f.saf.disc k.toNat = some t) (hd : pairDiffers f.saf k.toNat = true)
    (hdue : t.toNat + discTicks f.saf k.toNat ≤ f.now.toNat) :
    let g := f.discrepancyExpiry k
    bit g.saf.fDisc k.toNat = true ∧ tabLook g.saf.disc k.toNat = none ∧ tabGet .none g.saf.cycle k.toNat = .waitRun ∧
      (bit f.saf.fDisc k.toNat = false → g.saf.safe = true ∧ g.saf.lastReason = 0x08) := by
  unfold discrepancyExpiry
  split
  next u hu =>
    obtain rfl := Option.some.inj (ht.symm.trans hu)
    rw [if_pos (by simp [safOn, hp, hd, hdue])]
    extract_lets _ f1 g
    have hdisc : bit f1.saf.fDisc k.toNat = true := by
      show bit (f.saf.fDisc ||| (1#4 <<< k.toNat)) k.toNat = true
      rw [bit_set]
      simp [k.isLt]
    have hnone : tabLook f1.saf.disc k.toNat = none := tabLook_tabDel_same _ _
    have hcycle : tabGet .none f1.saf.cycle k.toNat = .waitRun :=
      tabGet_tabSet_same Cycle.none f.saf.cycle k.toNat Cycle.waitRun
    clear_value f1
    simp only [g]
    split
    next h => exact ⟨hdisc, hnone, hcycle, fun h' => absurd (h.symm.trans h') (by simp)⟩
    next =>
      have hst := safFault_standing f1 0x08 (k.setWidth 8)
      refine ⟨?_, ?_, ?_, fun _ => ⟨(Saf.agree Saf.safe hst :), (Saf.agree Saf.lastReason hst :)⟩⟩
      · rw [(Saf.agree Saf.fDisc hst :)]; exact hdisc
      · rw [(Saf.agree Saf.disc hst :)]; exact hnone
      · rw [(Saf.agree Saf.cycle hst :)]; exact hcycle
  next hn => rw [ht] at hn; cases hn

/-! ### The round of test pulses (R431, R438) -/

/-- The channels of a round, and the count of each pulse. -/
def testedChannels (f : Field) : List Nat := (List.range 8).filter (fun ch => tested f.saf ch)

/-- A round laid out. -/
def roundLaid (f : Field) : Field :=
  { f with saf := { f.saf with
      pulseDue := f.testedChannels.foldl (fun (t : Tab Count) ch => tabPut t ch (BitVec.ofNat 64 (f.now.toNat + ch * 50000))) [],
      roundCross := false, roundLeft := f.testedChannels.foldl (fun (b : BitVec 8) ch => b ||| (1#8 <<< ch)) 0 } }

theorem roundLaid_channel (f : Field) (ch : BitVec 3) :
    bit f.roundLaid.saf.roundLeft ch.toNat = tested f.saf ch.toNat ∧ tabLook f.roundLaid.saf.pulseDue ch.toNat =
      if tested f.saf ch.toNat then some (BitVec.ofNat 64 (f.now.toNat + ch.toNat * 50000)) else none := by
  have hlt : ch.toNat < 8 := ch.isLt
  have hmem : ch.toNat ∈ f.testedChannels ↔ tested f.saf ch.toNat = true := by simp [testedChannels, hlt]
  refine ⟨(bit_setAll _ _ _ hlt).trans ?_, (tabLook_putAll _ _ _ _).trans ?_⟩
  · rw [Bool.eq_iff_iff]
    simp [hmem, bit]
  · rw [tabLook_nil]
    by_cases h : tested f.saf ch.toNat = true
    · rw [if_pos (hmem.2 h), if_pos h]
    · rw [if_neg (mt hmem.1 h), if_neg h]

/-- A round is laid out whatever the self-test gives; one that failed latches LOGIC. -/
theorem epoTestSchedule_cases {f : Field} (hp : f.pwr.st ≠ .thermalOff) (ok : Bool) :
    f.epoTestSchedule ok = if ok || f.saf.fLogic then f.roundLaid
      else ({ f.roundLaid with saf := { f.roundLaid.saf with fLogic := true } }).safFault 0x0D 0 := by
  unfold epoTestSchedule
  rw [if_neg (by simp [safOn, hp])]
  rfl

theorem epoTestSchedule_spec {f : Field} (hp : f.pwr.st ≠ .thermalOff) (ok : Bool) :
    let g := f.epoTestSchedule ok
    g.mer = f.mer ∧ g.saf.roundCross = false ∧ g.saf.roundLeft = f.roundLaid.saf.roundLeft ∧ g.saf.pulseDue = f.roundLaid.saf.pulseDue ∧
      (ok = true → g.saf.fLogic = f.saf.fLogic ∧ g.saf.safe = f.saf.safe) ∧
      (ok = false → g.saf.fLogic = true ∧ (f.saf.fLogic = false → g.saf.safe = true ∧ g.saf.lastReason = 0x0D)) := by
  dsimp only
  rw [epoTestSchedule_cases hp]
  split
  next h =>
    refine ⟨rfl, rfl, rfl, rfl, fun _ => ⟨rfl, rfl⟩, fun hok => ?_⟩
    have hl : f.saf.fLogic = true := by simpa [hok] using h
    exact ⟨hl, fun h' => absurd (hl.symm.trans h') (by simp)⟩
  next h =>
    have hst := safFault_standing { f.roundLaid with saf := { f.roundLaid.saf with fLogic := true } } 0x0D 0
    exact ⟨(safFault_around _ _ _).mer, (Saf.agree Saf.roundCross hst :), (Saf.agree Saf.roundLeft hst :), (Saf.agree Saf.pulseDue hst :),
      fun hok => absurd (by simp [hok]) h,
      fun _ => ⟨(Saf.agree Saf.fLogic hst :), fun _ => ⟨(Saf.agree Saf.safe hst :), (Saf.agree Saf.lastReason hst :)⟩⟩⟩

theorem testPulseStart_eq {f : Field} {ch : BitVec 3} {t : Count} (hp : f.pwr.st ≠ .thermalOff)
    (ht : tabLook f.saf.pulseDue ch.toNat = some t) (hdue : t.toNat ≤ f.now.toNat) :
    f.testPulseStart ch = { f with saf := { f.saf with
      pulseDue := tabDel f.saf.pulseDue ch.toNat, pulseAt := tabPut f.saf.pulseAt ch.toNat f.now,
      epot := f.saf.epot &&& ~~~(1#8 <<< ch.toNat), masked := f.saf.masked ||| (1#8 <<< ch.toNat),
      held := (f.saf.held &&& ~~~(1#8 <<< ch.toNat)) ||| (f.saf.epo &&& (1#8 <<< ch.toNat)),
      dipped := f.saf.dipped &&& ~~~(1#8 <<< ch.toNat) } } := by
  unfold testPulseStart
  split
  next u hu =>
    obtain rfl := Option.some.inj (ht.symm.trans hu)
    rw [if_pos (by simp [safOn, hp, hdue])]
  next hn => rw [ht] at hn; cases hn

/-- A channel that was at run before its pulse shows no dip (R432). -/
def pulseFails (s : Saf) (ch : Nat) : Bool :=
  !isDemand s ch (bit s.held ch) && !(bit s.dipped ch || isDemand s ch (bit s.epo ch))

/-- The channel's level is released, and a missing dip latches TEST. -/
def pulseOver (f : Field) (ch : Nat) : Field :=
  { f with saf := { f.saf with
    epot := f.saf.epot ||| (1#8 <<< ch),
    dipped := if bit f.saf.dipped ch || isDemand f.saf ch (bit f.saf.epo ch) then f.saf.dipped ||| (1#8 <<< ch) else f.saf.dipped,
    roundLeft := f.saf.roundLeft &&& ~~~(1#8 <<< ch),
    fTest := if pulseFails f.saf ch then f.saf.fTest ||| (1#8 <<< ch) else f.saf.fTest } }

theorem testPulseEnd_eq {f : Field} {ch : BitVec 3} {t : Count} (hp : f.pwr.st ≠ .thermalOff)
    (ht : tabLook f.saf.pulseAt ch.toNat = some t) (hlow : bit f.saf.epot ch.toNat = false) (hdue : t.toNat + 20000 ≤ f.now.toNat) :
    f.testPulseEnd ch = (if pulseFails f.saf ch.toNat && !bit f.saf.fTest ch.toNat then (f.pulseOver ch.toNat).safFault 0x09 (ch.setWidth 8)
      else f.pulseOver ch.toNat).roundEnd := by
  unfold testPulseEnd
  split
  next u hu =>
    obtain rfl := Option.some.inj (ht.symm.trans hu)
    extract_lets s m judged dip fails f1 f2
    have hb : (f.safOn && !bit s.epot ch.toNat && decide (t.toNat + 20000 ≤ f.now.toNat)) = true := by
      rw [show bit s.epot ch.toNat = false from hlow]
      simp [safOn, hp, hdue]
    rw [if_pos hb]
    rfl
  next hn => rw [ht] at hn; cases hn

/-- The end of a pulse: the level is released, and a channel that shows no dip is latched (R432). -/
theorem testPulseEnd_spec {f : Field} {ch : BitVec 3} {t : Count} (hp : f.pwr.st ≠ .thermalOff)
    (ht : tabLook f.saf.pulseAt ch.toNat = some t) (hlow : bit f.saf.epot ch.toNat = false) (hdue : t.toNat + 20000 ≤ f.now.toNat) :
    let g := f.testPulseEnd ch
    bit g.saf.epot ch.toNat = true ∧ g.saf.epo = f.saf.epo ∧
      g.saf.fTest = (if pulseFails f.saf ch.toNat then f.saf.fTest ||| (1#8 <<< ch.toNat) else f.saf.fTest) ∧
      (pulseFails f.saf ch.toNat = true → bit f.saf.fTest ch.toNat = false → g.saf.safe = true ∧ g.saf.lastReason = 0x09) := by
  rw [testPulseEnd_eq hp ht hlow hdue]
  set f1 := f.pulseOver ch.toNat
  set f2 : Field := if pulseFails f.saf ch.toNat && !bit f.saf.fTest ch.toNat then f1.safFault 0x09 (ch.setWidth 8) else f1 with hf2
  have h2 : f1.saf.Safer f2.saf ∧
      (pulseFails f.saf ch.toNat = true → bit f.saf.fTest ch.toNat = false → f2.saf.safe = true ∧ f2.saf.lastReason = 0x09) := by
    rw [hf2]
    split
    next =>
      have hst := safFault_standing f1 0x09 (ch.setWidth 8)
      exact ⟨.of_entered hst, fun _ _ => ⟨(Saf.agree Saf.safe hst :), (Saf.agree Saf.lastReason hst :)⟩⟩
    next h => exact ⟨.refl _, fun hf hb => absurd (by simp [hf, hb]) h⟩
  clear_value f2
  obtain ⟨h2, hsafe⟩ := h2
  have h3 := h2.trans (roundEnd_safer f2)
  refine ⟨?_, (h3.agree Saf.epo :), (h3.agree Saf.fTest :), fun hf hb => ?_⟩
  · rw [h3.agree Saf.epot]
    show bit (f.saf.epot ||| (1#8 <<< ch.toNat)) ch.toNat = true
    rw [bit_set]
    simp [show ch.toNat < 8 from ch.isLt]
  · obtain ⟨hs, hr⟩ := hsafe hf hb
    exact ⟨(roundEnd_safer f2).2 hs, (roundEnd_lastReason f2).trans hr⟩

/-- A channel that was at run before its pulse has dipped and returned (R433). -/
def pulsePasses (s : Saf) (ch : Nat) : Bool :=
  !isDemand s ch (bit s.held ch) && bit s.dipped ch && !isDemand s ch (bit s.epo ch)

/-- The channel's mask ends, and a dip that returned clears TEST. -/
def unmasked (f : Field) (ch : Nat) : Field :=
  { f with saf := { f.saf with
    masked := f.saf.masked &&& ~~~(1#8 <<< ch), pulseAt := tabDel f.saf.pulseAt ch,
    fTest := if pulsePasses f.saf ch then f.saf.fTest &&& ~~~(1#8 <<< ch) else f.saf.fTest } }

theorem maskEnd_eq {f : Field} {ch : BitVec 3} {t : Count} (hp : f.pwr.st ≠ .thermalOff)
    (ht : tabLook f.saf.pulseAt ch.toNat = some t) (hhigh : bit f.saf.epot ch.toNat = true) (hdue : t.toNat + 25000 ≤ f.now.toNat) :
    f.maskEnd ch = (if pulsePasses f.saf ch.toNat && bit f.saf.fTest ch.toNat then (f.unmasked ch.toNat).safClear 0x09 (ch.setWidth 8)
      else f.unmasked ch.toNat).pairMoved f.saf (ch.toNat / 2) := by
  unfold maskEnd
  split
  next u hu =>
    obtain rfl := Option.some.inj (ht.symm.trans hu)
    extract_lets s m judged pass f1 f2
    have hb : (f.safOn && bit s.epot ch.toNat && decide (t.toNat + 25000 ≤ f.now.toNat)) = true := by
      rw [show bit s.epot ch.toNat = true from hhigh]
      simp [safOn, hp, hdue]
    rw [if_pos hb]
    rfl
  next hn => rw [ht] at hn; cases hn

/-- The end of a mask: a channel that dipped and returned clears its latch (R433). -/
theorem maskEnd_spec {f : Field} {ch : BitVec 3} {t : Count} (hp : f.pwr.st ≠ .thermalOff)
    (ht : tabLook f.saf.pulseAt ch.toNat = some t) (hhigh : bit f.saf.epot ch.toNat = true) (hdue : t.toNat + 25000 ≤ f.now.toNat) :
    let g := f.maskEnd ch
    bit g.saf.masked ch.toNat = false ∧ tabLook g.saf.pulseAt ch.toNat = none ∧ g.saf.epo = f.saf.epo ∧
      g.saf.fTest = (if pulsePasses f.saf ch.toNat then f.saf.fTest &&& ~~~(1#8 <<< ch.toNat) else f.saf.fTest) := by
  rw [maskEnd_eq hp ht hhigh hdue]
  set f1 := f.unmasked ch.toNat
  set f2 : Field := if pulsePasses f.saf ch.toNat && bit f.saf.fTest ch.toNat then f1.safClear 0x09 (ch.setWidth 8) else f1 with hf2
  have h2 : f1.saf.Safer f2.saf := by
    rw [hf2]
    split
    · exact safClear_safer f1 0x09 _
    · exact .refl _
  clear_value f2
  have h3 := h2.trans (pairMoved_spec f2 f.saf (ch.toNat / 2)).1
  refine ⟨?_, ?_, (h3.agree Saf.epo :), (h3.agree Saf.fTest :)⟩
  · rw [h3.agree Saf.masked]
    show bit (f.saf.masked &&& ~~~(1#8 <<< ch.toNat)) ch.toNat = false
    rw [bit_clear]
    simp
  · rw [h3.agree Saf.pulseAt]
    exact tabLook_tabDel_same _ _

end Field

open Sys2Proof.Machine.Field

/-- Settles O43: each clause is one row on the safety block, whose inputs an entry, a cross fault and a pair's move leave alone. -/
theorem emergencyInputsAct : Obligations.EmergencyInputsAct := by
  unfold Obligations.EmergencyInputsAct
  intro s hp
  refine ⟨fun k side lvl => ⟨fun h => ?_, fun h => ?_⟩, fun k t ht hd hdue => ?_, fun ok hsys => ?_, fun ch t ht hdue => ?_,
    fun ch t ht => ⟨fun hlow hdue => ?_, fun hhigh hdue => ?_⟩⟩
  · exact s.endsField_of_exec (op := fun f => f.epoLevel k side lvl) rfl (epoLevel_same h)
  · refine s.endsField_of_exec (op := fun f => f.epoLevel k side lvl) rfl ?_
    obtain ⟨hepo, hsafe, hdem⟩ := epoLevel_spec hp h
    have hlt := pair_channel_lt k side
    refine ⟨?_, fun j hj => ?_, hsafe, hdem⟩
    · rw [hepo, bit_epoWith _ hlt, if_pos rfl]
    · rw [hepo, bit_epoWith _ hlt, if_neg hj]
  · exact s.endsField_of_exec (op := fun f => f.discrepancyExpiry k) rfl (discrepancyExpiry_spec hp ht hd hdue)
  · refine s.endsField_of_exec (op := fun f => f.epoTestRow ok) rfl ?_
    set f0 : Field := { s.f with mer := { s.f.mer with sysDue := s.f.mer.sysDue &&& ~~~ BitVec.ofNat 8 (2 ^ 5) } } with hf0
    have hrow : s.f.epoTestRow ok = f0.epoTestSchedule ok := by
      unfold epoTestRow takeSys
      rw [if_pos hsys]
    rw [hrow]
    obtain ⟨hmer, hcross, hleft, hpulse, hgood, hbad⟩ := epoTestSchedule_spec (f := f0) hp ok
    refine ⟨?_, hcross, fun ch => ?_, hgood, hbad⟩
    · rw [hmer]
      show bit (s.f.mer.sysDue &&& ~~~(1#8 <<< 5)) 5 = false
      rw [bit_clear]
      simp
    · rw [hleft, hpulse]
      exact roundLaid_channel f0 ch
  · refine s.endsField_of_exec (op := fun f => f.testPulseStart ch) rfl ?_
    have hlt : ch.toNat < 8 := ch.isLt
    rw [testPulseStart_eq hp ht hdue]
    refine ⟨?_, ?_, ?_, tabLook_tabPut_same _ _ _, tabLook_tabDel_same _ _, fun j hj => ⟨?_, ?_⟩, rfl⟩
    · simp [bit_clear]
    · simp [bit_set, hlt]
    · simp [bit, hlt]
    · simp [bit_clear, hj]
    · simp [bit_set, hj]
  · exact s.endsField_of_exec (op := fun f => f.testPulseEnd ch) rfl (testPulseEnd_spec hp ht hlow hdue)
  · exact s.endsField_of_exec (op := fun f => f.maskEnd ch) rfl (maskEnd_spec hp ht hhigh hdue)

end Sys2Proof.Machine
end

section
/-! PROOF. The read-back of the outputs, and REARM (R434 to R437). -/
namespace Sys2Proof.Machine
set_option Elab.async false
namespace Field

theorem outputMismatch_spec {f : Field} {q : OutPin} (hp : f.pwr.st ≠ .thermalOff) (hq : f.saf.outPins.contains q = false) :
    let g := f.outputMismatch q
    g.saf.outPins = f.saf.outPins ++ [q] ∧ g.saf.safe = true ∧ g.saf.lastReason = 0x0B := by
  unfold outputMismatch
  rw [if_neg (by rw [hq]; simp [safOn, hp])]
  have hst := safFault_standing { f with saf := { f.saf with outPins := f.saf.outPins ++ [q] } } 0x0B (pinWhere q)
  exact ⟨(Saf.agree Saf.outPins hst :), (Saf.agree Saf.safe hst :), (Saf.agree Saf.lastReason hst :)⟩

theorem outputMatch_spec {f : Field} {q : OutPin} (hp : f.pwr.st ≠ .thermalOff) (hq : f.saf.outPins.contains q = true) :
    let g := f.outputMatch q
    g.saf.outPins = f.saf.outPins.filter (· ≠ q) ∧ g.saf.safe = f.saf.safe ∧ g.nev = f.nev := by
  unfold outputMatch
  rw [if_pos (by rw [hq]; simp [safOn, hp])]
  have hst := safClear_standing { f with saf := { f.saf with outPins := f.saf.outPins.filter (· ≠ q) } } 0x0B (pinWhere q)
  exact ⟨(Saf.agree Saf.outPins hst :), (Saf.agree Saf.safe hst :), safClear_nev _ _ _⟩

/-! ### REARM -/

/-- STUCK_REARM latches without an entry. -/
theorem stuckLatch_spec (f : Field) :
    f.stuckLatch.saf.standing = ({ f.saf with fStuck := true, pressStuck := true } : Saf).standing ∧ f.stuckLatch.nev = f.nev :=
  ⟨safRecord_standing _ _ _ _, safRecord_nev _ _ _ _⟩

/-- REARM is pressed, at the count of the press. -/
def pressed (f : Field) : Field :=
  { f with saf := { f.saf with rearm := true, rearmSeen := true, tRearm := f.now, pressStuck := false } }

theorem rearmPress_eq {f : Field} (hp : f.pwr.st ≠ .thermalOff) (h : f.saf.rearm = false) :
    f.rearmPress = if !f.saf.rearmSeen && f.now.toNat < 200000 then f.pressed.stuckLatch else f.pressed := by
  unfold rearmPress
  rw [if_neg (by simp [safOn, hp, h])]
  rfl

theorem rearmPress_spec {f : Field} (hp : f.pwr.st ≠ .thermalOff) (h : f.saf.rearm = false) :
    let g := f.rearmPress
    g.saf.rearm = true ∧ g.saf.rearmSeen = true ∧ g.saf.tRearm = f.now ∧ g.saf.safe = f.saf.safe ∧ g.nev = f.nev ∧
      (f.saf.rearmSeen = true ∨ 200000 ≤ f.now.toNat → g.saf.fStuck = f.saf.fStuck ∧ g.saf.pressStuck = false) := by
  dsimp only
  rw [rearmPress_eq hp h]
  split
  next hfirst =>
    obtain ⟨hst, hn⟩ := stuckLatch_spec f.pressed
    refine ⟨(Saf.agree Saf.rearm hst :), (Saf.agree Saf.rearmSeen hst :), (Saf.agree Saf.tRearm hst :), (Saf.agree Saf.safe hst :), hn, fun hseen => ?_⟩
    simp only [Bool.and_eq_true, Bool.not_eq_true', decide_eq_true_eq] at hfirst
    exact absurd hseen (by rw [hfirst.1]; simp; exact hfirst.2)
  next => exact ⟨rfl, rfl, rfl, rfl, rfl, fun _ => ⟨rfl, rfl⟩⟩

/-- REARM is released, at the count of the release. -/
def unpressed (f : Field) : Field := { f with saf := { f.saf with rearm := false, tRearm := f.now } }

/-- The ticks of a press. -/
def pressTicks (f : Field) : Nat := f.now.toNat - f.saf.tRearm.toNat

/-- A press of 50 ms to 3 s is judged by R436. -/
def rearmJudged (f : Field) (d : Nat) : Field :=
  match f.rearmFails with
  | none => f.safExit d
  | some w => ({ f with saf := { f.saf with refused := satAdd f.saf.refused 1 } }).safRecord 0x44 ([w, 0] ++ pressMs d) true

theorem rearmRelease_eq {f : Field} (hp : f.pwr.st ≠ .thermalOff) (h : f.saf.rearm = true) (hs : f.saf.pressStuck = false) :
    f.rearmRelease = if f.pressTicks < 5000000 then { f.unpressed with saf := { f.unpressed.saf with short := satAdd f.unpressed.saf.short 1 } }
      else if 300000000 < f.pressTicks then f.unpressed.stuckLatch else f.unpressed.rearmJudged f.pressTicks := by
  unfold rearmRelease
  rw [if_neg (by simp [safOn, hp, h])]
  extract_lets d _ f1
  rw [if_neg (by simp [hs])]
  rfl

theorem rearmFails_none {f : Field} (hsafe : f.saf.safe = true) (hf : faulted f.saf = false)
    (hd : ∀ k : BitVec 2, pairDemand f.saf k.toNat = false) (ht : f.saf.tReason ≠ f.now) (hl : f.sec.life ≠ 4) : f.rearmFails = none := by
  have hany : (List.range 4).any (fun k => pairDemand f.saf k) = false := by
    simp only [List.any_eq_false, List.mem_range]
    intro k hk
    have := hd (BitVec.ofNat 2 k)
    rw [BitVec.toNat_ofNat, Nat.mod_eq_of_lt hk] at this
    simp [this]
  unfold rearmFails
  extract_lets s
  rw [if_neg (by simp [s, hsafe]), if_neg (by simp [s, hf]), if_neg (by simp only [s]; rw [hany]; simp), if_neg (by simp [s, ht]; exact hl)]

theorem rearmFails_some {f : Field} (h : f.saf.safe = false ∨ faulted f.saf = true ∨ ∃ k : BitVec 2, pairDemand f.saf k.toNat = true) :
    ∃ w, f.rearmFails = some w := by
  unfold rearmFails
  extract_lets s
  split
  · exact ⟨_, rfl⟩
  next h1 =>
    split
    · exact ⟨_, rfl⟩
    next h2 =>
      obtain h | h | ⟨k, hk⟩ := h
      · exact absurd h (by simpa [s] using h1)
      · exact absurd h h2
      · have hany : (List.range 4).any (fun k => pairDemand s k) = true :=
          List.any_eq_true.2 ⟨k.toNat, List.mem_range.2 k.isLt, hk⟩
        rw [if_pos hany]
        exact ⟨_, rfl⟩

theorem rearmRelease160_inner (f : Field) : Inner f f.rearmRelease160 := by
  refine Inner.foldl (fun g x => .ite _ ((Inner.modChan g x _).trans (.enter _ x _ _ _ _)) (.refl g)) _ f

theorem safExit_standing (f : Field) (d : Nat) :
    (f.safExit d).saf.standing = ({ f.saf with safe := false, safeout := bits (u8 f.saf.active 3) 0 4 } : Saf).standing := by
  unfold safExit
  extract_lets _ f1
  rw [(fstate_stands _ _ _ _).2.2.1, safRecord_standing, (rearmRelease160_inner f1).saf]

theorem rearmRelease_judged {f : Field} (hp : f.pwr.st ≠ .thermalOff) (h : f.saf.rearm = true) (hs : f.saf.pressStuck = false)
    (hlo : 5000000 ≤ f.pressTicks) (hhi : f.pressTicks ≤ 300000000) : f.rearmRelease = f.unpressed.rearmJudged f.pressTicks := by
  rw [rearmRelease_eq hp h hs, if_neg (by omega), if_neg (by omega)]

theorem rearmRelease_exit {f : Field} (hp : f.pwr.st ≠ .thermalOff) (h : f.saf.rearm = true) (hs : f.saf.pressStuck = false)
    (hlo : 5000000 ≤ f.pressTicks) (hhi : f.pressTicks ≤ 300000000) (hsafe : f.saf.safe = true) (hf : faulted f.saf = false)
    (hd : ∀ k : BitVec 2, pairDemand f.saf k.toNat = false) (ht : f.saf.tReason ≠ f.now) (hl : f.sec.life ≠ 4) :
    let g := f.rearmRelease
    g.saf.safe = false ∧ g.saf.rearm = false ∧ g.saf.safeout = bits (u8 f.saf.active 3) 0 4 ∧ g.saf.refused = f.saf.refused := by
  dsimp only
  rw [rearmRelease_judged hp h hs hlo hhi, rearmJudged, rearmFails_none (f := f.unpressed) hsafe hf hd ht hl]
  have hst := safExit_standing f.unpressed f.pressTicks
  exact ⟨(Saf.agree Saf.safe hst :), (Saf.agree Saf.rearm hst :), (Saf.agree Saf.safeout hst :), (Saf.agree Saf.refused hst :)⟩

theorem rearmRelease_refused {f : Field} (hp : f.pwr.st ≠ .thermalOff) (h : f.saf.rearm = true) (hs : f.saf.pressStuck = false)
    (hlo : 5000000 ≤ f.pressTicks) (hhi : f.pressTicks ≤ 300000000)
    (hf : f.saf.safe = false ∨ faulted f.saf = true ∨ ∃ k : BitVec 2, pairDemand f.saf k.toNat = true) :
    let g := f.rearmRelease
    g.saf.safe = f.saf.safe ∧ g.saf.rearm = false ∧ g.saf.refused = satAdd f.saf.refused 1 ∧ g.nev = f.nev := by
  dsimp only
  obtain ⟨w, hw⟩ := rearmFails_some (f := f.unpressed) hf
  rw [rearmRelease_judged hp h hs hlo hhi, rearmJudged, hw]
  have hst := safRecord_standing { f.unpressed with saf := { f.unpressed.saf with refused := satAdd f.unpressed.saf.refused 1 } } 0x44
    ([w, 0] ++ pressMs f.pressTicks) true
  exact ⟨(Saf.agree Saf.safe hst :), (Saf.agree Saf.rearm hst :), (Saf.agree Saf.refused hst :), safRecord_nev _ _ _ _⟩

theorem rearmRelease_long {f : Field} (hp : f.pwr.st ≠ .thermalOff) (h : f.saf.rearm = true) (hs : f.saf.pressStuck = false)
    (hd : 300000000 < f.pressTicks) :
    f.rearmRelease.saf.fStuck = true ∧ f.rearmRelease.saf.safe = f.saf.safe ∧ f.rearmRelease.nev = f.nev := by
  rw [rearmRelease_eq hp h hs, if_neg (by omega), if_pos hd]
  obtain ⟨hst, hn⟩ := stuckLatch_spec f.unpressed
  exact ⟨(Saf.agree Saf.fStuck hst :), (Saf.agree Saf.safe hst :), hn⟩

theorem stuckRearm_spec {f : Field} (hp : f.pwr.st ≠ .thermalOff) (h : f.saf.rearm = true) (hs : f.saf.pressStuck = false)
    (ht : f.saf.tRearm.toNat + 300000001 ≤ f.now.toNat) :
    let g := f.stuckRearm
    g.saf.fStuck = true ∧ g.saf.pressStuck = true ∧ g.saf.safe = f.saf.safe ∧ g.nev = f.nev := by
  unfold stuckRearm
  rw [if_pos (by simp [safOn, hp, h, hs, ht])]
  obtain ⟨hst, hn⟩ := stuckLatch_spec f
  exact ⟨(Saf.agree Saf.fStuck hst :), (Saf.agree Saf.pressStuck hst :), (Saf.agree Saf.safe hst :), hn⟩

theorem rearmStuckClear_spec {f : Field} (hp : f.pwr.st ≠ .thermalOff) (h : f.saf.fStuck = true) (hr : f.saf.rearm = false)
    (ht : f.saf.tRearm.toNat + 100000000 ≤ f.now.toNat) :
    let g := f.rearmStuckClear
    g.saf.fStuck = false ∧ g.saf.safe = f.saf.safe ∧ g.nev = f.nev := by
  unfold rearmStuckClear
  rw [if_pos (by simp [safOn, hp, h, hr, ht])]
  have hst := safClear_standing { f with saf := { f.saf with fStuck := false } } 0x13 0
  exact ⟨(Saf.agree Saf.fStuck hst :), (Saf.agree Saf.safe hst :), safClear_nev _ _ _⟩

end Field

open Sys2Proof.Machine.Field

/-- Settles O44: each clause is one branch of the row, and a record leaves of the safety block all but what the core owes it. -/
theorem rearmLeavesSafeState : Obligations.RearmLeavesSafeState := by
  unfold Obligations.RearmLeavesSafeState
  intro s hp
  refine ⟨fun q => ⟨fun hq => ?_, fun hq => ?_⟩, fun h => ?_, fun h hs => ⟨?_, ?_, ?_, ?_⟩, fun h hs ht => ?_, fun h hr ht => ?_⟩
  · exact s.endsField_of_exec (op := fun f => f.outputMismatch q) rfl (outputMismatch_spec hp hq)
  · exact s.endsField_of_exec (op := fun f => f.outputMatch q) rfl (outputMatch_spec hp hq)
  · exact s.endsField_of_exec (op := fun f => f.rearmPress) rfl (rearmPress_spec hp h)
  · intro hlo hhi hsafe hf hd ht hl
    exact s.endsField_of_exec (op := fun f => f.rearmRelease) rfl (rearmRelease_exit hp h hs hlo hhi hsafe hf hd ht hl)
  · intro hlo hhi hf
    exact s.endsField_of_exec (op := fun f => f.rearmRelease) rfl (rearmRelease_refused hp h hs hlo hhi hf)
  · intro hd
    refine s.endsField_of_exec (op := fun f => f.rearmRelease) rfl ?_
    rw [rearmRelease_eq hp h hs, if_pos (show s.f.pressTicks < 5000000 from hd)]
    rfl
  · intro hd
    exact s.endsField_of_exec (op := fun f => f.rearmRelease) rfl (rearmRelease_long hp h hs hd)
  · exact s.endsField_of_exec (op := fun f => f.stuckRearm) rfl (stuckRearm_spec hp h hs ht)
  · exact s.endsField_of_exec (op := fun f => f.rearmStuckClear) rfl (rearmStuckClear_spec hp h hr ht)

end Sys2Proof.Machine
end

section
/-! PROOF. The end of a warm reset: a start that finds the calibration lost begins SENSOR throttle, whatever held before (R412, R464). -/
namespace Sys2Proof.Machine
set_option Elab.async false
namespace Field

/-- A field die at the end of a PIN reset, with no throttle, whose calibration image has no good copy. -/
def lostCalibration : Field :=
  { State.reset.f with
    pwr := { State.reset.f.pwr with st := .reset, warm := some (.pin, 0) }
    nvm := { State.reset.f.nvm with calib := { a := { bytes := [] }, b := { bytes := [] } } } }

theorem lostCalibration_resets : lostCalibration.pwr.st = .reset ∧ lostCalibration.pwr.warm = some (.pin, 0) ∧
    ¬ lostCalibration.now < 0 ∧ lostCalibration.thm.throttle = false := by decide +kernel

/-- The reset ends in TRIM: every site is broken, and SENSOR throttle begins. -/
theorem lostCalibration_trims : lostCalibration.warmResetEnd.pwr.st = .trim := by decide +kernel

end Field

/-- O47 has every reset that no throttle outlasts end in RUN. -/
theorem run_of_fieldResets (h : Obligations.FieldResets) (f : Field) (k : RstKind) (due : Count) (hst : f.pwr.st = .reset)
    (hwarm : f.pwr.warm = some (k, due)) (hdue : ¬ f.now < due) (hthr : f.thm.throttle = false) : f.warmResetEnd.pwr.st = .run := by
  unfold Obligations.FieldResets at h
  obtain ⟨-, -, -, -, -, hend⟩ := h { State.reset with f := f }
  obtain ⟨g, hexec, hg, -⟩ := hend k due hst hwarm hdue
  have hrun : exec .warmResetEnd { State.reset with f := f } = .next { State.reset with f := f.warmResetEnd } := rfl
  rw [hrun] at hexec
  have hf : f.warmResetEnd = g := congrArg State.f (Host.Outcome.next.inj hexec)
  rw [hf, hg]
  exact if_neg (by simp [hthr])

/-- Refutes O47: a warm reset that ends with the calibration image lost begins SENSOR throttle (R412, R464), so the die comes up in TRIM
though no throttle held before. -/
theorem not_fieldResets : ¬ Obligations.FieldResets := by
  intro h
  obtain ⟨hst, hwarm, hdue, hthr⟩ := Field.lostCalibration_resets
  have hrun := run_of_fieldResets h Field.lostCalibration .pin 0 hst hwarm hdue hthr
  rw [Field.lostCalibration_trims] at hrun
  cases hrun

end Sys2Proof.Machine
end

section
/-! PROOF. Firn's availability, its patrol, and the on-chip scrub (R43, R342 to R356). -/
namespace Sys2Proof.Machine
set_option Elab.async false

/-! ### What a place differs by -/

theorem rsDecode_zeros : rsDecode (zeros 36) = .clean := by decide +kernel

theorem zeros_xor (b : Bytes) : xorBytes (zeros b.length) b = b := by
  induction b with
  | nil => rfl
  | cons x b ih =>
    rw [List.length_cons]
    show (0 ^^^ x) :: xorBytes (zeros b.length) b = x :: b
    rw [ih]
    simp

theorem pad_pad (n : Nat) (b : Bytes) : pad n (pad n b) = pad n b := by
  have h := pad_length n b
  rw [pad, h, Nat.sub_self]
  simp [zeros, h]

theorem pad_nil (n : Nat) : pad n [] = zeros n := by simp [pad, zeros]

theorem pad_xor (e : Bytes) : xorBytes (pad 36 []) (pad 36 e) = pad 36 e := by
  have h := zeros_xor (pad 36 e)
  rw [pad_length] at h
  rw [pad_nil, h]

/-- A word that is not read clean is not the zero word. -/
theorem ne_zeros_of_decode {e : Bytes} {o : RsOut} (h : rsDecode e = o) (ho : o ≠ .clean) : e ≠ zeros 36 := by
  rintro rfl
  exact ho (h.symm.trans rsDecode_zeros)

namespace Field

/-! ### Availability (R342 to R344) -/

/-- What held energy counts change once Firn is READY: of intact stores, the meters alone. -/
def MetersOnly (f g : Field) : Prop :=
  g.intact = true ∧ g.firn = f.firn ∧ (∀ x, (g.chan x).nev = (f.chan x).nev) ∧ g.saf = f.saf

theorem modMet_chan_all (f : Field) (x y : BitVec 17) (m : Meter → Meter) : ((f.modMet x m).chan y).nev = (f.chan y).nev := by
  by_cases h : x = y
  · subst h
    rw [modMet, chan_modChan_same]
  · rw [modMet, chan_modChan_other _ _ h]

theorem MetersOnly.modMet {f g : Field} (h : MetersOnly f g) (x : BitVec 17) (m : Meter → Meter) : MetersOnly f (g.modMet x m) := by
  obtain ⟨hi, hf, hn, hs⟩ := h
  exact ⟨hi, hf, fun y => (modMet_chan_all g x y m).trans (hn y), hs⟩

theorem meterReady_meters {f : Field} (h : f.intact = true) : MetersOnly f f.meterReady := by
  refine List.foldlRecOn (motive := MetersOnly f) f.existing _ ⟨h, rfl, fun _ => rfl, rfl⟩ fun g hg e _ => ?_
  extract_lets m g1
  have h1 : MetersOnly f g1 := by
    simp only [g1]
    split
    · exact hg
    · rw [readMeter_intact hg.1, addCounts]
      have hm := hg.modMet e.1 (fun m => { m with
        imp := m.imp + BitVec.ofNat 64 e.2.met.heldImp, exp := m.exp + BitVec.ofNat 64 e.2.met.heldExp,
        runImp := satAdd m.runImp e.2.met.heldImp, runExp := satAdd m.runExp e.2.met.heldExp, tApplied := g.now })
      rw [writeMeter_intact hm.1]
      exact hm.modMet e.1 _
  exact h1.modMet e.1 _

theorem firnReady_spec {f : Field} (hc : f.coreOn = true) (ht : f.firn.st = .train) (hw : f.firn.waiting = []) (hi : f.intact = true) :
    let g := f.firnReady
    g.firn.st = .ready ∧ g.firn.trainFails = 0 ∧ (∀ x, (g.chan x).nev = (f.chan x).nev) ∧ g.saf = f.saf := by
  set f1 : Field := { f with firn := { f.firn with st := .ready, trainFails := 0 } } with hf1
  have heq : f.firnReady = (if f1.firnOn then f1.meterReady else f1).runWaiting := if_pos (by simp [hc, ht])
  have h2 : MetersOnly f1 (if f1.firnOn then f1.meterReady else f1) := by
    split
    · exact meterReady_meters hi
    · exact ⟨hi, rfl, fun _ => rfl, rfl⟩
  generalize (if f1.firnOn then f1.meterReady else f1) = f2 at heq h2
  obtain ⟨-, hf, hn, hs⟩ := h2
  dsimp only
  rw [heq, runWaiting_nil (by rw [hf]; exact hw)]
  exact ⟨congrArg Firn.st hf, congrArg Firn.trainFails hf, hn, hs⟩

theorem fillDone_eq {f : Field} (hr : f.firn.st = .ready) (hh : f.mer.holdover = false) :
    f.fillDone = { f with firn := { f.firn with filled := true } } := by
  unfold fillDone
  split
  next => rfl
  next h =>
    have hf : f.firn.filled = true := by simpa [firnOn, hr, hh] using h
    conv_lhs => rw [show f = { f with firn := { f.firn with filled := f.firn.filled } } from rfl, hf]

theorem answered_of_answeredAs {f : Field} {r : CmdRef} {s : Status} {d : Nat} {h : Word} (ha : f.answeredAs r s d h = true) :
    f.answered r s = true := by
  obtain ⟨q, hq, hr⟩ := List.any_eq_true.1 ha
  refine List.any_eq_true.2 ⟨q, hq, ?_⟩
  revert hr
  cases q.r with
  | cpl c => simp only [Bool.and_eq_true]; exact fun h => h.1.1
  | evt e => exact id

theorem firnDownTimeout_spec {f : Field} {w : FirnWait} (hw : f.firn.waiting = [w]) (ht : w.t.toNat + 3000000 ≤ f.now.toNat) :
    let g := f.firnDownTimeout
    g.answered w.ref .firnDown = true ∧ g.firn.waiting = [] ∧ g.nev = f.nev ∧ g.saf = f.saf := by
  set f1 : Field := { f with firn := { f.firn with waiting := [] } } with hf1
  have hframe := complete_frame f1 w.ref .firnDown 0
  have heq : f.firnDownTimeout = (f1.complete w.ref .firnDown 0).runWaiting := by
    unfold firnDownTimeout
    rw [hw]
    exact if_pos ht
  dsimp only
  rw [heq, runWaiting_nil (by rw [firn_of_records hframe])]
  exact ⟨answered_of_answeredAs (completeH_answeredAs _ _ _ _ _ _), by rw [firn_of_records hframe], (nev_of_records (f := f1) hframe :), (saf_of_work (f := f1) (work_of_records hframe) :)⟩

/-! ### The patrol (R355, R356) -/

theorem damages_frame (pats : List (BitVec 31 × Bytes)) (f : Field) :
    ∃ es, pats.foldl (fun (g : Field) e => if e.1.toNat < g.firnCws then g.damage e.1.toNat e.2 else g) f =
      { f with firn := { f.firn with errs := es } } := by
  induction pats generalizing f with
  | nil => exact ⟨f.firn.errs, rfl⟩
  | cons e l ih =>
    rw [List.foldl_cons]
    split
    · obtain ⟨es, h⟩ := ih (f.damage e.1.toNat e.2)
      exact ⟨es, h⟩
    · exact ih f

/-- The patrol of one block: its codewords are read, and the next block follows. -/
def patrolled (f : Field) : Field :=
  let f1 := f.readCws f.blockCws
  if f1.firnBlocks ≤ f1.firn.block.toNat + 1 then { f1 with firn := { f1.firn with block := 0, passes := f1.firn.passes + 1, passCe := [] } }
  else { f1 with firn := { f1.firn with block := f1.firn.block + 1 } }

/-- The CMP3 fire is taken, with the errors that have appeared. -/
def patrolDue (f : Field) (es : Tab Bytes) : Field :=
  { f with mer := { f.mer with sysDue := f.mer.sysDue &&& ~~~ BitVec.ofNat 8 (2 ^ 3) }, firn := { f.firn with errs := es } }

theorem ploughBlock_eq {f : Field} (hd : bit f.mer.sysDue 3 = true) (hr : f.firn.st = .ready) (hh : f.mer.holdover = false)
    (hf : f.firn.filled = true) (pats : List (BitVec 31 × Bytes)) {es : Tab Bytes}
    (hes : pats.foldl (fun (g : Field) e => if e.1.toNat < g.firnCws then g.damage e.1.toNat e.2 else g) f =
      { f with firn := { f.firn with errs := es } }) : f.ploughBlock pats = (f.patrolDue es).patrolled := by
  unfold ploughBlock
  rw [hes]
  have ht : ({ f with firn := { f.firn with errs := es } } : Field).takeSys 3 = some (f.patrolDue es) := if_pos hd
  extract_lets fd
  rw [ht]
  dsimp only
  rw [if_neg (by simp [firnOn, patrolDue, hr, hh, hf])]
  rfl

theorem patrolled_spec (f : Field) :
    let last := f.firn.capGib.toNat * 262144 ≤ f.firn.block.toNat + 1
    f.patrolled.mer = f.mer ∧ f.patrolled.firn.block = (if last then 0 else f.firn.block + 1) ∧
      f.patrolled.firn.passes = (if last then f.firn.passes + 1 else f.firn.passes) ∧ f.patrolled.saf = f.saf := by
  intro last
  unfold patrolled
  extract_lets f1
  have hi : Inner f f1 := Frame.Keeps.readCws (r := innerFrame) f _
  have hl : firnLasting f1.firn = firnLasting f.firn := Frame.Keeps.readCws (r := firnFrame) f _
  clear_value f1
  have hb : f1.firn.block = f.firn.block := congrArg (·.2.2.1.1) hl
  have hp : f1.firn.passes = f.firn.passes := congrArg (·.2.2.1.2.1) hl
  have hc : f1.firn.capGib = f.firn.capGib := congrArg (·.2.2.1.2.2) hl
  have hbl : f1.firnBlocks = f.firn.capGib.toNat * 262144 := by rw [firnBlocks, hc]
  rw [hbl, hb]
  change _ ∧ _ = (if last then _ else _) ∧ _ = (if last then _ else _) ∧ _
  split
  · exact ⟨hi.mer, rfl, by rw [hp], hi.saf⟩
  · exact ⟨hi.mer, rfl, hp, hi.saf⟩

theorem clear_due3 (b : BitVec 8) : bit (b &&& ~~~ BitVec.ofNat 8 (2 ^ 3)) 3 = false := by
  rw [show BitVec.ofNat 8 (2 ^ 3) = 1#8 <<< 3 from rfl, bit_clear]
  simp

/-! ### One codeword that differs -/

/-- One place differs by a word, in stores that are sound beside it. -/
structure Spoilt (f : Field) (cw : Nat) (e : Bytes) : Prop where
  errs : f.firn.errs = [(cw, e)]
  poisoned : f.firn.poisoned = []
  alien : f.firn.alien = []
  chip : f.nev.errs = []
  devs : f.firn.failedDev = []

theorem Spoilt.sound {f : Field} {cw : Nat} {e : Bytes} (h : Spoilt f cw e) (c : Nat) : f.sound c = !decide (c = cw) := by
  simp only [Field.sound, isPoison, h.poisoned, h.errs, tabLook]
  by_cases hc : cw = c
  · simp [hc]
  · simp [hc, Ne.symm hc]

theorem Spoilt.blockCws {f : Field} {cw : Nat} {e : Bytes} (h : Spoilt f cw e) (hb : cw / 128 = f.firn.block.toNat) : f.blockCws = [cw] := by
  have hf : (fun c => !f.sound c) = fun c => decide (c = cw) := funext fun c => by rw [h.sound]; simp
  have hn : ((List.range 128).map (· + f.firn.block.toNat * 128)).Nodup :=
    List.nodup_range.map fun a b hab => Nat.add_right_cancel hab
  have hm : cw ∈ (List.range 128).map (· + f.firn.block.toNat * 128) :=
    List.mem_map.2 ⟨cw % 128, List.mem_range.2 (Nat.mod_lt _ (by decide)), by omega⟩
  unfold Field.blockCws
  simp only [hf]
  rw [List.filter_eq, List.count_eq_one_of_mem hn hm]
  rfl

theorem Spoilt.differs {f : Field} {cw : Nat} {e : Bytes} (h : Spoilt f cw (pad 36 e)) : f.differs cw = pad 36 e := by
  simp [Field.differs, isPoison, h.poisoned, h.errs, tabGet, tabLook, pad_pad]

/-- A correction counts, and leaves the poison, the errors and the count of the uncorrectable. -/
theorem corrected_firn (f : Field) (cw : Nat) (es : List (Nat × Byte)) :
    let g := f.corrected cw es
    g.firn.ce = satAdd f.firn.ce 1 ∧ g.firn.uncorr = f.firn.uncorr ∧ g.firn.poisoned = f.firn.poisoned ∧ g.firn.errs = f.firn.errs := by
  intro g
  have hg : g = f.corrected cw es := rfl
  clear_value g
  unfold corrected at hg
  generalize devOf es = o at hg
  cases o with
  | none => exact hg ▸ ⟨rfl, rfl, rfl, rfl⟩
  | some d =>
    dsimp only at hg
    rw [hg]
    split
    · rw [firn_of_records (raiseAll_frame _ _ _)]
      exact ⟨rfl, rfl, rfl, rfl⟩
    · exact ⟨rfl, rfl, rfl, rfl⟩

theorem Spoilt.readCws_corrected {f : Field} {cw : Nat} {e : Bytes} {es : List (Nat × Byte)} (h : Spoilt f cw (pad 36 e))
    (hd : rsDecode (pad 36 e) = .corrected es) :
    let g := f.readCws [cw]
    g.firn.ce = satAdd f.firn.ce 1 ∧ g.firn.uncorr = f.firn.uncorr ∧ g.firn.poisoned = [] ∧
      (changed (pad 36 e) es = zeros 36 → g.firn.errs = []) := by
  have hraw : f.readRaw cw = ((f.corrected cw es).writeBack cw (changed (pad 36 e) es), true) := by
    unfold readRaw
    rw [if_neg (by rw [h.sound]; simp), h.differs]
    simp only [h.devs, tabLook, hd] <;> rfl
  have hread : f.readCws [cw] = (f.corrected cw es).writeBack cw (changed (pad 36 e) es) := by
    show (f.readCw cw).1 = _
    unfold readCw
    simp only [hraw] <;> rfl
  obtain ⟨hce, hun, hpo, her⟩ := corrected_firn f cw es
  dsimp only
  rw [hread]
  have hno : (f.corrected cw es).isPoison cw = false := by rw [isPoison, hpo, h.poisoned]; rfl
  unfold writeBack
  rw [if_neg (by rw [hno]; simp)]
  refine ⟨hce, hun, hpo.trans h.poisoned, fun hz => ?_⟩
  show (if changed (pad 36 e) es = zeros 36 then tabDel (f.corrected cw es).firn.errs cw else _) = []
  rw [if_pos hz, her, h.errs]
  simp [tabDel]

/-- A lost codeword's count, address and mark, and the count of the corrected: what its recovery from sound stores leaves. -/
def ueOf (m : Firn) : BitVec 16 × Bool × BitVec 31 × BitVec 32 := (m.uncorr, m.ueValid, m.ueAddr, m.ce)

theorem uncorrectable_firn (f : Field) (cw : Nat) (hp : f.firn.poisoned = []) :
    let g := f.uncorrectable cw
    g.firn.uncorr = satAdd f.firn.uncorr 1 ∧ g.firn.ueValid = true ∧ g.firn.ueAddr = BitVec.ofNat 31 cw ∧ g.firn.ce = f.firn.ce ∧
      g.firn.poisoned = [cw] ∧ g.firn.errs = tabDel f.firn.errs cw ∧ g.nev = f.nev := by
  unfold uncorrectable
  set f1 : Field := ({ f with firn := { f.firn with uncorr := satAdd f.firn.uncorr 1, ueAddr := BitVec.ofNat 31 cw, ueValid := true,
                                                    ueSince := satAdd f.firn.ueSince 1 } } : Field).poison cw with hf1
  have h1 : f1.firn.uncorr = satAdd f.firn.uncorr 1 ∧ f1.firn.ueValid = true ∧ f1.firn.ueAddr = BitVec.ofNat 31 cw ∧
      f1.firn.ce = f.firn.ce ∧ f1.firn.poisoned = [cw] ∧ f1.firn.errs = tabDel f.firn.errs cw ∧ f1.nev = f.nev :=
    ⟨rfl, rfl, rfl, rfl, by rw [hf1]; simp [poison, heal1, hp], rfl, rfl⟩
  clear_value f1
  dsimp only
  unfold tellUe
  extract_lets late
  split
  · rw [firn_of_records (raiseAll_frame _ _ _), raiseAll_nev]
    exact h1
  · exact h1

/-- The other copy of a record's codeword lies elsewhere. -/
theorem recCw_other {cw : Nat} {x : BitVec 17} {k : Nat} {b : Bool} (h : recOf cw = some (x, k, b)) : recCw x k (!b) ≠ cw := by
  unfold recOf at h
  split at h
  next hlt =>
    simp only [Option.some.injEq, Prod.mk.injEq] at h
    obtain ⟨-, -, rfl⟩ := h
    simp only [recCw, Bool.not_false, if_true]
    omega
  next hge =>
    split at h
    next hhi =>
      simp only [Option.some.injEq, Prod.mk.injEq] at h
      obtain ⟨rfl, rfl, rfl⟩ := h
      simp only [Bool.and_eq_true, decide_eq_true_eq] at hhi
      simp only [recCw, Bool.not_true, Bool.false_eq_true, if_false, BitVec.toNat_ofNat]
      omega
    next => cases h

theorem recoverCw_ue {f : Field} {cw : Nat} (hs : ∀ c, c ≠ cw → f.sound c = true) (hc : f.nev.errs = []) :
    ueOf (f.recoverCw cw).firn = ueOf f.firn := by
  unfold recoverCw
  split
  next x k b hrec =>
    have hraw : f.readRaw (recCw x k (!b)) = (f, true) := by
      unfold readRaw
      rw [if_pos (hs _ (recCw_other hrec))]
    rw [hraw]
    rfl
  next =>
    split
    · rw [readChip_clean f _ (by rw [hc]; rfl)]
      rfl
    · rfl

theorem Spoilt.readCws_uncorrectable {f : Field} {cw : Nat} {e : Bytes} (h : Spoilt f cw (pad 36 e))
    (hd : rsDecode (pad 36 e) = .uncorrectable) :
    ueOf (f.readCws [cw]).firn = (satAdd f.firn.uncorr 1, true, BitVec.ofNat 31 cw, f.firn.ce) := by
  have hraw : f.readRaw cw = (f.uncorrectable cw, false) := by
    unfold readRaw
    rw [if_neg (by rw [h.sound]; simp), h.differs]
    simp only [h.devs, tabLook, hd] <;> rfl
  have hread : f.readCws [cw] = (f.uncorrectable cw).recoverCw cw := by
    show (f.readCw cw).1 = _
    unfold readCw
    simp only [hraw] <;> rfl
  obtain ⟨hun, hva, had, hce, hpo, her, hn⟩ := uncorrectable_firn f cw h.poisoned
  rw [hread, recoverCw_ue (fun c hc => ?_) (by rw [hn]; exact h.chip)]
  · rw [ueOf, hun, hva, had, hce]
  · simp [Field.sound, isPoison, hpo, her, h.errs, tabDel, hc]

/-- An error in a sound store spoils one place. -/
theorem spoilt_of_damage {f : Field} (hi : f.intact = true) (hdev : f.firn.failedDev = []) {cw : BitVec 31} {pat : Bytes}
    (hcw : cw.toNat < f.firnCws) (hne : pad 36 pat ≠ zeros 36) :
    ([(cw, pat)] : List (BitVec 31 × Bytes)).foldl (fun (g : Field) e => if e.1.toNat < g.firnCws then g.damage e.1.toNat e.2 else g) f =
        { f with firn := { f.firn with errs := [(cw.toNat, pad 36 pat)] } } ∧
      Spoilt (f.patrolDue [(cw.toNat, pad 36 pat)]) cw.toNat (pad 36 pat) := by
  obtain ⟨hn, he, hp, ha⟩ := intact_errs hi
  refine ⟨?_, ⟨rfl, hp, ha, hn, hdev⟩⟩
  rw [List.foldl_cons, List.foldl_nil, if_pos hcw, damage]
  have hx : xorBytes (pad 36 (tabGet [] f.firn.errs cw.toNat)) (pad 36 pat) = pad 36 pat := by rw [he]; exact pad_xor pat
  rw [hx, if_neg hne, he]
  rfl

/-- The patrol of a block in which one place differs reads that place. -/
theorem patrolled_firn {f : Field} {cw : Nat} {e : Bytes} (h : Spoilt f cw e) (hb : cw / 128 = f.firn.block.toNat) :
    let m := (f.readCws [cw]).firn
    let k := f.patrolled.firn
    k.ce = m.ce ∧ k.uncorr = m.uncorr ∧ k.poisoned = m.poisoned ∧ k.errs = m.errs ∧ k.ueValid = m.ueValid ∧ k.ueAddr = m.ueAddr := by
  unfold patrolled
  rw [h.blockCws hb]
  intro m k
  have hk : k = if (f.readCws [cw]).firnBlocks ≤ m.block.toNat + 1 then { m with block := 0, passes := m.passes + 1, passCe := [] }
      else { m with block := m.block + 1 } := apply_ite Field.firn _ _ _
  rw [hk]
  split <;> exact ⟨rfl, rfl, rfl, rfl, rfl, rfl⟩

/-! ### The on-chip scrub (R43, R350) -/

/-- Névé once its scrub has gone on. -/
def scrubbed (n : Nevs) : Nevs :=
  { n with scrubPos := (n.scrubPos + 1) % 135168,
           scrubFrom := if n.scrubPos + 1 = 135168 then n.scrubFrom + 100000000 else n.scrubFrom }

theorem neveScrub_eq {f f0 : Field} {pats : List (BitVec 18 × Bytes)}
    (h0 : pats.foldl (fun (g : Field) e => g.damageChip e.1.toNat e.2) f = f0) (hc : f0.coreOn = true) :
    f.neveScrub pats = if f0.now < f0.scrubAt then f0
      else (if f0.nev.scrubPos < 131072 then f0.readEntry (BitVec.ofNat 17 f0.nev.scrubPos)
        else f0.readProf (BitVec.ofNat 12 (f0.nev.scrubPos - 131072))).scrubOn := by
  unfold neveScrub
  rw [h0]
  by_cases hd : f0.now < f0.scrubAt
  · rw [if_pos hd, if_pos (by simpa [hc, due] using hd)]
  · rw [if_neg hd, if_neg (by simpa [hc, due] using hd)]

theorem neveScrub_early {f : Field} (hc : f.coreOn = true) (h : f.now < f.scrubAt) : f.neveScrub [] = f :=
  (neveScrub_eq (f := f) (pats := []) (f0 := f) rfl hc).trans (if_pos h)

theorem neveScrub_intact {f : Field} (hc : f.coreOn = true) (h : f.scrubAt ≤ f.now) (hi : f.intact = true) :
    f.neveScrub [] = { f with nev := scrubbed f.nev } := by
  rw [neveScrub_eq (f := f) (pats := []) (f0 := f) rfl hc, if_neg (BitVec.not_lt.2 h), readEntry_intact hi, readProf_intact hi, ite_self]
  rfl

/-- An entry that differs by a word is damaged in place. -/
theorem damageChip_intact {f : Field} (hi : f.intact = true) (k : Nat) {pat : Bytes} (hne : pad 36 pat ≠ zeros 36) :
    f.damageChip k pat = { f with nev := { f.nev with errs := [(k, pad 36 pat)] } } := by
  have hn := (intact_errs hi).1
  unfold damageChip
  have hx : xorBytes (pad 36 (tabGet [] f.nev.errs k)) (pad 36 pat) = pad 36 pat := by rw [hn]; exact pad_xor pat
  rw [hx]
  dsimp only
  rw [if_neg hne, hn]
  rfl

section
variable {f : Field} {pat : Bytes}

/-- The scrub of an entry in which an error has appeared reads that entry. -/
theorem neveScrub_entry (hc : f.coreOn = true) (hdue : f.scrubAt ≤ f.now) (hi : f.intact = true) (hp : f.nev.scrubPos < 131072)
    (hne : pad 36 pat ≠ zeros 36) :
    f.neveScrub [(BitVec.ofNat 18 f.nev.scrubPos, pat)] =
      (({ f with nev := { f.nev with errs := [(f.nev.scrubPos, pad 36 pat)] } } : Field).readEntry (BitVec.ofNat 17 f.nev.scrubPos)).scrubOn := by
  have hk : (BitVec.ofNat 18 f.nev.scrubPos).toNat = f.nev.scrubPos := by rw [BitVec.toNat_ofNat, Nat.mod_eq_of_lt (by omega)]
  have h0 : ([(BitVec.ofNat 18 f.nev.scrubPos, pat)] : List (BitVec 18 × Bytes)).foldl (fun (g : Field) e => g.damageChip e.1.toNat e.2) f =
      { f with nev := { f.nev with errs := [(f.nev.scrubPos, pad 36 pat)] } } := by
    rw [List.foldl_cons, List.foldl_nil, hk]
    exact damageChip_intact hi _ hne
  have hd : ¬ f.now < f.scrubAt := BitVec.not_lt.2 hdue
  rw [neveScrub_eq h0 hc]
  exact (if_neg hd).trans (by rw [if_pos hp])

theorem scrubPos_toNat (hp : f.nev.scrubPos < 131072) : (BitVec.ofNat 17 f.nev.scrubPos).toNat = f.nev.scrubPos := by
  rw [BitVec.toNat_ofNat, Nat.mod_eq_of_lt (by omega)]

theorem neveScrub_corrected (hc : f.coreOn = true) (hdue : f.scrubAt ≤ f.now) (hi : f.intact = true) (hp : f.nev.scrubPos < 131072)
    {es : List (Nat × Byte)} (hd : rsDecode (pad 36 pat) = .corrected es) :
    f.neveScrub [(BitVec.ofNat 18 f.nev.scrubPos, pat)] = { f with nev := { scrubbed f.nev with
      eccCorr := satAdd f.nev.eccCorr 1,
      errs := if changed (pad 36 pat) es = zeros 36 then [] else [(f.nev.scrubPos, changed (pad 36 pat) es)] } } := by
  rw [neveScrub_entry hc hdue hi hp (ne_zeros_of_decode hd (by simp))]
  unfold readEntry readChip
  rw [scrubPos_toNat hp]
  simp only [tabLook, if_true, pad_pad, hd, hp, tabDel, tabPut, lt_irrefl, if_false] <;> rfl

theorem neveScrub_uncorrectable (hc : f.coreOn = true) (hdue : f.scrubAt ≤ f.now) (hi : f.intact = true) (hp : f.nev.scrubPos < 131072)
    (hs : (f.chan (BitVec.ofNat 17 f.nev.scrubPos)).nev.state ≠ .free) (hr : f.nev.recovering.contains (BitVec.ofNat 17 f.nev.scrubPos) = false)
    (hd : rsDecode (pad 36 pat) = .uncorrectable) :
    f.neveScrub [(BitVec.ofNat 18 f.nev.scrubPos, pat)] = { f with nev := { scrubbed f.nev with
      recovering := f.nev.recovering ++ [BitVec.ofNat 17 f.nev.scrubPos], errs := [(f.nev.scrubPos, pad 36 pat)] } } := by
  rw [neveScrub_entry hc hdue hi hp (ne_zeros_of_decode hd (by simp))]
  set f0 : Field := { f with nev := { f.nev with errs := [(f.nev.scrubPos, pad 36 pat)] } } with hf0
  have hread : f0.readChip (BitVec.ofNat 17 f.nev.scrubPos).toNat = (f0, false) := by
    unfold readChip
    rw [scrubPos_toNat hp, hf0]
    simp only [tabLook, if_true, pad_pad, hd] <;> rfl
  unfold readEntry
  rw [hread]
  dsimp only
  rw [if_neg (by simp), if_neg (show ¬ (f0.chan _).nev.state = .free from hs), if_neg (by rw [recovering]; exact ne_true_of_eq_false hr)]
  rfl
end

/-! ### A rebuilt entry (R351) -/

theorem readEither_intact {f : Field} (hi : f.intact = true) (x : BitVec 17) (k : Nat) : f.readEither x k = (f, true) := by
  have hraw : f.readRaw (recCw x k false) = (f, true) := by
    unfold readRaw
    rw [if_pos (sound_of_intact hi _)]
  unfold readEither
  rw [hraw]
  rfl

/-- The field die once a lost entry has left the list of those to recover, with the free value its record does not give. -/
def recovered (f : Field) (x : BitVec 17) : Field :=
  { f with nev := { f.nev with recovering := f.nev.recovering.filter (· ≠ x), eccRecov := satAdd f.nev.eccRecov 1 }, freeN := f.freeN + 1 }

theorem neveRecoveryDone_eq {f : Field} {x : BitVec 17} (hx : f.nev.recovering.contains x = true) (hr : f.firn.st = .ready)
    (hh : f.mer.holdover = false) (hi : f.intact = true) :
    f.neveRecoveryDone x = (f.recovered x).modChan x (fun c =>
      { c with nev := rebuilt c.nev c.fr ((f.recovered x).profOf x) (Config.freeValue f.freeN), aux := { c.aux with firstArrival := true } }) := by
  have hheal : f.healChip x.toNat = f := by
    unfold healChip
    rw [(intact_errs hi).1]
    conv_rhs => rw [show f = { f with nev := { f.nev with errs := f.nev.errs } } from rfl, (intact_errs hi).1]
    rfl
  unfold neveRecoveryDone
  rw [if_neg (by rw [recovering, hx, firnOn, hr, hh]; simp), readEither_intact hi]
  dsimp only
  rw [readEither_intact hi]
  dsimp only
  rw [hheal]
  rfl

end Field

open Sys2Proof.Machine.Field

/-- Settles O48: of intact stores a read changes nothing, so each row is its own few writes; one place that differs is read once. -/
theorem firnKeepsItsContent : Obligations.FirnKeepsItsContent := by
  unfold Obligations.FirnKeepsItsContent
  intro s
  refine ⟨fun hc ht hw hi => ?_, fun hr hh => ?_, fun wcrc first hen => ⟨fun hr => ⟨fun hn => ?_, fun hn => ?_⟩, fun ht => ?_⟩,
    fun wcrc first hen => ?_, fun w hw ht => ?_, fun hd hr hh hf => ⟨fun pats => ?_, fun cw pat hi hdev hcw hb => ⟨fun es hdec => ?_, fun hdec => ?_⟩⟩,
    fun hc => ⟨fun hlt => ?_, fun hle hi => ?_, fun pat hle hi hp hst hrec => ⟨fun es hdec => ?_, fun hdec => ?_⟩⟩,
    fun x hx hr hh hi => ?_⟩
  · exact s.endsField_of_exec (op := fun f => f.firnReady) rfl (firnReady_spec hc ht hw hi)
  · exact s.endsField_of_exec (op := fun f => f.fillDone) rfl (fillDone_eq hr hh)
  · refine s.endsField_of_exec (op := fun f => f.caParityAlert wcrc first) rfl ?_
    rw [caParityAlert, if_neg (by rw [hen]; simp), if_pos hr, if_neg (by omega)]
  · refine s.endsField_of_exec (op := fun f => f.caParityAlert wcrc first) rfl ?_
    rw [caParityAlert, if_neg (by rw [hen]; simp), if_pos hr, if_pos hn]
    exact ⟨rfl, rfl, rfl, rfl⟩
  · refine s.endsField_of_exec (op := fun f => f.caParityAlert wcrc first) rfl ?_
    rw [caParityAlert, if_neg (by rw [hen]; simp), if_neg (by rw [ht]; simp), if_pos ht]
    refine ⟨?_, rfl⟩
    show (if 1 ≤ s.f.firn.trainFails then FirnState.failed else .train) = _
    by_cases h : s.f.firn.trainFails = 0
    · rw [if_pos h, if_neg (by omega)]
    · rw [if_neg h, if_pos (by omega)]
  · refine s.endsField_of_exec (op := fun f => f.caParityAlert wcrc first) rfl ?_
    rw [caParityAlert, if_pos (by rw [hen]; simp)]
  · exact s.endsField_of_exec (op := fun f => f.firnDownTimeout) rfl (firnDownTimeout_spec hw ht)
  · refine s.endsField_of_exec (op := fun f => f.ploughBlock pats) rfl ?_
    obtain ⟨es, hes⟩ := damages_frame pats s.f
    rw [ploughBlock_eq hd hr hh hf pats hes]
    obtain ⟨hm, hbl, hpa, hsa⟩ := patrolled_spec (s.f.patrolDue es)
    exact ⟨by rw [hm]; exact clear_due3 _, hbl, hpa, hsa⟩
  · refine s.endsField_of_exec (op := fun f => f.ploughBlock [(cw, pat)]) rfl ?_
    obtain ⟨hes, hsp⟩ := spoilt_of_damage hi hdev hcw (ne_zeros_of_decode hdec (by simp))
    rw [ploughBlock_eq hd hr hh hf _ hes]
    obtain ⟨h1, h2, h3, h4, -, -⟩ := patrolled_firn hsp hb
    obtain ⟨hce, hun, hpo, her⟩ := hsp.readCws_corrected hdec
    exact ⟨h1.trans hce, h2.trans hun, h3.trans hpo, fun hz => h4.trans (her hz)⟩
  · refine s.endsField_of_exec (op := fun f => f.ploughBlock [(cw, pat)]) rfl ?_
    obtain ⟨hes, hsp⟩ := spoilt_of_damage hi hdev hcw (ne_zeros_of_decode hdec (by simp))
    rw [ploughBlock_eq hd hr hh hf _ hes]
    obtain ⟨h1, h2, -, -, h5, h6⟩ := patrolled_firn hsp hb
    have hue := hsp.readCws_uncorrectable hdec
    refine ⟨h2.trans (congrArg (·.1) hue), h5.trans (congrArg (·.2.1) hue), h6.trans ((congrArg (·.2.2.1) hue).trans ?_),
      h1.trans (congrArg (·.2.2.2) hue)⟩
    simp
  · exact s.endsField_of_exec (op := fun f => f.neveScrub []) rfl (neveScrub_early hc hlt)
  · exact s.endsField_of_exec (op := fun f => f.neveScrub []) rfl (neveScrub_intact hc hle hi)
  · refine s.endsField_of_exec (op := fun f => f.neveScrub [(BitVec.ofNat 18 s.f.nev.scrubPos, pat)]) rfl ?_
    rw [neveScrub_corrected hc hle hi hp hdec]
    exact ⟨rfl, fun hz => if_pos hz⟩
  · refine s.endsField_of_exec (op := fun f => f.neveScrub [(BitVec.ofNat 18 s.f.nev.scrubPos, pat)]) rfl ?_
    rw [neveScrub_uncorrectable hc hle hi hp hst hrec hdec]
    rfl
  · refine s.endsField_of_exec (op := fun f => f.neveRecoveryDone x) rfl ?_
    rw [neveRecoveryDone_eq hx hr hh hi]
    have hch : ((s.f.recovered x).modChan x (fun c =>
        { c with nev := rebuilt c.nev c.fr ((s.f.recovered x).profOf x) (Config.freeValue s.f.freeN),
                 aux := { c.aux with firstArrival := true } })).chan x = _ := chan_modChan_same _ _ _
    refine ⟨?_, rfl, ?_, ?_, ?_, ?_, ?_, ?_, fun y hy => chan_modChan_other _ _ (Ne.symm hy)⟩
    · show (s.f.nev.recovering.filter (· ≠ x)).contains x = false
      simp
    all_goals rw [hch] <;> rfl

end Sys2Proof.Machine
end

section
/-! PROOF. The observing log and the images (R462 to R472). -/
namespace Sys2Proof.Machine
set_option Elab.async false

namespace HDie

/-- h with the half of Transit and the output of g. -/
def withLink (h g : HDie) : HDie := { h with trn := g.trn, out := g.out }

theorem link_trans {f g k : HDie} (hg : g = f.withLink g) (hk : k = g.withLink k) : k = f.withLink k := by
  rw [hk, hg]; rfl

theorem sendCtl_link (h : HDie) (m : Msg) : h.sendCtl m = h.withLink (h.sendCtl m) := by
  unfold sendCtl
  dsimp only
  split <;> rfl

theorem tellSetup_link (h : HDie) (n : Nat) : h.tellSetup n = h.withLink (h.tellSetup n) := by
  unfold tellSetup
  split
  · exact sendCtl_link h _
  · rfl

theorem link_foldl {α : Type} {op : HDie → α → HDie} (hop : ∀ g a, op g a = g.withLink (op g a)) (h : HDie) (l : List α) :
    l.foldl op h = h.withLink (l.foldl op h) := by
  induction l generalizing h with
  | nil => rfl
  | cons a l ih => exact link_trans (hop h a) (ih _)

/-- A set-up takes effect: what changed is told. -/
theorem newSetup_link (h : HDie) (l : List Word) : h.newSetup l = ({ h with setup := l } : HDie).withLink (h.newSetup l) :=
  link_foldl (fun g n => by
    split
    · rfl
    · exact tellSetup_link g n) _ _

end HDie

namespace Field

/-! ### The log -/

/-- Wear management starts an erase, and nothing else. -/
theorem wearStart_frame (f : Field) : ∃ e t, f.wearStart = f.modLog (fun l => { l with erasing := e, tErase := t }) := by
  unfold wearStart
  extract_lets l paced
  split
  · exact ⟨_, _, rfl⟩
  · exact ⟨f.nvm.log.erasing, f.nvm.log.tErase, rfl⟩

/-- An entry without continuations fills the next place alone. -/
theorem write_single (l : Log) (boot : BitVec 32) {r : LogRec} (hr : r.conts = []) :
    l.write boot r = l.put (recPlace l.seq r.type (logEmerg r.type) 0 boot r.t r.body) := by
  rw [Log.write, hr]
  rfl

/-- From f to g the log holds r at its next place, and nothing else but the log changes. -/
def Written (f : Field) (r : LogRec) (g : Field) : Prop :=
  tabLook g.nvm.log.place f.nvm.log.next =
    some (recPlace f.nvm.log.seq r.type (logEmerg r.type) 0 f.nvm.boot r.t r.body) ∧
  g.nvm.log.seq = seqNext f.nvm.log.seq ∧ (∀ p, p ≠ f.nvm.log.next → tabLook g.nvm.log.place p = tabLook f.nvm.log.place p) ∧
  g = { f with nvm := { f.nvm with log := g.nvm.log } }

/-- The write of an entry without continuations, with the records that then wait. -/
theorem write_spec (f : Field) {r : LogRec} (hr : r.conts = []) (em od : List LogRec) :
    let g := ({ f with nvm := { f.nvm with log := ({ f.nvm.log with emerg := em, ord := od } : Log).write f.nvm.boot r } } : Field).wearStart
    Written f r g ∧ g.nvm.log.emerg = em ∧ g.nvm.log.ord = od := by
  rw [write_single _ _ hr]
  intro g
  set k : Log := ({ f.nvm.log with emerg := em, ord := od } : Log).put
    (recPlace f.nvm.log.seq r.type (logEmerg r.type) 0 f.nvm.boot r.t r.body) with hk
  obtain ⟨e, t, h⟩ := wearStart_frame ({ f with nvm := { f.nvm with log := k } } : Field)
  have hg : g = _ := h
  rw [hg, hk]
  exact ⟨⟨tabLook_tabPut_same _ _ _, rfl, fun p hp => tabLook_tabPut_other _ _ (Ne.symm hp), rfl⟩, rfl, rfl⟩

section
variable {f : Field} {r : LogRec} {rs : List LogRec}

theorem logWrite_emergency (hn : f.pwr.st ≠ .thermalOff) (hl : f.nvm.log.ready = true) (hr : r.conts = []) (he : f.nvm.log.emerg = r :: rs)
    (hroom : 1 ≤ f.nvm.log.room) :
    let g := f.logWrite false
    Written f r g ∧ g.nvm.log.emerg = rs ∧ g.nvm.log.ord = f.nvm.log.ord := by
  have h : f.logWrite false =
      ({ f with nvm := { f.nvm with log := { f.nvm.log with emerg := rs, ord := f.nvm.log.ord }.write f.nvm.boot r } } : Field).wearStart := by
    unfold logWrite
    extract_lets l
    rw [if_neg (by simp [nvmOn, hn, l, hl]), if_neg (by simp)]
    simp only [l, he]
    exact if_pos (by rw [hr]; exact hroom)
  dsimp only
  rw [h]
  exact write_spec f hr rs f.nvm.log.ord

theorem logWrite_ordinary (hn : f.pwr.st ≠ .thermalOff) (hl : f.nvm.log.ready = true) (hr : r.conts = []) (he : f.nvm.log.emerg = [])
    (ho : f.nvm.log.ord = r :: rs) (her : f.nvm.log.erasing = none) (hroom : 65 ≤ f.nvm.log.room) :
    let g := f.logWrite false
    Written f r g ∧ g.nvm.log.emerg = [] ∧ g.nvm.log.ord = rs := by
  have h : f.logWrite false =
      ({ f with nvm := { f.nvm with log := { f.nvm.log with emerg := f.nvm.log.emerg, ord := rs }.write f.nvm.boot r } } : Field).wearStart := by
    unfold logWrite
    extract_lets l
    rw [if_neg (by simp [nvmOn, hn, l, hl]), if_neg (by simp)]
    simp only [l, he, ho]
    exact if_pos (by rw [hr, her]; simpa using hroom)
  have hs := write_spec f hr f.nvm.log.emerg rs
  dsimp only
  rw [h]
  exact ⟨hs.1, hs.2.1.trans he, hs.2.2⟩

theorem logWrite_waits (hn : f.pwr.st ≠ .thermalOff) (hl : f.nvm.log.ready = true) (hr : r.conts = []) (he : f.nvm.log.emerg = [])
    (ho : f.nvm.log.ord = r :: rs) (hroom : f.nvm.log.room < 65) :
    let g := f.logWrite false
    g.nvm.log.place = f.nvm.log.place ∧ g.nvm.log.ord = f.nvm.log.ord ∧ g.nvm.log.seq = f.nvm.log.seq := by
  have h : f.logWrite false = f.wearStart := by
    unfold logWrite
    extract_lets l
    rw [if_neg (by simp [nvmOn, hn, l, hl]), if_neg (by simp)]
    simp only [l, he, ho]
    exact if_neg (by rw [hr]; simp; omega)
  obtain ⟨e, t, hw⟩ := wearStart_frame f
  dsimp only
  rw [h, hw]
  exact ⟨rfl, rfl, rfl⟩
end

theorem sectorEraseDone_good {f : Field} {n : Nat} (hn : f.pwr.st ≠ .thermalOff) (he : f.nvm.log.erasing = some n) :
    let g := f.sectorEraseDone false
    (∀ p, p / 127 = n → tabLook g.nvm.log.place p = none) ∧ (∀ p, p / 127 ≠ n → tabLook g.nvm.log.place p = tabLook f.nvm.log.place p) ∧
      tabGet 0 g.nvm.log.erases n = tabGet 0 f.nvm.log.erases n + 1 ∧ g.nvm.log.badHdr.contains n = false ∧ g.nvm.log.seq = f.nvm.log.seq := by
  have h : f.sectorEraseDone false = ((f.modLog (fun l => { l with erasing := none })).eraseLogSector n).wearStart := by
    unfold sectorEraseDone
    rw [he]
    exact if_neg (by simp [nvmOn, hn])
  obtain ⟨e, t, hw⟩ := wearStart_frame ((f.modLog (fun l => { l with erasing := none })).eraseLogSector n)
  dsimp only
  rw [h, hw]
  refine ⟨fun p hp => tabLook_filter_out (p := fun i => decide (i / 127 ≠ n)) (by simpa using hp) _,
    fun p hp => tabLook_filter_in (p := fun i => decide (i / 127 ≠ n)) (by simpa using hp) _, (tabGet_tabSet_same 0 f.nvm.log.erases n (tabGet 0 f.nvm.log.erases n + 1) :), ?_, rfl⟩
  show (f.nvm.log.badHdr.filter (· ≠ n)).contains n = false
  simp

/-- A record that waits or is dropped leaves which sectors are retired. -/
theorem logAt_retired (f : Field) (ty : Byte) (t : Count) (b : Bytes) (cs : List Bytes) :
    let r (g : Field) := (g.nvm.log.retired, g.nvm.log.erasing, g.nvm.retired)
    r (f.logAt ty t b cs) = r f := by
  intro r
  unfold logAt
  dsimp only
  split
  · rfl
  · split <;> rfl

theorem sectorEraseDone_bad {f : Field} {n : Nat} (hn : f.pwr.st ≠ .thermalOff) (he : f.nvm.log.erasing = some n) :
    let g := f.sectorEraseDone true
    g.nvm.log.retired = n :: f.nvm.log.retired ∧ g.nvm.log.erasing = none ∧ g.nvm.retired = satAdd f.nvm.retired 1 := by
  unfold sectorEraseDone
  rw [he]
  dsimp only
  rw [if_neg (by simp [nvmOn, hn])]
  have h := logAt_retired ({ f with nvm := { f.nvm with
    retired := satAdd f.nvm.retired 1,
    log := { f.nvm.log with erasing := none, retired := n :: f.nvm.log.retired, place := clearSector f.nvm.log.place n } } } : Field)
    0x08 f.now [BitVec.ofNat 8 (64 + n)] []
  exact ⟨congrArg (·.1) h, congrArg (·.2.1) h, congrArg (·.2.2) h⟩

/-! ### The scan (R471) and the tokens (R468) -/

theorem eraseAll_nvm (l : List Nat) (f : Field) :
    l.foldl (fun (g : Field) s => g.eraseLogSector s) f = { f with nvm := (l.foldl (fun (g : Field) s => g.eraseLogSector s) f).nvm } := by
  induction l generalizing f with
  | nil => rfl
  | cons s l ih => exact (ih _).trans rfl

theorem eraseAll_ready (l : List Nat) (f : Field) :
    (l.foldl (fun (g : Field) s => g.eraseLogSector s) f).nvm.log.ready = f.nvm.log.ready := by
  induction l generalizing f with
  | nil => rfl
  | cons s l ih => exact (ih _).trans rfl

theorem write_ready (l : Log) (boot : BitVec 32) (r : LogRec) : (l.write boot r).ready = l.ready :=
  List.foldlRecOn (motive := fun k : Log => k.ready = l.ready) r.conts _ rfl fun _ h _ _ => h

theorem scanned_ready (rs : List LogRec) (boot : BitVec 32) (l : Log) : (l.scanned boot rs).ready = l.ready := by
  induction rs generalizing l with
  | nil => rfl
  | cons r rs ih =>
    unfold Log.scanned
    dsimp only
    split
    · rw [ih, write_ready]
    · rfl

theorem logScan_nvm {f : Field} (hn : f.pwr.st ≠ .thermalOff) (hr : f.pwr.st ≠ .reset) (hl : f.nvm.log.ready = false) :
    (f.logScan).nvm.log.ready = true ∧ f.logScan = { f with nvm := f.logScan.nvm } := by
  unfold logScan
  rw [if_neg (by simp [hn, hr, hl])]
  extract_lets whole torn bad f1 f2 _ f3 boot repair
  have h2 : f2 = { f with nvm := f2.nvm } := eraseAll_nvm bad f1
  have h2r : f2.nvm.log.ready = true := eraseAll_ready bad f1
  have h3r : f3.nvm.log.ready = true := h2r
  have h3 : f3 = { f with nvm := f3.nvm } := by
    simp only [f3]
    rw [h2]
  clear_value f3
  refine ⟨(scanned_ready _ _ _).trans h3r, ?_⟩
  rw [modLog]
  conv_lhs => rw [h3]

/-- Room is a matter of the places, the bad headers, the erase and the retired sectors. -/
theorem erasedRun_congr {l k : Log} (hp : l.place = k.place) (hb : l.badHdr = k.badHdr) (he : l.erasing = k.erasing) (hr : l.retired = k.retired)
    (n p : Nat) : l.erasedRun n p = k.erasedRun n p := by
  have hafter : ∀ m q, placeAfter l m q = placeAfter k m q := by
    intro m
    induction m with
    | zero => exact fun _ => rfl
    | succ m ih =>
      intro q
      simp only [placeAfter, hr, ih]
  induction n generalizing p with
  | zero => rfl
  | succ n ih =>
    simp only [Log.erasedRun, Log.erased, Log.after, hp, hb, he, hafter, ih] <;> rfl

theorem logScan_empty {f : Field} (hn : f.pwr.st ≠ .thermalOff) (hr : f.pwr.st ≠ .reset) (hl : f.nvm.log.ready = false)
    (hp : f.nvm.log.place = []) (hb : f.nvm.log.badHdr = []) (he : f.nvm.log.erasing = none) (hroom : 65 ≤ f.nvm.log.room) :
    let g := f.logScan
    g.nvm.log.tokens = f.nvm.log.tokens - 1 ∧ g.nvm.torn = satAdd f.nvm.torn 0 ∧ g.nvm.log.seq = seqNext f.nvm.log.seq ∧
      g.nvm.log.place = [(f.nvm.log.next, recPlace f.nvm.log.seq 0x01 false 0 f.nvm.boot f.now [f.pwr.rstLast.setWidth 8])] := by
  have hroom' : 65 ≤ ({ f.nvm.log with place := [], ready := true } : Log).room :=
    le_of_le_of_eq hroom (erasedRun_congr (l := f.nvm.log) (k := { f.nvm.log with place := [], ready := true }) hp rfl rfl rfl _ _)
  unfold logScan
  rw [if_neg (by simp [hn, hr, hl]), hb]
  extract_lets whole torn bad f1 f2 _ f3 boot repair g
  have htorn : torn = [] := by simp only [torn, hp, List.filter_nil]
  have hf3 : f3.nvm = { f.nvm with torn := satAdd f.nvm.torn 0, log := { f.nvm.log with place := [], ready := true } } := by
    show ({ f1.nvm with torn := satAdd f1.nvm.torn torn.length } : FNvm) = _
    rw [htorn]
    simp only [f1, modLog, hp, List.map_nil, List.length_nil]
  have hg : g.nvm = { f3.nvm with log := { f3.nvm.log with tokens := f3.nvm.log.tokens - 1 }.write f3.nvm.boot boot } := by
    simp only [g, modLog, htorn, bad, decide_true, Bool.and_self, if_true, Log.scanned]
    rw [if_pos (by rw [hf3, he]; simpa using hroom')]
  rw [hg, hf3]
  exact ⟨rfl, rfl, rfl, rfl⟩

theorem tokenRefill_spec {f : Field} (hn : f.pwr.st ≠ .thermalOff) (ht : ¬ f.now < f.nvm.log.tToken) :
    let g := f.tokenRefill
    let l := f.nvm.log
    g.nvm.log.tokens = min (l.tokens + 1) 256 ∧ g.nvm.log.tToken = l.tToken + 50000000 ∧ g.nvm.log.lostN = 0 ∧
      (l.lostN = 0 → g.nvm.log.ord = l.ord) ∧
      (l.lostN ≠ 0 → ∃ r, g.nvm.log.ord = l.ord ++ [r] ∧ r.type = 0x07 ∧ r.t = f.now ∧ r.body = toLe l.lostN 4 ++ [l.lostType]) := by
  intro g l
  have heq : g = (if l.lostN = 0 then f.modLog (fun k => { k with tokens := min (l.tokens + 1) 256, tToken := l.tToken + 50000000 })
      else (f.modLog (fun k => { k with tokens := min (l.tokens + 1) 256, tToken := l.tToken + 50000000 })).modLog (fun k => { k with
        lostN := 0, ord := k.ord ++ [{ type := 0x07, t := f.now, body := toLe l.lostN 4 ++ [l.lostType], conts := [] }] })).wearStart :=
    if_neg (by simp [nvmOn, hn, ht])
  rw [heq]
  split
  next h0 =>
    obtain ⟨e, t, hw⟩ := wearStart_frame (f.modLog (fun k => { k with tokens := min (l.tokens + 1) 256, tToken := l.tToken + 50000000 }))
    rw [hw]
    exact ⟨rfl, rfl, h0, fun _ => rfl, fun h => absurd h0 h⟩
  next h0 =>
    obtain ⟨e, t, hw⟩ := wearStart_frame ((f.modLog (fun k => { k with tokens := min (l.tokens + 1) 256, tToken := l.tToken + 50000000 })).modLog
      (fun k => { k with lostN := 0, ord := k.ord ++ [{ type := 0x07, t := f.now, body := toLe l.lostN 4 ++ [l.lostType], conts := [] }] }))
    rw [hw]
    exact ⟨rfl, rfl, rfl, fun h => absurd h h0, fun _ => ⟨_, rfl, rfl, rfl, rfl⟩⟩

/-! ### Images (R462) -/

/-- The images, their updates and what is lost. -/
def images (f : Field) : Img × Img × Img × Img × BitVec 4 × List ImgUpd :=
  (f.nvm.calib, f.nvm.lock, f.nvm.safety, f.nvm.cregs, f.nvm.lost, f.nvm.upd)

theorem img_of_images {f g : Field} (h : g.images = f.images) (item : Nat) : g.img item = f.img item := by
  have h1 : g.nvm.calib = f.nvm.calib := congrArg (·.1) h
  have h2 : g.nvm.lock = f.nvm.lock := congrArg (·.2.1) h
  have h3 : g.nvm.safety = f.nvm.safety := congrArg (·.2.2.1) h
  have h4 : g.nvm.cregs = f.nvm.cregs := congrArg (·.2.2.2.1) h
  simp only [img, h1, h2, h3, h4]

theorem logAt_images (f : Field) (ty : Byte) (t : Count) (b : Bytes) (cs : List Bytes) : (f.logAt ty t b cs).images = f.images := by
  unfold logAt
  extract_lets r
  split
  · rfl
  · split <;> rfl

theorem safRecord_images (f : Field) (ty : Byte) (b : Bytes) (l : Bool) : (f.safRecord ty b l).images = f.images := by
  unfold safRecord
  extract_lets f1
  have h1 : f1.images = f.images := by
    simp only [f1]
    split
    · exact logAt_images _ _ _ _ _
    · rfl
  clear_value f1
  split
  · rw [images, raiseAll_frame f1 ty b]; exact h1
  · exact h1

/-- The block b, confirmed, with the CRC c. -/
def blockTaken (f : Field) (b : Bytes) (c : Word) : Field :=
  { f with saf := { f.saf with active := b, activeCrc := c, confirmed := true, commit := none, last := 1, offset := 0, fParam := false } }

theorem blockTaken_recorded (f : Field) (b : Bytes) (c : Word) (par : Bool) :
    let g := (if par then (f.blockTaken b c).safClear 0x0C 0 else f.blockTaken b c).fastPace.safRecord 0x45 (le 4 c) true
    g.images = f.images ∧ g.saf.active = b ∧ g.saf.confirmed = true ∧ g.saf.last = 1 := by
  have h2 : ∀ f2 : Field, f2 = (if par then (f.blockTaken b c).safClear 0x0C 0 else f.blockTaken b c) →
      f2.images = f.images ∧ f2.saf.standing = (f.blockTaken b c).saf.standing := by
    rintro f2 rfl
    split
    · exact ⟨safRecord_images _ _ _ _, safClear_standing _ _ _⟩
    · exact ⟨rfl, rfl⟩
  generalize (if par then (f.blockTaken b c).safClear 0x0C 0 else f.blockTaken b c) = f2 at h2
  obtain ⟨hi, hs⟩ := h2 f2 rfl
  have hst := safRecord_standing f2.fastPace 0x45 (le 4 c) true
  refine ⟨(safRecord_images f2.fastPace _ _ _).trans hi, ?_, ?_, ?_⟩
  · exact (Saf.agree Saf.active hst :).trans (Saf.agree Saf.active hs :)
  · exact (Saf.agree Saf.confirmed hst :).trans (Saf.agree Saf.confirmed hs :)
  · exact (Saf.agree Saf.last hst :).trans (Saf.agree Saf.last hs :)

theorem safCommitted_spec (f : Field) (b : Bytes) :
    let g := f.safCommitted b
    g.images = f.images ∧ g.saf.active = b ∧ g.saf.confirmed = true ∧ g.saf.last = 1 :=
  blockTaken_recorded f b (crc32c b) f.saf.fParam

/-- The field die once an update's image is in both copies. -/
def imaged (f : Field) (item : Nat) (u : ImgUpd) (rest : List ImgUpd) : Field :=
  let f0 := { f with nvm := { f.nvm with upd := rest } }
  let f2 := ((f0.setImg item ((f0.img item).update item u.payload)).addErase (2 * item)).addErase (2 * item + 1)
  { f2 with nvm := { f2.nvm with lost := f2.nvm.lost &&& ~~~((1 : BitVec 4) <<< item) } }

theorem imageUpdate_eq {f : Field} {item : Nat} {u : ImgUpd} {rest : List ImgUpd} (hn : f.pwr.st ≠ .thermalOff)
    (hu : takeUpd item f.nvm.upd = some (u, rest)) : f.imageUpdate item false = (f.imaged item u rest).imageActs item u.payload := by
  unfold imageUpdate
  rw [if_neg (by simp [nvmOn, hn]), hu]
  rfl

theorem imaged_spec (f : Field) {item : Nat} (hi : item < 4) (u : ImgUpd) (rest : List ImgUpd) :
    let g := f.imaged item u rest
    g.img item = (f.img item).update item u.payload ∧ g.nvm.upd = rest ∧ bit g.nvm.lost item = false ∧ g.saf = f.saf := by
  refine ⟨?_, rfl, ?_, rfl⟩
  · interval_cases item <;> rfl
  · show bit (f.nvm.lost &&& ~~~((1 : BitVec 4) <<< item)) item = false
    exact (bit_clear f.nvm.lost item item).trans (by simp)

theorem imageActs_images (f : Field) (item : Nat) (b : Bytes) : (f.imageActs item b).images = f.images := by
  unfold imageActs
  split
  · rfl
  · split
    · exact (safCommitted_spec f b).1
    · rfl

theorem imageUpdate_field {f : Field} {item : Nat} (hi : item < 4) {u : ImgUpd} {rest : List ImgUpd} (hn : f.pwr.st ≠ .thermalOff)
    (hu : takeUpd item f.nvm.upd = some (u, rest)) :
    let g := f.imageUpdate item false
    g.img item = (f.img item).update item u.payload ∧ g.nvm.upd = rest ∧ bit g.nvm.lost item = false ∧
      (item = 1 → g.sec.bl = bits (u8 u.payload 0) 0 4) ∧
      (item = 2 → f.saf.commit = some u.payload → g.saf.active = u.payload ∧ g.saf.confirmed = true ∧ g.saf.last = 1) := by
  dsimp only
  rw [imageUpdate_eq hn hu]
  obtain ⟨h1, h2, h3, h4⟩ := imaged_spec f hi u rest
  generalize f.imaged item u rest = k at h1 h2 h3 h4
  have him := imageActs_images k item u.payload
  refine ⟨(img_of_images him item).trans h1, (congrArg (·.2.2.2.2.2) him :).trans h2, ?_, fun h => ?_, fun h hc => ?_⟩
  · have hlost : (k.imageActs item u.payload).nvm.lost = k.nvm.lost := congrArg (·.2.2.2.2.1) him
    rw [hlost]
    exact h3
  · rw [imageActs, if_pos h]
  · rw [imageActs, if_neg (by omega), if_pos (by rw [h4, hc]; simp [h])]
    exact (safCommitted_spec k u.payload).2

end Field

namespace HDie

theorem imageUpdate_host {h : HDie} {item : Nat} (hi : item < 4) (h1 : item ≠ 1) {u : ImgUpd} {rest : List ImgUpd} (hon : h.linkOn = true)
    (hu : Field.takeUpd item h.nvm.upd = some (u, rest)) :
    let g := h.imageUpdate item false
    img g.nvm item = (img h.nvm item).update item u.payload ∧ g.nvm.upd = rest ∧ bit g.nvm.lost item = false ∧
      (item = 2 → g.setup = setupWords u.payload) := by
  intro g
  set k : HNvm := setImg { h.nvm with upd := rest } item ((img h.nvm item).update item u.payload) with hk
  have hg : g = ({ h with nvm := { k with lost := k.lost &&& ~~~((1 : BitVec 4) <<< item) } } : HDie).imageActs item u.payload := by
    simp only [g]
    unfold imageUpdate
    rw [if_neg (by rw [hon]; simp), hu]
    rfl
  have hnvm : g.nvm = { k with lost := k.lost &&& ~~~((1 : BitVec 4) <<< item) } := by
    rw [hg, imageActs, if_neg h1]
    split
    · rfl
    · split
      · rw [newSetup_link]
        rfl
      · rfl
  rw [hnvm]
  refine ⟨?_, rfl, ?_, fun h2 => ?_⟩
  · rw [hk]
    interval_cases item <;> rfl
  · show bit (k.lost &&& ~~~((1 : BitVec 4) <<< item)) item = false
    exact (bit_clear k.lost item item).trans (by simp)
  · rw [hg, imageActs, if_neg (by omega), if_neg h1, if_pos h2, newSetup_link]
    rfl

end HDie

open Sys2Proof.Machine.Field

/-- Settles O49: each row writes its own fields of the log and of the images; wear management touches no place. -/
theorem recordsReachTheLog : Obligations.RecordsReachTheLog := by
  unfold Obligations.RecordsReachTheLog
  intro s hp
  refine ⟨fun r rs hl hr => ⟨fun he hroom => ?_, fun he ho her hroom => ?_, fun he ho hroom => ?_⟩, fun n hn => ⟨?_, ?_⟩, fun hl hr => ?_,
    fun ht => ?_, fun item u rest => ⟨fun hu => ?_, fun hu hon h1 => ?_⟩⟩
  · exact s.endsField_of_exec (op := fun f => f.logWrite false) rfl (logWrite_emergency hp hl hr he hroom)
  · exact s.endsField_of_exec (op := fun f => f.logWrite false) rfl (logWrite_ordinary hp hl hr he ho her hroom)
  · exact s.endsField_of_exec (op := fun f => f.logWrite false) rfl (logWrite_waits hp hl hr he ho hroom)
  · exact s.endsField_of_exec (op := fun f => f.sectorEraseDone false) rfl (sectorEraseDone_good hp hn)
  · exact s.endsField_of_exec (op := fun f => f.sectorEraseDone true) rfl (sectorEraseDone_bad hp hn)
  · refine s.endsField_of_exec (op := fun f => f.logScan) rfl ?_
    obtain ⟨hready, hnvm⟩ := logScan_nvm hp hr hl
    exact ⟨hready, hnvm, fun hpl hb he hroom => logScan_empty hp hr hl hpl hb he hroom⟩
  · exact s.endsField_of_exec (op := fun f => f.tokenRefill) rfl (tokenRefill_spec hp ht)
  · refine s.endsField_of_exec (op := fun f => f.imageUpdate item.toNat false) rfl ?_
    obtain ⟨g1, g2, g3, g4, g5⟩ := imageUpdate_field item.isLt hp hu
    exact ⟨g1, g2, g3, fun h => g4 (by rw [h]; rfl), fun h => g5 (by rw [h]; rfl)⟩
  · refine s.endsHost_of_exec (op := fun h => h.imageUpdate item.toNat false) rfl ?_
    obtain ⟨g1, g2, g3, g4⟩ := HDie.imageUpdate_host item.isLt (fun h => h1 (BitVec.eq_of_toNat_eq h)) hon hu
    exact ⟨g1, g2, g3, fun h => g4 (by rw [h]; rfl)⟩

end Sys2Proof.Machine
end

section
/-! PROOF. The power states, and what the core does when it runs again (R448 to R453). -/
namespace Sys2Proof.Machine
set_option Elab.async false
namespace Field

/-! ### What runs again leaves the power state, Transit and Firn -/

/-- The power block, the state of Transit and that of Firn. -/
def powered (f : Field) : FPwr × LinkState × FirnState := (f.pwr, f.trn.st, f.firn.st)

theorem powered_of_inner {f g : Field} (h : Inner f g) (hf : g.firn.st = f.firn.st) : g.powered = f.powered := by
  rw [powered, powered, h.pwr, h.trnSt, hf]

theorem powered_of_lanes {f g : Field} (h : g = f.withLanes g) : g.powered = f.powered :=
  powered_of_inner (.ofLanes h) (by rw [firn_of_lanes h])

theorem powered_of_records {f g : Field} (h : g = f.withRecords g) : g.powered = f.powered :=
  powered_of_inner (.ofRecords h) (by rw [firn_of_records h])

/-- The core's work leaves the power state, and the states of Transit and Firn. -/
def poweredSelect : SelectFrame where
  rel f g := g.powered = f.powered
  refl _ := rfl
  trans a b := b.trans a
  nev _ _ _ := rfl
  firn f m h := congrArg (fun s => (f.pwr, f.trn.st, s)) (congrArg (·.1) h : m.st = f.firn.st)
  hel _ _ _ := rfl
  storms _ _ := rfl
  raise f p ty h b := powered_of_records (raise_frame f p ty h b)
  complete f r s d := powered_of_records (complete_frame f r s d)
  abandonStream f c := powered_of_lanes (abandonStream_lanes f c)
  lanes h := powered_of_lanes h
  thaw _ _ := rfl
  gate _ _ _ _ := rfl
  sel _ _ := rfl
  raiseAt f p ty h t b := powered_of_records (raiseAt_frame f p ty h t b)

theorem powered_of {f g : Field} (h : poweredSelect.toFrame.Keeps f g) : g.powered = f.powered := h

theorem driverFault_powered (f : Field) (n : BitVec 4) : (f.driverFault n).powered = f.powered := by
  unfold driverFault
  split
  next x _ =>
    split
    · exact (powered_of (Frame.Keeps.tripChan (r := poweredSelect.toTripFrame) _ x 0x14)).trans
        (powered_of (Frame.Keeps.gateOff (r := poweredSelect.toGateFrame) f n true) :)
    · rfl
  next => rfl

theorem driverResume_powered (f : Field) : f.driverResume.powered = f.powered :=
  Frame.Keeps.foldl (r := poweredSelect.toFrame) (fun g _ => driverFault_powered g _) _ f

theorem histRestart_powered (f : Field) : f.histRestart.powered = f.powered :=
  (Frame.Keeps.foldl (r := poweredSelect.toFrame) (fun g x => Frame.Keeps.modHist (r := poweredSelect.toFrame) g x _) _ f :
    poweredSelect.toFrame.Keeps f (f.each (f.select (fun _ => true)) (fun g x => g.modHist x (fun h => { histClear h with restart := true }))))

theorem demandShort_powered (f : Field) : f.demandShort.powered = f.powered :=
  Frame.Keeps.foldl (r := poweredSelect.toFrame) (fun g x => Frame.Keeps.modMet (r := poweredSelect.toFrame) g x _) _ f

theorem demandIntervalEnd_powered (f : Field) : f.demandIntervalEnd.powered = f.powered := by
  unfold demandIntervalEnd
  extract_lets s
  split
  · rfl
  · exact Frame.Keeps.demandEnd (r := poweredSelect.toFrame) f _ _

theorem demandResume_powered (f : Field) : f.demandResume.powered = f.powered :=
  (demandShort_powered _).trans ((demandIntervalEnd_powered _).trans (demandShort_powered f))

theorem wheelResume_powered (f : Field) : f.wheelResume.powered = f.powered :=
  Frame.Keeps.foldl (r := poweredSelect.toFrame) (fun g x => Frame.Keeps.modChan (r := poweredSelect.toFrame) g x _) _ f

theorem coreTrip_powered (f : Field) (x : BitVec 17) : (f.coreTrip x).powered = f.powered := by
  have h1 : (f.rampsEnd x).powered = f.powered := Frame.Keeps.rampsEnd (r := poweredSelect.toTripFrame) f x
  unfold coreTrip
  extract_lets g c
  split
  · exact (powered_of (Frame.Keeps.tripChan (r := poweredSelect.toTripFrame) g x 0x13)).trans h1
  · split
    · exact h1
    · exact h1

theorem coreEntry_powered (f : Field) : f.coreEntry.powered = f.powered := by
  rw [coreEntry_eq]
  have h1 : f.closeAllEpo.powered = f.powered :=
    Frame.Keeps.foldl (r := poweredSelect.toFrame) (fun g e => Frame.Keeps.closeEv (r := poweredSelect) g e .epo 0) f.sel.events f
  exact (powered_of (Frame.Keeps.foldl (r := poweredSelect.toFrame) (fun g x => coreTrip_powered g x) _ _)).trans h1

theorem safResume_powered (f : Field) : f.safResume.powered = f.powered := by
  unfold safResume
  extract_lets _ f1 rs
  have h1 : f1.powered = f.powered := by
    simp only [f1]
    split
    · exact coreEntry_powered _
    · rfl
  clear_value f1
  exact (powered_of (Frame.Keeps.foldl (r := poweredSelect.toFrame) (fun g r =>
    Frame.Keeps.foldl (r := poweredSelect.toFrame) (fun k p => Frame.Keeps.raiseAt (r := poweredSelect) k p _ _ _ _) _ g) rs _)).trans h1

/-! ### The core runs again -/

theorem retrainLanes_powered (f : Field) : f.retrainLanes.powered = f.powered := by rw [retrainLanes_frame]; rfl

/-- Firn and the lanes retrain, and Transit trains. -/
def retrained (f : Field) : Field := f.firnWake.retrainLanes.trainLink

theorem retrained_powered (f : Field) :
    f.retrained.powered = (f.pwr, .train, if f.firn.st = .selfRefresh then .train else f.firn.st) := by
  have h1 : f.firnWake.powered = (f.pwr, f.trn.st, if f.firn.st = .selfRefresh then .train else f.firn.st) := by
    unfold firnWake
    split
    next h => simp [powered]
    next h => rfl
  exact congrArg (fun k : FPwr × LinkState × FirnState => (k.1, LinkState.train, k.2.2)) ((retrainLanes_powered f.firnWake).trans h1)

/-- What stood still starts anew, and what the core owes is done. -/
def restarted (f : Field) : Field :=
  ((((({ f with nev := { f.nev with noDup := 2 } } : Field).driverResume.histRestart).demandResume).wheelResume).scrubResume).safResume

theorem withNev_powered (f : Field) (n : Nevs) : ({ f with nev := n } : Field).powered = f.powered := rfl

theorem scrubResume_powered (f : Field) : f.scrubResume.powered = f.powered := withNev_powered f _

theorem restarted_powered (f : Field) : f.restarted.powered = f.powered := by
  rw [restarted, safResume_powered, scrubResume_powered, wheelResume_powered, demandResume_powered, histRestart_powered, driverResume_powered]
  rfl

/-- The power block of a core that runs again. -/
def runPwr (w : FPwr) (throttle : Bool) : FPwr := { w with step1 := throttle, st := if throttle then PwrState.trim else PwrState.run }

theorem coreResume_eq (f : Field) : f.coreResume = ({ f with pwr := runPwr f.pwr f.thm.throttle } : Field).retrained.restarted := rfl

/-- The core runs again: its power state, with step 1 as throttle has it, and Firn leaves self-refresh. -/
theorem coreResume_powered (f : Field) :
    f.coreResume.powered = (runPwr f.pwr f.thm.throttle, .train, if f.firn.st = .selfRefresh then .train else f.firn.st) := by
  rw [coreResume_eq, restarted_powered, retrained_powered]

/-! ### RUN, QUIET and STANDBY -/

theorem ownsPower_of {f : Field} {p : Part} (h : f.operator p = true ∨ f.commissioner p = true) : f.ownsPower p = true := by
  rw [ownsPower]
  rcases h with h | h <;> simp [h]

/-- A power state is entered: told where it is another. -/
theorem enterPower_spec (f : Field) (w : FPwr) (told : Bool) :
    let f1 : Field := { f with pwr := w }
    let g := if told then f1.fstate .power 0 0x80 else f1
    g.pwr = w ∧ g.nev = f.nev ∧ g.saf = f.saf := by
  intro f1 g
  obtain ⟨hn, -, hs, ha⟩ := fstate_stands f1 .power 0 0x80
  simp only [g]
  split
  · exact ⟨ha.pwr, hn, hs⟩
  · exact ⟨rfl, rfl, rfl⟩

theorem reqRunQuiet_spec {f : Field} {p : Part} (quiet : Bool) (hc : f.coreOn = true) (ho : f.ownsPower p = true) (he : f.pwr.entry = none) :
    let g := f.reqRunQuiet p quiet
    g.pwr = { f.pwr with req := if quiet then 1 else 0, st := if quiet then .quiet else if f.pwr.step1 then .trim else .run } ∧
      g.nev = f.nev ∧ g.saf = f.saf := by
  have h := enterPower_spec f { f.pwr with req := if quiet then 1 else 0, st := if quiet then .quiet else if f.pwr.step1 then .trim else .run }
    (decide ((if quiet then PwrState.quiet else if f.pwr.step1 then PwrState.trim else PwrState.run) ≠ f.pwr.st))
  unfold reqRunQuiet
  rw [if_pos (by rw [hc, ho, he]; rfl)]
  simpa using h

theorem reqStandby_refused {f : Field} {p : Part} {c : BitVec 3} (hc : f.coreOn = true) (ho : f.ownsPower p = true) (he : f.pwr.entry = none)
    (hr : f.standbyRefusal = some c) : f.reqStandby p = { f with pwr := { f.pwr with refuse := c } } := by
  unfold reqStandby
  rw [if_pos (by rw [hc, ho, he]; rfl), hr]

theorem reqStandby_starts {f : Field} {p : Part} (hc : f.coreOn = true) (ho : f.ownsPower p = true) (he : f.pwr.entry = none)
    (hr : f.standbyRefusal = none) :
    f.reqStandby p = { f with pwr := { f.pwr with req := 2, entry := some f.now, wakeHeld := 0, tCheck := f.now } } := by
  unfold reqStandby
  rw [if_pos (by rw [hc, ho, he]; rfl), hr]

theorem standbyRefusal_none {f : Field} (hd : ∀ e ∈ f.dch, e.2.mode = .off) (hi : ∀ e ∈ f.existing, e.2.nev.state ≠ .inserting)
    (hx : f.hel.ctx = []) (hw : f.firn.capWait = []) (hr : f.firn.st = .ready) (hk : f.pwr.wakePin = true ∨ f.pwr.wakeLink = true) :
    f.standbyRefusal = none := by
  have h1 : f.dch.any (fun e => decide (e.2.mode ≠ .off)) = false := by
    rw [List.any_eq_false]
    intro e he
    simp [hd e he]
  have h2 : f.existing.any (fun e => decide (e.2.nev.state = .inserting)) = false := by
    rw [List.any_eq_false]
    intro e he
    simp [hi e he]
  unfold standbyRefusal
  rw [if_neg (by rw [h1]; simp), if_neg (by rw [h2, hx, hw]; simp), if_neg (by rw [hr]; simp), if_neg]
  rcases hk with h | h <;> simp [h]

/-! ### The entry into STANDBY -/

theorem sendCtl_firn (f : Field) (m : Msg) : (f.sendCtl m).firn = f.firn := by
  unfold sendCtl
  dsimp only
  split
  · rw [firn_of_lanes (emit_lanes _ _)]
  · rfl

theorem fstate_firn (f : Field) (c : FCode) (k p : Byte) : (f.fstate c k p).firn = f.firn := by
  unfold fstate
  split
  · exact sendCtl_firn _ _
  · rfl

/-- A lane of a die in STANDBY. -/
def stoppedLane (v : Lane) : Lane :=
  { v with st := .disabled, lockA := false, lockB := false, loopSeen := false, loopTicks := 0, enumPh := .idle, enumAns := [],
           enumHeld := false, polls := [], pollQ := [], eReads := [], eHeld := [], exq := [], slots := List.replicate 6 .idle }

theorem stopped_look (t : Tab Lane) (l : Nat) : (tabGet Lane.reset (tabMap Lane.reset t (fun _ v => stoppedLane v)) l).st = .disabled := by
  induction t with
  | nil => rfl
  | cons e t ih =>
    unfold tabMap at ih ⊢
    rw [List.map_cons, List.filter_cons]
    split
    · rw [tabGet, tabLook]
      split
      · rfl
      · exact ih
    · exact ih

/-- The lanes, Firn, the buffer of the reference, Transit and the security state of a die in STANDBY. -/
def stopped (f : Field) : Field :=
  let g := ({ f with lan := { f.lan with lane := tabMap Lane.reset f.lan.lane (fun _ v => stoppedLane v) } } : Field).firnSleep
  ({ g with adc := { g.adc with refReady := false }, trn := { g.trn with st := .down }, sec := { g.sec with comm := false } } : Field).debugEnd

theorem stopped_spec (f : Field) :
    let g := f.stopped
    g.pwr = f.pwr ∧ g.trn.st = .down ∧ (∀ l, (g.lane l).st = .disabled) ∧ (f.firn.st ≠ .failed → g.firn.st = .selfRefresh) ∧
      g.adc.refReady = false ∧ g.nev = f.nev ∧ g.saf = f.saf := by
  unfold stopped firnSleep
  intro g
  simp only [g]
  split
  next h => exact ⟨rfl, rfl, fun l => stopped_look f.lan.lane l.toNat, fun hn => absurd h hn, rfl, rfl, rfl⟩
  next h => exact ⟨rfl, rfl, fun l => stopped_look f.lan.lane l.toNat, fun _ => rfl, rfl, rfl, rfl⟩

theorem standbyEntry_eq {f : Field} (hc : f.coreOn = true) (he : f.pwr.entry.isSome = true) (hn : f.nvm.log.erasing = none) :
    f.standbyEntry =
      let g := (({ f with pwr := { f.pwr with st := .standby, entry := none, stbyEntries := satAdd f.pwr.stbyEntries 1 } } : Field).fstate
        .power 0 0x80).stopped
      if g.pwr.wakeHeld = 0 then g else g.standbyExit g.pwr.wakeHeld := by
  unfold standbyEntry
  rw [if_pos (by rw [hc, he, hn]; rfl)]
  rfl

theorem standbyEntry_spec {f : Field} (hc : f.coreOn = true) (he : f.pwr.entry.isSome = true) (hn : f.nvm.log.erasing = none)
    (hw : f.pwr.wakeHeld = 0) :
    let g := f.standbyEntry
    g.pwr.st = .standby ∧ g.pwr.entry = none ∧ g.pwr.stbyEntries = satAdd f.pwr.stbyEntries 1 ∧ g.trn.st = .down ∧
      (∀ l, (g.lane l).st = .disabled) ∧ (f.firn.st ≠ .failed → g.firn.st = .selfRefresh) ∧ g.adc.refReady = false ∧
      g.nev = f.nev ∧ g.saf = f.saf := by
  rw [standbyEntry_eq hc he hn]
  generalize hf1 : ({ f with pwr := { f.pwr with st := .standby, entry := none, stbyEntries := satAdd f.pwr.stbyEntries 1 } } : Field) = f1
  obtain ⟨kn, -, ks, ka⟩ := fstate_stands f1 .power 0 0x80
  have kf : (f1.fstate .power 0 0x80).firn = f1.firn := fstate_firn f1 .power 0 0x80
  generalize f1.fstate .power 0 0x80 = f2 at kn ks ka kf
  obtain ⟨hp, ht, hl, hf, ha, hv, hs⟩ := stopped_spec f2
  have hp1 : f2.stopped.pwr = f1.pwr := hp.trans ka.pwr
  dsimp only
  rw [if_pos (by rw [hp1, ← hf1]; exact hw)]
  subst hf1
  rw [hp1]
  exact ⟨rfl, rfl, rfl, ht, hl, fun h => hf (by rw [kf]; exact h), ha, hv.trans kn, hs.trans ks⟩

/-! ### The end of STANDBY -/

theorem standbyExit_spec (f : Field) (src : BitVec 3) :
    let g := f.standbyExit src
    g.pwr.st = (if f.thm.throttle then .trim else .run) ∧ g.pwr.wake = src ∧ g.pwr.req = 0 ∧ g.trn.st = .train ∧
      (f.firn.st = .selfRefresh → g.firn.st = .train) := by
  unfold standbyExit
  generalize hk : ({ f with pwr := { f.pwr with req := 0, wake := src, wakeHeld := 0 }, adc := { f.adc with tRef := f.now } } : Field) = k
  have h := coreResume_powered k
  generalize k.coreResume = g at h
  have hpwr : g.pwr = runPwr k.pwr k.thm.throttle := congrArg (·.1) h
  have htrn : g.trn.st = .train := congrArg (·.2.1) h
  have hfirn : g.firn.st = if k.firn.st = .selfRefresh then .train else k.firn.st := congrArg (·.2.2) h
  subst hk
  dsimp only
  rw [hpwr]
  exact ⟨rfl, rfl, rfl, htrn, fun hs => hfirn.trans (if_pos hs)⟩

theorem wakeBy_standby {f : Field} {en : Bool} (src : BitVec 3) (he : en = true) (hs : f.pwr.st = .standby) :
    f.wakeBy en src = f.standbyExit src := by
  rw [wakeBy, he, if_neg (by simp), if_pos hs]

theorem wakeBy_disabled {f : Field} {en : Bool} (src : BitVec 3) (he : en = false) : f.wakeBy en src = f := by
  rw [wakeBy, he]
  rfl

end Field

open Sys2Proof.Machine.Field

/-- Settles O46: a request writes the power block alone; the core that runs again keeps what the wake has set. -/
theorem powerStatesChange : Obligations.PowerStatesChange := by
  unfold Obligations.PowerStatesChange
  intro s
  refine ⟨fun p hp hr he => ⟨fun quiet => ?_, fun hd => ?_, fun hd hi hx hw hf hk => ?_⟩, fun hc he hn hw => ?_, fun hs =>
    ⟨fun h => ?_, fun h ht hn => ?_, fun h => ?_, fun h => ?_, fun h => ?_, fun h => ?_⟩⟩
  · exact s.endsField_of_write rfl hp (reqRunQuiet_spec quiet (coreOn_of_writes hp) (ownsPower_of hr) he)
  · refine s.endsField_of_write rfl hp (reqStandby_refused (coreOn_of_writes hp) (ownsPower_of hr) he ?_)
    rw [standbyRefusal, if_pos hd]
  · exact s.endsField_of_write rfl hp (reqStandby_starts (coreOn_of_writes hp) (ownsPower_of hr) he (standbyRefusal_none hd hi hx hw hf hk))
  · exact s.endsField_of_exec (op := fun f => f.standbyEntry) rfl (standbyEntry_spec hc he hn hw)
  · refine s.endsField_of_exec (op := fun f => f.wakePin) rfl ?_
    rw [wakePin, wakeBy_standby 1 h hs]
    exact standbyExit_spec _ _
  · refine s.endsField_of_exec (op := fun f => f.wakeTime) rfl ?_
    rw [wakeTime, wakeBy_standby 2 (by simp [h, ht, hn]) hs]
    exact standbyExit_spec _ _
  · refine s.endsField_of_exec (op := fun f => f.wakeTime) rfl ?_
    exact wakeBy_disabled 2 (by rw [decide_eq_false (BitVec.not_le.2 h), Bool.and_false])
  · refine s.endsField_of_exec (op := fun f => f.wakeLink) rfl ?_
    rw [wakeLink, wakeBy_standby 3 h hs]
    exact standbyExit_spec _ _
  · exact s.endsField_of_exec (op := fun f => f.wakePin) rfl (wakeBy_disabled 1 h)
  · exact s.endsField_of_exec (op := fun f => f.wakeLink) rfl (wakeBy_disabled 3 h)

end Sys2Proof.Machine
end

section
/-! PROOF. The messages of the host die at the field die (R359 to R364, R368, R369, R377, R386). -/
namespace Sys2Proof.Machine
set_option Elab.async false
namespace Field

/-! ### A queue that moves leaves the commands in flight -/

/-- A message leaves the die where REFCLK runs. -/
theorem emit_msgOut (f : Field) (cls : Bool) (a : BitVec 16) (k : BitVec 16 × Msg) :
    f.emit (msgOut cls a k) = if f.mer.holdover then f else { f with out := f.out ++ [msgOut cls a k] } := rfl

theorem sendData_busy (f : Field) (m : Msg) : (f.sendData m).1.prt.busy = f.prt.busy := by
  simp only [sendData]
  split
  · rw [emit_msgOut]
    split <;> rfl
  · rfl

theorem sendRecs_busy (p : Part) (l : List QRec) (f : Field) : (f.sendRecs p l).1.prt.busy = f.prt.busy := by
  induction l generalizing f with
  | nil => rfl
  | cons r rs ih =>
    simp only [sendRecs]
    split
    · exact ih f
    · split
      · exact ih f
      · exact (ih _).trans (sendData_busy f _)

theorem pump_busy (f : Field) (p : Part) : (f.pump p).prt.busy = f.prt.busy := by
  simp only [pump]
  split
  · exact sendRecs_busy p _ f
  · rfl

theorem enqueue_busy (f : Field) (p : Part) (r : Rec) : (f.enqueue p r).prt.busy = f.prt.busy := (pump_busy _ p).trans rfl

theorem raiseCore_busy (f : Field) (p : Part) (ty : Byte) (h : Word) (t : Count) (b : Bytes) :
    (f.raiseCore p ty h t b).prt.busy = f.prt.busy := by
  unfold raiseCore
  extract_lets q e free f1
  have h1 : f1.prt.busy = f.prt.busy := rfl
  clear_value f1
  split
  · split
    · exact (enqueue_busy _ _ _).trans h1
    · exact h1
  · have key : ∀ (c : Prop) [Decidable c] (k : Field), k.prt.busy = f.prt.busy →
        (if c then f1.enqueue p (.evt e) else k).prt.busy = f.prt.busy := by
      intro c _ k hk
      split
      · exact (enqueue_busy _ _ _).trans h1
      · exact hk
    exact key _ _ h1

theorem overflow_busy (f : Field) (p : Part) : (f.overflow p).prt.busy = f.prt.busy := by
  unfold overflow
  extract_lets q n f1 q1
  have h1 : f1.prt.busy = f.prt.busy := by
    simp only [f1]
    split
    · rfl
    · exact (foldl_same (fun g : Field => g.prt.busy) (fun g e => enqueue_busy g p _) _ _).trans rfl
  clear_value f1
  split
  · exact (raiseCore_busy _ _ _ _ _ _).trans h1
  · exact h1

/-! ### A message that is heard (R360) -/

/-- The field die f with the numbering and the records of g. -/
def withLink (f g : Field) : Field :=
  { f with trn := { f.trn with ctl := g.trn.ctl, dat := g.trn.dat, tLast := g.trn.tLast },
           prt := { f.prt with evq := g.prt.evq, pubLast := g.prt.pubLast }, out := g.out }

theorem withLink_trans {f g h : Field} (h1 : g = f.withLink g) (h2 : h = g.withLink h) : h = f.withLink h := by
  rw [h1] at h2; exact h2

theorem link_of_records {f g : Field} (h : g = f.withRecords g) (hb : g.prt.busy = f.prt.busy) : g = f.withLink g := by
  conv_lhs => rw [h, withRecords, hb]
  conv_rhs => rw [h]
  rfl

/-- A message that is heard, once its ACK has acted. -/
def took (f : Field) (cls : Bool) (x : LinkHdr) : Field := (f.heard cls x).takeLinkAck cls x.ack

theorem heard_eq {f : Field} (hl : f.linkUp = true) (cls : Bool) (x : LinkHdr) :
    f.heard cls x = { f with trn := (if cls then { f.trn with ctl := { f.trn.ctl with expect := f.trn.ctl.expect + 1 }, tLast := f.now }
                                     else { f.trn with dat := { f.trn.dat with expect := f.trn.dat.expect + 1 }, tLast := f.now }),
                             out := f.out ++ [linkAckOut cls x.seq] } := by
  have hh : f.mer.holdover = false := by
    rw [linkUp] at hl
    revert hl
    cases f.mer.holdover <;> simp
  unfold heard
  dsimp only
  rw [linkAckOut, emit_msgOut]
  refine (if_neg (by show ¬ f.mer.holdover = true; rw [hh]; simp)).trans ?_
  cases cls <;> rfl

theorem heard_link (f : Field) (cls : Bool) (x : LinkHdr) : f.heard cls x = f.withLink (f.heard cls x) := by
  unfold heard
  dsimp only
  rw [linkAckOut, emit_msgOut]
  split <;> cases cls <;> rfl

theorem withLink_foldl {α : Type} {op : Field → α → Field} (hop : ∀ g a, op g a = g.withLink (op g a)) (f : Field) (l : List α) :
    l.foldl op f = f.withLink (l.foldl op f) := by
  induction l generalizing f with
  | nil => rfl
  | cons a l ih => exact withLink_trans (hop f a) (ih _)

theorem ackRecs_link (f : Field) (l : List (BitVec 16)) : f.ackRecs l = f.withLink (f.ackRecs l) := by
  unfold ackRecs
  refine withLink_foldl (fun g p => ?_) f _
  dsimp only
  split
  · rfl
  · exact link_of_records (records_trans (records_trans (setEvq_frame g p _) (overflow_frame _ p)) (pump_frame _ p))
      ((pump_busy _ p).trans (overflow_busy _ p))

theorem takeLinkAck_link (f : Field) (cls : Bool) (a : BitVec 16) : f.takeLinkAck cls a = f.withLink (f.takeLinkAck cls a) := by
  cases cls with
  | true => rfl
  | false =>
    unfold takeLinkAck
    rw [if_neg (by simp)]
    exact withLink_trans rfl (ackRecs_link _ _)

theorem took_link (f : Field) (cls : Bool) (x : LinkHdr) : f.took cls x = f.withLink (f.took cls x) :=
  withLink_trans (heard_link f cls x) (takeLinkAck_link _ cls x.ack)

section
variable {f : Field} {cls : Bool} {x : LinkHdr}

theorem recv_refused (ty : Byte) (go : Field → Field) (hl : f.linkUp = true) (hh : f.hears cls x = false) :
    f.recv cls ty x go = { f with out := f.out ++ [linkNakOut cls (f.half cls).expect] } := by
  have hc : (!x.good || decide (x.seq ≠ (f.half cls).expect)) = true := by
    rw [hears, hl] at hh
    revert hh
    cases x.good <;> simp
  have ho : f.mer.holdover = false := by
    rw [linkUp] at hl
    revert hl
    cases f.mer.holdover <;> simp
  unfold recv
  rw [if_neg (by rw [hl]; simp)]
  refine Eq.trans (if_pos hc) ?_
  rw [linkNakOut, emit_msgOut, if_neg (by rw [ho]; simp)]

theorem hears_spec (hh : f.hears cls x = true) : f.linkUp = true ∧ x.good = true ∧ x.seq = (f.half cls).expect := by
  simpa [hears, and_assoc] using hh

theorem recv_bad {ty : Byte} (go : Field → Field) (hh : f.hears cls x = true) (hf : formOk x ty cls = false) :
    let g := f.recv cls ty x go
    (g.half cls).expect = (f.half cls).expect + 1 ∧ g.trn.badMsg = satAdd f.trn.badMsg 1 ∧
      g = { f with trn := g.trn, out := f.out ++ [linkAckOut cls x.seq] } := by
  obtain ⟨hl, hg, hs⟩ := hears_spec hh
  have h : f.recv cls ty x go = (f.heard cls x).countBad := by
    unfold recv
    rw [if_neg (by rw [hl]; simp)]
    exact (if_neg (by rw [hg, hs]; simp)).trans (if_neg (by rw [hf]; simp))
  dsimp only
  rw [h, heard_eq hl]
  cases cls <;> exact ⟨rfl, rfl, rfl⟩

theorem recv_good {ty : Byte} (go : Field → Field) (hh : f.hears cls x = true) (hf : formOk x ty cls = true) :
    f.recv cls ty x go = (go (f.took cls x)).linkSteps := by
  obtain ⟨hl, hg, hs⟩ := hears_spec hh
  unfold recv
  rw [if_neg (by rw [hl]; simp)]
  exact (if_neg (by rw [hg, hs]; simp)).trans (if_pos hf)
end

/-! ### What waits on the link goes on -/

/-- The PART resets go on. -/
def partSteps (f : Field) : Field := ([0, 1, 2, 3] : List Part).foldl (fun (h : Field) n => h.partStep n) f

theorem bit_zero (w n : Nat) : bit (0#w) n = false := by simp [bit]

theorem partStep_idle {f : Field} (n : Part) (ha : bit f.prt.rstA n.toNat = false) (hb : bit f.prt.rstB n.toNat = false) : f.partStep n = f := by
  unfold partStep
  simp only [ha, hb, Bool.false_and, Bool.false_eq_true, if_false]

theorem partSteps_idle {f : Field} (ha : f.prt.rstA = 0) (hb : f.prt.rstB = 0) : f.partSteps = f := by
  have h : ∀ n : Part, f.partStep n = f := fun n => partStep_idle n (by rw [ha]; exact bit_zero 4 _) (by rw [hb]; exact bit_zero 4 _)
  simp only [partSteps, List.foldl_cons, List.foldl_nil, h]

theorem tunReady_idle {f : Field} (h : f.trn.tunWait = []) : f.tunReady = f := by
  unfold tunReady
  split
  · rw [h]
    show ({ f with trn := { f.trn with tunWait := [] } } : Field) = f
    rw [← h]
  · rfl

theorem linkSteps_eq {f : Field} (hc : f.coreOn = true) (hu : f.sec.ucodeFail = false) (ht : f.trn.tunWait = []) :
    f.linkSteps = f.startReady.partSteps := by
  unfold linkSteps
  rw [if_neg (by rw [hc, hu]; simp), tunReady_idle ht]
  rfl

theorem startReady_free {f : Field} (h : f.prt.busy = []) : f.startReady = f := by
  unfold startReady
  rw [h]
  split <;> rfl

theorem startReady_refused {f : Field} (h : f.admits = false) : f.startReady = f := if_pos (by rw [h]; rfl)

/-- The one command in flight starts where its payload is there. -/
theorem startReady_one {f : Field} {b : Busy} (ha : f.admits = true) (h : f.prt.busy = [b]) (hs : b.started = false) :
    f.startReady = if b.need ≤ (f.bulkOf b.linkTag).length then f.startCmd b else f := by
  have hb : f.heldBack b = false := by simp [heldBack, h]
  unfold startReady
  rw [if_neg (by rw [ha]; simp), h]
  simp [hs, hb]

/-- The one command in flight runs with its payload. -/
theorem startCmd_one {f : Field} {b : Busy} {c : FCmd} (h : f.prt.busy = [b])
    (hc : fcmdOf b.ops ((f.bulkOf b.linkTag).take b.need) = some c) :
    f.startCmd b = (({ f with prt := { f.prt with busy := [{ b with started := true }] } } : Field).dropBulk b.linkTag).runCmd b.ref c := by
  unfold startCmd
  rw [h]
  simp only [hc, List.map_cons, List.map_nil, if_true]

theorem linkSteps_idle {f : Field} (ht : f.trn.tunWait = []) (ha : f.prt.rstA = 0) (hb : f.prt.rstB = 0) (hbusy : f.prt.busy = []) :
    f.linkSteps = f := by
  unfold linkSteps
  split
  · rfl
  · rw [tunReady_idle ht, startReady_free hbusy]
    exact partSteps_idle ha hb

theorem unburdened_spec {f : Field} (h : f.unburdened = true) :
    f.prt.busy = [] ∧ f.trn.tunWait = [] ∧ f.prt.rstA = 0 ∧ f.prt.rstB = 0 := by
  simpa [unburdened, and_assoc] using h

end Field
end Sys2Proof.Machine
end

section
/-! PROOF. What each message of the host die does at the field die. -/
namespace Sys2Proof.Machine
set_option Elab.async false
namespace Field

section
variable {f : Field} {x : LinkHdr}

/-- What an unburdened die that takes a message holds afterwards: nothing in flight, nothing waiting, and its own state. -/
theorem took_stays (f : Field) (cls : Bool) (x : LinkHdr) :
    (f.took cls x).prt.busy = f.prt.busy ∧ (f.took cls x).trn.tunWait = f.trn.tunWait ∧ (f.took cls x).prt.rstA = f.prt.rstA ∧
      (f.took cls x).prt.rstB = f.prt.rstB ∧ (f.took cls x).trn.bulk = f.trn.bulk := by
  rw [took_link f cls x]
  exact ⟨rfl, rfl, rfl, rfl, rfl⟩

theorem took_coreOn (f : Field) (cls : Bool) (x : LinkHdr) : (f.took cls x).coreOn = f.coreOn := by rw [took_link f cls x]; rfl
theorem took_sec (f : Field) (cls : Bool) (x : LinkHdr) : (f.took cls x).sec = f.sec := by rw [took_link f cls x]; rfl
theorem took_mer (f : Field) (cls : Bool) (x : LinkHdr) : (f.took cls x).mer = f.mer := by rw [took_link f cls x]; rfl
theorem took_setup (f : Field) (cls : Bool) (x : LinkHdr) : (f.took cls x).prt.setup = f.prt.setup := by rw [took_link f cls x]; rfl
theorem took_nev (f : Field) (cls : Bool) (x : LinkHdr) : (f.took cls x).nev = f.nev := by rw [took_link f cls x]; rfl
theorem took_firn (f : Field) (cls : Bool) (x : LinkHdr) : (f.took cls x).firn = f.firn := by rw [took_link f cls x]; rfl

theorem admits_of {g : Field} (hs : g.sec = f.sec) (hc : g.coreOn = f.coreOn) : g.admits = f.admits := by rw [admits, admits, hs, hc]
theorem takesCmds_of {g : Field} (hs : g.sec = f.sec) (hc : g.coreOn = f.coreOn) : g.takesCmds = f.takesCmds := by
  rw [takesCmds, takesCmds, hs, hc]
theorem bulkOf_of {g : Field} (h : g.trn.bulk = f.trn.bulk) (tag : BitVec 32) : g.bulkOf tag = f.bulkOf tag := by rw [bulkOf, bulkOf, h]

theorem coreOn_of_hears {cls : Bool} (h : f.hears cls x = true) : f.coreOn = true := by
  have hl := (hears_spec h).1
  rw [linkUp] at hl
  revert hl
  cases f.coreOn <;> simp

/-- An unburdened die ends a message with what it has taken. -/
theorem recv_free {ty : Byte} {go : Field → Field} (hh : f.hears true x = true) (hf : formOk x ty true = true)
    {g : Field} (hg : go (f.took true x) = g) (ht : g.trn.tunWait = []) (ha : g.prt.rstA = 0) (hb : g.prt.rstB = 0) (hbusy : g.prt.busy = []) :
    f.recv true ty x go = g := by
  rw [recv_good go hh hf, hg]
  exact linkSteps_idle ht ha hb hbusy

/-! ### Commands (R362) -/

/-- The command that a descriptor makes, with the bytes it needs. -/
def busyOf (f : Field) (x : LinkHdr) (ring : BitVec 4) (desc : Bytes) (need : Nat) (started : Bool) : Busy :=
  { ref := refOfDesc (partOf x) ring (bits x.tag 0 16) desc, ops := desc, linkTag := x.tag, need := need, t := f.now, started := started }

/-- The die with one command in flight. -/
def withBusy (f : Field) (b : Busy) : Field := { f with prt := { f.prt with busy := [b] } }

variable {ring : BitVec 4} {desc : Bytes}

theorem admits_takesCmds (h : f.admits = true) : f.takesCmds = true := by
  rw [admits] at h
  rw [takesCmds]
  simp only [Bool.and_eq_true] at h ⊢
  exact h.1

theorem takeCmd_took (hu : f.unburdened = true) (ht : f.takesCmds = true) :
    (f.took true x).takeCmd (partOf x) x.tag ring desc =
      (f.took true x).withBusy (f.busyOf x ring desc (if carriesBulk (u8 desc 0) then leNat desc 24 4 else 0) false) := by
  unfold takeCmd
  rw [if_neg (by rw [takesCmds_of (took_sec f true x) (took_coreOn f true x), ht]; simp)]
  obtain ⟨hb, -, -, -⟩ := unburdened_spec hu
  have h1 : (f.took true x).prt.busy = [] := (took_stays f true x).1.trans hb
  have h2 : (f.took true x).now = f.now := congrArg Mer.count (took_mer f true x)
  dsimp only
  rw [h1, h2]
  rfl

/-- The steps that follow a command's arrival. -/
theorem cmdRow_steps (hh : f.hears true x = true) (hf : formOk x 0x01 true = true) (hu : f.unburdened = true) (hc : f.sec.ucodeFail = false)
    (ht : f.takesCmds = true) :
    f.cmdRow x ring desc = ((f.took true x).withBusy
      (f.busyOf x ring desc (if carriesBulk (u8 desc 0) then leNat desc 24 4 else 0) false)).startReady.partSteps := by
  obtain ⟨-, hw, -, -⟩ := unburdened_spec hu
  unfold cmdRow
  rw [recv_good _ hh hf, takeCmd_took hu ht]
  exact linkSteps_eq ((took_coreOn f true x).trans (coreOn_of_hears hh)) ((congrArg FSec.ucodeFail (took_sec f true x)).trans hc)
    ((took_stays f true x).2.1.trans hw)

theorem withBusy_admits (b : Busy) : ((f.took true x).withBusy b).admits = f.admits := admits_of (took_sec f true x) (took_coreOn f true x)

theorem withBusy_waits (hu : f.unburdened = true) (b : Busy) : ((f.took true x).withBusy b).partSteps = (f.took true x).withBusy b := by
  obtain ⟨-, -, ha, hb⟩ := unburdened_spec hu
  obtain ⟨-, -, h3, h4, -⟩ := took_stays f true x
  exact partSteps_idle (h3.trans ha) (h4.trans hb)

theorem cmdRow_runs (hh : f.hears true x = true) (hf : formOk x 0x01 true = true) (hu : f.unburdened = true) (hc : f.sec.ucodeFail = false)
    (ha : f.admits = true) (hb : carriesBulk (u8 desc 0) = false) {c : FCmd} (hcmd : fcmdOf desc [] = some c) :
    f.cmdRow x ring desc = ((((f.took true x).withBusy (f.busyOf x ring desc 0 true)).dropBulk x.tag).runCmd
      (refOfDesc (partOf x) ring (bits x.tag 0 16) desc) c).partSteps := by
  rw [cmdRow_steps hh hf hu hc (admits_takesCmds ha), hb, if_neg (by simp), startReady_one ((withBusy_admits _).trans ha) rfl rfl,
    if_pos (show (f.busyOf x ring desc 0 false).need ≤ _ from Nat.zero_le _)]
  exact congrArg partSteps (startCmd_one (f := (f.took true x).withBusy (f.busyOf x ring desc 0 false)) (b := f.busyOf x ring desc 0 false) rfl hcmd)

theorem cmdRow_waits (hh : f.hears true x = true) (hf : formOk x 0x01 true = true) (hu : f.unburdened = true) (hc : f.sec.ucodeFail = false)
    (ha : f.admits = true) (hb : carriesBulk (u8 desc 0) = true) (hlen : (f.bulkOf x.tag).length < leNat desc 24 4) :
    f.cmdRow x ring desc = (f.took true x).withBusy (f.busyOf x ring desc (leNat desc 24 4) false) := by
  rw [cmdRow_steps hh hf hu hc (admits_takesCmds ha), hb, if_pos rfl, startReady_one ((withBusy_admits _).trans ha) rfl rfl, if_neg, withBusy_waits hu]
  have h : ((f.took true x).withBusy (f.busyOf x ring desc (leNat desc 24 4) false)).bulkOf x.tag = f.bulkOf x.tag :=
    bulkOf_of (took_stays f true x).2.2.2.2 x.tag
  show ¬ leNat desc 24 4 ≤ (((f.took true x).withBusy (f.busyOf x ring desc (leNat desc 24 4) false)).bulkOf x.tag).length
  rw [h]
  omega

theorem cmdRow_halted (hh : f.hears true x = true) (hf : formOk x 0x01 true = true) (hu : f.unburdened = true) (hc : f.sec.ucodeFail = false)
    (ht : f.takesCmds = true) (hhalt : f.sec.halted = true) :
    f.cmdRow x ring desc =
      (f.took true x).withBusy (f.busyOf x ring desc (if carriesBulk (u8 desc 0) then leNat desc 24 4 else 0) false) := by
  rw [cmdRow_steps hh hf hu hc ht, startReady_refused ((withBusy_admits _).trans (by rw [admits, hhalt]; simp)), withBusy_waits hu]

theorem cmdRow_ignored (hh : f.hears true x = true) (hf : formOk x 0x01 true = true) (hu : f.unburdened = true) (ht : f.takesCmds = false) :
    f.cmdRow x ring desc = f.took true x := by
  obtain ⟨hb, hw, ha, hr⟩ := unburdened_spec hu
  obtain ⟨h1, h2, h3, h4, -⟩ := took_stays f true x
  refine recv_free hh hf (if_pos ?_) (h2.trans hw) (h3.trans ha) (h4.trans hr) (h1.trans hb)
  rw [takesCmds_of (took_sec f true x) (took_coreOn f true x), ht]
  rfl

theorem fcmdOf_nop (h : u8 desc 0 = 0) (pay : Bytes) : fcmdOf desc pay = some .nop := by
  unfold fcmdOf
  dsimp only
  rw [h]
  exact if_pos rfl

theorem behindWaiting_of {g : Field} (h : g.firn = f.firn) (r : CmdRef) : g.behindWaiting r = f.behindWaiting r := by
  rw [behindWaiting, behindWaiting, h]

theorem done_busy (f : Field) (r : CmdRef) : (f.done r).prt.busy = f.prt.busy.filter (fun b => b.ref ≠ r) :=
  (enqueue_busy _ _ _).trans rfl

theorem runCmd_nop {r : CmdRef} (hr : f.anyRole r.part = true) (hw : f.behindWaiting r = false) : f.runCmd r .nop = f.done r := by
  unfold runCmd
  dsimp only
  rw [if_neg (by rw [hw]; simp), if_neg (by simp [waitsFirn]), nop_eq, if_pos hr]

/-- A NOP that runs alone is answered, and nothing is in flight any more. -/
theorem nop_ends {b : Busy} (hb : f.prt.busy = [b]) (hrole : f.anyRole b.ref.part = true) (hw : f.behindWaiting b.ref = false)
    (ha : f.prt.rstA = 0) (hr : f.prt.rstB = 0) :
    ((f.runCmd b.ref .nop).partSteps).answered b.ref .ok = true ∧ ((f.runCmd b.ref .nop).partSteps).prt.busy = [] := by
  rw [runCmd_nop hrole hw]
  have hfr := done_frame f b.ref
  rw [partSteps_idle (by rw [hfr]; exact ha) (by rw [hfr]; exact hr)]
  refine ⟨answered_of_answeredAs (done_answeredAs _ _), ?_⟩
  rw [done_busy, hb]
  simp

theorem cmdRow_nop (hh : f.hears true x = true) (hf : formOk x 0x01 true = true) (hu : f.unburdened = true) (hc : f.sec.ucodeFail = false)
    (ha : f.admits = true) (hrole : f.anyRole (partOf x) = true) (hop : u8 desc 0 = 0)
    (hw : f.behindWaiting (refOfDesc (partOf x) ring (bits x.tag 0 16) desc) = false) :
    let g := f.cmdRow x ring desc
    g.answered (refOfDesc (partOf x) ring (bits x.tag 0 16) desc) .ok = true ∧ g.prt.busy = [] := by
  have hrun := cmdRow_runs (ring := ring) hh hf hu hc ha (by rw [hop]; rfl) (fcmdOf_nop hop [])
  obtain ⟨-, -, hra, hrb⟩ := unburdened_spec hu
  obtain ⟨-, -, h3, h4, -⟩ := took_stays f true x
  dsimp only
  rw [hrun]
  refine nop_ends (b := f.busyOf x ring desc 0 true) rfl ?_ ((behindWaiting_of (took_firn f true x) _).trans hw) (h3.trans hra) (h4.trans hrb)
  have hset : (((f.took true x).withBusy (f.busyOf x ring desc 0 true)).dropBulk x.tag).prt.setup = f.prt.setup := took_setup f true x
  rw [anyRole, roles, hset]
  exact hrole

/-! ### Tunnelled accesses (R368, R377) -/

theorem seqRuns_of {g : Field} (hs : g.sec = f.sec) (hc : g.coreOn = f.coreOn) : g.seqRuns = f.seqRuns := by rw [seqRuns, seqRuns, hs, hc]

theorem tunRdRow_eq (hh : f.hears true x = true) (hf : formOk x 0x02 true = true) (hd : bit x.part 7 = false) (hs : f.seqRuns = true) (off : Word) :
    f.tunRdRow x off = (((f.took true x).regRead (partOf x) off.toNat).2.tunCpl ((partOf x).setWidth 8) x.tag
      ((f.took true x).regRead (partOf x) off.toNat).1).linkSteps := by
  unfold tunRdRow
  rw [recv_good _ hh hf, if_neg (by rw [hd]; simp), takeTun, if_pos ((seqRuns_of (took_sec f true x) (took_coreOn f true x)).trans hs)]
  rfl

theorem tunWrRow_eq (hh : f.hears true x = true) (hf : formOk x 0x03 true = true) (hd : bit x.part 7 = false) (hs : f.seqRuns = true) (off v : Word) :
    f.tunWrRow x off v = (((f.took true x).regWrite (partOf x) off.toNat v).tunCpl ((partOf x).setWidth 8) x.tag
      (if off.toNat = 0x16118 then fldN (((f.took true x).regWrite (partOf x) off.toNat v).cmpItv 1) 0 else 0)).linkSteps := by
  unfold tunWrRow
  rw [recv_good _ hh hf, if_neg (by rw [hd]; simp), takeTun, if_pos ((seqRuns_of (took_sec f true x) (took_coreOn f true x)).trans hs)]
  rfl

/-- A device write of a set-up word takes its partition's set-up. -/
theorem devWrite_setup (g : Field) (n : Part) (v : Word) :
    g.devWrite (BitVec.ofNat 32 (0x30200 + 4 * n.toNat)).toNat v = { g with prt := { g.prt with setup := tabSet 0 g.prt.setup n.toNat v } } := by
  have hn : (BitVec.ofNat 32 (0x30200 + 4 * n.toNat)).toNat = 0x30200 + 4 * n.toNat := by
    rw [BitVec.toNat_ofNat, Nat.mod_eq_of_lt (by have := n.isLt; omega)]
  have hk : (0x30200 + 4 * n.toNat - 0x30200) / 4 = n.toNat := by omega
  unfold devWrite
  rw [hn, if_pos (by have := n.isLt; simp; omega), hk]

theorem tunWrRow_setup (hh : f.hears true x = true) (hf : formOk x 0x03 true = true) (hu : f.unburdened = true) (hc : f.sec.ucodeFail = false)
    (hd : bit x.part 7 = true) (n : Part) (v : Word) :
    let g := f.tunWrRow x (BitVec.ofNat 32 (0x30200 + 4 * n.toNat)) v
    tabGet 0 g.prt.setup n.toNat = v ∧ (∀ m : Part, m ≠ n → tabGet 0 g.prt.setup m.toNat = tabGet 0 f.prt.setup m.toNat) := by
  obtain ⟨hb, hw, ha, hr⟩ := unburdened_spec hu
  obtain ⟨h1, h2, h3, h4, -⟩ := took_stays f true x
  have hgo : (if bit x.part 7 then (if (f.took true x).sec.ucodeFail then f.took true x
      else (f.took true x).devWrite (BitVec.ofNat 32 (0x30200 + 4 * n.toNat)).toNat v)
      else (f.took true x).takeTun { part := partOf x, tag := x.tag, off := BitVec.ofNat 32 (0x30200 + 4 * n.toNat), value := some v }) =
      { f.took true x with prt := { (f.took true x).prt with setup := tabSet 0 (f.took true x).prt.setup n.toNat v } } := by
    rw [if_pos hd, if_neg (by rw [took_sec, hc]; simp), devWrite_setup]
  have he := recv_free (go := fun g => if bit x.part 7 then (if g.sec.ucodeFail then g
      else g.devWrite (BitVec.ofNat 32 (0x30200 + 4 * n.toNat)).toNat v)
      else g.takeTun { part := partOf x, tag := x.tag, off := BitVec.ofNat 32 (0x30200 + 4 * n.toNat), value := some v }) hh hf
    hgo (by exact h2.trans hw) (by exact h3.trans ha) (by exact h4.trans hr) (by exact h1.trans hb)
  dsimp only
  unfold tunWrRow
  rw [he]
  refine ⟨tabGet_tabSet_same _ _ _ _, fun m hm => ?_⟩
  rw [← took_setup f true x]
  exact tabGet_tabSet_other _ _ _ (fun h => hm (BitVec.eq_of_toNat_eq h.symm))

theorem keepaliveRow_spec (hh : f.hears true x = true) (hf : formOk x 0x05 true = true) (hu : f.unburdened = true) :
    let g := f.keepaliveRow x
    g = f.took true x ∧ g.trn.tLast = f.now ∧ g.trn.ctl.expect = f.trn.ctl.expect + 1 ∧ g.out = f.out ++ [linkAckOut true x.seq] := by
  obtain ⟨hb, hw, ha, hr⟩ := unburdened_spec hu
  obtain ⟨h1, h2, h3, h4, -⟩ := took_stays f true x
  dsimp only
  have he : f.keepaliveRow x = f.took true x :=
    recv_free (go := fun f => f) hh hf rfl (h2.trans hw) (h3.trans ha) (h4.trans hr) (h1.trans hb)
  rw [he, took, heard_eq (hears_spec hh).1]
  refine ⟨rfl, rfl, ?_, rfl⟩
  show (ackHalf _ x.ack f.now).1.expect = _
  unfold ackHalf
  split <;> rfl

/-! ### PART resets (R386) -/

theorem partClear_evq (g : Field) (n : Part) :
    ((g.partClear n).evq n).q = [] ∧ ((g.partClear n).evq n).dropped = 0 ∧ ((g.partClear n).evq n).heldDone = [] := by
  have h : (g.partClear n).evq n = { g.evq n with q := [], dropped := 0, heldDone := [] } := evq_setEvq_same g n _
  rw [h]
  exact ⟨rfl, rfl, rfl⟩

theorem sendCtl_prt (g : Field) (m : Msg) : (g.sendCtl m).prt = g.prt := by
  unfold sendCtl
  dsimp only
  split
  · rw [emit_msgOut]
    split <;> rfl
  · rfl

theorem fstate_prt (g : Field) (c : FCode) (k p : Byte) : (g.fstate c k p).prt = g.prt := by
  unfold fstate
  split
  · exact sendCtl_prt _ _
  · rfl

theorem sendCtl_nev (g : Field) (m : Msg) : (g.sendCtl m).nev = g.nev := (sendCtl_stands g m).1
theorem fstate_nev (g : Field) (c : FCode) (k p : Byte) : (g.fstate c k p).nev = g.nev := (fstate_stands g c k p).1

/-- What the reset of p leaves: the queue of its partition is empty, no reset waits for its first step, and no channel has changed. -/
structure Emptied (f : Field) (p : Part) (g : Field) : Prop where
  evq : (g.evq p).q = [] ∧ (g.evq p).dropped = 0 ∧ (g.evq p).heldDone = []
  first : ∀ n : Part, bit g.prt.rstA n.toNat = false
  second : ∀ n : Part, n ≠ p → bit g.prt.rstB n.toNat = false
  nev : g.nev = f.nev

/-- The partition's step of a reset whose records nothing holds back. -/
theorem partStep_resets {g : Field} {p : Part} (hb : g.prt.busy = []) (ha : ∀ n : Part, bit g.prt.rstA n.toNat = decide (n = p))
    (hr : ∀ n : Part, bit g.prt.rstB n.toNat = false) : Emptied g p (g.partStep p) := by
  set f1 : Field := { g.partClear p with prt := { (g.partClear p).prt with
    rstA := (g.partClear p).prt.rstA &&& ~~~((1 : BitVec 4) <<< p.toNat), rstB := (g.partClear p).prt.rstB ||| (1 : BitVec 4) <<< p.toNat } } with hf1
  have hne : ∀ {n : Part}, n ≠ p → n.toNat ≠ p.toNat := fun h e => h (BitVec.eq_of_toNat_eq e)
  have h1 : Emptied g p f1 := by
    refine ⟨partClear_evq g p, fun n => ?_, fun n hn => ?_, rfl⟩
    · refine (bit_clear g.prt.rstA p.toNat n.toNat).trans ?_
      rw [ha]
      by_cases h : n = p <;> simp [h]
    · refine (bit_set g.prt.rstB p.toNat n.toNat).trans ?_
      rw [hr]
      simp [hne hn]
  have heq : g.partStep p = if bit f1.prt.rstB p.toNat && f1.trn.st = .up && !f1.keptOf p then
      ({ f1 with prt := { f1.prt with rstB := f1.prt.rstB &&& ~~~((1 : BitVec 4) <<< p.toNat) } } : Field).fstate .partDone 6 (p.setWidth 8)
      else f1 := by
    unfold partStep
    have hc : (bit g.prt.rstA p.toNat && !g.prt.busy.any (fun b => g.holdsReset p b)) = true := by rw [ha, hb]; simp
    rw [if_pos hc]
  rw [heq]
  obtain ⟨h2, h3, h4, h5⟩ := h1
  clear_value f1
  split
  · refine ⟨?_, fun n => ?_, fun n hn => ?_, (fstate_nev _ _ _ _).trans h5⟩
    · rw [evq, fstate_prt]
      exact h2
    · rw [fstate_prt]
      exact h3 n
    · rw [fstate_prt]
      refine (bit_clear f1.prt.rstB p.toNat n.toNat).trans ?_
      rw [h4 n hn]
      rfl
  · exact ⟨h2, h3, h4, h5⟩

theorem partSteps_other {p : Part} (l : List Part) (hl : p ∉ l) {g : Field} (ha : ∀ n : Part, n ≠ p → bit g.prt.rstA n.toNat = false)
    (hr : ∀ n : Part, n ≠ p → bit g.prt.rstB n.toNat = false) : l.foldl (fun (h : Field) n => h.partStep n) g = g := by
  induction l with
  | nil => rfl
  | cons n l ih =>
    have hn : n ≠ p := fun h => hl (h ▸ List.mem_cons_self)
    rw [List.foldl_cons, partStep_idle n (ha n hn) (hr n hn)]
    exact ih fun h => hl (List.mem_cons_of_mem _ h)

theorem part_listed (p : Part) : p ∈ ([0, 1, 2, 3] : List Part) := by revert p; decide

theorem partSteps_reset {g : Field} {p : Part} (hb : g.prt.busy = []) (ha : ∀ n : Part, bit g.prt.rstA n.toNat = decide (n = p))
    (hr : ∀ n : Part, bit g.prt.rstB n.toNat = false) : Emptied g p g.partSteps := by
  obtain ⟨l1, l2, hl⟩ := List.append_of_mem (part_listed p)
  have hnd : (p :: (l1 ++ l2)).Nodup := List.nodup_middle.1 (hl ▸ by decide)
  obtain ⟨hp, -⟩ := List.nodup_cons.1 hnd
  rw [List.mem_append, not_or] at hp
  have hs := partStep_resets hb ha hr
  rw [partSteps, hl, List.foldl_append, List.foldl_cons,
    partSteps_other l1 hp.1 (fun n hn => (ha n).trans (decide_eq_false hn)) (fun n _ => hr n),
    partSteps_other l2 hp.2 (fun n _ => hs.first n) hs.second]
  exact hs

theorem partRstRow_spec (hh : f.hears true x = true) (hf : formOk x 0x04 true = true) (hu : f.unburdened = true) (hc : f.sec.ucodeFail = false) :
    let g := f.partRstRow x
    (g.evq (partOf x)).q = [] ∧ (g.evq (partOf x)).dropped = 0 ∧ (g.evq (partOf x)).heldDone = [] ∧ bit g.prt.rstA (partOf x).toNat = false ∧
      g.nev = f.nev := by
  obtain ⟨hb, hw, ha, hr⟩ := unburdened_spec hu
  obtain ⟨h1, h2, h3, h4, -⟩ := took_stays f true x
  set k : Field := { f.took true x with prt := { (f.took true x).prt with
    rstA := (f.took true x).prt.rstA ||| (1 : BitVec 4) <<< (partOf x).toNat } } with hk
  have hka : ∀ n : Part, bit k.prt.rstA n.toNat = decide (n = partOf x) := fun n => by
    refine (bit_set (f.took true x).prt.rstA (partOf x).toNat n.toNat).trans ?_
    rw [h3, ha, show bit (0 : BitVec 4) n.toNat = false from bit_zero 4 _]
    simp [BitVec.toNat_inj, n.isLt]
  have hkr : ∀ n : Part, bit k.prt.rstB n.toNat = false := fun n => by
    show bit (f.took true x).prt.rstB n.toNat = false
    rw [h4, hr]
    exact bit_zero 4 _
  have heq : f.partRstRow x = k.startReady.partSteps := by
    unfold partRstRow
    rw [recv_good _ hh hf]
    exact linkSteps_eq ((took_coreOn f true x).trans (coreOn_of_hears hh)) ((congrArg FSec.ucodeFail (took_sec f true x)).trans hc) (h2.trans hw)
  have hkb : k.prt.busy = [] := h1.trans hb
  have hkn : k.nev = f.nev := took_nev f true x
  clear_value k
  obtain ⟨⟨e1, e2, e3⟩, ef, -, en⟩ := partSteps_reset hkb hka hkr
  dsimp only
  rw [heq, startReady_free hkb]
  exact ⟨e1, e2, e3, ef _, en.trans hkn⟩

/-! ### Payloads (R362) -/

theorem bulkLate_of {g : Field} (h1 : g.trn.bulk = f.trn.bulk) (h2 : g.mer = f.mer) (b : Busy) : g.bulkLate b = f.bulkLate b := by
  rw [bulkLate, bulkLate, bulkOf_of h1, now, now, h2]

/-- The die with a piece of a payload. -/
def withPiece (f : Field) (tag : BitVec 32) (off : Word) (data : Bytes) : Field :=
  { f with trn := { f.trn with bulk := f.trn.bulk ++ [(tag, off.toNat, data)] } }

theorem withPiece_idle (g : Field) (tag : BitVec 32) (off : Word) (data : Bytes) :
    (g.withPiece tag off data).trn.tunWait = g.trn.tunWait ∧ (g.withPiece tag off data).prt = g.prt ∧
      (g.withPiece tag off data).sec = g.sec ∧ (g.withPiece tag off data).coreOn = g.coreOn := ⟨rfl, rfl, rfl, rfl⟩

theorem bulkRow_held (hh : f.hears false x = true) (hf : formOk x 0xC1 false = true) (hw : f.trn.tunWait = []) (ha : f.prt.rstA = 0)
    (hr : f.prt.rstB = 0) (hb : f.prt.busy = []) (off : Word) (data : Bytes) :
    f.bulkRow x off data = (f.took false x).withPiece x.tag off data := by
  obtain ⟨h1, h2, h3, h4, -⟩ := took_stays f false x
  have hgo : (f.took false x).takeBulk x.tag off data = (f.took false x).withPiece x.tag off data := by
    refine if_neg ?_
    rw [h1.trans hb]
    simp
  unfold bulkRow
  rw [recv_good _ hh hf, hgo]
  obtain ⟨kw, kp, -, -⟩ := withPiece_idle (f.took false x) x.tag off data
  exact linkSteps_idle (by rw [kw, h2, hw]) (by rw [kp, h3, ha]) (by rw [kp, h4, hr]) (by rw [kp, h1, hb])

theorem bulkRow_runs (hh : f.hears false x = true) (hf : formOk x 0xC1 false = true) (hw : f.trn.tunWait = [])
    {b : Busy} {c : FCmd} (hb : f.prt.busy = [b]) (ht : b.linkTag = x.tag) (hs : b.started = false)
    (hlate : f.bulkLate b = false) (hadm : f.admits = true) {off : Word} {data : Bytes}
    (hlen : b.need ≤ (((f.took false x).withPiece x.tag off data).bulkOf x.tag).length)
    (hc : fcmdOf b.ops ((((f.took false x).withPiece x.tag off data).bulkOf x.tag).take b.need) = some c) :
    f.bulkRow x off data =
      (((((f.took false x).withPiece x.tag off data).withBusy { b with started := true }).dropBulk x.tag).runCmd b.ref c).partSteps := by
  obtain ⟨h1, h2, -, -, h5⟩ := took_stays f false x
  have hgo : (f.took false x).takeBulk x.tag off data = (f.took false x).withPiece x.tag off data := by
    refine if_neg ?_
    rw [h1.trans hb]
    simp only [List.any_cons, List.any_nil, bulkLate_of h5 (took_mer f false x), hlate, Bool.and_false, Bool.or_false]
    simp
  obtain ⟨kw, kp, ks, kc⟩ := withPiece_idle (f.took false x) x.tag off data
  have hkadm : ((f.took false x).withPiece x.tag off data).admits = true :=
    (admits_of (ks.trans (took_sec f false x)) (kc.trans (took_coreOn f false x))).trans hadm
  have hku : ((f.took false x).withPiece x.tag off data).sec.ucodeFail = false := by
    rw [admits] at hkadm
    revert hkadm
    cases ((f.took false x).withPiece x.tag off data).sec.ucodeFail <;> simp
  have hkc : ((f.took false x).withPiece x.tag off data).coreOn = true :=
    (kc.trans (took_coreOn f false x)).trans (coreOn_of_hears hh)
  have hkb : ((f.took false x).withPiece x.tag off data).prt.busy = [b] := by rw [kp, h1, hb]
  have hkw : ((f.took false x).withPiece x.tag off data).trn.tunWait = [] := by rw [kw, h2, hw]
  unfold bulkRow
  rw [recv_good _ hh hf, hgo]
  generalize (f.took false x).withPiece x.tag off data = k at *
  rw [linkSteps_eq hkc hku hkw, startReady_one hkadm hkb hs, if_pos (by rw [ht]; exact hlen), startCmd_one hkb (by rw [ht]; exact hc), ht]
  rfl
end

end Field

open Sys2Proof.Machine.Field

/-- Settles O50: a message is refused, counted, or taken, and then what waits on the link goes on, one command at most. -/
theorem messagesReachTheField : Obligations.MessagesReachTheField := by
  unfold Obligations.MessagesReachTheField
  intro s x
  refine ⟨fun hl hh => ⟨fun ring desc => ?_, fun off => ?_, fun off v => ?_, ?_, ?_⟩, fun hl hh off data => ?_,
    fun hh => ⟨fun hf ring desc => ?_, fun hf off => ?_, fun hf off v => ?_, fun hf => ?_, fun hf => ?_⟩, fun hh hf off data => ?_,
    fun hh hu hc => ⟨fun hf ring desc => ⟨fun c ha hb hcmd => ?_, fun ha hr hop hw => ?_, fun ha hb hlen => ?_, fun ht hhalt => ?_, fun ht => ?_⟩,
      fun hf hd hs off => ?_, fun hf => ⟨fun hd hs off v => ?_, fun hd n v => ?_⟩, fun hf => ?_, fun hf => ?_⟩,
    fun hh hf hw ha hr off data => ⟨fun hb => ?_, fun b c hb ht hs hlate hadm hlen hc => ?_⟩⟩
  · exact s.endsField_of_exec (op := fun f => f.cmdRow x ring desc) rfl (recv_refused _ _ hl hh)
  · exact s.endsField_of_exec (op := fun f => f.tunRdRow x off) rfl (recv_refused _ _ hl hh)
  · exact s.endsField_of_exec (op := fun f => f.tunWrRow x off v) rfl (recv_refused _ _ hl hh)
  · exact s.endsField_of_exec (op := fun f => f.partRstRow x) rfl (recv_refused _ _ hl hh)
  · exact s.endsField_of_exec (op := fun f => f.keepaliveRow x) rfl (recv_refused _ _ hl hh)
  · exact s.endsField_of_exec (op := fun f => f.bulkRow x off data) rfl (recv_refused _ _ hl hh)
  · exact s.endsField_of_exec (op := fun f => f.cmdRow x ring desc) rfl (recv_bad _ hh hf)
  · exact s.endsField_of_exec (op := fun f => f.tunRdRow x off) rfl (recv_bad _ hh hf)
  · exact s.endsField_of_exec (op := fun f => f.tunWrRow x off v) rfl (recv_bad _ hh hf)
  · exact s.endsField_of_exec (op := fun f => f.partRstRow x) rfl (recv_bad _ hh hf)
  · exact s.endsField_of_exec (op := fun f => f.keepaliveRow x) rfl (recv_bad _ hh hf)
  · exact s.endsField_of_exec (op := fun f => f.bulkRow x off data) rfl (recv_bad _ hh hf)
  · exact s.endsField_of_exec (op := fun f => f.cmdRow x ring desc) rfl (cmdRow_runs hh hf hu hc ha hb hcmd)
  · exact s.endsField_of_exec (op := fun f => f.cmdRow x ring desc) rfl (cmdRow_nop hh hf hu hc ha hr hop hw)
  · exact s.endsField_of_exec (op := fun f => f.cmdRow x ring desc) rfl (cmdRow_waits hh hf hu hc ha hb hlen)
  · exact s.endsField_of_exec (op := fun f => f.cmdRow x ring desc) rfl ⟨_, cmdRow_halted hh hf hu hc ht hhalt⟩
  · exact s.endsField_of_exec (op := fun f => f.cmdRow x ring desc) rfl (cmdRow_ignored hh hf hu ht)
  · exact s.endsField_of_exec (op := fun f => f.tunRdRow x off) rfl (tunRdRow_eq hh hf hd hs off)
  · exact s.endsField_of_exec (op := fun f => f.tunWrRow x off v) rfl (tunWrRow_eq hh hf hd hs off v)
  · exact s.endsField_of_exec (op := fun f => f.tunWrRow x (BitVec.ofNat 32 (0x30200 + 4 * n.toNat)) v) rfl (tunWrRow_setup hh hf hu hc hd n v)
  · exact s.endsField_of_exec (op := fun f => f.partRstRow x) rfl (partRstRow_spec hh hf hu hc)
  · exact s.endsField_of_exec (op := fun f => f.keepaliveRow x) rfl (keepaliveRow_spec hh hf hu)
  · refine s.endsField_of_exec (op := fun f => f.bulkRow x off data) rfl ?_
    beta_reduce
    have h := bulkRow_held hh hf hw ha hr hb off data
    rw [took] at h
    generalize (s.f.heard false x).takeLinkAck false x.ack = t at h ⊢
    exact h
  · refine s.endsField_of_exec (op := fun f => f.bulkRow x off data) rfl ?_
    beta_reduce at hlen hc ⊢
    have h := bulkRow_runs (c := c) (off := off) (data := data) hh hf hw hb ht hs hlate hadm
    rw [took] at h
    generalize (s.f.heard false x).takeLinkAck false x.ack = t at h hlen hc ⊢
    exact h hlen hc

end Sys2Proof.Machine
end

section
/-! PROOF. What the host die tells the field die, and the security block (R474 to R491). -/
namespace Sys2Proof.Machine
set_option Elab.async false

namespace HDie

/-! ### Telling the field die changes the link, the output and the held records alone -/

/-- h with the half of Transit, the output and the held log records of g. -/
def withTold (h g : HDie) : HDie :=
  { h with trn := g.trn, out := g.out, sec := { h.sec with log := g.sec.log, logDrop := g.sec.logDrop } }

theorem told_of_link {h g : HDie} (hg : g = h.withLink g) : g = h.withTold g := by rw [hg]; rfl

theorem told_trans {f g k : HDie} (hg : g = f.withTold g) (hk : k = g.withTold k) : k = f.withTold k := by rw [hk, hg]; rfl

theorem devWr_link (h : HDie) (off v : Word) : h.devWr off v = h.withLink (h.devWr off v) := sendCtl_link h _

theorem devWrs_link (h : HDie) (ws : List (Word × Word)) :
    ws.foldl (fun (g : HDie) w => g.devWr w.1 w.2) h = h.withLink (ws.foldl (fun (g : HDie) w => g.devWr w.1 w.2) h) :=
  link_foldl (fun g w => devWr_link g w.1 w.2) h ws

theorem devKeep_link (h : HDie) (ws : List (Word × Word)) : h.devKeep ws = h.withLink (h.devKeep ws) := by
  unfold devKeep
  split
  · exact devWrs_link h ws
  · rfl

theorem tellSec_link (h : HDie) (level : BitVec 4) : h.tellSec level = h.withLink (h.tellSec level) := by
  unfold tellSec
  split
  · exact devWr_link h _ _
  · rfl

theorem tellDbg_link (h : HDie) : h.tellDbg = h.withLink h.tellDbg := by
  unfold tellDbg
  split
  · exact devWr_link h _ _
  · rfl

theorem log_told (h : HDie) (ty : Byte) (b : Bytes) : h.log ty b = h.withTold (h.log ty b) := by
  unfold log
  dsimp only
  split
  · exact told_of_link (devWrs_link h _)
  · split <;> rfl

/-- What telling leaves: the half of Transit, the output and the held records may be other ones. -/
theorem exists_of_told {h g : HDie} (hg : g = h.withTold g) :
    ∃ t o l d, g = { h with trn := t, out := o, sec := { h.sec with log := l, logDrop := d } } := ⟨_, _, _, _, hg⟩

/-! ### The ends of the commissioning state and of debug -/

theorem closeComm_spec (h : HDie) (c : Byte) : h.closeComm c = ({ h with sec := { h.sec with comm := none } } : HDie).withTold (h.closeComm c) := by
  unfold closeComm
  split
  next _ => exact told_trans (log_told _ _ _) (told_of_link (tellSec_link _ _))
  next hc =>
    obtain hn := Option.not_isSome_iff_eq_none.mp hc
    simp only [withTold, ← hn]

theorem endDbgF_spec (h : HDie) (c : Byte) : h.endDbgF c = ({ h with sec := { h.sec with dbgF := 0 } } : HDie).withTold (h.endDbgF c) := by
  unfold endDbgF
  split
  next hz => simp only [withTold, ← hz]
  next _ => exact told_trans (log_told _ _ _) (told_of_link (tellDbg_link _))

/-- The host TAP's authorisation ends, and EXTEST with it. -/
theorem endDbgH_spec (h : HDie) (c : Byte) : ∃ x, h.endDbgH c =
    ({ h with sec := { h.sec with dbgH := 0, extest := x } } : HDie).withTold (h.endDbgH c) := by
  unfold endDbgH
  split
  next hz => exact ⟨h.sec.extest, by simp only [withTold, ← hz]⟩
  next _ => exact ⟨false, log_told _ _ _⟩

/-! ### Presentations (R474 to R476) -/

/-- A refusal's count: the run and the lock-out follow the code. -/
theorem countRefusal_spec (h : HDie) (c : BitVec 4) : ∃ n, h.countRefusal c = { h with nvm := n, sec := { h.sec with
    run := if c = 5 ∨ c = 6 ∨ c = 7 then h.sec.run + 1 else h.sec.run,
    lockEnd := if (c = 5 ∨ c = 6 ∨ c = 7) ∧ 7 ≤ h.sec.run then some (h.t + 6000000000) else h.sec.lockEnd } } := by
  unfold countRefusal
  by_cases hc : c = 5 ∨ c = 6 ∨ c = 7
  · have hb : (decide (c = 5) || decide (c = 6) || decide (c = 7)) = true := by simpa [or_assoc] using hc
    have hr : 8 ≤ h.sec.run + 1 ↔ 7 ≤ h.sec.run := by omega
    simp only [hb, if_true, hc, true_and, hr]
    exact ⟨_, rfl⟩
  · have hb : ¬ (decide (c = 5) || decide (c = 6) || decide (c = 7)) = true := by simpa [or_assoc] using hc
    simp only [if_neg hb, hc, false_and, if_false]
    exact ⟨h.nvm, rfl⟩

/-- A refused presentation. -/
theorem present_refused {h : HDie} {p : Part} {a : TokAct} {c : BitVec 4} (go : HDie → Bytes → HDie) (hon : h.linkOn = true)
    (hc : firstFail (h.tokChecks p a (pad 128 (h.hp p).token)) = some c) :
    ((h.present p a go).hp p).result = c ∧ ∃ l d, (h.present p a go).sec = { h.sec with
      log := l, logDrop := d, refused := satAdd h.sec.refused 1, chal := h.sec.chal + 1, tChal := h.t,
      run := if c = 5 ∨ c = 6 ∨ c = 7 then h.sec.run + 1 else h.sec.run,
      lockEnd := if (c = 5 ∨ c = 6 ∨ c = 7) ∧ 7 ≤ h.sec.run then some (h.t + 6000000000) else h.sec.lockEnd } := by
  unfold present
  simp only [hon, hc, Bool.not_true, Bool.false_eq_true, if_false]
  refine ⟨by rw [setLast, hp_modHp_same], ?_⟩
  obtain ⟨n, hn⟩ := countRefusal_spec { h with sec := { h.sec with refused := satAdd h.sec.refused 1 } } c
  generalize HDie.countRefusal _ c = k at hn ⊢
  obtain ⟨t, o, l, d, hl⟩ := exists_of_told (log_told k 0x22 [u8 (pad 128 (h.hp p).token) 0, c.setWidth 8, p.setWidth 8])
  rw [hl, hn]
  exact ⟨l, d, rfl⟩

/-- The die once a token is accepted, before its effect. -/
def admitted (h : HDie) (p : Part) (t : Bytes) : HDie :=
  ((({ h with sec := { h.sec with accepted := satAdd h.sec.accepted 1, run := 0 } } : HDie).saveCounts).log 0x21
    (t.take 4 ++ [p.setWidth 8])).newChal

theorem present_accepted {h : HDie} {p : Part} {a : TokAct} (go : HDie → Bytes → HDie) (hon : h.linkOn = true)
    (hc : firstFail (h.tokChecks p a (pad 128 (h.hp p).token)) = none) :
    h.present p a go = go (h.admitted p (pad 128 (h.hp p).token)) (pad 128 (h.hp p).token) := by
  unfold present
  simp only [hon, hc, Bool.not_true, Bool.false_eq_true, if_false]
  rfl

theorem admitted_spec (h : HDie) (p : Part) (t : Bytes) : ∃ n tr o l d, h.admitted p t = { h with
    trn := tr, out := o, nvm := n, sec := { h.sec with
      log := l, logDrop := d, accepted := satAdd h.sec.accepted 1, run := 0, chal := h.sec.chal + 1, tChal := h.t } } := by
  unfold admitted
  obtain ⟨tr, o, l, d, hl⟩ := exists_of_told (log_told
    (({ h with sec := { h.sec with accepted := satAdd h.sec.accepted 1, run := 0 } } : HDie).saveCounts) 0x21 (t.take 4 ++ [p.setWidth 8]))
  rw [hl]
  exact ⟨_, tr, o, l, d, rfl⟩

/-- A presentation draws the next challenge, refused or not, where the action itself leaves it. -/
theorem present_chal {h : HDie} {p : Part} {a : TokAct} {go : HDie → Bytes → HDie} (hon : h.linkOn = true)
    (hgo : ∀ g t, (go g t).sec.chal = g.sec.chal) : (h.present p a go).sec.chal = h.sec.chal + 1 := by
  cases hc : firstFail (h.tokChecks p a (pad 128 (h.hp p).token)) with
  | none =>
    rw [present_accepted go hon hc, hgo]
    obtain ⟨n, tr, o, l, d, hg⟩ := admitted_spec h p (pad 128 (h.hp p).token)
    rw [hg]
  | some c =>
    obtain ⟨-, l, d, hs⟩ := present_refused go hon hc
    rw [hs]

end HDie
end Sys2Proof.Machine
end

section
/-! PROOF. Settling O54: the security block decides (R474 to R491). -/
namespace Sys2Proof.Machine
set_option Elab.async false

namespace HDie
variable {h : HDie} {p : Part}

/-! ### The tokens' actions -/

/-- The checks of a COMMISSION whose token names this part, this challenge and a time: the signature alone is left. -/
theorem commission_checks {t key : Bytes} (hl : h.sec.life = 1 ∨ h.sec.life = 2) (hkey : h.sec.keyLost = false) (hb : h.sec.busy = none)
    (he : h.sec.lockEnd = none) (hc : h.commissioner p = true) (h0 : u8 t 0 = 1) (h1 : u8 t 1 = 0) (hm : 1 ≤ leNat t 2 2)
    (hm' : leNat t 2 2 ≤ 480) (hz : leNat t 28 4 = 0) (hs : slice t 4 8 = le 8 Config.serial) (hch : slice t 12 16 = h.chalBytes)
    (ho : h.sec.owner = some key) :
    firstFail (h.tokChecks p .commission t) = if ecdsaVerify key (t.take 32) (slice t 32 64) then none else some 7 := by
  simpa [tokChecks, tokState, tokFields, tokSig, firstFail, TokAct.kind, hkey, hb, he, hc, h0, h1, hm, hm', hz, hs, hch, ho] using
    fun hn => hl.resolve_left hn

theorem commission_accepted (hon : h.linkOn = true) (hc : firstFail (h.tokChecks p .commission (pad 128 (h.hp p).token)) = none) :
    ((h.commission p).hp p).result = 1 ∧ (∃ q, (h.commission p).sec.comm = some (h.t + tokTicks (pad 128 (h.hp p).token), q) ∧
      (h.sec.comm = none → q = p)) ∧ (h.commission p).sec.accepted = satAdd h.sec.accepted 1 ∧ (h.commission p).sec.run = 0 ∧
      (h.commission p).sec.life = h.sec.life := by
  rw [commission, present_accepted _ hon hc]
  obtain ⟨n, tr, o, l, d, hg⟩ := admitted_spec h p (pad 128 (h.hp p).token)
  generalize h.admitted p (pad 128 (h.hp p).token) = g at hg ⊢
  refine ⟨by rw [setLast, hp_modHp_same], ?_⟩
  rw [setLast, modHp, setHp_sec, tellSec_link]
  rw [hg]
  exact ⟨⟨_, rfl, fun hn => by simp only [hn]⟩, rfl, rfl, rfl⟩

theorem commission_chal (hon : h.linkOn = true) : (h.commission p).sec.chal = h.sec.chal + 1 :=
  present_chal hon (fun g t => by rw [setLast, modHp, setHp_sec, tellSec_link]; rfl)

theorem debug_chal (hon : h.linkOn = true) : (h.debug p).sec.chal = h.sec.chal + 1 :=
  present_chal hon (fun g t => by dsimp only; rw [setLast, modHp, setHp_sec, tellDbg_link]; rfl)

theorem returnPart_chal (hon : h.linkOn = true) : (h.returnPart p).sec.chal = h.sec.chal + 1 := present_chal hon (fun _ _ => rfl)

theorem debug_accepted (hon : h.linkOn = true) (hc : firstFail (h.tokChecks p .debug (pad 128 (h.hp p).token)) = none) :
    let t := pad 128 (h.hp p).token
    (bit (u8 t 1) 0 = true → (h.debug p).sec.dbgF = bits (u8 t 1) 0 4 ∧ (h.debug p).sec.dbgDueF = h.t + tokTicks t) ∧
    (bit (u8 t 1) 1 = true → (h.debug p).sec.dbgH = bits (u8 t 1) 0 4 ∧ (h.debug p).sec.dbgDueH = h.t + tokTicks t) ∧
    ((h.debug p).hp p).result = 1 := by
  intro t
  have hb (i : Nat) (hi : i < 4) : bit (bits (u8 t 1) 0 4) i = bit (u8 t 1) i := by
    simp only [bit, bits, BitVec.getLsbD_extractLsb', hi, decide_true, Bool.true_and, Nat.zero_add]
  rw [debug, present_accepted _ hon hc]
  obtain ⟨n, tr, o, l, d, hg⟩ := admitted_spec h p t
  change _ ∧ _ ∧ _
  generalize h.admitted p (pad 128 (h.hp p).token) = g at hg ⊢
  dsimp only
  refine ⟨fun h0 => ?_, fun h1 => ?_, by rw [setLast, hp_modHp_same]⟩
  · rw [setLast, modHp, setHp_sec, tellDbg_link]
    simp only [withLink, ← hb 0 (by decide), t] at h0 ⊢
    simp only [h0, if_true, hg, and_self]
  · rw [setLast, modHp, setHp_sec, tellDbg_link]
    simp only [withLink, ← hb 1 (by decide), t] at h1 ⊢
    simp only [h1, if_true, hg, and_self]

theorem returnPart_life (hon : h.linkOn = true) : (h.returnPart p).sec.life = h.sec.life := by
  cases hc : firstFail (h.tokChecks p .ret (pad 128 (h.hp p).token)) with
  | none =>
    rw [returnPart, present_accepted _ hon hc]
    obtain ⟨n, tr, o, l, d, hg⟩ := admitted_spec h p (pad 128 (h.hp p).token)
    rw [hg]
    rfl
  | some c =>
    obtain ⟨-, l, d, hs⟩ := present_refused (fun g _ => g.transition p .ret 4 g.sec.bl) hon hc
    rw [returnPart, hs]

theorem returnPart_accepted (hon : h.linkOn = true) (hc : firstFail (h.tokChecks p .ret (pad 128 (h.hp p).token)) = none) :
    (h.returnPart p).sec.busy = some (p, .ret) ∧ ImgUpd.mk 1 [4, h.sec.bl.setWidth 8] ∈ (h.returnPart p).nvm.upd := by
  rw [returnPart, present_accepted _ hon hc]
  obtain ⟨n, tr, o, l, d, hg⟩ := admitted_spec h p (pad 128 (h.hp p).token)
  rw [hg]
  exact ⟨rfl, List.mem_append_right _ (List.mem_singleton.mpr rfl)⟩

/-- What a refused token leaves, and what it counts. -/
def refusedAs (h g : HDie) (p : Part) (c : BitVec 4) : Prop :=
  (g.hp p).result = c ∧ g.sec.comm = h.sec.comm ∧ g.sec.dbgF = h.sec.dbgF ∧ g.sec.dbgH = h.sec.dbgH ∧ g.sec.busy = h.sec.busy ∧
  g.sec.life = h.sec.life ∧ g.sec.chal = h.sec.chal + 1 ∧ g.sec.refused = satAdd h.sec.refused 1 ∧
  g.sec.run = (if c = 5 ∨ c = 6 ∨ c = 7 then h.sec.run + 1 else h.sec.run) ∧
  (c = 5 ∨ c = 6 ∨ c = 7 → 7 ≤ h.sec.run → g.sec.lockEnd = some (h.t + 6000000000))

theorem present_refusedAs {a : TokAct} {c : BitVec 4} (go : HDie → Bytes → HDie) (hon : h.linkOn = true)
    (hc : firstFail (h.tokChecks p a (pad 128 (h.hp p).token)) = some c) : h.refusedAs (h.present p a go) p c := by
  obtain ⟨hr, l, d, hs⟩ := present_refused go hon hc
  generalize h.present p a go = g at hr hs ⊢
  rw [refusedAs, hs]
  exact ⟨hr, rfl, rfl, rfl, rfl, rfl, rfl, rfl, rfl, fun h1 h2 => if_pos ⟨h1, h2⟩⟩

/-! ### The actions without a token -/

/-- An action whose checks pass goes on; one with a failed check leaves its code in LAST. -/
theorem act_none {role : Bool} {conds : List (Bool × BitVec 4)} {go : HDie → HDie} (hon : h.linkOn = true)
    (hc : firstFail ([(role, 2), (h.sec.busy.isNone, 10)] ++ conds) = none) : h.act p role conds go = go h := by
  simp only [act, hon, Bool.not_true, Bool.false_eq_true, if_false, hc]

theorem act_some {role : Bool} {conds : List (Bool × BitVec 4)} {go : HDie → HDie} {c : BitVec 4} (hon : h.linkOn = true)
    (hc : firstFail ([(role, 2), (h.sec.busy.isNone, 10)] ++ conds) = some c) : h.act p role conds go = h.setLast p c := by
  simp only [act, hon, Bool.not_true, Bool.false_eq_true, if_false, hc]

theorem commExit_mine {e : Count} (hon : h.linkOn = true) (hl : h.sec.life = 1 ∨ h.sec.life = 2) (hb : h.sec.busy = none)
    (hc : h.sec.comm = some (e, p)) : (h.commExit p).sec.comm = none ∧ ((h.commExit p).hp p).result = 1 := by
  rw [commExit, act_none hon (by simpa [firstFail, hb, hc] using fun hn => hl.resolve_left hn)]
  refine ⟨?_, by rw [setLast, hp_modHp_same]⟩
  rw [setLast, modHp, setHp_sec, closeComm_spec]
  rfl

theorem commExit_other {e : Count} {q : Part} (hon : h.linkOn = true) (hq : q ≠ p) (hb : h.sec.busy = none)
    (hc : h.sec.comm = some (e, q)) : h.commExit p = h.setLast p 3 := by
  rw [commExit, act_some (c := 3) hon (by simp [firstFail, hb, hc, hq])]

theorem debugEnd_spec (hon : h.linkOn = true) (hb : h.sec.busy = none) (hc : h.commissioner p = true) (hl : h.sec.life = 1 ∨ h.sec.life = 2) :
    (h.debugEnd p).sec.dbgF = 0 ∧ (h.debugEnd p).sec.dbgH = 0 ∧ ((h.debugEnd p).hp p).result = 1 ∧ (h.debugEnd p).sec.comm = h.sec.comm := by
  rw [debugEnd, act_none hon (by simpa [firstFail, hb, hc] using fun hn hm => absurd (hl.resolve_left hn) hm)]
  obtain ⟨x, hx⟩ := endDbgH_spec (h.endDbgF 2) 2
  have hs : (((h.endDbgF 2).endDbgH 2).setLast p 1).sec = ((h.endDbgF 2).endDbgH 2).sec := rfl
  refine ⟨?_, ?_, by rw [setLast, hp_modHp_same], ?_⟩ <;> rw [hs, hx, endDbgF_spec] <;> rfl

theorem debugExpiry_spec (hon : h.linkOn = true) :
    (h.sec.dbgDueF ≤ h.t → h.debugExpiry.sec.dbgF = 0) ∧ (h.sec.dbgDueH ≤ h.t → h.debugExpiry.sec.dbgH = 0) ∧
    (¬ h.sec.dbgDueF ≤ h.t → h.debugExpiry.sec.dbgF = h.sec.dbgF) ∧ (¬ h.sec.dbgDueH ≤ h.t → h.debugExpiry.sec.dbgH = h.sec.dbgH) ∧
    h.debugExpiry.sec.comm = h.sec.comm := by
  obtain ⟨b, hb0, hb1, k, hk, hkt⟩ : ∃ b, (h.sec.dbgDueF ≤ h.t → b = 0) ∧ (¬ h.sec.dbgDueF ≤ h.t → b = h.sec.dbgF) ∧
      ∃ k, (if h.sec.dbgDueF ≤ h.t then h.endDbgF 1 else h) = k ∧ k = ({ h with sec := { h.sec with dbgF := b } } : HDie).withTold k := by
    by_cases hF : h.sec.dbgDueF ≤ h.t
    · exact ⟨0, fun _ => rfl, fun hn => absurd hF hn, _, if_pos hF, endDbgF_spec h 1⟩
    · exact ⟨_, fun hy => absurd hy hF, fun _ => rfl, _, if_neg hF, rfl⟩
  have hdue : k.sec.dbgDueH = h.sec.dbgDueH ∧ k.t = h.t ∧ k.sec.dbgH = h.sec.dbgH ∧ k.sec.dbgF = b ∧ k.sec.comm = h.sec.comm := by
    rw [hkt]; exact ⟨rfl, rfl, rfl, rfl, rfl⟩
  obtain ⟨hd, ht, hH, hF, hc⟩ := hdue
  have he : h.debugExpiry = if h.sec.dbgDueH ≤ h.t then k.endDbgH 1 else k := by
    simp only [debugExpiry, hon, Bool.not_true, Bool.false_eq_true, if_false, hk, hd, ht]
  rw [he]
  by_cases hdH : h.sec.dbgDueH ≤ h.t
  · obtain ⟨x, hx⟩ := endDbgH_spec k 1
    rw [if_pos hdH, hx]
    exact ⟨fun hy => hF.trans (hb0 hy), fun _ => rfl, fun hn => hF.trans (hb1 hn), fun hn => absurd hdH hn, hc⟩
  · rw [if_neg hdH]
    exact ⟨fun hy => hF.trans (hb0 hy), fun hy => absurd hy hdH, fun hn => hF.trans (hb1 hn), fun _ => hH, hc⟩

/-! ### The transitions (R478, R487) -/

/-- h with an action begun that waits for the images us. -/
def begun (h : HDie) (p : Part) (a : SecAct) (us : List ImgUpd) : HDie :=
  { h with sec := { h.sec with busy := some (p, a) }, nvm := { h.nvm with upd := h.nvm.upd ++ us } }

theorem setOwner_begins (hon : h.linkOn = true) (hb : h.sec.busy = none) (hc : h.commissioner p = true) (hl : h.sec.life = 0)
    (hbl : h.sec.bl ≠ 0) (hk : h.sec.keyLost = false) (hv : keyValid (pad 64 (h.hp p).token) = true) :
    h.setOwner p = h.begun p .setOwner [ImgUpd.mk 0 (1 :: pad 64 (pad 64 (h.hp p).token)), ImgUpd.mk 1 [1, h.sec.bl.setWidth 8]] := by
  rw [setOwner, act_none hon (by simpa [firstFail, hb, hc, hl, hk, hv] using hbl)]
  simp only [transition, imgStart, begun, List.append_assoc]
  rfl

theorem fieldAct_begins (hon : h.linkOn = true) (hb : h.sec.busy = none) (hc : h.commissioner p = true) (hl : h.sec.life = 1)
    (hm : h.sec.comm.isSome = true) : h.fieldAct p true = h.begun p .field [ImgUpd.mk 1 [2, h.sec.bl.setWidth 8]] := by
  rw [fieldAct, act_none hon (by simp [firstFail, hb, hc, hl, hm])]
  rfl

theorem fieldAct_unconfirmed (hon : h.linkOn = true) (hb : h.sec.busy = none) (hc : h.commissioner p = true) (hl : h.sec.life = 1)
    (hm : h.sec.comm.isSome = true) : h.fieldAct p false = h.setLast p 11 := by
  rw [fieldAct, act_some (c := 11) hon (by simp [firstFail, hb, hc, hl, hm])]

theorem sealAct_begins (hon : h.linkOn = true) (hb : h.sec.busy = none) (hc : h.commissioner p = true) (hl : h.sec.life = 2)
    (hm : h.sec.comm.isSome = true) : h.sealAct p = h.begun p .sealed [ImgUpd.mk 1 [3, h.sec.bl.setWidth 8]] := by
  rw [sealAct, act_none hon (by simp [firstFail, hb, hc, hl, hm])]
  rfl

theorem setBl_first (hon : h.linkOn = true) (hb : h.sec.busy = none) (hc : h.commissioner p = true) (hbl : h.sec.bl = 0) (hl : h.sec.life = 0) :
    (h.setBl p 1 true).sec.busy = some (p, .setBl 1) ∧ ImgUpd.mk 1 [0, 1] ∈ (h.setBl p 1 true).nvm.upd ∧ (h.setBl p 1 true).sec.bl = 0 := by
  rw [setBl, act_none hon (by simp [firstFail, blState, blSupport, hb, hc, hl, hbl, bit]), devKeep_link]
  generalize h.devKeep _ = k
  simp only [transition, imgStart, withLink, hbl, hl]
  exact ⟨trivial, List.mem_append_right _ (List.mem_singleton.mpr rfl), trivial⟩

theorem setBl_unsafe (hon : h.linkOn = true) (hb : h.sec.busy = none) (hc : h.commissioner p = true) (level : BitVec 4) :
    h.setBl p level false = h.setLast p 3 := by
  rw [setBl, act_some (c := 3) hon (by simp [firstFail, blState, hb, hc])]

/-- An action without its role leaves the code 2. -/
theorem act_role {conds : List (Bool × BitVec 4)} {go : HDie → HDie} (hon : h.linkOn = true) (hc : h.commissioner p = false) :
    h.act p (h.commissioner p) conds go = h.setLast p 2 := act_some hon (by simp [firstFail, hc])

theorem setOwner_role (hon : h.linkOn = true) (hc : h.commissioner p = false) : h.setOwner p = h.setLast p 2 := by
  rw [setOwner, act_role hon hc]
theorem fieldAct_role (b : Bool) (hon : h.linkOn = true) (hc : h.commissioner p = false) : h.fieldAct p b = h.setLast p 2 := act_role hon hc
theorem sealAct_role (hon : h.linkOn = true) (hc : h.commissioner p = false) : h.sealAct p = h.setLast p 2 := act_role hon hc
theorem setBl_role (level : BitVec 4) (b : Bool) (hon : h.linkOn = true) (hc : h.commissioner p = false) :
    h.setBl p level b = h.setLast p 2 := act_role hon hc

theorem attest_spec (b : Bytes) (hon : h.linkOn = true) (hb : h.sec.busy = none) (hk : h.sec.keyLost = false) :
    let st := h.statement ((h.hp p).token.take 16) b
    ((h.attest p b).hp p).token = st ++ pad 64 (Config.ecdsaSign st) ∧ ((h.attest p b).hp p).result = 1 ∧ (h.attest p b).sec = h.sec ∧
    (∀ q, q ≠ p → (h.attest p b).hp q = h.hp q) := by
  intro st
  rw [attest, act_none hon (by simp [firstFail, hb, hk])]
  refine ⟨by simp [setLast, st], by simp [setLast], rfl, fun q hq => ?_⟩
  rw [setLast, hp_modHp_other _ _ hq.symm, hp_modHp_other _ _ hq.symm]

/-! ### The expiries -/

theorem commExpiry_due {e : Count} {q : Part} (hon : h.linkOn = true) (hc : h.sec.comm = some (e, q)) (he : e ≤ h.t) :
    h.commExpiry.sec.comm = none ∧ h.commExpiry.part = h.part := by
  have hx : h.commExpiry = h.closeComm 1 := by simp [commExpiry, hc, hon, he]
  rw [hx, closeComm_spec]
  exact ⟨rfl, rfl⟩

theorem commExpiry_later {e : Count} {q : Part} (hc : h.sec.comm = some (e, q)) (he : ¬ e ≤ h.t) : h.commExpiry = h := by
  simp [commExpiry, hc, he]

end HDie

open HDie in
/-- Settles O54: the tokens by what a presentation does, the other actions by their checks, and each expiry by its due time. -/
theorem securityDecides : Obligations.SecurityDecides := by
  unfold Obligations.SecurityDecides
  intro s p hon t k
  refine ⟨fun hl hkey hb he hc h0 h1 hm hm' hz hs hch key ho => ?_, ⟨_, rfl, debug_chal hon, debug_accepted hon⟩,
    ⟨_, rfl, returnPart_chal hon, returnPart_life hon, returnPart_accepted hon⟩, fun a c hc => ?_,
    fun e hl hb hc => ⟨_, rfl, commExit_mine hon hl hb hc⟩, fun e q hq hb hc => ⟨_, rfl, commExit_other hon hq hb hc⟩,
    fun hb hc hl => ⟨_, rfl, debugEnd_spec hon hb hc hl⟩, fun hb hc => ?_, fun hc level => ?_,
    fun hb hk => ⟨_, rfl, attest_spec _ hon hb hk⟩,
    fun e q hc => ⟨fun he => ⟨_, rfl, commExpiry_due hon hc he⟩, fun he => ⟨_, rfl, commExpiry_later hc he⟩⟩,
    ⟨_, rfl, debugExpiry_spec hon⟩, fun hd => ⟨_, rfl, ?_⟩, fun e hl he => ⟨_, rfl, ?_⟩⟩
  · have hchecks := commission_checks (t := t) hl hkey hb he hc h0 h1 hm hm' hz hs hch ho
    cases hv : ecdsaVerify key (t.take 32) (slice t 32 64) with
    | true =>
      obtain ⟨hres, hcomm, hacc, hrun, hlife⟩ := commission_accepted (p := p) hon (hchecks.trans (if_pos hv))
      exact ⟨_, rfl, commission_chal hon, hlife, fun _ => ⟨hcomm, hacc, hrun, hres⟩, fun hn => absurd hn (by decide)⟩
    | false =>
      obtain ⟨hres, hcomm, -, -, -, hlife, hchal, href, hrun, -⟩ :=
        present_refusedAs (p := p) (a := .commission) (c := 7) _ hon (hchecks.trans (if_neg (by simp [hv])))
      exact ⟨_, rfl, hchal, hlife, fun hn => absurd hn (by decide), fun _ => ⟨hcomm, href, hrun, hres⟩⟩
  · cases a <;> exact ⟨_, rfl, present_refusedAs _ hon hc⟩
  · intro begins
    refine ⟨fun hl hbl hk hv => ⟨_, rfl, setOwner_begins hon hb hc hl hbl hk hv⟩, fun hl hm hs => ⟨_, rfl, ?_⟩, fun hl hm hs => ⟨_, rfl, ?_⟩,
      fun hl hm => ⟨_, rfl, sealAct_begins hon hb hc hl hm⟩, fun hs hbl hl => ⟨_, rfl, ?_⟩, fun hs level => ⟨_, rfl, ?_⟩⟩
    · rw [hs]; exact fieldAct_begins hon hb hc hl hm
    · rw [hs]; exact fieldAct_unconfirmed hon hb hc hl hm
    · rw [hs]; exact setBl_first hon hb hc hbl hl
    · rw [hs]; exact setBl_unsafe hon hb hc level
  · exact ⟨⟨_, rfl, setOwner_role hon hc⟩, ⟨_, rfl, fieldAct_role _ hon hc⟩, ⟨_, rfl, sealAct_role hon hc⟩, ⟨_, rfl, setBl_role level _ hon hc⟩⟩
  · simp only [challengeExpiry, hon, Bool.true_and]
    exact if_pos (decide_eq_true hd)
  · have hx : s.h.lockoutEnd = ({ s.h with sec := { s.h.sec with lockEnd := none, run := 0 } } : HDie).saveCounts := by
      simp [lockoutEnd, show s.h.sec.lockEnd = some e from hl, hon, he]
    beta_reduce
    rw [hx]
    exact ⟨rfl, rfl⟩

end Sys2Proof.Machine
end

section
/-! PROOF. One demand of thermometry on either die (R408 to R414). -/
namespace Sys2Proof.Machine
set_option Elab.async false

/-- A valid reading is between -70 and 175 degrees (R408). -/
theorem reading_bounds {tr : Trim} {g : Gate} {x : Int} (h : reading tr g = some x) : -280 ≤ x ∧ x ≤ 700 := by
  unfold reading at h
  split at h
  next hv =>
    cases h
    simp only [gateValid, Bool.and_eq_true, decide_eq_true_eq] at hv
    exact ⟨hv.1.2, hv.2⟩
  next => cases h

namespace Thm
variable {d : Die} {t u : Thm}

@[simp] theorem siteAt_setSite_same (t : Thm) (k : Nat) (s : Site) : (t.setSite k s).siteAt k = s := tabGet_tabSet_same ..
theorem siteAt_setSite_other (t : Thm) {j k : Nat} (s : Site) (h : j ≠ k) : (t.setSite j s).siteAt k = t.siteAt k :=
  tabGet_tabSet_other _ _ _ h

/-! ### Steps that mark sites and leave their runs -/

/-- u is t with sites marked: no run, no validity and no last reading is other, and a broken site stays broken. -/
structure Marks (t u : Thm) : Prop where
  frame : u = { t with site := u.site }
  badRun : ∀ k, (u.siteAt k).badRun = (t.siteAt k).badRun
  valid : ∀ k, (u.siteAt k).valid = (t.siteAt k).valid
  last : ∀ k, (u.siteAt k).last = (t.siteAt k).last
  broken : ∀ k, (t.siteAt k).broken = true → (u.siteAt k).broken = true

theorem Marks.refl (t : Thm) : Marks t t := ⟨rfl, fun _ => rfl, fun _ => rfl, fun _ => rfl, fun _ h => h⟩

theorem Marks.trans {w : Thm} (h : Marks t u) (h' : Marks u w) : Marks t w where
  frame := by rw [h'.frame, h.frame]
  badRun k := (h'.badRun k).trans (h.badRun k)
  valid k := (h'.valid k).trans (h.valid k)
  last k := (h'.last k).trans (h.last k)
  broken k hb := h'.broken k (h.broken k hb)

theorem Marks.setSite {k : Nat} {s : Site} (hr : s.badRun = (t.siteAt k).badRun) (hv : s.valid = (t.siteAt k).valid)
    (hl : s.last = (t.siteAt k).last) (hb : (t.siteAt k).broken = true → s.broken = true) : Marks t (t.setSite k s) := by
  have cases_ (j : Nat) : j = k ∧ (t.setSite k s).siteAt j = s ∨ (t.setSite k s).siteAt j = t.siteAt j := by
    by_cases hj : j = k
    · exact .inl ⟨hj, by rw [hj, siteAt_setSite_same]⟩
    · exact .inr (siteAt_setSite_other t s (Ne.symm hj))
  refine ⟨rfl, fun j => ?_, fun j => ?_, fun j => ?_, fun j h => ?_⟩ <;> obtain ⟨rfl, hs⟩ | hs := cases_ j <;> rw [hs]
  · exact hr
  · exact hv
  · exact hl
  · exact hb h
  · exact h

theorem Marks.foldl {α : Type} {op : Thm → α → Thm} (hop : ∀ t a, Marks t (op t a)) (l : List α) (t : Thm) : Marks t (l.foldl op t) := by
  induction l generalizing t with
  | nil => exact .refl t
  | cons a l ih => exact (hop t a).trans (ih _)

theorem declare_marks (d : Die) (t : Thm) (k : Nat) : Marks t (declare d t k).1 := by
  unfold declare
  dsimp only
  split
  · exact .setSite rfl rfl rfl (fun _ => rfl)
  · exact .refl t

/-- A site whose readings were invalid four times in a row is broken once it has been judged (R410). -/
theorem declare_broken (d : Die) (t : Thm) (k : Nat) (h : 4 ≤ (t.siteAt k).badRun) : ((declare d t k).1.siteAt k).broken = true := by
  unfold declare
  dsimp only
  split
  · rw [siteAt_setSite_same]
  next hn => simpa [h] using hn

theorem declareAll_fst (d : Die) (t : Thm) : (declareAll d t).1 = (List.range (siteCount d)).foldl (fun a k => (declare d a k).1) t := by
  unfold declareAll
  generalize ([] : List (Byte × Bytes)) = rs
  generalize List.range (siteCount d) = l
  induction l generalizing t rs with
  | nil => rfl
  | cons k l ih => exact ih _ _

theorem declareAll_marks (d : Die) (t : Thm) : Marks t (declareAll d t).1 := by
  rw [declareAll_fst]
  exact .foldl (fun t k => declare_marks d t k) _ t

theorem declareAll_broken {k : Nat} (hk : k < siteCount d) (h : 4 ≤ (t.siteAt k).badRun) : ((declareAll d t).1.siteAt k).broken = true := by
  rw [declareAll_fst]
  obtain ⟨l, r, hl⟩ := List.append_of_mem (List.mem_range.mpr hk)
  rw [hl, List.foldl_append, List.foldl_cons]
  have before : Marks t (l.foldl (fun a k => (declare d a k).1) t) := .foldl (fun t k => declare_marks d t k) _ t
  have after := fun u => Marks.foldl (fun t k => declare_marks d t k) r u
  exact (after _).broken k (declare_broken d _ k ((before.badRun k).symm ▸ h))

theorem showSites_marks (t : Thm) (es : List (Option (Int × Bool))) : Marks t (t.showSites es) := by
  unfold showSites
  refine .foldl (fun t e => ?_) _ t
  split
  · exact .setSite rfl rfl rfl (fun h => h)
  · exact .setSite rfl rfl rfl (fun h => h)

/-! ### The runs of a demand -/

/-- The sites take given values: the first n of them. -/
theorem siteAt_setSites (f : Nat → Site) (t : Thm) (n k : Nat) :
    ((List.range n).foldl (fun a j => a.setSite j (f j)) t).siteAt k = if k < n then f k else t.siteAt k := by
  induction n with
  | zero => rfl
  | succ n ih =>
    rw [List.range_succ, List.foldl_append, List.foldl_cons, List.foldl_nil]
    by_cases hk : n = k
    · rw [hk, siteAt_setSite_same, if_pos (Nat.lt_succ_self k)]
    · rw [siteAt_setSite_other _ _ hk, ih]
      simp only [show k < n + 1 ↔ k < n by omega]

theorem setSites_frame (f : Nat → Site) (t : Thm) (l : List Nat) :
    ∃ ss, l.foldl (fun a j => a.setSite j (f j)) t = { t with site := ss } := by
  induction l generalizing t with
  | nil => exact ⟨_, rfl⟩
  | cons j l ih => exact (ih _).imp fun _ h => h

/-- The state once the runs of a demand are counted. -/
def counted (d : Die) (t : Thm) (gates : List Gate) (skip : List Nat) : Thm :=
  let rs := owns d t gates skip
  let bad := (rs.zipIdx).countP (fun e => e.1.isNone && !skip.contains e.2)
  (List.range (siteCount d)).foldl (fun (a : Thm) k => a.setSite k (siteRuns d t rs skip k))
    { t with gate := none, invalid := satAdd t.invalid bad, blindRun := if rs.all (·.isNone) then t.blindRun + 1 else 0 }

/-- The effective readings of a demand. -/
def effectives (d : Die) (t : Thm) (gates : List Gate) (skip : List Nat) : List (Option (Int × Bool)) :=
  (List.range (siteCount d)).map (effective d (declareAll d (counted d t gates skip)).1 (owns d t gates skip))

/-- The state once its sites are shown and confirming demands begin. -/
def shown (d : Die) (t : Thm) (now : Count) (gates : List Gate) (skip : List Nat) : Thm :=
  let t3 := ((declareAll d (counted d t gates skip)).1.showSites (effectives d t gates skip)).compensate d (effectives d t gates skip)
  { t3 with confirm := t3.confirm ++ confirms t3 now (owns d t gates skip) }

theorem judge_eq (d : Die) (t : Thm) (now : Count) (gates : List Gate) (skip : List Nat) : judge d t now gates skip =
    match decide1 (effectives d t gates skip) with
    | none => ({ shown d t now gates skip with noDecision := true }, (declareAll d (counted d t gates skip)).2, false, false)
    | some (x, k) =>
      let w := judgeWarn d { shown d t now gates skip with noDecision := false, decision := ofInt 16 x, hotSite := BitVec.ofNat 4 k } x
      let h := judgeThrottle w.1 x
      (h.1, (declareAll d (counted d t gates skip)).2 ++ w.2, h.2.1, h.2.2) := rfl

/-- The own reading of a site that gated. -/
theorem owns_getD {gates : List Gate} {skip : List Nat} {k : Nat} (hk : k < siteCount d) (hs : skip.contains k = false) :
    (owns d t gates skip).getD k none = (gates[k]?).bind (reading (t.trimAt k)) := by
  simp only [owns, List.getD_eq_getElem?_getD, List.getElem?_map, List.getElem?_range hk, Option.map_some, Option.getD_some, hs,
    Bool.false_eq_true, if_false]
  cases gates[k]? <;> rfl

/-- Every own reading is a valid reading. -/
theorem owns_bounds {gates : List Gate} {skip : List Nat} {x : Int} (h : some x ∈ owns d t gates skip) : -280 ≤ x ∧ x ≤ 700 := by
  simp only [owns, List.mem_map] at h
  obtain ⟨k, -, hx⟩ := h
  split at hx
  · cases hx
  · split at hx
    · exact reading_bounds hx
    · cases hx

theorem siteAt_counted {gates : List Gate} {skip : List Nat} {k : Nat} (hk : k < siteCount d) :
    (counted d t gates skip).siteAt k = siteRuns d t (owns d t gates skip) skip k :=
  (siteAt_setSites _ _ _ _).trans (if_pos hk)

theorem compensate_site (d : Die) (t : Thm) (es : List (Option (Int × Bool))) : (t.compensate d es).site = t.site := by
  cases d <;> rfl

theorem compensate_gate (d : Die) (t : Thm) (es : List (Option (Int × Bool))) : (t.compensate d es).gate = t.gate := by
  cases d <;> rfl

/-- What judging reads of the state that a demand leaves: nothing of it is other. -/
theorem compensate_throttle (d : Die) (t : Thm) (es : List (Option (Int × Bool))) :
    ((t.compensate d es).limit, (t.compensate d es).throttle, (t.compensate d es).hot, (t.compensate d es).thrIn) =
      (t.limit, t.throttle, t.hot, t.thrIn) := by
  cases d <;> rfl

variable (d t) (now : Count) (gates : List Gate) (skip : List Nat)

/-- The state with the sites shown carries the marks of the counted one. -/
theorem shown_marks : Marks (counted d t gates skip)
    ((declareAll d (counted d t gates skip)).1.showSites (effectives d t gates skip)) :=
  (declareAll_marks d _).trans (showSites_marks _ _)

theorem siteAt_shown (k : Nat) : (shown d t now gates skip).siteAt k =
    ((declareAll d (counted d t gates skip)).1.showSites (effectives d t gates skip)).siteAt k :=
  congrArg (fun ss => tabGet Site.reset ss k) (compensate_site d _ _)

theorem shown_gate : (shown d t now gates skip).gate = none := by
  obtain ⟨ss, hc⟩ := setSites_frame (fun k => siteRuns d t (owns d t gates skip) skip k) { t with
    gate := none, invalid := satAdd t.invalid (((owns d t gates skip).zipIdx).countP (fun e => e.1.isNone && !skip.contains e.2)),
    blindRun := if (owns d t gates skip).all (·.isNone) then t.blindRun + 1 else 0 } (List.range (siteCount d))
  refine (compensate_gate d _ _).trans ?_
  rw [(shown_marks d t gates skip).frame]
  exact (congrArg Thm.gate hc :)

theorem shown_throttle : ((shown d t now gates skip).limit, (shown d t now gates skip).throttle, (shown d t now gates skip).hot,
    (shown d t now gates skip).thrIn) = (t.limit, t.throttle, t.hot, t.thrIn) := by
  obtain ⟨ss, hc⟩ := setSites_frame (fun k => siteRuns d t (owns d t gates skip) skip k) { t with
    gate := none, invalid := satAdd t.invalid (((owns d t gates skip).zipIdx).countP (fun e => e.1.isNone && !skip.contains e.2)),
    blindRun := if (owns d t gates skip).all (·.isNone) then t.blindRun + 1 else 0 } (List.range (siteCount d))
  refine (compensate_throttle d _ _).trans ?_
  rw [(shown_marks d t gates skip).frame]
  exact (congrArg (fun u : Thm => (u.limit, u.throttle, u.hot, u.thrIn)) hc :)

/-! ### What judging does to the sites, the gate and throttle -/

theorem judgeWarn_frame (x : Int) : ∃ w i o n, (judgeWarn d t x).1 = { t with warn := w, warnIn := i, warnOut := o, warnEntries := n } := by
  unfold judgeWarn
  extract_lets i o
  split
  · exact ⟨_, _, _, _, rfl⟩
  · split <;> exact ⟨_, _, _, _, rfl⟩

theorem judgeThrottle_frame (x : Int) : ∃ a b i o, (judgeThrottle t x).1 = { t with throttle := a, hot := b, thrIn := i, thrOut := o } := by
  unfold judgeThrottle
  extract_lets i o
  split
  · exact ⟨_, _, _, _, rfl⟩
  · split <;> exact ⟨_, _, _, _, rfl⟩

/-- Judging leaves the sites as they are shown, and the gate ended. -/
theorem judge_frame : (judge d t now gates skip).1.site = (shown d t now gates skip).site ∧ (judge d t now gates skip).1.gate = none ∧
    (judge d t now gates skip).1.sensor = (shown d t now gates skip).sensor := by
  have hg := shown_gate d t now gates skip
  rw [judge_eq]
  generalize shown d t now gates skip = v at hg ⊢
  cases decide1 (effectives d t gates skip) with
  | none => exact ⟨rfl, hg, rfl⟩
  | some e =>
    obtain ⟨x, k⟩ := e
    dsimp only
    obtain ⟨w, i, o, n, hw⟩ := judgeWarn_frame d { v with noDecision := false, decision := ofInt 16 x, hotSite := BitVec.ofNat 4 k } x
    obtain ⟨a, b, j, l, hh⟩ := judgeThrottle_frame (judgeWarn d { v with noDecision := false, decision := ofInt 16 x, hotSite := BitVec.ofNat 4 k } x).1 x
    rw [hh, hw]
    exact ⟨rfl, hg, rfl⟩

variable {d t gates skip}

/-- A site after a demand that it gated for: an invalid reading adds to its run, a valid one ends it, and four end in broken. -/
theorem judge_site {k : Nat} (hk : k < siteCount d) (hs : skip.contains k = false) :
    let s := (judge d t now gates skip).1.siteAt k
    ((gates[k]?).bind (reading (t.trimAt k)) = none → s.badRun = (t.siteAt k).badRun + 1 ∧ s.valid = false) ∧
    (∀ x, (gates[k]?).bind (reading (t.trimAt k)) = some x → s.badRun = 0 ∧ s.valid = true ∧ s.last = ofInt 16 x) ∧
    (4 ≤ s.badRun → s.broken = true) := by
  intro s
  have hm := shown_marks d t gates skip
  have hsite : s = ((declareAll d (counted d t gates skip)).1.showSites (effectives d t gates skip)).siteAt k :=
    (congrArg (fun ss => tabGet Site.reset ss k) (judge_frame d t now gates skip).1).trans (siteAt_shown d t now gates skip k)
  have hrun : s.badRun = (siteRuns d t (owns d t gates skip) skip k).badRun := by rw [hsite, hm.badRun, siteAt_counted hk]
  have hval : s.valid = (siteRuns d t (owns d t gates skip) skip k).valid := by rw [hsite, hm.valid, siteAt_counted hk]
  have hlast : s.last = (siteRuns d t (owns d t gates skip) skip k).last := by rw [hsite, hm.last, siteAt_counted hk]
  have hown := owns_getD (t := t) (gates := gates) hk hs
  refine ⟨fun hn => ?_, fun x hx => ?_, fun h4 => ?_⟩
  · rw [hrun, hval]
    simp only [siteRuns, hs, hown, hn, Bool.false_eq_true, if_false, and_self]
  · rw [hrun, hval, hlast]
    simp only [siteRuns, hs, hown, hx, Bool.false_eq_true, if_false, and_self]
  · rw [hsite] at h4 ⊢
    exact (showSites_marks _ _).broken k (declareAll_broken hk ((hm.badRun k) ▸ h4))

/-! ### The decision reading -/

theorem highest_mem {l : List Int} {x : Int} (h : highest l = some x) : x ∈ l := by
  induction l generalizing x with
  | nil => cases h
  | cons y r ih =>
    unfold highest at h
    split at h
    next z hz =>
      cases h
      split
      · exact List.mem_cons_self
      · exact List.mem_cons_of_mem _ (ih hz)
    next => cases h; exact List.mem_cons_self

theorem effective_bounds {rs : List (Option Int)} (hrs : ∀ x, some x ∈ rs → -280 ≤ x ∧ x ≤ 700) {k : Nat} {x : Int} {b : Bool}
    (h : effective d t rs k = some (x, b)) : -280 ≤ x ∧ x ≤ 720 := by
  have get_mem (j : Nat) (y : Int) (hj : rs.getD j none = some y) : some y ∈ rs := by
    rw [List.getD_eq_getElem?_getD] at hj
    cases hr : rs[j]? with
    | none => rw [hr] at hj; cases hj
    | some z => rw [hr] at hj; exact hj ▸ List.mem_of_getElem? hr
  unfold effective at h
  split at h
  · obtain ⟨y, hy, hxy⟩ := Option.map_eq_some_iff.mp h
    cases hxy
    obtain ⟨j, -, hj⟩ := List.mem_filterMap.mp (highest_mem hy)
    split at hj
    · cases hj
    · have := hrs y (get_mem j y hj)
      omega
  · obtain ⟨y, hy, hxy⟩ := Option.map_eq_some_iff.mp h
    cases hxy
    have := hrs x (get_mem k x hy)
    omega

/-- The higher of the decision so far and the next site's effective reading. -/
def higher (a : Option (Int × Nat)) (e : Option (Int × Bool) × Nat) : Option (Int × Nat) :=
  match e.1, a with
  | some (x, _), some (y, j) => if y < x then some (x, e.2) else some (y, j)
  | some (x, _), none => some (x, e.2)
  | none, _ => a

theorem decide1_eq (es : List (Option (Int × Bool))) : decide1 es = es.zipIdx.foldl higher none := rfl

theorem higher_mem {a : Option (Int × Nat)} {e : Option (Int × Bool) × Nat} {x : Int} {j : Nat} (h : higher a e = some (x, j)) :
    a = some (x, j) ∨ ∃ b, e.1 = some (x, b) := by
  unfold higher at h
  split at h
  next z b y i hz =>
    split at h
    · cases h; exact .inr ⟨b, hz⟩
    · cases h; exact .inl rfl
  next z b hz => cases h; exact .inr ⟨b, hz⟩
  next => exact .inl h

/-- The decision reading is the effective reading of some site. -/
theorem decide1_mem {es : List (Option (Int × Bool))} {x : Int} {k : Nat} (h : decide1 es = some (x, k)) : ∃ b, some (x, b) ∈ es := by
  have fold (l : List (Option (Int × Bool) × Nat)) (a : Option (Int × Nat)) (y : Int) (j : Nat) (hy : l.foldl higher a = some (y, j)) :
      a = some (y, j) ∨ ∃ e ∈ l, ∃ b, e.1 = some (y, b) := by
    induction l generalizing a with
    | nil => exact .inl hy
    | cons e l ih =>
      obtain ha | ⟨e', he', hb⟩ := ih _ hy
      · exact (higher_mem ha).imp id fun hb => ⟨e, List.mem_cons_self, hb⟩
      · exact .inr ⟨e', List.mem_cons_of_mem _ he', hb⟩
  obtain hn | ⟨e, he, b, hb⟩ := fold _ _ _ _ ((decide1_eq es) ▸ h)
  · cases hn
  · exact ⟨b, hb ▸ List.mem_of_getElem? (List.mem_zipIdx_iff_getElem?.mp he)⟩

/-- The decision reading of a demand is what its register holds. -/
theorem decision_toInt {x : Int} {k : Nat} (h : decide1 (effectives d t gates skip) = some (x, k)) : (ofInt 16 x).toInt = x := by
  obtain ⟨b, hb⟩ := decide1_mem h
  obtain ⟨j, -, hj⟩ := List.mem_map.mp hb
  have := effective_bounds (fun _ => owns_bounds) hj
  rw [ofInt, BitVec.toInt_ofInt_eq_self (by decide) (by simp; omega) (by simp; omega)]

/-- Two decision readings in a row at THROT begin throttle (R414). -/
theorem judge_throttles (hd : (judge d t now gates skip).1.noDecision = false) (hl : t.throtLvl ≤ (judge d t now gates skip).1.decision.toInt)
    (hh : t.hot = false) (hi : 1 ≤ t.thrIn) :
    (judge d t now gates skip).1.throttle = true ∧ (judge d t now gates skip).2.2.1 = !t.throttle := by
  have hs := shown_throttle d t now gates skip
  rw [judge_eq] at hd hl ⊢
  generalize shown d t now gates skip = v at hs hd hl ⊢
  simp only [Prod.mk.injEq] at hs
  obtain ⟨hlim, hthr, hhot, hin⟩ := hs
  cases hx : decide1 (effectives d t gates skip) with
  | none => rw [hx] at hd; cases hd
  | some e =>
    obtain ⟨x, k⟩ := e
    have hxi := decision_toInt hx
    rw [hx] at hl
    dsimp only at hl ⊢
    obtain ⟨w, i, o, n, hw⟩ := judgeWarn_frame d { v with noDecision := false, decision := ofInt 16 x, hotSite := BitVec.ofNat 4 k } x
    have hu : ((judgeWarn d { v with noDecision := false, decision := ofInt 16 x, hotSite := BitVec.ofNat 4 k } x).1.decision,
        (judgeWarn d { v with noDecision := false, decision := ofInt 16 x, hotSite := BitVec.ofNat 4 k } x).1.limit,
        (judgeWarn d { v with noDecision := false, decision := ofInt 16 x, hotSite := BitVec.ofNat 4 k } x).1.throttle,
        (judgeWarn d { v with noDecision := false, decision := ofInt 16 x, hotSite := BitVec.ofNat 4 k } x).1.hot,
        (judgeWarn d { v with noDecision := false, decision := ofInt 16 x, hotSite := BitVec.ofNat 4 k } x).1.thrIn) =
          (ofInt 16 x, t.limit, t.throttle, t.hot, t.thrIn) := by
      rw [hw]
      simp only [hlim, hthr, hhot, hin]
    generalize (judgeWarn d { v with noDecision := false, decision := ofInt 16 x, hotSite := BitVec.ofNat 4 k } x).1 = u at hl hu ⊢
    simp only [Prod.mk.injEq] at hu
    obtain ⟨hdec, hlim, hthr, hhot, hin⟩ := hu
    obtain ⟨a, b, j, l, hf⟩ := judgeThrottle_frame u x
    have hl' : u.throtLvl ≤ x := by
      rw [hf] at hl
      simpa only [throtLvl, hlim, hdec, hxi] using hl
    have h2 : 2 ≤ t.thrIn + 1 := by omega
    simp only [judgeThrottle, if_pos hl', hhot, hh, hin, h2, Bool.not_false, decide_true, Bool.true_and, if_true, hthr, and_self]

end Thm
end Sys2Proof.Machine
end

section
/-! PROOF. What the host die sends in the control class alone, and the resets of its partitions (R385, R386). -/
namespace Sys2Proof.Machine
set_option Elab.async false

namespace HDie
variable {h g : HDie} {p : Part}

/-! ### Sending in the control class -/

/-- g is h once it has told the field die something: messages of the control class, output and held log records are added. -/
structure Tells (h g : HDie) : Prop where
  frame : g = { h with trn := { h.trn with ctl := g.trn.ctl }, out := g.out, sec := { h.sec with log := g.sec.log, logDrop := g.sec.logDrop } }
  kept : h.trn.ctl.kept <+: g.trn.ctl.kept
  out : h.out <+: g.out

namespace Tells

theorem refl (h : HDie) : Tells h h := ⟨rfl, List.prefix_rfl, List.prefix_rfl⟩

theorem trans {k : HDie} (h1 : Tells h g) (h2 : Tells g k) : Tells h k where
  frame := by rw [h2.frame, h1.frame]
  kept := h1.kept.trans h2.kept
  out := h1.out.trans h2.out

theorem ite {c : Prop} [Decidable c] {g k : HDie} (h1 : c → Tells h g) (h2 : ¬ c → Tells h k) : Tells h (if c then g else k) := by
  split
  · exact h1 ‹_›
  · exact h2 ‹_›

theorem foldl {α : Type} {op : HDie → α → HDie} (hop : ∀ g a, Tells g (op g a)) (l : List α) (h : HDie) : Tells h (l.foldl op h) := by
  induction l generalizing h with
  | nil => exact .refl h
  | cons a l ih => exact (hop h a).trans (ih _)

theorem emit (h : HDie) (o : Out) : Tells h (h.emit o) := ⟨rfl, List.prefix_rfl, List.prefix_append _ _⟩

theorem part (ht : Tells h g) : g.part = h.part := by rw [ht.frame]
theorem hp (ht : Tells h g) (p : Part) : g.hp p = h.hp p := congrArg (fun t => tabGet HPart.reset t p.toNat) ht.part
theorem trnSt (ht : Tells h g) : g.trn.st = h.trn.st := by rw [ht.frame]
theorem owed (ht : Tells h g) : g.trn.owed = h.trn.owed := by rw [ht.frame]
theorem comm (ht : Tells h g) : g.sec.comm = h.sec.comm := by rw [ht.frame]
theorem mem_kept (ht : Tells h g) {x : BitVec 16 × Msg} (hx : x ∈ h.trn.ctl.kept) : x ∈ g.trn.ctl.kept := ht.kept.subset hx

end Tells

theorem sendCtl_tells (h : HDie) (m : Msg) : Tells h (h.sendCtl m) := by
  unfold sendCtl
  dsimp only
  have hk : Tells h { h with trn := { h.trn with ctl := (Field.sendHalf h.trn.ctl m h.t).1 } } :=
    ⟨rfl, List.prefix_append _ _, List.prefix_rfl⟩
  exact .ite (fun _ => hk.trans (.emit _ _)) (fun _ => hk)

/-- A message that is sent in the control class is kept. -/
theorem sendCtl_mem (h : HDie) (m : Msg) : ∃ q, (q, m) ∈ (h.sendCtl m).trn.ctl.kept := by
  unfold sendCtl
  dsimp only
  refine ⟨h.trn.ctl.sendSeq, ?_⟩
  split <;> exact List.mem_append_right _ (List.mem_singleton.mpr rfl)

theorem devWr_tells (h : HDie) (off v : Word) : Tells h (h.devWr off v) := sendCtl_tells h _
theorem devRd_tells (h : HDie) (tag : BitVec 32) (off : Word) : Tells h (h.devRd tag off) := sendCtl_tells h _

theorem devWrs_tells (h : HDie) (ws : List (Word × Word)) : Tells h (ws.foldl (fun (g : HDie) w => g.devWr w.1 w.2) h) :=
  .foldl (fun g (w : Word × Word) => devWr_tells g w.1 w.2) ws h

theorem log_tells (h : HDie) (ty : Byte) (b : Bytes) : Tells h (h.log ty b) := by
  unfold log
  dsimp only
  split
  · exact devWrs_tells h _
  · split
    · exact ⟨rfl, List.prefix_rfl, List.prefix_rfl⟩
    · exact ⟨rfl, List.prefix_rfl, List.prefix_rfl⟩

theorem tellSec_tells (h : HDie) (level : BitVec 4) : Tells h (h.tellSec level) := .ite (fun _ => devWr_tells h _ _) fun _ => .refl h
theorem tellDbg_tells (h : HDie) : Tells h h.tellDbg := .ite (fun _ => devWr_tells h _ _) fun _ => .refl h
theorem tellHold_tells (h : HDie) : Tells h h.tellHold := .ite (fun _ => devWr_tells h _ _) fun _ => .refl h
theorem tellThm_tells (h : HDie) : Tells h h.tellThm := .ite (fun _ => (devWr_tells h _ _).trans (devWr_tells _ _ _)) fun _ => .refl h
theorem tellSetup_tells (h : HDie) (n : Nat) : Tells h (h.tellSetup n) := .ite (fun _ => devWr_tells h _ _) fun _ => .refl h

theorem thmChanged_tells (old h : HDie) : Tells h (thmChanged old h) := .ite (fun _ => .refl h) fun _ => tellThm_tells h

theorem thmRecord_tells (h : HDie) (r : Byte × Bytes) : Tells h (h.thmRecord r) :=
  .ite (fun _ => .refl h) fun _ => .ite (fun _ => (devWr_tells h _ _).trans (devWr_tells _ _ _)) fun _ =>
    .ite (fun _ => (devWr_tells h _ _).trans (devWr_tells _ _ _)) fun _ => .refl h

theorem thmRecords_tells (h : HDie) (rs : List (Byte × Bytes)) : Tells h (h.thmRecords rs) := .foldl thmRecord_tells rs h

theorem closeComm_tells (h : HDie) (c : Byte) : Tells { h with sec := { h.sec with comm := none } } (h.closeComm c) := by
  unfold closeComm
  split
  next _ => exact (log_tells _ _ _).trans (tellSec_tells _ _)
  next hc =>
    have he : ({ h with sec := { h.sec with comm := none } } : HDie) = h := by simp only [← Option.not_isSome_iff_eq_none.mp hc]
    rw [he]
    exact .refl h

/-- A frame of what the host die tells: a change of a partition is beside it. -/
theorem syncBlock_spec (h : HDie) (p : Part) : ∃ b, Tells (h.modHp p (fun w => { w with block := b })) (h.syncBlock p) ∨ h.syncBlock p = h := by
  unfold syncBlock
  dsimp only
  split
  · exact ⟨0, .inr rfl⟩
  · exact ⟨_, .inl (devWr_tells _ _ _)⟩

/-! ### A PART reset begins (R385, R386) -/

theorem noteIdle_frame (h : HDie) : ∃ t, h.noteIdle = { h with idleAt := t } := by
  unfold noteIdle
  split <;> exact ⟨_, rfl⟩

/-- PART_RST goes out, or is owed. -/
theorem sendRst_spec (h : HDie) (p : Part) : (h.trn.st = .up → Tells h (h.sendRst p) ∧
      ∃ q, (q, Msg.mk 0x04 (p.setWidth 8) 0 []) ∈ (h.sendRst p).trn.ctl.kept) ∧
    (h.trn.st ≠ .up → h.sendRst p = { h with trn := { h.trn with owed := h.trn.owed ||| (1 : BitVec 4) <<< p.toNat } }) := by
  refine ⟨fun hu => ?_, fun hu => if_neg hu⟩
  rw [show h.sendRst p = h.sendCtl (Msg.mk 0x04 (p.setWidth 8) 0 []) from if_pos hu]
  exact ⟨sendCtl_tells _ _, sendCtl_mem _ _⟩

/-- The commissioning state's opener is p. -/
def opener (h : HDie) (p : Part) : Bool := match h.sec.comm with | some (_, q) => decide (q = p) | none => false

/-- The commissioning state closes with a partition that opened it. -/
theorem closeMine_spec (h : HDie) {p : Part} {b : Bool} (hb : ∀ e, h.sec.comm = some (e, p) → b = true) :
    ∃ c, (∀ e, h.sec.comm = some (e, p) → c = none) ∧
    Tells { h with sec := { h.sec with comm := c } } (if b = true then h.closeComm 4 else h) := by
  cases b with
  | true => exact ⟨none, fun _ _ => rfl, closeComm_tells h 4⟩
  | false => exact ⟨h.sec.comm, fun e he => absurd (hb e he) (by decide), .refl h⟩

theorem partReset_eq (h : HDie) (p : Part) (up : Bool) (v : HPart) : h.partReset p up v =
    ((if h.opener p = true then ((h.noteIdle).setHp p (clearPart v up)).closeComm 4 else (h.noteIdle).setHp p (clearPart v up)).sendRst p).tellHold :=
  rfl

/-- The partition's reset: what it held is gone, the others stay, and the field die is told or will be. -/
theorem partReset_spec (h : HDie) (p : Part) (up : Bool) (v : HPart) :
    (h.partReset p up v).hp p = clearPart v up ∧ (∀ q, q ≠ p → (h.partReset p up v).hp q = h.hp q) ∧
    (h.trn.st ≠ .up → bit (h.partReset p up v).trn.owed p.toNat = true) ∧
    (h.trn.st = .up → ∃ q, (q, Msg.mk 0x04 (p.setWidth 8) 0 []) ∈ (h.partReset p up v).trn.ctl.kept) ∧
    (∀ e, h.sec.comm = some (e, p) → (h.partReset p up v).sec.comm = none) := by
  obtain ⟨t, hi⟩ := noteIdle_frame h
  obtain ⟨c, hc, hclose⟩ := closeMine_spec ((h.noteIdle).setHp p (clearPart v up)) (p := p) (b := h.opener p) (fun e he => by
    rw [hi] at he
    simp [opener, show h.sec.comm = some (e, p) from he])
  rw [show ((h.noteIdle).setHp p (clearPart v up)).sec.comm = h.sec.comm by rw [hi]; rfl] at hc
  rw [partReset_eq]
  generalize (if h.opener p = true then ((h.noteIdle).setHp p (clearPart v up)).closeComm 4 else (h.noteIdle).setHp p (clearPart v up)) = k
    at hclose ⊢
  have hold := tellHold_tells (k.sendRst p)
  have hst : k.trn.st = h.trn.st := by rw [hclose.trnSt, hi]; rfl
  have hpart : k.part = ((h.noteIdle).setHp p (clearPart v up)).part := hclose.part
  have hkp : k.hp p = clearPart v up := (congrArg (fun t => tabGet HPart.reset t p.toNat) hpart).trans (hp_setHp_same _ p _)
  have hkq (q : Part) (hq : q ≠ p) : k.hp q = h.hp q := by
    refine (congrArg (fun t => tabGet HPart.reset t q.toNat) hpart).trans ((hp_setHp_other _ _ hq.symm).trans ?_)
    rw [hi]; rfl
  obtain ⟨hup, hdown⟩ := sendRst_spec k p
  rw [hst] at hup hdown
  have same : (k.sendRst p).part = k.part ∧ (k.sendRst p).sec.comm = k.sec.comm := by
    by_cases hu : h.trn.st = .up
    · exact ⟨(hup hu).1.part, (hup hu).1.comm⟩
    · rw [hdown hu]; exact ⟨rfl, rfl⟩
  have hhp (q : Part) : (k.sendRst p).tellHold.hp q = k.hp q :=
    (hold.hp q).trans (congrArg (fun t => tabGet HPart.reset t q.toNat) same.1)
  refine ⟨(hhp p).trans hkp, fun q hq => (hhp q).trans (hkq q hq), fun hu => ?_, fun hu => ?_, fun e he => ?_⟩
  · rw [hold.owed, hdown hu]
    exact (bit_set k.trn.owed p.toNat p.toNat).trans (by simp [p.isLt])
  · obtain ⟨q, hq⟩ := (hup hu).2
    exact ⟨q, hold.mem_kept hq⟩
  · rw [hold.comm, same.2, hclose.comm]
    exact hc e he

end HDie
end Sys2Proof.Machine
end

section
/-! PROOF. Settling O55: ports, power and temperature of the host die (R385 to R388, R407 to R418, R446 to R456), and telemetry
publication (R234, R235). -/
namespace Sys2Proof.Machine
set_option Elab.async false

namespace HDie
variable {h g : HDie} {p : Part}

/-! ### Delivery (R388) -/

/-- g is h with other pending bits of partition p, as far as the partitions go. -/
structure PbaOnly (p : Part) (h g : HDie) : Prop where
  same : g.hp p = { h.hp p with pba := (g.hp p).pba }
  other : ∀ q, q ≠ p → g.hp q = h.hp q

theorem PbaOnly.refl (p : Part) (h : HDie) : PbaOnly p h h := ⟨rfl, fun _ _ => rfl⟩

theorem PbaOnly.trans {k : HDie} (h1 : PbaOnly p h g) (h2 : PbaOnly p g k) : PbaOnly p h k :=
  ⟨by rw [h2.same, h1.same], fun q hq => (h2.other q hq).trans (h1.other q hq)⟩

theorem PbaOnly.set (h : HDie) (p : Part) (x : BitVec 64) : PbaOnly p h (h.setHp p { h.hp p with pba := x }) :=
  ⟨by rw [hp_setHp_same], fun _ hq => hp_setHp_other _ _ hq.symm⟩

theorem sendMsix_pba (h : HDie) (p : Part) (vec : BitVec 6) : PbaOnly p h (h.sendMsix p vec) := by
  unfold sendMsix
  dsimp only
  split
  · exact .refl p h
  · split
    · exact .set h p _
    · exact ⟨(PbaOnly.set h p _).same, (PbaOnly.set h p _).other⟩

theorem msixUnmasked_pba (h : HDie) (p : Part) : PbaOnly p h (h.msixUnmasked p) := by
  unfold msixUnmasked
  generalize List.range 64 = l
  induction l generalizing h with
  | nil => exact .refl p h
  | cons i l ih =>
    refine PbaOnly.trans ?_ (ih _)
    dsimp only
    split
    · exact sendMsix_pba h p _
    · exact .refl p h

theorem deliveryHold_spec (p : Part) (d3 : Bool) (speed width : BitVec 2) (hon : h.on = true) :
    let g := h.deliveryHold p d3 speed width
    g.hp p = { h.hp p with linkUp := true, speed := speed, width := width, d3 := d3 || (h.hp p).d3, bme := d3 && (h.hp p).bme } ∧
    serves (g.hp p) = false ∧ (∀ q, q ≠ p → g.hp q = h.hp q) := by
  intro g
  obtain ⟨t, hi⟩ := noteIdle_frame h
  have hg : g = ((h.noteIdle).setHp p
      { h.hp p with linkUp := true, speed := speed, width := width, d3 := d3 || (h.hp p).d3, bme := d3 && (h.hp p).bme }).tellHold := if_pos hon
  have hp : g.hp p = { h.hp p with linkUp := true, speed := speed, width := width, d3 := d3 || (h.hp p).d3, bme := d3 && (h.hp p).bme } := by
    rw [hg, (tellHold_tells _).hp, hp_setHp_same]
  refine ⟨hp, ?_, fun q hq => ?_⟩
  · rw [hp]
    cases d3 <;> simp [serves]
  · rw [hg, (tellHold_tells _).hp, hp_setHp_other _ _ hq.symm, hi]
    rfl

/-- A partition whose port delivers again. -/
def resumed (w : HPart) (speed width msix : BitVec 2) : HPart :=
  { w with
    linkUp := true, bme := true, d3 := false, speed := speed, width := width, msixOn := bit msix 0, msixMask := bit msix 1 }

theorem deliveryResume_spec (p : Part) (speed width msix : BitVec 2) (hon : h.on = true) :
    let g := h.deliveryResume p speed width msix
    (g.hp p).linkUp = true ∧ (g.hp p).bme = true ∧ (g.hp p).d3 = false ∧ (g.hp p).speed = speed ∧ (g.hp p).width = width ∧
    (g.hp p).msixOn = bit msix 0 ∧ (g.hp p).msixMask = bit msix 1 ∧ (g.hp p).sq = (h.hp p).sq ∧ (g.hp p).inflight = (h.hp p).inflight ∧
    (∀ q, q ≠ p → g.hp q = h.hp q) := by
  intro g
  obtain ⟨k, hk⟩ : ∃ k, h.modHp p (fun w => resumed w speed width msix) = k := ⟨_, rfl⟩
  have hg : g = ((k.msixUnmasked p).tellHold).syncBlock p := hk ▸ if_pos hon
  have hpba := msixUnmasked_pba k p
  have htold := tellHold_tells (k.msixUnmasked p)
  have hkp : (k.msixUnmasked p).tellHold.hp p = _ := (htold.hp p).trans hpba.same
  have hkq (q : Part) (hq : q ≠ p) : (k.msixUnmasked p).tellHold.hp q = h.hp q := by
    rw [htold.hp, hpba.other q hq, ← hk, hp_modHp_other _ _ hq.symm]
  rw [← hk, hp_modHp_same] at hkp
  rw [hk] at hkp
  obtain ⟨b, hb | hb⟩ := syncBlock_spec (k.msixUnmasked p).tellHold p
  · rw [hg]
    generalize (k.msixUnmasked p).tellHold = m at hkp hkq hb ⊢
    refine ⟨?_, ?_, ?_, ?_, ?_, ?_, ?_, ?_, ?_, fun q hq => ?_⟩
    rotate_right 1
    · rw [hb.hp, hp_modHp_other _ _ hq.symm, hkq q hq]
    all_goals
      rw [hb.hp, hp_modHp_same, hkp]
      rfl
  · rw [hg, hb]
    generalize (k.msixUnmasked p).tellHold = m at hkp hkq ⊢
    refine ⟨?_, ?_, ?_, ?_, ?_, ?_, ?_, ?_, ?_, hkq⟩ <;> rw [hkp] <;> rfl

/-! ### Host STANDBY and resets (R446 to R456) -/

theorem standbyEntry_spec (hon : h.st = .run) (ha : h.auto = true) (hs : ∀ p, serves (h.hp p) = false)
    (ht : h.idleAt.toNat + 10000000 ≤ h.t.toNat) :
    h.standbyEntry = { h with st := .standby, stbyEntries := satAdd h.stbyEntries 1 } := by
  have hnone : parts.any (fun p => serves (h.hp p)) = false := by simp [parts, hs]
  exact if_pos (by simp [on, hon, ha, hnone, ht])

theorem lostRecords_tells (h : HDie) : Tells h h.lostRecords := .ite (fun _ => log_tells h _ _) fun _ => .refl h

/-- A start: the core runs, the partitions and the link are as after reset, and nothing is authorised. -/
def startedAs (h g : HDie) (k : RstKind) : Prop :=
  g.st = .run ∧ g.lastRst = BitVec.ofNat 3 k.ctorIdx ∧ g.part = [] ∧ g.sec.comm = none ∧ g.sec.dbgF = 0 ∧ g.sec.dbgH = 0 ∧
  g.trn.st = .down ∧ g.trn.owed = 0xF ∧ g.warm = none ∧ g.t = h.t ∧ g.thm.shutCount = h.thm.shutCount

theorem start_spec (h : HDie) (k : RstKind) (keep : Bool) : h.startedAs (h.start k keep) k ∧ (h.start k keep).auto = (keep && h.auto) := by
  unfold start
  extract_lets r s _ h1
  have ht := (lostRecords_tells h1).frame
  have hs : h1.thm.shutCount = h.thm.shutCount := by cases keep <;> rfl
  rw [startedAs, ht]
  exact ⟨⟨rfl, rfl, rfl, rfl, rfl, rfl, rfl, rfl, rfl, rfl, hs⟩, rfl⟩

theorem tellRestart_down (h : HDie) (c : Option (Byte × BitVec 16 × BitVec 16)) :
    (h.tellRestart c).st = h.st ∧ (h.tellRestart c).part = h.part ∧ (h.tellRestart c).trn.st = h.trn.st := by
  cases c with
  | none => exact ⟨rfl, rfl, rfl⟩
  | some x =>
    unfold tellRestart devKeep
    dsimp only
    split
    · exact ⟨by rw [(devWrs_tells h _).frame], (devWrs_tells h _).part, (devWrs_tells h _).trnSt⟩
    · exact ⟨rfl, rfl, rfl⟩

/-- A warm reset begins. -/
theorem warmEntry_spec (k : RstKind) (hst : h.st ≠ .off) :
    let g := h.warmEntry k
    g.st = .reset ∧ g.warm = some (k, h.t + (if k = .pin then 100100 else 100000)) ∧ g.part = [] ∧ g.sec.comm = none ∧ g.sec.dbgF = 0 ∧
    g.sec.dbgH = 0 ∧ g.setup = h.setup := by
  intro g
  simp only [g, warmEntry, hst, if_false]
  exact ⟨trivial, trivial, trivial, trivial, trivial, trivial, trivial⟩

theorem warmResetEnd_spec {k : RstKind} {due : Count} (hw : h.warm = some (k, due)) (hst : h.st = .reset) (hd : due ≤ h.t) :
    h.warmResetEnd = h.start k true := by
  simp [warmResetEnd, hw, hst, hd]

/-! ### Thermometry (R407 to R418) -/

theorem thermoDemand_spec (hst : h.st ≠ .off) (hd : h.tDemand ≤ h.t) : h.thermoDemand =
    { h with tDemand := h.tDemand + 25000, thm := { h.thm with gate := some (h.t + 1000, h.thm.confirm.map (·.site)) } } :=
  if_pos (by simp [thmOn, hst, hd])

theorem thermoReading_spec {due : Count} {skip : List Nat} (gates : List Gate) (hg : h.thm.gate = some (due, skip)) (hd : ¬ h.t < due)
    (hst : h.st ≠ .off) : (h.thermoReading gates).thm = (Thm.judge .host h.thm h.t gates skip).1 ∧ (h.thermoReading gates).part = h.part := by
  have hx : h.thermoReading gates = (thmChanged h { h with thm := (Thm.judge .host h.thm h.t gates skip).1 }).thmRecords
      (Thm.judge .host h.thm h.t gates skip).2.1 := by
    simp only [thermoReading, hg, hd, thmOn, hst, ne_eq, not_false_eq_true, decide_true, decide_false, Bool.not_true, Bool.or_self,
      Bool.false_eq_true, if_false]
  rw [hx, ((thmChanged_tells h _).trans (thmRecords_tells _ _)).frame]
  exact ⟨rfl, rfl⟩

variable {c : Confirm} {k : BitVec 4} {v : Gate} {x : Int}

theorem confirmingReading_waits (hf : h.thm.confirm.find? (fun c => decide (c.site = k.toNat)) = some c) (ht : h.t < c.due) :
    h.confirmingReading k v = h := by
  have hj : Thm.confirmJudge .host h.thm h.t k.toNat v = (h.thm, [], none) := by
    simp only [Thm.confirmJudge, hf, ht, if_true]
  unfold confirmingReading
  rw [hj]
  split
  · rfl
  · dsimp only [thmRecords, List.foldl_nil]
    simp only [thmChanged, brokenSites, decide_true, Bool.and_self, if_true]

theorem confirmingReading_off (hst : h.st ≠ .off) (hf : h.thm.confirm.find? (fun c => decide (c.site = k.toNat)) = some c)
    (hr : reading (h.thm.trimAt k.toNat) v = some x) (ht : ¬ h.t < c.due) (hx : h.thm.shutLvl ≤ x) :
    let g := h.confirmingReading k v
    g.st = .off ∧ g.part = [] ∧ g.thm.shutCount = satAdd h.thm.shutCount 1 ∧ g.thmCause = some (k.setWidth 8, c.first, ofInt 16 x) := by
  intro g
  obtain ⟨u, hj, hu⟩ : ∃ u, Thm.confirmJudge .host h.thm h.t k.toNat v = (u, [], some (c.first, ofInt 16 x)) ∧ u.shutCount = h.thm.shutCount := by
    simp only [Thm.confirmJudge, hf, if_neg ht, hr, if_pos hx]
    exact ⟨_, rfl, rfl⟩
  have hg : g = ((thmChanged h { h with thm := u }).thmRecords []).shutdown (k.setWidth 8) c.first (ofInt 16 x) := by
    simp only [g, confirmingReading, thmOn, hst, hj, ne_eq, not_false_eq_true, decide_true, Bool.not_true, Bool.false_eq_true, if_false]
  have ht := ((thmChanged_tells h { h with thm := u }).trans (thmRecords_tells _ [])).frame
  generalize (thmChanged h { h with thm := u }).thmRecords [] = m at hg ht
  rw [hg]
  refine ⟨rfl, rfl, ?_, rfl⟩
  rw [← hu]
  exact congrArg (fun n => satAdd n 1) (congrArg (fun m : HDie => m.thm.shutCount) ht)

theorem confirmingReading_cool (hst : h.st ≠ .off) (hf : h.thm.confirm.find? (fun c => decide (c.site = k.toNat)) = some c)
    (hr : reading (h.thm.trimAt k.toNat) v = some x) (ht : ¬ h.t < c.due) (hx : x < h.thm.shutLvl) :
    let g := h.confirmingReading k v
    g.thm.unconfirmed = satAdd h.thm.unconfirmed 1 ∧ g.st = h.st ∧ g.part = h.part := by
  intro g
  obtain ⟨u, rs, hj, hu⟩ : ∃ u rs, Thm.confirmJudge .host h.thm h.t k.toNat v = (u, rs, none) ∧ u.unconfirmed = satAdd h.thm.unconfirmed 1 := by
    simp only [Thm.confirmJudge, hf, if_neg ht, hr, if_neg (not_le.mpr hx)]
    exact ⟨_, _, rfl, rfl⟩
  have hg : g = (thmChanged h { h with thm := u }).thmRecords rs := by
    simp only [g, confirmingReading, thmOn, hst, hj, ne_eq, not_false_eq_true, decide_true, Bool.not_true, Bool.false_eq_true, if_false]
  rw [hg, ((thmChanged_tells h { h with thm := u }).trans (thmRecords_tells _ rs)).frame]
  exact ⟨hu, rfl, rfl⟩

/-! ### The measurements of a thermal shutdown (R417, R418) -/

/-- A measurement of the four sites is good. -/
def coolReadings (h : HDie) (gates : List Gate) : Bool := (List.range 4).all (fun k => match gates[k]? with
  | some g => match reading (h.thm.trimAt k) g with | some x => decide (x < h.thm.shutLvl - 60) | none => false
  | none => false)

/-- The state after a measurement that is not the last one. -/
def measured (h : HDie) (gates : List Gate) (supplyOk : Bool) : HDie :=
  { h with thm := { h.thm with offN := h.thm.offN + 1, offRun := if (supplyOk && h.coolReadings gates) = true then h.thm.offRun + 1 else 0 } }

theorem thermalOffMeasurement_eq (gates : List Gate) (supplyOk : Bool) (hst : h.st = .off) (hn : ¬ h.thm.offT < 1000000 * (h.thm.offN + 1)) :
    h.thermalOffMeasurement gates supplyOk = if 100000000 ≤ h.thm.offT && 3 ≤ (h.measured gates supplyOk).thm.offRun then
      ((h.measured gates supplyOk).start .por false).tellRestart h.thmCause else h.measured gates supplyOk := by
  unfold thermalOffMeasurement
  rw [if_neg (by simp only [hst, ne_eq, not_true_eq_false, decide_false, Bool.false_or, decide_eq_true_eq]; exact hn)]
  rfl

end HDie

/-! ### Telemetry publication (R234, R235) -/

namespace Field
variable {f g : Field} {p q : Part}

/-- A publication changes its own partition's SEQ, and neither Neve nor Meridian nor the control class. -/
theorem publish_spec (f : Field) (p : Part) (base : BitVec 64) (first count : Nat) :
    ((f.publish p base first count).nev = f.nev ∧ (f.publish p base first count).mer = f.mer) ∧ (f.publish p base first count).trn.ctl = f.trn.ctl ∧
    (f.publish p base first count).prt.pubSeq = tabSet 0 f.prt.pubSeq p.toNat (tabGet 0 f.prt.pubSeq p.toNat + 2) := by
  unfold publish
  extract_lets a n s odd head body f1 rest f2 f3 r
  have hr : r.1 = f.withRecords r.1 := records_trans (records_trans (records_trans (sendData_frame f _) (hwrites_frame p _ _ _ f1))
    (sendData_frame f2 _)) (sendData_frame f3 _)
  have hseq : odd + 1 = tabGet 0 f.prt.pubSeq p.toNat + 2 := by simp only [odd, s, BitVec.add_assoc]; rfl
  refine ⟨⟨show r.1.nev = f.nev by rw [hr]; rfl, show r.1.mer = f.mer by rw [hr]; rfl⟩, show r.1.trn.ctl = f.trn.ctl by rw [hr]; rfl, ?_⟩
  have hpub : r.1.prt.pubSeq = f.prt.pubSeq := by rw [hr]; rfl
  exact hseq ▸ hpub ▸ rfl

/-- What the publication at a fire does for one partition. -/
def publishTo (g k : Field) (p : Part) : Field :=
  if !g.tlmWants p then k
  else if g.publishing p then k.tunCpl 0x80 tagSkip (p.setWidth 32)
  else k.publish p (g.tlmOf p).base (g.tlmOf p).first.toNat (g.tlmOf p).count.toNat

theorem telemetry_eq (h : f.takeSys 4 = some g) (hl : g.linkUp = true) : f.telemetry = ([0, 1, 2, 3] : List Part).foldl (publishTo g) g := by
  unfold telemetry
  rw [h]
  exact if_pos hl

/-- The SEQ of a partition's table. -/
def pubOf (f : Field) (p : Part) : BitVec 32 := tabGet 0 f.prt.pubSeq p.toNat

theorem tunCpl_kept (k : Field) (part : Byte) (tag : BitVec 32) (v : Word) :
    k.trn.ctl.kept ⊆ (k.tunCpl part tag v).trn.ctl.kept ∧
    ∃ q, (q, Msg.mk 0x41 part tag ([0, 0, 0, 0] ++ le 4 v)) ∈ (k.tunCpl part tag v).trn.ctl.kept := by
  unfold tunCpl sendCtl
  dsimp only
  refine ⟨?_, k.trn.ctl.sendSeq, ?_⟩
  · split
    · rw [emit_trn]; exact List.subset_append_left _ _
    · exact List.subset_append_left _ _
  · split
    · rw [emit_trn]; exact List.mem_append_right _ (List.mem_singleton.mpr rfl)
    · exact List.mem_append_right _ (List.mem_singleton.mpr rfl)

theorem sendCtl_mer (k : Field) (m : Msg) : (k.sendCtl m).mer = k.mer := by
  unfold sendCtl
  dsimp only
  split
  · rw [emit_only]
  · rfl

theorem publishTo_stands (g k : Field) (p : Part) : (publishTo g k p).nev = k.nev ∧ (publishTo g k p).mer = k.mer := by
  unfold publishTo
  split
  · exact ⟨rfl, rfl⟩
  · split
    · exact ⟨sendCtl_nev k _, sendCtl_mer k _⟩
    · exact (publish_spec k p _ _ _).1

theorem publishTo_kept (g k : Field) (p : Part) : k.trn.ctl.kept ⊆ (publishTo g k p).trn.ctl.kept := by
  unfold publishTo
  split
  · exact List.Subset.refl _
  · split
    · exact (tunCpl_kept k _ _ _).1
    · rw [(publish_spec k p _ _ _).2.1]; exact List.Subset.refl _

theorem publishTo_other (g k : Field) (h : p ≠ q) : (publishTo g k p).pubOf q = k.pubOf q := by
  unfold publishTo
  split
  · rfl
  · split
    · rw [pubOf, tunCpl, sendCtl_prt, pubOf]
    · rw [pubOf, (publish_spec k p _ _ _).2.2]
      exact tabGet_tabSet_other _ _ _ (fun e => h (BitVec.eq_of_toNat_eq e))

theorem publishTo_same (g k : Field) (p : Part) :
    (g.tlmWants p = true → g.publishing p = false → (publishTo g k p).pubOf p = k.pubOf p + 2) ∧
    (g.tlmWants p = true → g.publishing p = true → (publishTo g k p).pubOf p = k.pubOf p ∧
      ∃ q, (q, Msg.mk 0x41 0x80 tagSkip ([0, 0, 0, 0] ++ le 4 (p.setWidth 32))) ∈ (publishTo g k p).trn.ctl.kept) ∧
    (g.tlmWants p = false → (publishTo g k p).pubOf p = k.pubOf p) := by
  refine ⟨fun hw hp => ?_, fun hw hp => ?_, fun hw => ?_⟩ <;>
    simp only [publishTo, hw, Bool.not_true, Bool.not_false, Bool.false_eq_true, if_false, if_true]
  · simp only [hp, Bool.false_eq_true, if_false]
    rw [pubOf, (publish_spec k p _ _ _).2.2]
    exact tabGet_tabSet_same ..
  · simp only [hp, if_true]
    exact ⟨by rw [pubOf, tunCpl, sendCtl_prt, pubOf], (tunCpl_kept k _ _ _).2⟩

theorem publishAll_stands (g k : Field) (l : List Part) :
    (l.foldl (publishTo g) k).nev = k.nev ∧ (l.foldl (publishTo g) k).mer = k.mer := by
  induction l generalizing k with
  | nil => exact ⟨rfl, rfl⟩
  | cons p l ih => exact ⟨(ih _).1.trans (publishTo_stands g k p).1, (ih _).2.trans (publishTo_stands g k p).2⟩

theorem publishAll_kept (g k : Field) (l : List Part) : k.trn.ctl.kept ⊆ (l.foldl (publishTo g) k).trn.ctl.kept := by
  induction l generalizing k with
  | nil => exact List.Subset.refl _
  | cons p l ih => exact List.Subset.trans (publishTo_kept g k p) (ih _)

theorem publishAll_other (g k : Field) (l : List Part) (h : q ∉ l) : (l.foldl (publishTo g) k).pubOf q = k.pubOf q := by
  induction l generalizing k with
  | nil => rfl
  | cons p l ih =>
    obtain ⟨hp, hl⟩ := not_or.mp (mt List.mem_cons.mpr h)
    exact (ih _ hl).trans (publishTo_other g k (Ne.symm hp))

/-- Each partition gets its own step of the publication, and no other step touches its table. -/
theorem publishAll_at (g : Field) (p : Part) : ∃ k, k.pubOf p = g.pubOf p ∧
    (([0, 1, 2, 3] : List Part).foldl (publishTo g) g).pubOf p = (publishTo g k p).pubOf p ∧
    (publishTo g k p).trn.ctl.kept ⊆ (([0, 1, 2, 3] : List Part).foldl (publishTo g) g).trn.ctl.kept := by
  obtain ⟨a, b, hl⟩ := List.append_of_mem (show p ∈ ([0, 1, 2, 3] : List Part) by revert p; decide)
  have hn : (a ++ p :: b).Nodup := hl ▸ by decide
  obtain ⟨hb, ha⟩ : p ∉ b ∧ p ∉ a := by
    have := List.nodup_append.mp hn
    exact ⟨(List.nodup_cons.mp this.2.1).1, fun hm => this.2.2 p hm p List.mem_cons_self rfl⟩
  rw [hl, List.foldl_append, List.foldl_cons]
  exact ⟨_, publishAll_other g g a ha, publishAll_other g _ b hb, publishAll_kept g _ b⟩

/-- The fire of CMP4 is taken. -/
def tableDue (f : Field) : Field := { f with mer := { f.mer with sysDue := f.mer.sysDue &&& ~~~ BitVec.ofNat 8 (2 ^ 4) } }

theorem telemetry_spec (hd : bit f.mer.sysDue 4 = true) (hl : f.linkUp = true) :
    bit f.telemetry.mer.sysDue 4 = false ∧ f.telemetry.nev = f.nev ∧
    (∀ p, f.tlmWants p = true → (f.publishing p = false → f.telemetry.pubOf p = f.pubOf p + 2) ∧
      (f.publishing p = true → f.telemetry.pubOf p = f.pubOf p ∧
        ∃ q, (q, Msg.mk 0x41 0x80 tagSkip ([0, 0, 0, 0] ++ le 4 (p.setWidth 32))) ∈ f.telemetry.trn.ctl.kept)) ∧
    (∀ p, f.tlmWants p = false → f.telemetry.pubOf p = f.pubOf p) := by
  rw [telemetry_eq (g := f.tableDue) (if_pos hd) hl]
  obtain ⟨hn, hm⟩ := publishAll_stands f.tableDue f.tableDue [0, 1, 2, 3]
  refine ⟨?_, hn, fun p hw => ?_, fun p hw => ?_⟩
  · rw [hm]
    exact (bit_clear f.mer.sysDue 4 4).trans (by simp)
  · obtain ⟨k, hk, hat, hkept⟩ := publishAll_at f.tableDue p
    obtain ⟨hfree, hskip, -⟩ := publishTo_same f.tableDue k p
    refine ⟨fun hp => ?_, fun hp => ?_⟩
    · rw [hat, hfree hw hp, hk]
      rfl
    · obtain ⟨hsame, q, hq⟩ := hskip hw hp
      exact ⟨by rw [hat, hsame, hk]; rfl, q, hkept hq⟩
  · obtain ⟨k, hk, hat, -⟩ := publishAll_at f.tableDue p
    rw [hat, (publishTo_same f.tableDue k p).2.2 hw, hk]
    rfl

end Field

open HDie in
/-- Settles O55: each reset by what it clears and tells, the thermometry by the judging of a demand, and the publication by its step
for each partition. -/
theorem hostPortsAndPower : Obligations.HostPortsAndPower := by
  unfold Obligations.HostPortsAndPower
  intro s
  refine ⟨fun p hon hl => ?_, fun p d3 speed width hr => ⟨_, rfl, deliveryHold_spec p d3 speed width (by simp [on, hr])⟩,
    fun p speed width msix hr => ⟨_, rfl, deliveryResume_spec p speed width msix (by simp [on, hr])⟩,
    fun hr ha hs ht => ⟨_, rfl, standbyEntry_spec hr ha hs ht⟩, fun hr => ⟨_, rfl, if_pos hr⟩, ?_,
    fun hst hd => ⟨_, rfl, thermoDemand_spec hst hd⟩, fun gates due skip hg hd hst => ?_, fun k v c x hst hf hr => ?_,
    fun gates ok hst => ?_, fun hd hl => ⟨_, rfl, Field.telemetry_spec hd hl⟩⟩
  · intro gone
    have reset (up : Bool) (v : HPart) (ha : v.aerUr = (s.h.hp p).aerUr) : gone (s.h.partReset p up v) ∧
        (s.h.partReset p up v).hp p = clearPart v up := by
      obtain ⟨hp, hq, howed, hkept, hcomm⟩ := partReset_spec s.h p up v
      exact ⟨⟨congrArg HPart.rstBusy hp, congrArg HPart.inflight hp, congrArg HPart.tun hp, congrArg HPart.sq hp, congrArg HPart.cq hp,
        congrArg HPart.en hp, congrArg HPart.bme hp, congrArg HPart.speed hp, congrArg HPart.width hp, congrArg HPart.msix hp,
        (congrArg HPart.aerUr hp).trans ha, hq, howed, hkept, hcomm⟩, hp⟩
    have hup : (s.h.linkOn && (s.h.hp p).linkUp) = true := by rw [hon, hl]; rfl
    have down : gone (s.h.linkDown p) ∧ ((s.h.linkDown p).hp p).linkUp = false ∧
        ((s.h.linkDown p).hp p).linkDowns = satAdd (s.h.hp p).linkDowns 1 := by
      have he : s.h.linkDown p = s.h.partReset p false { s.h.hp p with linkDowns := satAdd (s.h.hp p).linkDowns 1 } := if_pos hup
      obtain ⟨hgone, hp⟩ := reset false { s.h.hp p with linkDowns := satAdd (s.h.hp p).linkDowns 1 } rfl
      rw [he]
      exact ⟨hgone, by rw [hp]; rfl, by rw [hp]; rfl⟩
    refine ⟨⟨_, rfl, down⟩, ⟨_, rfl, down⟩, ⟨_, rfl, ?_⟩⟩
    have he : s.h.flr p = s.h.partReset p true { s.h.hp p with flrs := satAdd (s.h.hp p).flrs 1 } := if_pos hup
    obtain ⟨hgone, hp⟩ := reset true { s.h.hp p with flrs := satAdd (s.h.hp p).flrs 1 } rfl
    beta_reduce
    rw [he]
    exact ⟨hgone, by rw [hp]; simp [clearPart, hl], by rw [hp]; rfl⟩
  · intro fresh
    have warm (k : RstKind) (n : Nat) (hst : s.h.st ≠ .off) (hn : BitVec.ofNat 64 n = (if k = .pin then 100100 else 100000)) :
        (s.h.warmEntry k).st = .reset ∧ (s.h.warmEntry k).warm = some (k, s.h.t + BitVec.ofNat 64 n) ∧ (s.h.warmEntry k).part = [] ∧
        (s.h.warmEntry k).sec.comm = none ∧ (s.h.warmEntry k).sec.dbgF = 0 ∧ (s.h.warmEntry k).sec.dbgH = 0 ∧
        (s.h.warmEntry k).setup = s.h.setup := by
      rw [hn]
      exact warmEntry_spec k hst
    refine ⟨⟨_, rfl, start_spec s.h .por false⟩, ⟨_, rfl, start_spec s.h .bor false⟩,
      fun hst => ⟨⟨_, rfl, warm .pin 100100 hst rfl⟩, ⟨_, rfl, warm .wdt 100000 hst rfl⟩⟩, fun k due hw hst hd => ⟨_, rfl, ?_⟩⟩
    obtain ⟨hfresh, hauto⟩ := start_spec s.h k true
    beta_reduce
    rw [warmResetEnd_spec hw hst hd]
    exact ⟨hfresh, hauto⟩
  · obtain ⟨hthm, hpart⟩ := thermoReading_spec gates hg hd hst
    refine ⟨_, rfl, ?_⟩
    beta_reduce
    rw [hthm]
    refine ⟨(Thm.judge_frame .host s.h.thm s.h.t gates skip).2.1, hpart, fun k hk => ?_, fun hn hl hh hi => (Thm.judge_throttles _ hn hl hh hi).1⟩
    obtain ⟨hnone, hsome, -⟩ := Thm.judge_site (d := .host) s.h.t (gates := gates) (show k.toNat < 4 from k.isLt) hk
    exact ⟨hnone, fun x hx => ⟨(hsome x hx).1, (hsome x hx).2.1⟩⟩
  · exact ⟨fun ht => ⟨_, rfl, confirmingReading_waits hf ht⟩, fun ht hx => ⟨_, rfl, confirmingReading_off hst hf hr ht hx⟩,
      fun ht hx => ⟨_, rfl, confirmingReading_cool hst hf hr ht hx⟩⟩
  · refine ⟨fun hn => ⟨_, rfl, if_pos (by simp [hn])⟩, fun hn ht => ⟨_, rfl, ?_⟩, fun hn ht h2 hok hcool => ⟨_, rfl, ?_⟩⟩
    · beta_reduce
      rw [thermalOffMeasurement_eq gates ok hst (not_lt.mpr hn), if_neg (by simp [not_le.mpr ht])]
      exact ⟨hst, rfl, fun hno => by simp [measured, hno]⟩
    · have hall : s.h.coolReadings gates = true := by
        refine List.all_eq_true.mpr fun k hk => ?_
        obtain ⟨v, x, hv, hx, hlt⟩ := hcool (BitVec.ofNat 2 k)
        have hk4 : k % 4 = k := Nat.mod_eq_of_lt (List.mem_range.mp hk)
        simp only [BitVec.toNat_ofNat, Nat.reducePow, hk4] at hv hx
        simp only [hv, hx, decide_eq_true hlt]
      have hrun : (s.h.measured gates ok).thm.offRun = s.h.thm.offRun + 1 := by simp [measured, hok, hall]
      have hend : (decide (100000000 ≤ s.h.thm.offT) && decide (3 ≤ s.h.thm.offRun + 1)) = true := by simp [ht, h2]
      beta_reduce
      rw [thermalOffMeasurement_eq gates ok hst (not_lt.mpr hn), hrun, if_pos hend]
      obtain ⟨⟨hst', -, hpart, -, -, -, hdown, -⟩, -⟩ := start_spec (s.h.measured gates ok) .por false
      obtain ⟨h1, h2, h3⟩ := tellRestart_down ((s.h.measured gates ok).start .por false) s.h.thmCause
      exact ⟨h1.trans hst', h2.trans hpart, h3.trans hdown⟩

end Sys2Proof.Machine
end

section
/-! PROOF. A confirming reading that comes before its time: the die begins SENSOR throttle all the same where it is due (R412, R416). -/
namespace Sys2Proof.Machine
set_option Elab.async false

namespace Field

/-- A field die with four broken sites, SENSOR throttle not begun, and a confirming demand of site 0 that ends at 1,000. -/
def brokenSitesUnsensed : Field :=
  { State.reset.f with
    thm := { State.reset.f.thm with
      site := [(0, { Site.reset with broken := true }), (1, { Site.reset with broken := true }), (2, { Site.reset with broken := true }),
        (3, { Site.reset with broken := true })]
      confirm := [{ site := 0, first := 0, tries := 0, due := 1000 }] } }

/-- The premises of the confirming reading hold, with a gate that reads 25 degrees. -/
theorem brokenSitesUnsensed_waits : brokenSitesUnsensed.pwr.st ≠ .thermalOff ∧
    brokenSitesUnsensed.thm.confirm.find? (fun c => decide (c.site = (0 : BitVec 4).toNat)) =
      some { site := 0, first := 0, tries := 0, due := 1000 } ∧
    reading (brokenSitesUnsensed.thm.trimAt (0 : BitVec 4).toNat) { n1 := 1000, n2 := 1000 } = some 100 ∧
    brokenSitesUnsensed.now < 1000 := by decide +kernel

/-- The reading before its time begins SENSOR throttle. -/
theorem brokenSitesUnsensed_sensed : brokenSitesUnsensed.thm.sensor = false ∧
    (brokenSitesUnsensed.confirmingReading 0 { n1 := 1000, n2 := 1000 }).thm.sensor = true := by decide +kernel

end Field

/-- O45 has a confirming reading before its time change nothing. -/
theorem unchanged_of_temperaturesAreJudged (h : Obligations.TemperaturesAreJudged) (f : Field) (k : BitVec 4) (v : Gate) (c : Confirm) (x : Int)
    (hst : f.pwr.st ≠ .thermalOff) (hf : f.thm.confirm.find? (fun c => decide (c.site = k.toNat)) = some c)
    (hr : reading (f.thm.trimAt k.toNat) v = some x) (hn : f.now < c.due) : f.confirmingReading k v = f := by
  unfold Obligations.TemperaturesAreJudged at h
  obtain ⟨-, -, hconfirm, -⟩ := h { State.reset with f := f }
  obtain ⟨hwait, -⟩ := hconfirm k v c x hst hf hr
  obtain ⟨g, hexec, hg⟩ := hwait hn
  have hrun : exec (.confirmingReading .field k v) { State.reset with f := f } = .next { State.reset with f := f.confirmingReading k v } := rfl
  rw [hrun] at hexec
  have hgf : f.confirmingReading k v = g := congrArg State.f (Host.Outcome.next.inj hexec)
  exact hgf.trans hg

/-- Refutes O45: with four sites broken and SENSOR throttle not begun, a confirming reading before its time is not judged, but begins SENSOR
throttle (R412), so the die does not stay as it was. -/
theorem not_temperaturesAreJudged : ¬ Obligations.TemperaturesAreJudged := by
  intro h
  obtain ⟨hst, hf, hr, hn⟩ := Field.brokenSitesUnsensed_waits
  obtain ⟨hbefore, hafter⟩ := Field.brokenSitesUnsensed_sensed
  rw [unchanged_of_temperaturesAreJudged h _ 0 _ _ _ hst hf hr hn, hbefore] at hafter
  cases hafter

end Sys2Proof.Machine
end

section
/-! PROOF. The Heliostat loop: good samples, missing periods and the ramp-off of a context (R193, R194, R197, R209, R212). -/
namespace Sys2Proof.Machine
set_option Elab.async false
namespace Field

theorem satAdd_one {w : Nat} {c : BitVec w} (h : c.toNat + 1 < 2 ^ w) : satAdd c 1 = c + 1 := by
  rw [satAdd, Nat.min_eq_left (by omega)]
  simp [BitVec.ofNat_add]

/-! ### Steps of one context -/

/-- From f to g only the Heliostat changes: context n is now d, the other contexts and the failures counted stand. -/
structure OnlyCtx (f : Field) (n : Nat) (d : Ctx) (g : Field) : Prop where
  look : tabLook g.hel.ctx n = some d
  others : ∀ m, m ≠ n → tabLook g.hel.ctx m = tabLook f.hel.ctx m
  fails : g.hel.fails = f.hel.fails
  frame : g = { f with hel := g.hel }

namespace OnlyCtx
variable {f g : Field} {n : Nat} {c : Ctx}

theorem refl (h : tabLook f.hel.ctx n = some c) : OnlyCtx f n c f := ⟨h, fun _ _ => rfl, rfl, rfl⟩

theorem setCtx (h : OnlyCtx f n c g) (d : Ctx) : OnlyCtx f n d (g.setCtx n d) :=
  ⟨setCtx_look_same .., fun m hm => (setCtx_look_other _ _ hm).trans (h.others m hm), h.fails,
    congrArg (fun k : Field => k.setCtx n d) h.frame⟩

theorem modCtx (h : OnlyCtx f n c g) (m : Ctx → Ctx) : OnlyCtx f n (m c) (g.modCtx n m) := by
  rw [modCtx_of_look m h.look]
  exact h.setCtx _

/-- Counters of the Heliostat. -/
theorem counters (h : OnlyCtx f n c g) {e : Hel} (hctx : e.ctx = g.hel.ctx) (hfails : e.fails = g.hel.fails) :
    OnlyCtx f n c { g with hel := e } :=
  ⟨hctx ▸ h.look, fun m hm => hctx ▸ h.others m hm, hfails.trans h.fails, congrArg (fun k : Field => { k with hel := e }) h.frame⟩

theorem nev (h : OnlyCtx f n c g) : g.nev = f.nev := congrArg (·.nev) h.frame

theorem directOf (h : OnlyCtx f n c g) (x : BitVec 17) : g.directOf x = f.directOf x := by
  rw [Field.directOf, chan_congr h.nev, Field.directOf]

/-- Without an injection a period of a context joins only the log that its failure would keep. -/
theorem loopEntry (h : OnlyCtx f n c g) (s : Option Smp) (hc : c.injActive = false ∨ c.loopSlot = none) :
    ∃ l, OnlyCtx f n { c with log := l } (g.loopEntry n s) := by
  unfold Field.loopEntry
  rw [h.look]
  dsimp -zeta only
  extract_lets e g1
  have hg1 : g1 = g := by
    simp only [g1]
    rcases hc with hc | hc <;> simp only [hc]
    generalize c.loopSlot = o
    cases o <;> rfl
  rw [hg1]
  split
  · exact ⟨e :: c.log, h.modCtx (fun k => { k with log := e :: k.log })⟩
  · exact ⟨c.log, h⟩

/-- A remote context drives no gate of the field die. -/
theorem driveGate (h : OnlyCtx f n c g) (hd : f.directOf c.ch = none) : g.driveGate n = g := by
  rw [Field.driveGate, h.look]
  simp only [h.directOf, hd]

end OnlyCtx

/-! ### A good sample -/

/-- The loop's chain on a good sample with no swap pending, of a remote context (R194). -/
theorem OnlyCtx.runLoop {f g : Field} {n : Nat} {c : Ctx} (h : OnlyCtx f n c g) (r : Int) (x : Smp) (hs : c.swap = none)
    (ht : trajVolt c = true) (hd : f.directOf c.ch = none) : ∃ d, OnlyCtx f n d (g.runLoop n r x) ∧
      d.phase = c.phase ∧ d.sample = c.sample ∧ d.k = c.k ∧ d.periods = c.periods ∧ d.ref = BitVec.ofInt 16 r ∧
      d.injActive = c.injActive ∧
      d.gOut = BitVec.ofNat 12 (loopStep (activeBank c) c.stages (r - x.v.toNat)
        (bumpAt c.delta c.bumpJ (bumpN (activeBank c))) c.gOut.toNat none).g.toNat := by
  unfold Field.runLoop
  rw [h.look]
  dsimp -zeta only
  extract_lets e old gPrev new swaps bank ts lo ln delta j l hel g1 g2 g3
  have hbank : l = loopStep old c.stages e (bumpAt c.delta c.bumpJ (bumpN old)) gPrev none := by
    simp only [l, bank, ts, delta, j, swaps, hs, Option.isSome_none, Bool.false_eq_true, if_false]
  have he : e = r - x.v.toNat := by simp only [e, ht, if_true]
  have h2 : OnlyCtx f n _ g2 := OnlyCtx.setCtx (OnlyCtx.counters h (by rfl) (by rfl)) _
  have h3 : g3 = g2 := by simp only [g3, hs]
  rw [h3, h2.driveGate hd]
  refine ⟨_, h2, rfl, rfl, rfl, rfl, rfl, rfl, ?_⟩
  rw [hbank, he]

/-- A good sample of an insertion that no supervision ends: it counts in PREPARE, and in RAMP the chain runs on the trajectory's error
(R175, R193, R194). -/
theorem goodSample_goes {f : Field} {n : Nat} {c : Ctx} {w : Word} (h : tabLook f.hel.ctx n = some c) (hbit : bit (u8 c.ins 28) 0 = false)
    (hover : overNext c (smpOf (f.chan c.ch).nev w) < (u8 c.ins 12).toNat) :
    (c.phase = .prepare → c.goodRun.toNat < 7 → ∃ d, OnlyCtx f n d (f.goodSample n w) ∧
      d.phase = .prepare ∧ d.sample = none ∧ d.goodRun = c.goodRun + 1 ∧ d.periods = c.periods + 1 ∧
      d.v = normV w (f.chan c.ch).nev.vgain ∧ d.gOut = c.gOut ∧ d.stages = c.stages) ∧
    (c.phase = .ramp → c.frz.toNat < 7 → c.swap = none → trajVolt c = true → rampAt (c.k + 1) < rampSpan c → f.directOf c.ch = none →
      ∃ d, OnlyCtx f n d (f.goodSample n w) ∧ d.phase = .ramp ∧ d.sample = none ∧ d.k = c.k + 1 ∧ d.periods = c.periods + 1 ∧
        d.ref = BitVec.ofInt 16 (trajRef c (c.k + 1)) ∧
        d.gOut = BitVec.ofNat 12 (loopStep (activeBank c) c.stages (trajRef c (c.k + 1) - (normV w (f.chan c.ch).nev.vgain).toNat)
          (bumpAt c.delta c.bumpJ (bumpN (activeBank c))) c.gOut.toNat none).g.toNat) := by
  unfold Field.goodSample
  rw [h]
  dsimp -zeta only
  extract_lets x hist looping k injK mj viol vcnt frz ovN inj rise dvF armed acc c1 f0 _ f1 _ f2 _ g2 _
  have h1 : OnlyCtx f n c1 f1 := OnlyCtx.counters ((OnlyCtx.refl h).setCtx c1) (by rfl) (by rfl)
  have hviol : viol = false := by
    simp only [viol, hbit, Bool.and_false]
    generalize mj = o
    cases o <;> rfl
  rw [if_neg (Nat.not_le.mpr hover)]
  constructor
  · intro hp hg
    have harmed : armed = false := by simp [armed, looping, hp]
    have hcount : c1.goodRun = c.goodRun + 1 := by simp only [c1, hp, if_true]; exact satAdd_one (by omega)
    have hfew : ¬ 8 ≤ c1.goodRun.toNat := by rw [hcount, BitVec.toNat_add]; simp; omega
    rw [harmed, hviol, if_neg (by simp), if_neg (by simp), if_pos hp]
    obtain ⟨l, h2⟩ : ∃ l, OnlyCtx f n { c1 with log := l } f2 := h1.loopEntry (some x) (.inl (by simp [c1, hp]))
    rw [if_neg hfew]
    exact ⟨_, h2, hp, rfl, hcount, rfl, rfl, rfl, rfl⟩
  · intro hp hfrz hs ht hk hd
    have hstill : ¬ 8 ≤ frz.toNat := by
      simp only [frz]
      split
      · rw [satAdd_one (by omega), BitVec.toNat_add]; simp; omega
      · decide
    have hloop : looping = true := by simp [looping, hp]
    have hk1 : k = c.k + 1 := if_pos hloop
    have hinj : inj = 0 := if_neg (by simp [hp])
    rw [hviol, if_neg (by simp [hstill]), if_neg (by simp), if_neg (by simp [hp])]
    obtain ⟨d, h2, hphase, hsample, hkd, hper, href, hactive, hg⟩ := h1.runLoop (trajRef c k + inj) x hs ht hd
    obtain ⟨l, h3⟩ : ∃ l, OnlyCtx f n { d with log := l } g2 := h2.loopEntry (some x) (.inl (hactive.trans (by simp [c1, hp])))
    rw [if_pos hp, if_neg (by simpa [ht, hk1] using hk)]
    rw [hinj, Int.add_zero, hk1] at href hg
    exact ⟨_, h3, hphase.trans hp, hsample, hkd.trans hk1, hper, href, hg⟩

/-- A remote context's waiting sample is taken where no earlier one waits for its core (R198). -/
theorem loopSample_taken {f : Field} {n : Nat} {c : Ctx} {w : Word} {t : Count} (rawI rawV : BitVec 16) (lat : Nat)
    (h : tabLook f.hel.ctx n = some c) (hd : f.directOf c.ch = none) (hs : c.sample = some (w, t)) (hb : f.coreBusy c t = false)
    (hp : c.phase.supervised = true) : ∃ e : Hel, e.ctx = f.hel.ctx ∧ e.fails = f.hel.fails ∧
      f.loopSample n rawI rawV lat = Field.goodSample { f with hel := e } n w := by
  simp only [loopSample, h, hd, loopSampleRemote, hs, hb, Bool.false_eq_true, if_false, takeSample]
  rw [if_pos hp]
  refine ⟨_, ?_, ?_, rfl⟩ <;> rfl

theorem OnlyCtx.of_hel {f g : Field} {e : Hel} {n : Nat} {c : Ctx} (hctx : e.ctx = f.hel.ctx) (hfails : e.fails = f.hel.fails)
    (h : OnlyCtx { f with hel := e } n c g) : OnlyCtx f n c g :=
  ⟨h.look, fun m hm => (h.others m hm).trans (by rw [← hctx]), h.fails.trans hfails, h.frame⟩

/-- A good sample that comes in its period waits for its context's core (R193). -/
theorem streamSample_waits {f : Field} {n : Nat} {c : Ctx} {l : BitVec 5} {sl : BitVec 3} {q : BitVec 4} {w : Word}
    (h : tabLook f.hel.ctx n = some c) (hh : f.mer.holdover = false) (hl : f.ctxOfSlot l sl = some (n, c)) (hs : c.sample = none)
    (hcap : c.capSlot = none)
    (hq : q.toNat = (if c.firstGood.isSome then periodSeq c c.periods.toNat else ((f.lane l).cyc - 1) % 16))
    (hsat : wordSat w = false) (hinv : wordInv w = false) (hdue : ∀ d, deadline c = some d → f.now.toNat ≤ d) :
    f.streamSample l sl false q w true = f.setCtx n { c with
      sample := some (w, f.now), firstGood := some (c.firstGood.getD f.now),
      cyc0 := if c.firstGood.isSome then c.cyc0 else (f.lane l).cyc - 1 } := by
  have hlate : (match deadline c with | some d => decide (d < f.now.toNat) | none => false) = false := by
    generalize deadline c = o at hdue
    cases o with
    | none => rfl
    | some d => simpa using hdue d rfl
  have hclose : f.preClose n = f := by simp only [preClose, h, hcap]
  unfold streamSample
  simp -zeta only [hh, Bool.false_eq_true, if_false, hl]
  extract_lets f0 cyc
  have hf0 : f0 = f := (if_neg (fun hl => absurd (hlate.symm.trans hl) Bool.false_ne_true)).trans hclose
  have hcyc : cyc = (f.lane l).cyc - 1 := by simp only [cyc, hf0]
  rw [hf0, hcyc, h]
  dsimp only
  rw [decide_eq_true hq, hsat, hinv, hs, if_neg (by simp), if_pos (by simp)]

end Field

open Sys2Proof.Machine.Field in
/-- Settles O31: a sample is taken by its context alone, and counts or runs the chain. -/
theorem samplesAreTaken : Obligations.SamplesAreTaken := by
  unfold Obligations.SamplesAreTaken
  intro s n c hc
  refine ⟨fun l sl q w hh hl hs hcap hq hsat hinv hdue => ?stream, fun k rawI rawV lat w t hk hd hs hb hbit hover => ?loop⟩
  case stream =>
    refine s.endsField_of_exec (op := fun f => f.streamSample l sl false q w true) rfl ?_
    rw [streamSample_waits hc hh hl hs hcap hq hsat hinv hdue]
    exact ⟨setCtx_look_same .., fun m hm => setCtx_look_other _ _ hm, rfl⟩
  case loop =>
    subst hk
    refine ⟨fun hp hgood => s.endsField_of_exec (op := fun f => f.loopSample k.toNat rawI rawV lat) rfl ?_,
      fun hp hfrz hsw htr hr => s.endsField_of_exec (op := fun f => f.loopSample k.toNat rawI rawV lat) rfl ?_⟩
    · obtain ⟨e, hctx, hfails, hrun⟩ := loopSample_taken rawI rawV lat hc hd hs hb (by rw [hp]; rfl)
      obtain ⟨hprep, -⟩ := goodSample_goes (f := { s.f with hel := e }) (w := w) (hctx ▸ hc) hbit hover
      obtain ⟨d, hg, hphase, hsample, hrest⟩ := hprep hp hgood
      have ho := hg.of_hel hctx hfails
      rw [hrun]
      obtain ⟨hgr, hper, hv, hgo, hst⟩ := hrest
      exact ⟨d, ho.look, hphase, hsample, hgr, hper, hv, hgo, hst, ho.others, ho.nev⟩
    · obtain ⟨e, hctx, hfails, hrun⟩ := loopSample_taken rawI rawV lat hc hd hs hb (by rw [hp]; rfl)
      obtain ⟨-, hramp⟩ := goodSample_goes (f := { s.f with hel := e }) (w := w) (hctx ▸ hc) hbit hover
      obtain ⟨d, hg, hphase, hsample, hk, hper, href, hgo⟩ := hramp hp hfrz hsw htr hr hd
      have ho := hg.of_hel hctx hfails
      rw [hrun]
      exact ⟨d, ho.look, hphase, hsample, hk, hper, href, hgo, ho.others, ho.nev⟩

namespace Field

/-! ### A missing period -/

/-- What a missing period of a ramp leaves to its context (R197): d after c, one period on, its gate held. -/
structure Missed (c d : Ctx) : Prop where
  count : d.missCnt = satAdd c.missCnt 1
  holding : d.holding = true
  gate : d.gOut = c.gOut
  stages : d.stages = c.stages
  k : d.k = c.k + 1
  ref : d.ref = BitVec.ofInt 16 (trajRef c (c.k + 1))
  periods : d.periods = c.periods + 1
  phase : d.phase = .ramp
  ch : d.ch = c.ch

/-- A missing period of a ramp is counted; the second in a row fails the insertion (R197, R209). -/
theorem missingPeriod_ramp {f : Field} {n : Nat} {c : Ctx} (h : tabLook f.hel.ctx n = some c) (hdue : f.overdue c = true)
    (hp : c.phase = .ramp) : ∃ (d : Ctx) (g : Field), OnlyCtx f n d g ∧ Missed c d ∧
      f.missingPeriod n = if 2 ≤ (satAdd c.missCnt 1).toNat then (g.failIns n 0x1C).modCtx n (fun k => { k with lostPend := true }) else g := by
  unfold missingPeriod
  rw [h]
  dsimp -zeta only
  extract_lets looping m k inj f1 f2 g1
  have hloop : looping = true := by simp [looping, hp]
  have hk : k = c.k + 1 := if_pos hloop
  have hinj : inj = 0 := if_neg (by simp [hp])
  rw [if_neg (by simp [hdue]), if_pos (by rw [hp]; rfl), if_neg (c := c.phase = .settle) (by simp [hp])]
  obtain ⟨l, h2⟩ := ((OnlyCtx.refl h).setCtx _ : OnlyCtx f n _ f1).loopEntry none (.inl (by simp [hp]))
  refine ⟨_, f2, h2.modCtx (fun k => { k with pSat := false, pInval := false }), ⟨rfl, hloop, rfl, rfl, hk, ?_, rfl, hp, rfl⟩, rfl⟩
  simp only [hloop, if_true, hk, hinj, Int.add_zero]
  rfl

/-! ### A failed insertion keeps its context for the ramp-off -/

theorem firstNat_holds {p : Nat → Bool} {lo n i : Nat} (h : firstNat p lo n = some i) : p i = true := by
  induction n generalizing lo with
  | zero => cases h
  | succ n ih =>
    rw [firstNat] at h
    split at h
    next hp => cases h; exact hp
    next => exact ih h

/-- A capture that starts takes a free context, and no other (R174). -/
theorem capStart_look {f : Field} (w : CapWait) {m n : Nat} (sl : Nat) (hn : n ≠ m) :
    tabLook (f.capStart w m sl).hel.ctx n = tabLook f.hel.ctx n := by
  unfold capStart
  extract_lets c pre st f1 rate ents direct dest s _ ctx f2 f3
  have h2 : tabLook f2.hel.ctx n = tabLook f.hel.ctx n := by
    simp only [f2, writeSlot_hel]
    refine (setCtx_look_other f1 ctx hn).trans ?_
    exact congrArg (fun h : Hel => tabLook h.ctx n) (startStream_hel f _ _ _ _)
  clear_value f2
  have h3 : f3.hel = f2.hel := by
    simp only [f3]
    generalize f1.directOf w.ch = o
    cases o <;> rfl
  clear_value f3
  rw [← h2, ← h3]
  split
  · rw [done_hel]
  · rfl

theorem capAsk_look {f : Field} (w : CapWait) {n : Nat} {c : Ctx} (h : tabLook f.hel.ctx n = some c) :
    tabLook (f.capAsk w).hel.ctx n = some c := by
  unfold capAsk
  split
  · rw [capNoSlot_hel, h]
  · split
    · split
      next m hm =>
        have hfree : (tabLook f.hel.ctx m).isNone = true := firstNat_holds hm
        rw [capStart_look w _ (fun hnm => by subst hnm; simp [h] at hfree), h]
      next => rw [capNoCtx_hel, h]
    · split
      · exact h
      · rw [capNoCtx_hel, h]

theorem tripCapture_look {f : Field} (x : BitVec 17) (cause : Byte) {n : Nat} {c : Ctx} (h : tabLook f.hel.ctx n = some c) :
    tabLook (f.tripCapture x cause).hel.ctx n = some c := by
  unfold tripCapture
  extract_lets p
  split
  · exact capAsk_look _ h
  · exact h

theorem holds_failCapture {f : Field} {n : Nat} (c : Ctx) (code : Byte) : (f.failCapture n c code).holds n = f.holds n := by
  unfold failCapture
  split
  · split
    · rfl
    · dsimp only
      split
      · exact holds_of_hel ((capEnd_hel _ _ _).trans (writeSlot_hel ..)) n
      · rw [holds_modCtx]
        exact holds_of_hel (writeSlot_hel ..) n
  · rfl

/-- The gate of a failed insertion leaves by ramp-off (R212): the context is held for it. -/
theorem failIns_rampOff {f : Field} {n : Nat} {c : Ctx} (code : Byte) (h : tabLook f.hel.ctx n = some c) (hp : c.phase ≠ .handover) :
    ∃ k, tabLook (f.failIns n code).hel.ctx n = some k ∧ k.phase = .rampOff := by
  unfold failIns
  rw [h]
  dsimp -zeta only
  extract_lets f1 f2 p3 p4 f3 f4 f5
  rw [if_neg hp]
  have h2 : f2.holds n = true := (holds_endLoop f1 n c n).trans (by simp [holds, f1, countFail, h])
  have h3 : f3.holds n = true := (holds_of_hel ((insEnd_hel _ _ _ _).trans (enter_hel_any f2 c.ch .tripped code 0 none)) n).trans h2
  obtain ⟨k, hk, hphase⟩ := toRampOff_phase (f := f3.failCapture n c code) (some code) ((holds_failCapture c code).trans h3)
  have h5 : f5.hel = f4.hel := by
    simp only [f5]
    generalize f4.directOf c.ch = o
    cases o with
    | some d => dsimp only; split <;> rfl
    | none => rfl
  exact ⟨k, tripCapture_look c.ch code (h5 ▸ hk), hphase⟩

/-! ### The end of a ramp-off -/

/-- From f to g context n ends, and the other contexts stand. -/
def EndsCtx (f : Field) (n : Nat) (g : Field) : Prop :=
  tabLook g.hel.ctx n = none ∧ ∀ m, m ≠ n → tabLook g.hel.ctx m = tabLook f.hel.ctx m

theorem dropSwap_look_other (f : Field) {m n : Nat} (hm : m ≠ n) : tabLook (f.dropSwap n).hel.ctx m = tabLook f.hel.ctx m := by
  unfold dropSwap
  split
  · split
    · rw [complete_hel, setCtx_look_other _ _ hm]
    · rfl
  · rfl

theorem rampOver_ends {f : Field} {n : Nat} {c : Ctx} (h : tabLook f.hel.ctx n = some c) (hcap : c.capSlot = none) :
    EndsCtx f n (f.rampOver n) := by
  have hlook : tabLook (f.stopStream c 0).hel.ctx n = some c := by rw [stopStream_hel, h]
  simp only [rampOver, h, hcap, Option.isSome_none, Bool.false_eq_true, if_false]
  rw [EndsCtx, dropCtx_ctx false hlook]
  refine ⟨tabLook_tabDel_same _ _, fun m hm => ?_⟩
  rw [tabLook_tabDel_other _ (Ne.symm hm), dropSwap_look_other _ hm, stopStream_hel]

theorem rampOver_none {f : Field} {n : Nat} (h : tabLook f.hel.ctx n = none) : f.rampOver n = f := by simp only [rampOver, h]

/-- A channel whose only context is in its ramp-off loses it. -/
theorem rampsEnd_ends {f : Field} {n : Nat} {c : Ctx} {x : BitVec 17} (h : tabLook f.hel.ctx n = some c) (hcap : c.capSlot = none)
    (hx : c.ch = x) (hall : ∀ e ∈ f.ctxsOf x, e.1 = n ∧ e.2.phase = .rampOff) : EndsCtx f n (f.rampsEnd x) := by
  have hmem : (n, c) ∈ f.ctxsOf x := List.mem_filter.mpr ⟨mem_of_tabLook h, by simp [hx]⟩
  have hstay (l : List (Nat × Ctx)) (g : Field) (hg : tabLook g.hel.ctx n = none) (hl : ∀ e ∈ l, e.1 = n ∧ e.2.phase = .rampOff) :
      l.foldl (fun (g : Field) e => if e.2.phase = Phase.rampOff then g.rampOver e.1 else g) g = g := by
    induction l with
    | nil => rfl
    | cons e l ih =>
      obtain ⟨he, hp⟩ := hl e List.mem_cons_self
      rw [List.foldl_cons, if_pos hp, he, rampOver_none hg]
      exact ih fun k hk => hl k (List.mem_cons_of_mem e hk)
  unfold rampsEnd
  generalize f.ctxsOf x = l at hall hmem
  cases l with
  | nil => cases hmem
  | cons e l =>
    obtain ⟨he, hp⟩ := hall e List.mem_cons_self
    have hend := rampOver_ends h hcap
    rw [List.foldl_cons, if_pos hp, he, hstay l _ hend.1 fun k hk => hall k (List.mem_cons_of_mem e hk)]
    exact hend

theorem mem_tabPut {α : Type} {t : Tab α} {i : Nat} {v : α} {e : Nat × α} (h : e ∈ tabPut t i v) : e = (i, v) ∨ e ∈ t := by
  induction t with
  | nil => exact .inl (by simpa [tabPut] using h)
  | cons a t ih =>
    obtain ⟨k, w⟩ := a
    rw [tabPut] at h
    split at h
    · exact List.mem_cons.mp h
    · split at h
      · exact (List.mem_cons.mp h).imp_right (List.mem_cons_of_mem _)
      · rcases List.mem_cons.mp h with rfl | h
        · exact .inr List.mem_cons_self
        · exact (ih h).imp_right (List.mem_cons_of_mem _)

/-- A gate that goes OFF ends the ramp-off of the channel that it is bound to. -/
theorem gateOff_ends {f : Field} {n : Nat} {c : Ctx} {d : BitVec 4} {x : BitVec 17} (h : tabLook f.hel.ctx n = some c)
    (hcap : c.capSlot = none) (hx : c.ch = x) (hb : (f.dchan d).bound = some x)
    (hall : ∀ e ∈ f.ctxsOf x, e.1 = n ∧ e.2.phase = .rampOff) : EndsCtx f n (f.gateOff d false) := by
  obtain ⟨m, -, heq⟩ := gateOff_eq f d false
  rw [heq, hb]
  have hend := rampsEnd_ends (f := f.modDch d m) h hcap hx hall
  obtain ⟨-, -, hhel⟩ := confirmedOpen_spec ((f.modDch d m).rampsEnd x) x
  rw [EndsCtx, hhel]
  exact hend

/-- The last step of a ramp-off: the gate goes off, and the context ends (R212). -/
theorem rampOffEnd_ends {f : Field} {n : Nat} {c : Ctx} (h : tabLook f.hel.ctx n = some c) (hcap : c.capSlot = none)
    (hall : ∀ e ∈ f.ctxsOf c.ch, e.1 = n ∧ e.2.phase = .rampOff)
    (hb : ∀ d, f.directOf c.ch = some d → (f.dchan d).bound = some c.ch) : EndsCtx f n (f.rampOffEnd n) ∧
      ∀ d, f.directOf c.ch = some d → ((f.rampOffEnd n).dchan d).mode = .off ∧ ((f.rampOffEnd n).dchan d).dg = false := by
  unfold rampOffEnd
  rw [h]
  dsimp only
  generalize f.directOf c.ch = o at hb
  cases o with
  | none => exact ⟨rampOver_ends h hcap, fun d hd => absurd hd (by simp)⟩
  | some d =>
    obtain ⟨-, hmode, hdg, -⟩ := gateOff_spec f d false
    refine ⟨gateOff_ends h hcap rfl (hb d rfl) hall, fun k hk => ?_⟩
    obtain rfl := Option.some.inj hk
    exact ⟨hmode, hdg⟩

/-- The same, of the context d that a last step writes in the place of the channel's only context. -/
theorem rampOffEnd_of_only (f : Field) {n : Nat} {c : Ctx} (d : Ctx) (hc : c.phase = .rampOff) (hd : d.phase = .rampOff) (hch : d.ch = c.ch)
    (hcap : d.capSlot = none) (hone : f.ctxsOf c.ch = [(n, c)]) (hb : ∀ k, f.directOf c.ch = some k → (f.dchan k).bound = some c.ch) :
    tabLook ((f.setCtx n d).rampOffEnd n).hel.ctx n = none ∧
      (∀ m, m ≠ n → tabLook ((f.setCtx n d).rampOffEnd n).hel.ctx m = tabLook f.hel.ctx m) ∧
      ∀ k, f.directOf c.ch = some k →
        (((f.setCtx n d).rampOffEnd n).dchan k).mode = .off ∧ (((f.setCtx n d).rampOffEnd n).dchan k).dg = false := by
  have hall (e : Nat × Ctx) (he : e ∈ (f.setCtx n d).ctxsOf d.ch) : e.1 = n ∧ e.2.phase = .rampOff := by
    obtain ⟨hmem, hx⟩ := List.mem_filter.mp he
    rcases mem_tabPut hmem with rfl | hold
    · exact ⟨rfl, hd⟩
    · have hin : e ∈ f.ctxsOf c.ch := List.mem_filter.mpr ⟨hold, hch ▸ hx⟩
      rw [hone, List.mem_singleton] at hin
      subst hin
      exact ⟨rfl, hc⟩
  obtain ⟨⟨hnone, hothers⟩, hgate⟩ := rampOffEnd_ends (setCtx_look_same f n d) hcap hall (hch ▸ hb)
  exact ⟨hnone, fun m hm => (hothers m hm).trans (setCtx_look_other _ _ hm), hch ▸ hgate⟩

/-! ### A step of a ramp-off -/

theorem driveGate_spec (f : Field) (n : Nat) : (f.driveGate n).hel = f.hel ∧ (f.driveGate n).nev = f.nev := by
  unfold driveGate
  split
  · split <;> exact ⟨rfl, rfl⟩
  · exact ⟨rfl, rfl⟩

section
variable {f : Field} {n : Nat} {c : Ctx} (h : tabLook f.hel.ctx n = some c) (hp : c.phase = .rampOff)
  (hdue : c.tPhase.toNat + periodTicks c ≤ f.now.toNat) (hl : c.lostPend = false)
include h hp hdue hl

theorem rampOffStep_due : f.rampOffStep n =
    let f1 := f.setCtx n { c with gOut := BitVec.ofNat 12 (c.gOut.toNat - rampOff (activeBank c)),
                                  tPhase := c.tPhase + BitVec.ofNat 64 (periodTicks c) }
    if c.gOut.toNat - rampOff (activeBank c) = 0 then f1.rampOffEnd n else f1.driveGate n := by
  unfold rampOffStep
  rw [h]
  dsimp only
  rw [if_neg (by simp [hp, hdue]), if_neg (by simp [hl])]

/-- The reference falls, and the gate with it. -/
theorem rampOffStep_falls (hlt : rampOff (activeBank c) < c.gOut.toNat) : f.rampOffStep n =
    (f.setCtx n { c with gOut := c.gOut - BitVec.ofNat 12 (rampOff (activeBank c)),
                         tPhase := c.tPhase + BitVec.ofNat 64 (periodTicks c) }).driveGate n := by
  have hg : BitVec.ofNat 12 (c.gOut.toNat - rampOff (activeBank c)) = c.gOut - BitVec.ofNat 12 (rampOff (activeBank c)) := by
    generalize rampOff (activeBank c) = r at hlt
    bv_omega
  rw [rampOffStep_due h hp hdue hl, hg]
  exact if_neg (by omega)

theorem rampOffStep_ends (hle : c.gOut.toNat ≤ rampOff (activeBank c)) : f.rampOffStep n =
    (f.setCtx n { c with gOut := 0, tPhase := c.tPhase + BitVec.ofNat 64 (periodTicks c) }).rampOffEnd n := by
  rw [rampOffStep_due h hp hdue hl, Nat.sub_eq_zero_of_le hle]
  rfl

end

end Field

open Sys2Proof.Machine.Field in
/-- Settles O32: a missing period of a ramp counts, the second one leaves by ramp-off; a ramp-off falls step by step and then ends. -/
theorem gatesHoldAndFall : Obligations.GatesHoldAndFall := by
  unfold Obligations.GatesHoldAndFall
  intro s n c hc
  refine ⟨fun d hd hle hs hp => ?missing, fun hp hdue hl => ⟨fun hlt => ?falls, fun hle hcap hone hb => ?ends⟩⟩
  case missing =>
    obtain ⟨k, g, hg, hm, hrun⟩ := missingPeriod_ramp (f := s.f) hc (by simp [overdue, hs, hd, hle]) hp
    refine ⟨fun h0 => s.endsField_of_exec (op := fun f => f.missingPeriod n.toNat) rfl ?_,
      fun h1 hloop => s.endsField_of_exec (op := fun f => f.missingPeriod n.toNat) rfl ?_⟩
    · rw [hrun, h0, if_neg (by decide)]
      exact ⟨k, hg.look, hm.count.trans (by rw [h0]; rfl), hm.holding, hm.gate, hm.stages, hm.k, hm.ref, hm.periods, hm.phase, hg.others, hg.nev⟩
    · rw [hrun, h1, if_pos (by decide)]
      obtain ⟨j, hj, hphase⟩ := failIns_rampOff 0x1C hg.look (by rw [hm.phase]; decide)
      obtain ⟨hstate, hcause⟩ := failIns_tripped (f := g) 0x1C hg.look
      have hfails := failIns_fails (f := g) 0x1C hg.look
      rw [hm.ch] at hstate hcause
      rw [modCtx_of_look _ hj]
      exact ⟨hstate, hcause, hfails.trans (by rw [hg.fails]; rfl), _, setCtx_look_same .., hphase, rfl⟩
  case falls =>
    refine s.endsField_of_exec (op := fun f => f.rampOffStep n.toNat) rfl ?_
    rw [rampOffStep_falls hc hp hdue hl hlt]
    obtain ⟨hhel, hnev⟩ := driveGate_spec (s.f.setCtx n.toNat _) n.toNat
    rw [hhel, hnev]
    exact ⟨setCtx_look_same .., fun m hm => setCtx_look_other _ _ hm, rfl⟩
  case ends =>
    refine s.endsField_of_exec (op := fun f => f.rampOffStep n.toNat) rfl ?_
    rw [rampOffStep_ends hc hp hdue hl hle]
    exact rampOffEnd_of_only (s.f) _ hp hp rfl hcap hone hb

end Sys2Proof.Machine
end

section
/-! PROOF. A lane receiver takes the characters of one whole frame as that frame (R255 to R257), and the row that brings them takes it. -/
namespace Sys2Proof.Machine
set_option Elab.async false

namespace LaneRx

/-! ### One frame inside a reserve block -/

/-- The reserve block in which an answer or a telemetry frame comes. -/
def reserve : OpenUnit := { kind := .reserve, got := [], tele := false, nested := false, tent := false }
/-- An ordinary frame that is being collected, the last character first. -/
def frame (tele : Bool) (got : Bytes) : OpenUnit := { kind := .ordinary, got := got, tele := tele, nested := false, tent := false }
/-- A receiver in a frame inside the reserve block. -/
def within (tele : Bool) (got : Bytes) : LaneRx := { opened := [frame tele got, reserve], ord := 0, exp := 0, done := [] }
/-- A receiver in the reserve block. -/
def started : LaneRx := { opened := [reserve], ord := 0, exp := 0, done := [] }
/-- A receiver after one whole frame inside the reserve block. -/
def after (tele : Bool) (b : Bytes) : LaneRx := { opened := [reserve], ord := 0, exp := 0, done := [(tele, b)] }

/-- A frame that is not whole yet goes on with the next character. -/
theorem step_data {tele : Bool} {got : Bytes} {x : Byte} (h : whole (frame tele (x :: got)) ≠ some (got.length + 1)) :
    step (within tele got) ⟨false, x⟩ = within tele (x :: got) := by
  have hput : (within tele got).put x false = within tele (x :: got) := if_neg h
  exact hput

theorem step_last {got : Bytes} {x : Byte} (h : whole (frame true (x :: got)) = some (got.length + 1)) :
    step (within true got) ⟨false, x⟩ = after true (x :: got).reverse := by
  have hput : (within true got).put x false = after true (x :: got).reverse := if_pos h
  exact hput

theorem step_end {got : Bytes} (h : whole (frame false (0xFD :: got)) = some (got.length + 1)) :
    step (within false got) ⟨true, 0xFD⟩ = after false (0xFD :: got).reverse := by
  have hput : (within false got).put 0xFD true = after false (0xFD :: got).reverse := if_pos h
  exact hput

/-- The characters of a frame up to the m + n-th, none of which makes it whole. -/
theorem foldl_data (tele : Bool) (b : Bytes) (m n : Nat) (hn : m + n ≤ b.length)
    (h : ∀ k, m < k → k ≤ m + n → whole (frame tele (b.take k).reverse) ≠ some k) :
    (((b.drop m).take n).map (fun x => (⟨false, x⟩ : LChar))).foldl step (within tele (b.take m).reverse) =
      within tele (b.take (m + n)).reverse := by
  induction n with
  | zero => simp
  | succ n ih =>
    have hlt : m + n < b.length := by omega
    have htake : b.take (m + n + 1) = b.take (m + n) ++ [b[m + n]] := (List.take_concat_get' b (m + n) hlt).symm
    have hdrop : (b.drop m).take (n + 1) = (b.drop m).take n ++ [b[m + n]] := by
      rw [List.take_succ_eq_append_getElem (by simp; omega), List.getElem_drop]
    rw [hdrop, List.map_append, List.foldl_append, ih (by omega) fun k hk hle => h k hk (by omega)]
    have hw := h (m + n + 1) (by omega) (by omega)
    rw [htake, List.reverse_append] at hw
    rw [← Nat.add_assoc, htake, List.reverse_append]
    refine step_data fun hc => hw (hc.trans ?_)
    simp [Nat.min_eq_left (Nat.le_of_lt hlt)]

end LaneRx

open LaneRx

/-- What one whole frame leaves once the reserve block ends with the characters. -/
theorem receive_after {cs : List LChar} {tele : Bool} {b : Bytes} (h : cs.foldl LaneRx.step started = after tele b) :
    receive cs = { opened := [], ord := 0, exp := 0, done := [(tele, b)] } := by
  unfold receive
  dsimp only
  change (List.range (cs.foldl LaneRx.step started).opened.length).foldl _ (cs.foldl LaneRx.step started) = _
  rw [h]
  rfl

/-- A telemetry frame is received as it (R255). -/
theorem receive_teleChars {b : Bytes} (hlen : b.length = 284) (h0 : u8 b 0 = 0xFB) (h1 : u8 b 1 = 0xBC) :
    receive (teleChars b) = { opened := [], ord := 0, exp := 0, done := [(true, b)] } := by
  have hhead : b.take 2 = [0xFB, 0xBC] := by
    match b, hlen, h0, h1 with
    | x :: y :: r, _, h0, h1 => simp_all [u8]
  have hlast : b.take 283 ++ [b[283]] = b := by
    rw [List.take_concat_get' b 283 (by omega), List.take_of_length_le (by omega)]
  have hmid : b.drop 2 = (b.drop 2).take 281 ++ [b[283]] := by
    have hdrop : (b.drop 2).drop 281 = [b[283]] := by
      rw [List.drop_drop, List.drop_eq_getElem_cons (by omega), List.drop_of_length_le (by omega)]
    rw [← hdrop, List.take_append_drop]
  refine receive_after ?_
  rw [teleChars, hmid, hhead, List.map_append, List.foldl_append, List.foldl_append]
  have hstart : List.foldl LaneRx.step started
      (([0xFB, 0xBC] : Bytes).map fun x => (⟨true, x⟩ : LChar)) = within true (b.take 2).reverse := by rw [hhead]; rfl
  rw [hstart, foldl_data true b 2 281 (by omega) fun k _ hk hw => by
    have := Option.some.inj (show some 284 = some k from hw)
    omega]
  refine (step_last ?_).trans ?_
  · simp [LaneRx.whole, LaneRx.frame, hlen]
  · rw [List.reverse_cons, List.reverse_reverse, hlast]

theorem u8_take (b : Bytes) {n i : Nat} (h : i < n) : u8 (b.take n) i = u8 b i := by
  simp [u8, h]

/-- An ordinary frame of its length is received as it (R255, R257). -/
theorem receive_frameChars {b : Bytes} (hlen : b.length = 10 + (u8 b 4).toNat) (h0 : u8 b 0 = 0xFB) (hl : u8 b (b.length - 1) = 0xFD) :
    receive (frameChars b) = { opened := [], ord := 0, exp := 0, done := [(false, b)] } := by
  have hhead : b.take 1 = [0xFB] := by
    match b, hlen, h0 with
    | x :: r, _, h0 => simp_all [u8]
  have hend : b.drop (b.length - 1) = [0xFD] := by
    rw [List.drop_eq_getElem_cons (by omega), List.drop_of_length_le (by omega)]
    simpa [u8, List.getElem?_eq_getElem (show b.length - 1 < b.length by omega)] using hl
  have hlast : b.take (b.length - 1) ++ [0xFD] = b := by rw [← hend, List.take_append_drop]
  have hwhole (k : Nat) (hk : 5 ≤ k) (hle : k ≤ b.length) : LaneRx.whole (frame false (b.take k).reverse) = some b.length := by
    simp [LaneRx.whole, frame, hk, u8_take b (show 4 < k by omega), hlen]
    omega
  refine receive_after ?_
  rw [frameChars, hend, List.foldl_append, List.foldl_append]
  have hstart : List.foldl LaneRx.step started
      ((b.take 1).map fun x => (⟨true, x⟩ : LChar)) = within false (b.take 1).reverse := by rw [hhead]; rfl
  rw [hstart, foldl_data false b 1 (b.length - 2) (by omega) fun k hk hle hw => by
    by_cases h5 : 5 ≤ k
    · rw [hwhole k h5 (by omega)] at hw
      have := Option.some.inj hw
      omega
    · simp [LaneRx.whole, frame, h5] at hw]
  have hn : 1 + (b.length - 2) = b.length - 1 := by omega
  rw [hn]
  refine (step_end ?_).trans ?_
  · have hfull := hwhole b.length (by omega) le_rfl
    rw [List.take_length] at hfull
    rw [show (0xFD : Byte) :: (b.take (b.length - 1)).reverse = b.reverse by rw [← List.reverse_concat, hlast], hfull]
    simp
    omega
  · rw [List.reverse_cons, List.reverse_reverse, hlast]

namespace Field

/-! ### One lane -/

/-- From f to g only the lanes change, and of them only lane l. -/
structure OnlyLane (f : Field) (l : BitVec 5) (g : Field) : Prop where
  others : ∀ k, k ≠ l → g.lane k = f.lane k
  frame : g = { f with lan := g.lan }

namespace OnlyLane
variable {f g : Field} {l : BitVec 5}

theorem refl (f : Field) (l : BitVec 5) : OnlyLane f l f := ⟨fun _ _ => rfl, rfl⟩

theorem setLane (h : OnlyLane f l g) (v : Lane) : OnlyLane f l (g.setLane l v) :=
  ⟨fun k hk => (lane_setLane_other g v (Ne.symm hk)).trans (h.others k hk), congrArg (fun t : Field => t.setLane l v) h.frame⟩

theorem modLane (h : OnlyLane f l g) (m : Lane → Lane) : OnlyLane f l (g.modLane l m) := h.setLane _

theorem nev (h : OnlyLane f l g) : g.nev = f.nev := congrArg (·.nev) h.frame

end OnlyLane

theorem modOs_of_look {f : Field} {l : BitVec 5} {k : Nat} {o : Outst} (m : Outst → Outst) (h : tabLook (f.lane l).os k = some o) :
    f.modOs l k m = f.modLane l (fun v => { v with os := tabPut v.os k (m o) }) := by simp only [modOs, h]

/-- A lane written as it is. -/
def rewritten (f : Field) (l : BitVec 5) : Field := f.setLane l (f.lane l)

theorem rewritten_lane (f : Field) (l k : BitVec 5) : (f.rewritten l).lane k = f.lane k := by
  by_cases h : k = l
  · subst h; exact lane_setLane_same ..
  · exact lane_setLane_other _ _ (Ne.symm h)

theorem rewritten_only (f : Field) (l : BitVec 5) : OnlyLane f l (f.rewritten l) := (OnlyLane.refl f l).setLane _

/-- The characters of one whole frame of the row's kind are taken as it (R255 to R257). -/
theorem laneChars_one {f : Field} {l : BitVec 5} {cs : List LChar} {tele : Bool} {b : Bytes} (take : Field → Bytes → Field)
    (hh : f.laneHears l = true) (hr : receive cs = { opened := [], ord := 0, exp := 0, done := [(tele, b)] }) :
    f.laneChars l cs tele take = take (f.rewritten l) b := by
  unfold laneChars
  rw [if_neg (by simp [hh]), hr]
  simp [modLane, rewritten]

/-- What no frame comes of is counted (R257). -/
theorem laneChars_none {f : Field} {l : BitVec 5} {cs : List LChar} {tele : Bool} (take : Field → Bytes → Field)
    (hh : f.laneHears l = true) (hr : (receive cs).done = []) :
    f.laneChars l cs tele take = f.modLane l (fun v =>
      { v with crcOrd := satAdd v.crcOrd (receive cs).ord, crcExp := satAdd v.crcExp (receive cs).exp }) := by
  unfold laneChars
  rw [if_neg (by simp [hh])]
  simp [hr]

/-- A frame that fails its CRC is counted, of its lane's frames taken so far. -/
theorem crcOrdinary_rewritten (f : Field) (l : BitVec 5) : OnlyLane f l ((f.rewritten l).crcOrdinary l) ∧
    ((f.rewritten l).crcOrdinary l).lane l = { f.lane l with crcOrd := satAdd (f.lane l).crcOrd 1 } := by
  refine ⟨(rewritten_only f l).modLane _, ?_⟩
  rw [crcOrdinary, lane_modLane_same, rewritten_lane]

end Field

end Sys2Proof.Machine
end

section
/-! PROOF. The energy of a channel is read before it changes (R219, R349, R352): no other part of its entry, and no lane, changes. -/
namespace Sys2Proof.Machine
set_option Elab.async false
namespace Field

/-! ### One read of the store -/

/-- The field die f with the store and the records of g. -/
def withStore (f g : Field) : Field := { f.withRecords g with firn := g.firn }

theorem store_trans {f g h : Field} (a : g = f.withStore g) (b : h = g.withStore h) : h = f.withStore h := by
  rw [a] at b
  exact b

theorem store_of_records {f g : Field} (h : g = f.withRecords g) : g = f.withStore g := by
  unfold withStore
  conv_lhs => rw [h]
  rw [show g.firn = f.firn from congrArg (·.firn) h]
  rfl

theorem store_raiseAll {f g : Field} (h : g = f.withStore g) (ty : Byte) (b : Bytes) : g.raiseAll ty b = f.withStore (g.raiseAll ty b) :=
  store_trans h (store_of_records (raiseAll_frame g ty b))

theorem store_ite {f g h : Field} (c : Prop) [Decidable c] (a : g = f.withStore g) (b : h = f.withStore h) :
    (if c then g else h) = f.withStore (if c then g else h) := by
  split
  · exact a
  · exact b

theorem poison_store (f : Field) (cw : Nat) : f.poison cw = f.withStore (f.poison cw) := rfl

theorem writeBack_store (f : Field) (cw : Nat) (w : Bytes) : f.writeBack cw w = f.withStore (f.writeBack cw w) := store_ite _ rfl rfl

theorem corrected_store (f : Field) (cw : Nat) (es : List (Nat × Byte)) : f.corrected cw es = f.withStore (f.corrected cw es) := by
  unfold corrected
  extract_lets _ f1
  have h1 : f1 = f.withStore f1 := rfl
  clear_value f1
  split
  · exact h1
  · extract_lets key n f2
    have h2 : f2 = f.withStore f2 := store_trans h1 rfl
    clear_value f2
    exact store_ite _ (store_raiseAll (store_trans h2 rfl) _ _) h2

theorem tellUe_store (f : Field) : f.tellUe = f.withStore f.tellUe := store_ite _ (store_raiseAll rfl _ _) rfl

/-- A read of the store changes nothing beside the store; it may be told. -/
theorem readRaw_store (f : Field) (cw : Nat) : (f.readRaw cw).1 = f.withStore (f.readRaw cw).1 := by
  unfold readRaw
  split
  · rfl
  · extract_lets w out
    generalize out = o
    split
    · rfl
    · rfl
    · exact store_trans (corrected_store f _ _) (writeBack_store _ _ _)
    · exact store_trans (store_trans rfl (poison_store _ cw)) (tellUe_store _)

/-! ### The channels that exist -/

theorem mem_tabDel {α : Type} {t : Tab α} {k : Nat} {e : Nat × α} (h : e ∈ tabDel t k) : e ∈ t := by
  induction t with
  | nil => cases h
  | cons a t ih =>
    rw [tabDel] at h
    split at h
    · exact List.mem_cons_of_mem a (ih h)
    · exact (List.mem_cons.mp h).elim (fun he => he ▸ List.mem_cons_self) fun ht => List.mem_cons_of_mem a (ih ht)

theorem mem_tabDel_other {α : Type} {t : Tab α} {k : Nat} {e : Nat × α} (h : e ∈ t) (hk : e.1 ≠ k) : e ∈ tabDel t k := by
  induction t with
  | nil => cases h
  | cons a t ih =>
    rw [tabDel]
    rcases List.mem_cons.mp h with rfl | ht
    · rw [if_neg hk]
      exact List.mem_cons_self
    · split
      · exact ih ht
      · exact List.mem_cons_of_mem a (ih ht)

/-- What a table lists at a key that is written stays listed, or it was what the key read. -/
theorem mem_tabPut_keep {α : Type} {t : Tab α} {k : Nat} (v : α) {e : Nat × α} (h : e ∈ t) :
    e ∈ tabPut t k v ∨ (e.1 = k ∧ tabLook t k = some e.2) := by
  induction t with
  | nil => cases h
  | cons a t ih =>
    obtain ⟨i, w⟩ := a
    rw [tabPut, tabLook]
    split
    · exact .inl (List.mem_cons_of_mem _ h)
    · split
      next hi =>
        rcases List.mem_cons.mp h with rfl | ht
        · exact .inr ⟨hi, rfl⟩
        · exact .inl (List.mem_cons_of_mem _ ht)
      next hi =>
        rcases List.mem_cons.mp h with rfl | ht
        · exact .inl List.mem_cons_self
        · exact (ih ht).imp_left (List.mem_cons_of_mem _)

theorem mem_existing_iff {f : Field} {c : BitVec 17 × Chan} :
    c ∈ f.existing ↔ ∃ k, (k, c.2) ∈ f.nev.ch ∧ c.2.nev.state ≠ .free ∧ c.1 = BitVec.ofNat 17 k := by
  unfold existing
  rw [List.mem_map]
  constructor
  · rintro ⟨⟨k, v⟩, he, rfl⟩
    obtain ⟨hm, hs⟩ := List.mem_filter.mp he
    exact ⟨k, hm, by simpa using hs, rfl⟩
  · rintro ⟨k, hm, hs, hx⟩
    exact ⟨(k, c.2), List.mem_filter.mpr ⟨hm, by simpa using hs⟩, Prod.ext hx.symm rfl⟩

/-- From f to g no channel is bound anew, and those that p holds of go on existing. -/
structure Places (p : BitVec 17 → Prop) (f g : Field) : Prop where
  back : ∀ c ∈ g.existing, ∃ d ∈ f.existing, d.1 = c.1 ∧ d.2.fr.bind = c.2.fr.bind
  forth : ∀ d ∈ f.existing, p d.1 → ∃ c ∈ g.existing, c.1 = d.1

namespace Places
variable {p : BitVec 17 → Prop} {f g h : Field}

theorem ofCh (hc : g.nev.ch = f.nev.ch) : Places p f g := by
  have he : g.existing = f.existing := by rw [existing, existing, hc]
  exact ⟨fun c hm => ⟨c, he ▸ hm, rfl, rfl⟩, fun d hm _ => ⟨d, he.symm ▸ hm, rfl⟩⟩

theorem trans (a : Places p f g) (b : Places p g h) : Places p f h := by
  refine ⟨fun c hc => ?_, fun d hd hp => ?_⟩
  · obtain ⟨d, hd, hx, hb⟩ := b.back c hc
    obtain ⟨e, he, hy, hbe⟩ := a.back d hd
    exact ⟨e, he, hy.trans hx, hbe.trans hb⟩
  · obtain ⟨c, hc, hx⟩ := a.forth d hd hp
    obtain ⟨e, he, hy⟩ := b.forth c hc (hx ▸ hp)
    exact ⟨e, he, hy.trans hx⟩

theorem mono {q : BitVec 17 → Prop} (a : Places q f g) (hq : ∀ y, p y → q y) : Places p f g :=
  ⟨a.back, fun d hd hp => a.forth d hd (hq _ hp)⟩

theorem modChan (f : Field) (y : BitVec 17) (m : Chan → Chan) (hb : (m (f.chan y)).fr.bind = (f.chan y).fr.bind)
    (hs : (m (f.chan y)).nev.state = (f.chan y).nev.state) (hp : p y → m (f.chan y) ≠ Chan.free) : Places p f (f.modChan y m) := by
  have hch : (f.modChan y m).nev.ch = tabSet Chan.free f.nev.ch y.toNat (m (f.chan y)) := rfl
  refine ⟨fun c hc => ?_, fun d hd hpd => ?_⟩
  · obtain ⟨k, hm, hst, hx⟩ := mem_existing_iff.mp hc
    rw [hch] at hm
    have hcase : (k, c.2) = (y.toNat, m (f.chan y)) ∨ (k, c.2) ∈ f.nev.ch := by
      unfold tabSet at hm
      split at hm
      · exact .inr (mem_tabDel hm)
      · exact mem_tabPut hm
    rcases hcase with heq | hold
    · obtain ⟨rfl, hv⟩ := Prod.mk.inj heq
      rw [hv, hs] at hst
      refine ⟨(y, f.chan y), mem_existing hst, ?_, by rw [hv, hb]⟩
      rw [hx, BitVec.ofNat_toNat, BitVec.setWidth_eq]
    · exact ⟨c, mem_existing_iff.mpr ⟨k, hold, hst, hx⟩, rfl, rfl⟩
  · obtain ⟨k, hm, hst, hx⟩ := mem_existing_iff.mp hd
    by_cases hk : k = y.toNat
    · have hy : d.1 = y := by rw [hx, hk, BitVec.ofNat_toNat, BitVec.setWidth_eq]
      have hne := hp (hy ▸ hpd)
      rw [tabSet, if_neg hne] at hch
      rcases mem_tabPut_keep (k := y.toNat) (m (f.chan y)) hm with hkeep | ⟨-, hlook⟩
      · exact ⟨d, mem_existing_iff.mpr ⟨k, hch.symm ▸ hkeep, hst, hx⟩, rfl⟩
      · have hchan : f.chan y = d.2 := by rw [chan, tabGet, hlook]; rfl
        refine ⟨(y, m (f.chan y)), mem_existing_iff.mpr ⟨y.toNat, ?_, ?_, by simp⟩, hy.symm⟩
        · rw [hch]
          exact mem_of_tabLook (tabLook_tabPut_same ..)
        · show (m (f.chan y)).nev.state ≠ .free
          rw [hs, hchan]
          exact hst
    · refine ⟨d, mem_existing_iff.mpr ⟨k, ?_, hst, hx⟩, rfl⟩
      rw [hch]
      unfold tabSet
      split
      · exact mem_tabDel_other hm hk
      · exact (mem_tabPut_keep _ hm).resolve_right fun hr => hk hr.1

end Places

/-! ### The energy of a channel -/

/-- A channel is blank beside its energy. -/
def blank (c : Chan) : Bool := { c with met := Meter.empty } == Chan.free

/-- From f to g the energy of the channels ys and the store change, and it may be told; the channels' entries and records, the
arrivals, the lanes and Meridian stand. -/
structure Metered (ys : List (BitVec 17)) (f g : Field) : Prop where
  nev : g.nev = { f.nev with ch := g.nev.ch }
  chan : ∀ y, g.chan y = { f.chan y with met := (g.chan y).met }
  frame : g = { f.withStore g with nev := g.nev }
  places : Places (fun y => y ∈ ys → blank (f.chan y) = false) f g

namespace Metered
variable {ys : List (BitVec 17)} {f g h : Field}

theorem refl (f : Field) : Metered ys f f := ⟨rfl, fun _ => rfl, rfl, .ofCh rfl⟩

theorem blank_eq (a : Metered ys f g) (y : BitVec 17) : blank (g.chan y) = blank (f.chan y) := by
  unfold blank
  rw [a.chan y]

theorem trans (a : Metered ys f g) (b : Metered ys g h) : Metered ys f h := by
  refine ⟨?_, fun y => ?_, ?_, a.places.trans (b.places.mono fun y hy hm => (a.blank_eq y).trans (hy hm))⟩
  · rw [b.nev, a.nev]
  · rw [b.chan y, a.chan y]
  · have hb := b.frame
    rw [a.frame] at hb
    exact hb

theorem store (hg : g = f.withStore g) : Metered ys f g := by
  have hn : g.nev = f.nev := congrArg (·.nev) hg
  refine ⟨by rw [hn], fun y => ?_, ?_, .ofCh (by rw [hn])⟩
  · rw [chan_congr hn]
  · rw [hn]; exact hg

theorem modMet (f : Field) {x : BitVec 17} (hx : x ∈ ys) (m : Meter → Meter) : Metered ys f (f.modMet x m) := by
  refine ⟨rfl, fun y => ?_, rfl, .modChan f x _ rfl rfl fun hp he => ?_⟩
  · by_cases hx : x = y
    · subst hx; rw [Field.modMet, chan_modChan_same]
    · rw [Field.modMet, chan_modChan_other _ _ hx]
  · have hb : blank (f.chan x) = true := beq_iff_eq.mpr (congrArg (fun c : Chan => { c with met := Meter.empty }) he)
    exact Bool.false_ne_true ((hp hx).symm.trans hb)

theorem ite {c : Prop} [Decidable c] (a : Metered ys f g) (b : Metered ys f h) : Metered ys f (if c then g else h) := by
  split
  · exact a
  · exact b

theorem foldl {α : Type} {op : Field → α → Field} (l : List α) (hop : ∀ f a, a ∈ l → Metered ys f (op f a)) :
    ∀ f : Field, Metered ys f (l.foldl op f) := by
  induction l with
  | nil => exact refl
  | cons a l ih =>
    exact fun f => (hop f a List.mem_cons_self).trans (ih (fun g b hb => hop g b (List.mem_cons_of_mem a hb)) _)

theorem entry (a : Metered ys f g) (y : BitVec 17) : (g.chan y).nev = (f.chan y).nev := by rw [a.chan y]
theorem lan (a : Metered ys f g) : g.lan = f.lan := congrArg (·.lan) a.frame

theorem heal2 (f : Field) (x : BitVec 17) (k : Nat) : Metered ys f (f.heal2 x k) := store rfl

section
variable {x : BitVec 17} (hx : x ∈ ys)
include hx

theorem loseTotals (f : Field) : Metered ys f (f.loseTotals x) := by
  unfold Field.loseTotals
  extract_lets f1 _ f2
  have h1 : Metered ys f f1 := (modMet f hx _).trans (heal2 _ x 2)
  have h2 : Metered ys f f2 := h1.trans (store (f := f1) rfl)
  exact ite h2 (h2.trans (store (store_of_records (raise_frame _ _ _ _ _))))

theorem loseBoth (f : Field) {k : Nat} (hk : 2 ≤ k) : Metered ys f (f.loseBoth x k) := by
  unfold Field.loseBoth
  rw [if_neg (by omega), if_neg (by omega)]
  exact ite (loseTotals hx f) (ite ((modMet f hx _).trans (heal2 _ _ _)) ((modMet f hx _).trans (heal2 _ _ _)))

theorem readCw (f : Field) {k : Nat} (hk : 2 ≤ k) (hk5 : k < 5) : Metered ys f (f.readCw (recCw x k false)).1 := by
  have hrec : recOf (recCw x k false) = some (x, k, false) := by
    have hx := x.isLt
    rw [recOf, recCw, if_pos (by simp; omega)]
    refine congrArg some (Prod.ext (BitVec.eq_of_toNat_eq ?_) (Prod.ext ?_ rfl)) <;> simp <;> omega
  unfold Field.readCw
  extract_lets r
  have hr : Metered ys f r.1 := store (readRaw_store f _)
  split
  · exact hr
  · refine hr.trans ?_
    show Metered ys r.1 (r.1.recoverCw (recCw x k false))
    unfold recoverCw
    rw [hrec]
    exact ite ((store (readRaw_store _ _)).trans (store rfl)) ((store (readRaw_store _ _)).trans (loseBoth hx _ hk))

/-- The energy codewords of a record are read: what they hold may be lost, but nothing else of their channel. -/
theorem readMeter (f : Field) : Metered ys f (f.readMeter x) := by
  unfold Field.readMeter readCws
  refine ite ?_ (refl f)
  simp only [List.foldl_cons, List.foldl_nil]
  exact ((readCw hx f (by decide) (by decide)).trans (readCw hx _ (by decide) (by decide))).trans (readCw hx _ (by decide) (by decide))

theorem addCounts (f : Field) (di de : Nat) : Metered ys f (f.addCounts x di de) :=
  (modMet f hx _).trans (((heal2 _ x 2).trans (heal2 _ x 3)).trans (heal2 _ x 4))

theorem takeImages (f : Field) (ni ne : BitVec 48) : Metered ys f (f.takeImages x ni ne) := by
  unfold Field.takeImages
  extract_lets m set
  have hset (g : Field) : Metered ys g (set g) := modMet g hx _
  split
  · exact hset f
  · exact (hset f).trans (addCounts hx _ _ _)
  · exact refl f

end

end Metered
end Field
end Sys2Proof.Machine
end

section
/-! PROOF. Polls and answers of the outstations (R219, R251, R254, R264), and commands that go again (R277). -/
namespace Sys2Proof.Machine
set_option Elab.async false
namespace Field

/-! ### Answers -/

section
variable {f : Field} {l : BitVec 5} {cs : List LChar} {b : Bytes} (hh : f.laneHears l = true)
  (hr : receive cs = { opened := [], ord := 0, exp := 0, done := [(false, b)] })
include hh hr

theorem answer_bad {type : Byte} {n : Nat} (take : Field → BitVec 6 → Bytes → Field)
    (hc : ¬crc32c (slice b 1 (4 + (u8 b 4).toNat)) = u32 b (5 + (u8 b 4).toNat)) :
    f.laneChars l cs false (fun g b => g.takeAnswer l type n take b) = (f.rewritten l).crcOrdinary l := by
  rw [laneChars_one _ hh hr]
  exact if_pos hc

theorem answer_good {type : Byte} {n : Nat} (take : Field → BitVec 6 → Bytes → Field)
    (hc : crc32c (slice b 1 (4 + (u8 b 4).toNat)) = u32 b (5 + (u8 b 4).toNat)) (ht : u8 b 1 = type) (hn : (u8 b 4).toNat = n) :
    f.laneChars l cs false (fun g b => g.takeAnswer l type n take b) = take (f.rewritten l) (bits (u8 b 2) 0 6) (slice b 5 n) := by
  rw [laneChars_one _ hh hr]
  exact (if_neg (not_not.mpr hc)).trans (if_pos (by simp [ht, hn]))

end

/-- An answer to an outstanding health poll of an outstation that is not missing (R251). -/
theorem takeHealth_answers {f : Field} {l : BitVec 5} {pos : BitVec 6} {d : Bytes} {q : BitVec 6 × Bool × Count} {o : Outst}
    (hq : (f.lane l).polls.find? (fun k => decide (k.1 = pos)) = some q) (ho : tabLook (f.lane l).os pos.toNat = some o)
    (hid : u64 d 0 = o.id) (hm : o.missing = false) : OnlyLane f l (f.takeHealth l pos d) ∧
      (((f.takeHealth l pos d).lane l).polls = (f.lane l).polls.erase q) ∧
      tabLook ((f.takeHealth l pos d).lane l).os pos.toNat = some { o with present := u64 d 32, switched := u64 d 40, healthy := true } := by
  unfold takeHealth
  extract_lets v
  rw [show v.polls.find? (fun k => decide (k.1 = pos)) = some q from hq, show tabLook v.os pos.toNat = some o from ho]
  dsimp -zeta only
  extract_lets f1 f2
  have hlook : tabLook (f1.lane l).os pos.toNat = some o := by rw [lane_setLane_same]; exact ho
  rw [if_neg (not_not.mpr hid), if_neg (by simp [hm])]
  have h1 : OnlyLane f l f1 := (OnlyLane.refl f l).setLane _
  have h2 := modOs_of_look (fun o => { o with present := u64 d 32, switched := u64 d 40, healthy := true }) hlook
  rw [show f2 = _ from h2, lane_modLane_same, lane_setLane_same]
  exact ⟨h1.modLane _, rfl, tabLook_tabPut_same ..⟩

/-- An energy read that is answered ends; the energy of the point's channels is taken (R219). -/
theorem takeEnergy_answers {f : Field} {l : BitVec 5} {pos : BitVec 6} {d : Bytes}
    (hany : (f.lane l).eReads.any (fun r => decide (r.1 = pos) && decide (r.2.1 = BitVec.ofNat 6 (u8 d 0).toNat)) = true) :
    ∃ ys, Metered ys (f.setLane l { f.lane l with eReads := (f.lane l).eReads.filter (fun r =>
      !(decide (r.1 = pos) && decide (r.2.1 = BitVec.ofNat 6 (u8 d 0).toNat))) }) (f.takeEnergy l pos d) := by
  unfold takeEnergy
  extract_lets v pt f1
  rw [if_neg fun h => Bool.false_ne_true ((congrArg (!·) hany).symm.trans h)]
  show ∃ ys, Metered ys f1 _
  split
  · exact ⟨[], .refl f1⟩
  · split
    · exact ⟨[], .refl f1⟩
    next x _ _ =>
      exact ⟨f1.metered x, .ite (.refl f1) (.foldl _ (fun g y hy => (Metered.readMeter hy g).trans (Metered.takeImages hy _ _ _)) f1)⟩

theorem point_of_boundTo {c : Chan} {id : BitVec 64} {pt : BitVec 6} (h : c.boundTo id pt = true) : ∃ l p, c.fr.bind = .point l p pt id := by
  unfold Chan.boundTo at h
  split at h
  next l p q i hb =>
    obtain ⟨rfl, rfl⟩ : i = id ∧ q = pt := by simpa using h
    exact ⟨l, p, hb⟩
  next => cases h

/-- The energy of a channel that waits for its first baseline, the only one metered of the only one listed (R219). -/
theorem takeEnergy_base {f : Field} {l : BitVec 5} {pos : BitVec 6} {d : Bytes} {o : Outst} {x : BitVec 17} {c : Chan}
    (hany : (f.lane l).eReads.any (fun r => decide (r.1 = pos) && decide (r.2.1 = BitVec.ofNat 6 (u8 d 0).toNat)) = true)
    (ho : tabLook (f.lane l).os pos.toNat = some o) (hf : f.firnOn = true) (hi : f.intact = true) (hc : f.nev.ch = [(x.toNat, c)])
    (hs : c.nev.state ≠ .free) (hb : c.boundTo o.id (BitVec.ofNat 6 (u8 d 0).toNat) = true) (hm : f.metered x = [x])
    (hw : c.met.sync = .baseWait) : ((f.takeEnergy l pos d).chan x).met = { c.met with
      imgImp := BitVec.ofNat 48 (leNat d 2 6), imgExp := BitVec.ofNat 48 (leNat d 8 6), sync := .ok, lastSf := f.nev.sfCount } := by
  unfold takeEnergy
  extract_lets v pt f1
  rw [if_neg fun h => Bool.false_ne_true ((congrArg (!·) hany).symm.trans h)]
  have hex : f1.existing = [(x, c)] := by
    show List.map _ (List.filter _ f.nev.ch) = _
    rw [hc]
    simp [hs]
  have hchan : f1.chan x = c := by
    show tabGet Chan.free f.nev.ch x.toNat = c
    rw [hc]
    simp [tabGet, tabLook]
  obtain ⟨k, p, hbind⟩ := point_of_boundTo hb
  rw [show tabLook v.os pos.toNat = some o from ho]
  dsimp only
  rw [hex, List.find?_cons_of_pos (by simp [hbind, pt])]
  dsimp only
  have hf1 : f1.firnOn = true := hf
  have hm1 : f1.metered x = [x] := hm
  rw [hf1, hm1, if_neg (by decide), List.foldl_cons, List.foldl_nil, readMeter_intact (show f1.intact = true from hi)]
  unfold takeImages
  rw [hchan]
  dsimp only
  rw [hw]
  dsimp only
  rw [modMet, chan_modChan_same, hchan]
  rfl

end Field
end Sys2Proof.Machine
end

section
/-! PROOF. Which end serves an outstation, and what may leave it (R240, R261, R264, R277). -/
namespace Sys2Proof.Machine
set_option Elab.async false

/-! ### The first listed value that p holds for -/

section
variable {α β : Type} [DecidableEq α] {d : α} {p : α → Bool} {obs : α → β} (hobs : ∀ v w, obs v = obs w → p v = p w) (hd : p d = false)

/-- What is seen of the first listed value that p holds for. -/
def firstSeen (p : α → Bool) (obs : α → β) (t : Tab α) : Option (Nat × β) := (t.find? (fun e => p e.2)).map (fun e => (e.1, obs e.2))

omit [DecidableEq α] in
theorem firstSeen_cons (e : Nat × α) (t : Tab α) :
    firstSeen p obs (e :: t) = if p e.2 then some (e.1, obs e.2) else firstSeen p obs t := by
  unfold firstSeen
  rw [List.find?_cons]
  cases p e.2 <;> rfl

include hobs hd

omit [DecidableEq α] in
theorem firstSeen_tabPut {t : Tab α} (ht : tabRises none t = true) {k : Nat} {v : α} (hv : obs v = obs (tabGet d t k)) :
    firstSeen p obs (tabPut t k v) = firstSeen p obs t := by
  induction t with
  | nil =>
    have hp : p v = false := (hobs _ _ hv).trans hd
    rw [tabPut, firstSeen_cons, hp]
    rfl
  | cons e r ih =>
    obtain ⟨i, w⟩ := e
    have hr : tabRises (some i) r = true := ht
    rw [tabPut]
    split
    next hlt =>
      have hnone : tabGet d ((i, w) :: r) k = d := by
        rw [tabGet, tabLook, if_neg (by omega), tabLook_none_below hr (by omega)]
        rfl
      rw [hnone] at hv
      rw [firstSeen_cons, (hobs _ _ hv).trans hd]
      rfl
    next =>
      split
      next heq =>
        have hw : tabGet d ((i, w) :: r) k = w := by rw [tabGet, tabLook, if_pos heq]; rfl
        rw [hw] at hv
        rw [firstSeen_cons, firstSeen_cons, hobs _ _ hv, hv, heq]
      next hne =>
        have hw : tabGet d ((i, w) :: r) k = tabGet d r k := by rw [tabGet, tabLook, if_neg hne, tabGet]
        rw [hw] at hv
        rw [firstSeen_cons, firstSeen_cons, ih (tabRises_none_of_some hr) hv]

omit [DecidableEq α] in
theorem firstSeen_tabDel {t : Tab α} (ht : tabRises none t = true) {k : Nat} (hv : obs d = obs (tabGet d t k)) :
    firstSeen p obs (tabDel t k) = firstSeen p obs t := by
  induction t with
  | nil => rfl
  | cons e r ih =>
    obtain ⟨i, w⟩ := e
    have hr : tabRises (some i) r = true := ht
    rw [tabDel]
    split
    next heq =>
      have hw : tabGet d ((i, w) :: r) k = w := by rw [tabGet, tabLook, if_pos heq]; rfl
      have hnone : tabGet d r k = d := by rw [tabGet, tabLook_none_below hr (by omega)]; rfl
      rw [hw] at hv
      rw [firstSeen_cons, (hobs _ _ hv).symm.trans hd, ih (tabRises_none_of_some hr) (by rw [hnone])]
      rfl
    next hne =>
      have hw : tabGet d ((i, w) :: r) k = tabGet d r k := by rw [tabGet, tabLook, if_neg hne, tabGet]
      rw [hw] at hv
      rw [firstSeen_cons, firstSeen_cons, ih (tabRises_none_of_some hr) hv]

theorem firstSeen_tabSet {t : Tab α} (ht : tabRises none t = true) {k : Nat} {v : α} (hv : obs v = obs (tabGet d t k)) :
    firstSeen p obs (tabSet d t k v) = firstSeen p obs t := by
  unfold tabSet
  split
  next he => exact firstSeen_tabDel hobs hd ht (he ▸ hv)
  next => exact firstSeen_tabPut hobs hd ht hv

end

theorem tabRises_tabSet {α : Type} [DecidableEq α] (d : α) {t : Tab α} (i : Nat) (v : α) (h : tabRises none t = true) :
    tabRises none (tabSet d t i v) = true := by
  unfold tabSet
  split
  · exact tabRises_tabDel t i h
  · exact tabRises_tabPut t i v h

namespace Field

/-! ### The course of a lane -/

/-- The outstations that an identity is found among, and the end that serves a position (R240). -/
def sight (id : BitVec 64) (v : Lane) : Option (BitVec 6) × (BitVec 6 → Option Bool) := (posOf v id, endOf v)

theorem served_eq (f : Field) (id : BitVec 64) : f.served id =
    (firstSeen (fun v => (posOf v id).isSome) (sight id) f.lan.lane).bind (fun r =>
      r.2.1.bind (fun pos => (r.2.2 pos).map (fun e => (BitVec.ofNat 5 r.1, pos, e)))) := by
  unfold served firstSeen sight
  generalize f.lan.lane.find? _ = o
  cases o with
  | none => rfl
  | some r =>
    obtain ⟨l, v⟩ := r
    dsimp only [Option.map_some, Option.bind_some]
    generalize posOf v id = q
    cases q <;> rfl

/-- A lane that is written with its outstations and its ends as they are serves as before. -/
theorem served_setLane {f : Field} (ht : tabRises none f.lan.lane = true) {l : BitVec 5} {v : Lane} (id : BitVec 64)
    (hv : sight id v = sight id (f.lane l)) : (f.setLane l v).served id = f.served id := by
  rw [served_eq, served_eq]
  refine congrArg (Option.bind · _) (firstSeen_tabSet (fun a b hab => ?_) rfl ht hv)
  exact congrArg Option.isSome (congrArg Prod.fst hab)

/-- What a lane's stream cycles and its wires depend on (R261, R262). -/
structure Course (v w : Lane) : Prop where
  os : w.os = v.os
  ends : endOf w = endOf v
  slots : w.slots = v.slots
  cyc : w.cyc = v.cyc
  wire : ∀ e, wireOf w e = wireOf v e

theorem Course.refl (v : Lane) : Course v v := ⟨rfl, rfl, rfl, rfl, fun _ => rfl⟩

section
variable {f g : Field} (hn : g.nev = f.nev) (hh : g.hel = f.hel) (hm : g.mer = f.mer) (ht : g.lan.tMark = f.lan.tMark)
  (hl : ∀ k, Course (f.lane k) (g.lane k))
include hn hl

theorem pointOf_course (x : BitVec 17) : g.pointOf x = f.pointOf x := by
  unfold pointOf
  rw [chan_congr hn]
  split
  · unfold posOf
    rw [(hl _).os]
  · rfl

include hh

theorem cyclesLeft_course (l : BitVec 5) (e : Bool) : g.cyclesLeft l e = f.cyclesLeft l e := by
  have hrefs : g.cycleRefs l e = f.cycleRefs l e := by
    unfold cycleRefs
    simp only [(hl l).slots, (hl l).ends, hh, pointOf_course hn hl]
  unfold cyclesLeft
  rw [hrefs, (hl l).cyc]

include hm ht

omit hn hh hl in
theorem charNow_course : g.charNow = f.charNow := by rw [charNow, charNow, now, now, hm, ht]

omit hn hh in
theorem wireFree_course (l : BitVec 5) (e : Bool) : g.wireFree l e = f.wireFree l e := by
  rw [wireFree, wireFree, charNow_course hm ht, (hl l).wire]

theorem fits_course (l : BitVec 5) (e : Bool) (n room : Nat) : g.fits l e n room = f.fits l e n room := by
  rw [fits, fits, charNow_course hm ht, (hl l).wire, cyclesLeft_course hn hh hl]

end

end Field
end Sys2Proof.Machine
end

section
/-! PROOF. Health polls leave or wait (R254, R264); commands two superframes old go again (R277). -/
namespace Sys2Proof.Machine
set_option Elab.async false
namespace Field

/-! ### A poll -/

theorem sendPoll_lanes (f : Field) (l : BitVec 5) (e : Bool) (q : BitVec 6 × Bool) : f.sendPoll l e q = f.withLanes (f.sendPoll l e q) := by
  unfold sendPoll
  exact lanes_trans (g := Field.setLane _ _ _) rfl (emit_lanes _ _)

theorem pollServe_lanes (f : Field) (l : BitVec 5) (e : Bool) : f.pollServe l e = f.withLanes (f.pollServe l e) := by
  unfold pollServe
  split
  · split
    · exact sendPoll_lanes f l e _
    · rfl
  · rfl

theorem poll_lanes (f : Field) (l : BitVec 5) (p : BitVec 6) (a : Bool) : f.poll l p a = f.withLanes (f.poll l p a) := by
  unfold poll
  extract_lets f1
  have h1 : f1 = f.withLanes f1 := modLane_lanes f l _
  split
  · exact lanes_trans h1 (pollServe_lanes f1 l _)
  · exact h1

theorem healthPoll_lanes (f : Field) : f.healthPoll = f.withLanes f.healthPoll := by
  unfold healthPoll
  refine lanes_foldl (fun g e => ?_) _ f
  extract_lets l
  split
  · exact lanes_trans (poll_lanes g l _ false) (modLane_lanes _ l _)
  · rfl

/-- A unit that leaves an end changes the wire of its lane alone. -/
theorem emit_lane (f : Field) (l : BitVec 5) (e : Bool) (b : Bytes) (hh : f.mer.holdover = false) (k : BitVec 5) :
    (f.emit (.lane l e b)).lane k = (f.countChars l e b).lane k := by
  simp only [emit, hh, Bool.false_eq_true, if_false]
  rfl

section
variable {f : Field} {l : BitVec 5} {p : BitVec 6} {e a : Bool} (hq : (f.lane l).pollQ = []) (he : endOf (f.lane l) p = some e)
  (hh : f.mer.holdover = false)
include hq he hh

theorem poll_eq : f.poll l p a = if f.wireFree l e && f.fits l e 96 0
    then (f.modLane l (fun v => { v with pollQ := v.pollQ ++ [(p, a)] })).sendPoll l e (p, a)
    else f.modLane l (fun v => { v with pollQ := v.pollQ ++ [(p, a)] }) := by
  unfold poll
  extract_lets f1
  have hcourse (k : BitVec 5) : Course (f.lane k) (f1.lane k) := by
    by_cases hk : k = l
    · subst hk
      rw [lane_modLane_same]
      exact ⟨rfl, rfl, rfl, rfl, fun e => by cases e <;> rfl⟩
    · rw [lane_modLane_other f _ hk]
      exact .refl _
  have hfind : (f1.lane l).pollQ.find? (fun q => decide (endOf (f1.lane l) q.1 = some e)) = some (p, a) := by
    rw [(hcourse l).ends, lane_modLane_same, hq]
    exact List.find?_cons_of_pos (decide_eq_true he)
  rw [he]
  dsimp only
  unfold pollServe
  rw [hfind]
  dsimp only
  rw [wireFree_course (f := f) (g := f1) rfl rfl hcourse, fits_course (f := f) (g := f1) rfl rfl rfl rfl hcourse, show f1.mer.holdover = false from hh]
  rfl

/-- A poll leaves where the wire has room for it and its answer, else it waits (R264). -/
theorem poll_spec : (f.wireFree l e = true → f.fits l e 96 0 = true →
      ((f.poll l p a).lane l).polls = (f.lane l).polls ++ [(p, a, f.now)] ∧ ((f.poll l p a).lane l).pollQ = []) ∧
    (f.wireFree l e = false ∨ f.fits l e 96 0 = false →
      ((f.poll l p a).lane l).polls = (f.lane l).polls ∧ ((f.poll l p a).lane l).pollQ = [(p, a)]) := by
  rw [poll_eq hq he hh]
  refine ⟨fun hw hf => ?_, fun hw => ?_⟩
  · simp only [hw, hf, Bool.and_self, if_true]
    unfold sendPoll
    extract_lets v
    rw [emit_lane (hh := by exact hh), countChars, lane_modLane_same, lane_setLane_same]
    have hv : v = { f.lane l with pollQ := [(p, a)] } := by
      simp only [v, lane_modLane_same, hq, List.nil_append]
    rw [hv]
    cases e <;> exact ⟨rfl, by simp [setWire]⟩
  · rw [if_neg (by rcases hw with hw | hw <;> simp [hw]), lane_modLane_same, hq]
    exact ⟨rfl, rfl⟩

end

/-! ### A command that goes again (R277) -/

theorem link_setLink_same (f : Field) (id : BitVec 64) (k : OsLink) : (f.setLink id k).link id = k := tabGet_tabSet_same ..

theorem served_of_lane {f g : Field} (h : g.lan.lane = f.lan.lane) (id : BitVec 64) : g.served id = f.served id := by
  rw [served, served, h]

/-- What a link with nothing new to send sends next is the first command that is to go again. -/
theorem next_again {k : OsLink} (hw : k.wait = []) (ha : k.anew = false) : OsLink.next k = (k.sent.find? (·.due)).map (fun s => (s.cmd, true)) := by
  unfold OsLink.next
  simp [hw, ha]

section
variable {f : Field} {id : BitVec 64} {l : BitVec 5} {pos : BitVec 6} {e : Bool} {c : LCmd} {again : Bool}
  (hs : f.served id = some (l, pos, e)) (hn : OsLink.next (f.link id) = some (c, again)) (hh : f.mer.holdover = false)
include hs hn hh

theorem pumpLink_go (n : Nat) (hm : f.mayLeaveEnd l e c = true) : pumpLink id (n + 1) f = pumpLink id n (f.sendNext id l pos e again) := by
  simp only [pumpLink, hs, hn, hh, hm]
  rfl

theorem pumpLink_stays (n : Nat) (hm : f.mayLeaveEnd l e c = false) : pumpLink id (n + 1) f = f := by
  simp only [pumpLink, hs, hn, hh, hm]
  rfl

end

theorem pumpLink_none {f : Field} {id : BitVec 64} (n : Nat) (hn : OsLink.next (f.link id) = none) : pumpLink id n f = f := by
  cases n with
  | zero => rfl
  | succ n =>
    simp only [pumpLink, hn]
    generalize f.served id = o
    cases o <;> rfl

/-- The first command that is to go again goes (R276, R277). -/
theorem sendNext_again {f : Field} {id : BitVec 64} {s : Sent} (l : BitVec 5) (pos : BitVec 6) (e : Bool)
    (hd : (f.link id).sent.find? (·.due) = some s) : f.sendNext id l pos e true =
      ((f.setLink id { f.link id with sent := (f.link id).sent.map (fun t =>
        if t.cnum = s.cnum then { t with due := false, sf := f.nev.sfCount, rep := f.nev.sfCount } else t) }).modLane l (fun v =>
          { v with resent := satAdd v.resent 1 })).emit (.lane l e (cmdFrame pos s.cnum s.cmd)) := by
  simp only [sendNext, if_true, hd]

/-- A command that is not of a stream occupies the wire of its end (R261). -/
theorem send_occupies {c : LCmd} (hc : LCmd.streams c = false) (w : Wire) (off : Nat) (t : Count) (pos : BitVec 6) (n : Byte) :
    off < (w.send off t (cmdFrame pos n c)).occ := by
  have hlen : 0 < (cmdFrame pos n c).length := by simp [cmdFrame, ordinaryBytes]
  have h0 : u8 (cmdFrame pos n c) 0 = 0xFB := rfl
  have h1 : u8 (cmdFrame pos n c) 1 = (lcmdBytes c).1 := rfl
  obtain ⟨ha, hb⟩ : (lcmdBytes c).1 ≠ 0x20#8 ∧ (lcmdBytes c).1 ≠ 0x21#8 := by
    cases c <;> simp_all [lcmdBytes, LCmd.streams]
  have hocc : (w.send off t (cmdFrame pos n c)).occ = max w.occ off + (cmdFrame pos n c).length := by
    unfold Wire.send
    generalize cmdFrame pos n c = b at h0 h1
    simp [h0, h1, ha, hb]
  omega

/-- All of a link's commands are to go again. -/
def allDue (k : OsLink) : OsLink := { k with sent := k.sent.map (fun s => { s with due := true }) }
/-- The first of a link's commands has gone again at superframe n. -/
def firstGone (n : Nat) (s : Sent) (ss : List Sent) : List Sent :=
  { s with due := false, sf := n, rep := n } :: ss.map (fun q => { q with due := true })

/-- A command that leaves an end keeps its lane's outstations and their links, and occupies the wire of the end. -/
theorem emit_busy {f : Field} (hh : f.mer.holdover = false) (ht : tabRises none f.lan.lane = true) {c : LCmd} (hc : LCmd.streams c = false)
    (l : BitVec 5) (pos : BitVec 6) (e : Bool) (n : Byte) (id : BitVec 64) :
    (f.emit (.lane l e (cmdFrame pos n c))).link id = f.link id ∧
    (f.emit (.lane l e (cmdFrame pos n c))).served id = f.served id ∧
    (f.emit (.lane l e (cmdFrame pos n c))).wireFree l e = false ∧
    ((f.emit (.lane l e (cmdFrame pos n c))).lane l).resent = (f.lane l).resent := by
  have hlan : (f.emit (.lane l e (cmdFrame pos n c))).lan = (f.countChars l e (cmdFrame pos n c)).lan := by
    simp only [emit, hh, Bool.false_eq_true, if_false]
  have hlane : (f.countChars l e (cmdFrame pos n c)).lane l =
      setWire (f.lane l) e ((wireOf (f.lane l) e).send f.charNow f.now (cmdFrame pos n c)) := lane_modLane_same ..
  have hmer := emit_mer f (.lane l e (cmdFrame pos n c))
  generalize f.emit (.lane l e (cmdFrame pos n c)) = g at hlan hmer
  refine ⟨?_, ?_, ?_, ?_⟩
  · rw [link, hlan, link, countChars, modLane, setLane]
  · rw [served_of_lane (congrArg Lans.lane hlan)]
    refine served_setLane ht id ?_
    cases e <;> rfl
  · have hocc := send_occupies hc (wireOf (f.lane l) e) f.charNow f.now pos n
    have hnow : g.charNow = f.charNow := by rw [charNow, charNow, now, now, hmer, hlan]; rfl
    rw [wireFree, lane_of_lan hlan, hlane, wireOf_setWire, hnow]
    exact decide_eq_false (by omega)
  · rw [lane_of_lan hlan, hlane]
    cases e <;> rfl

section
variable {f : Field} {id : BitVec 64} {s : Sent} {ss : List Sent} {w : BitVec 5 × BitVec 6 × Bool}
  (hsent : (f.link id).sent = s :: ss) (hwait : (f.link id).wait = []) (hanew : (f.link id).anew = false)
  (hserved : f.served id = some w) (hh : f.mer.holdover = false)
include hsent hwait hanew hserved hh

omit hserved hh in
theorem allDue_next : OsLink.next ((f.setLink id (allDue (f.link id))).link id) = some (s.cmd, true) := by
  rw [link_setLink_same, next_again (k := allDue (f.link id)) hwait hanew]
  simp [allDue, hsent]

/-- Where its wire has no room, no command goes again. -/
theorem resend_waits (hm : f.mayLeaveEnd w.1 w.2.2 s.cmd = false) :
    pumpLink id 16 (f.setLink id (allDue (f.link id))) = f.setLink id (allDue (f.link id)) :=
  pumpLink_stays (f := f.setLink id (allDue (f.link id))) (pos := w.2.1) hserved (allDue_next hsent hwait hanew) hh 15 hm

/-- Where its wire has room, the first command goes again, and no other yet. -/
theorem resend_goes (ht : tabRises none f.lan.lane = true) (hstreams : ∀ q ∈ s :: ss, LCmd.streams q.cmd = false)
    (hnum : ∀ q ∈ ss, q.cnum ≠ s.cnum) (hm : f.mayLeaveEnd w.1 w.2.2 s.cmd = true) :
    ((pumpLink id 16 (f.setLink id (allDue (f.link id)))).link id).sent = firstGone f.nev.sfCount s ss ∧
    ((pumpLink id 16 (f.setLink id (allDue (f.link id)))).lane w.1).resent = satAdd (f.lane w.1).resent 1 ∧
    (pumpLink id 16 (f.setLink id (allDue (f.link id)))).nev = f.nev := by
  obtain ⟨l, pos, e⟩ := w
  set f3 := f.setLink id (allDue (f.link id)) with hf3
  have hlink : f3.link id = allDue (f.link id) := link_setLink_same ..
  have hdue : (f3.link id).sent.find? (·.due) = some { s with due := true } := by rw [hlink]; simp [allDue, hsent]
  have hgone : ((f3.link id).sent.map (fun t =>
      if t.cnum = s.cnum then { t with due := false, sf := f3.nev.sfCount, rep := f3.nev.sfCount } else t)) =
      firstGone f.nev.sfCount s ss := by
    rw [hlink]
    simp only [allDue, hsent, List.map_cons, if_true, firstGone, List.map_map]
    refine congrArg (List.cons _) (List.map_congr_left fun q hq => ?_)
    exact if_neg (hnum q hq)
  rw [pumpLink_go (f := f3) hserved (allDue_next hsent hwait hanew) hh 15 hm, sendNext_again l pos e hdue, hgone]
  set f4 := (f3.setLink id { f3.link id with sent := firstGone f.nev.sfCount s ss }).modLane l (fun v =>
    { v with resent := satAdd v.resent 1 }) with hf4
  have hlane4 : f4.lane l = { f.lane l with resent := satAdd (f.lane l).resent 1 } := lane_modLane_same ..
  have hserved4 : f4.served id = some (l, pos, e) := by
    rw [hf4, modLane, served_setLane (f := f3.setLink id _) ht id (by rfl)]
    exact hserved
  have hrises4 : tabRises none f4.lan.lane = true := tabRises_tabSet _ _ _ ht
  have hlink4 : f4.link id = { f3.link id with sent := firstGone f.nev.sfCount s ss } := link_setLink_same ..
  have hnev4 : f4.nev = f.nev := rfl
  have hh4 : f4.mer.holdover = false := hh
  clear_value f4
  obtain ⟨hlinkg, hservedg, hbusy, hresent⟩ := emit_busy hh4 hrises4 (hstreams s List.mem_cons_self) l pos e s.cnum id
  have hnevg := emit_nev f4 (.lane l e (cmdFrame pos s.cnum s.cmd))
  have hmerg := emit_mer f4 (.lane l e (cmdFrame pos s.cnum s.cmd))
  dsimp only
  generalize f4.emit (.lane l e (cmdFrame pos s.cnum s.cmd)) = g at *
  rw [hlink4, hlink] at hlinkg
  have hnext : OsLink.next (g.link id) = ((ss.map (fun q => { q with due := true })).find? (·.due)).map (fun q => (q.cmd, true)) := by
    rw [hlinkg, next_again (by exact hwait) (by exact hanew)]
    rfl
  have hstop : pumpLink id 15 g = g := by
    cases ss with
    | nil => exact pumpLink_none 15 hnext
    | cons q qs =>
      refine pumpLink_stays (f := g) (hservedg.trans hserved4) (hnext.trans rfl) ((congrArg Mer.holdover hmerg).trans hh4) 14 ?_
      rw [mayLeaveEnd, hbusy]
      exact Bool.or_eq_false_iff.mpr ⟨hstreams q (by simp), rfl⟩
  rw [hstop, hlinkg, hresent, hlane4, hnevg, hnev4]
  exact ⟨rfl, rfl, rfl⟩

end

theorem mayLeaveEnd_rewritten (f : Field) (l k : BitVec 5) (e : Bool) (c : LCmd) :
    (f.rewritten l).mayLeaveEnd k e c = f.mayLeaveEnd k e c := by
  have hcourse (m : BitVec 5) : Course (f.lane m) ((f.rewritten l).lane m) := by
    rw [rewritten_lane]
    exact .refl _
  rw [mayLeaveEnd, mayLeaveEnd, wireFree_course (f := f) (g := f.rewritten l) rfl rfl hcourse,
    fits_course (f := f) (g := f.rewritten l) rfl rfl rfl rfl hcourse, rewritten_lane]

/-- Commands two superframes old are all to go again (R277). -/
theorem commandResend_old {f : Field} {l : BitVec 5} {pos : BitVec 6} {o : Outst} {k : Sent} {ks : List Sent}
    (ho : tabLook (f.lane l).os pos.toNat = some o) (hreads : (f.lane l).eReads = []) (hsent : (f.link o.id).sent = k :: ks)
    (hold : k.sf + 2 ≤ f.nev.sfCount) :
    f.commandResend l pos = pumpLink o.id 16 ((f.rewritten l).setLink o.id (allDue ((f.rewritten l).link o.id))) := by
  unfold commandResend
  extract_lets v old f1 f2
  rw [show tabLook v.os pos.toNat = some o from ho]
  dsimp -zeta only
  extract_lets k0
  have hold0 : old = [] := by simp only [old, v, hreads, List.filter_nil]
  have hf1 : f1 = f.rewritten l := by
    simp only [f1, v, hreads, List.filter_nil, rewritten]
    rw [← hreads]
  have hf2 : f2 = f.rewritten l := by simp only [f2, hold0, List.foldl_nil, hf1]
  have hk0 : k0 = (f.rewritten l).link o.id := by simp only [k0, hf2]
  have hs0 : k0.sent = k :: ks := by rw [hk0]; exact hsent
  rw [hf2, if_pos (by rw [hs0]; simp [hold])]
  exact congrArg (fun t => pumpLink o.id 16 ((f.rewritten l).setLink o.id t)) (by rw [hk0]; rfl)

/-- A poll that is not answered in time is counted, and sent again later where it was one of R251 (R254). -/
theorem healthPollTimeout_spec {f : Field} {l : BitVec 5} {pos : BitVec 6} {q : BitVec 6 × Bool × Count}
    (hq : (f.lane l).polls.find? (fun k => decide (k.1 = pos) && decide (k.2.2.toNat + 20000 ≤ f.now.toNat)) = some q) :
    OnlyLane f l (f.healthPollTimeout l pos) ∧ ((f.healthPollTimeout l pos).lane l).polls = (f.lane l).polls.erase q ∧
      ((f.healthPollTimeout l pos).lane l).pollsLost = satAdd (f.lane l).pollsLost 1 := by
  unfold healthPollTimeout
  extract_lets v
  rw [show v.polls.find? (fun k => decide (k.1 = pos) && decide (k.2.2.toNat + 20000 ≤ f.now.toNat)) = some q from hq]
  dsimp -zeta only
  extract_lets f1
  have h1 : OnlyLane f l f1 := (OnlyLane.refl f l).setLane _
  have hlane1 : f1.lane l = { v with polls := v.polls.erase q, pollsLost := satAdd v.pollsLost 1 } := lane_setLane_same ..
  clear_value f1
  split
  · unfold modOs
    split
    · rw [lane_modLane_same, hlane1]
      exact ⟨h1.modLane _, rfl, rfl⟩
    · rw [hlane1]
      exact ⟨h1, rfl, rfl⟩
  · rw [hlane1]
    exact ⟨h1, rfl, rfl⟩

end Field

open Sys2Proof.Machine.Field in
/-- Settles O41: a poll leaves or waits, an answer ends what it answers, and the first command that is old enough goes again. -/
theorem pollsAndAnswers : Obligations.PollsAndAnswers := by
  unfold Obligations.PollsAndAnswers
  intro s
  refine ⟨fun hdue => ?poll, fun b hlen h0 hl => receive_frameChars hlen h0 hl, fun l e cs b hh hr => ?answer,
    fun l pos q hq => ?timeout, fun l pos o k ks w ht ho hreads hh hsent hwait hanew hold hserved hstreams hnum => ?resend⟩
  case poll =>
    refine s.endsField_of_exec (op := fun f => f.healthPollRow) rfl ?_
    set f0 : Field := { s.f with mer := { s.f.mer with sysDue := s.f.mer.sysDue &&& ~~~ BitVec.ofNat 8 (2 ^ 6) } } with hf0
    have hrow : s.f.healthPollRow = f0.healthPoll := by
      unfold healthPollRow takeSys
      rw [if_pos hdue]
    have hlanes := healthPoll_lanes f0
    rw [hrow]
    refine ⟨?_, (nev_of_lanes hlanes).trans rfl, congrArg (·.saf) hlanes, fun l v p e hv hup hp he hq hh => ?_⟩
    · rw [mer_of_lanes hlanes]
      exact (bit_clear s.f.mer.sysDue 6 6).trans (by simp)
    · have hlane : f0.lane l = v := by
        show tabGet Lane.reset s.f.lan.lane l.toNat = v
        rw [hv]
        simp [tabGet, tabLook]
      have hone : f0.healthPoll = (f0.poll l p false).modLane l (fun v => { v with pollPos := some p }) := by
        unfold healthPoll
        rw [show f0.lan.lane = [(l.toNat, v)] from hv, List.filter_cons_of_pos (by exact hup), List.filter_nil, List.foldl_cons,
          List.foldl_nil]
        dsimp only
        rw [hp, BitVec.ofNat_toNat, BitVec.setWidth_eq]
      obtain ⟨hgoes, hwaits⟩ := poll_spec (f := f0) (l := l) (p := p) (a := false) (by rw [hlane, hq]) (by rw [hlane, he]) hh
      rw [hlane] at hgoes hwaits
      rw [hone, lane_modLane_same]
      exact ⟨fun hw hf => ⟨(hgoes hw hf).1, (hgoes hw hf).2, rfl⟩, fun hw => ⟨(hwaits hw).1, (hwaits hw).2, rfl⟩⟩
  case answer =>
    intro pos len crcOk
    refine ⟨fun hc i hi => ?_, fun hc ht hn q o hq ho hm hid => ?_, fun hc ht hn => ?_⟩
    · obtain ⟨honly, hlane⟩ := crcOrdinary_rewritten s.f l
      rcases hi with rfl | rfl
      · refine s.endsField_of_exec (op := fun f => f.healthAnswer l cs) rfl ?_
        rw [healthAnswer, answer_bad hh hr _ hc]
        exact ⟨hlane, honly.others, honly.frame⟩
      · refine s.endsField_of_exec (op := fun f => f.energyAnswer l cs) rfl ?_
        rw [energyAnswer, answer_bad hh hr _ hc]
        exact ⟨hlane, honly.others, honly.frame⟩
    · refine s.endsField_of_exec (op := fun f => f.healthAnswer l cs) rfl ?_
      rw [healthAnswer, answer_good hh hr _ hc ht hn]
      have hlane := rewritten_lane s.f l
      obtain ⟨honly, hpolls, hos⟩ := takeHealth_answers (f := s.f.rewritten l) (l := l) (pos := pos) (d := slice b 5 75)
        (by rw [hlane]; exact hq) (by rw [hlane]; exact ho) hid hm
      rw [hlane] at hpolls
      refine ⟨hpolls, hos, fun k hk => (honly.others k hk).trans (hlane k), honly.frame⟩
    · intro d pt hany
      refine s.endsField_of_exec (op := fun f => f.energyAnswer l cs) rfl ?_
      rw [energyAnswer, answer_good hh hr _ hc ht hn]
      have hlane := rewritten_lane s.f l
      obtain ⟨ys, hm⟩ := takeEnergy_answers (f := s.f.rewritten l) (l := l) (pos := pos) (d := d) (by rw [hlane]; exact hany)
      refine ⟨fun r hr => ?_, fun k hk => ?_, fun o x c ho hf hi hc hs hb hx hw => ?_, fun y => hm.entry y⟩
      · rw [lane_of_lan hm.lan, lane_setLane_same] at hr
        rintro ⟨hpos, hpt⟩
        have hkept := (List.mem_filter.mp hr).2
        rw [decide_eq_true hpos, decide_eq_true (show r.2.1 = BitVec.ofNat 6 (u8 d 0).toNat from hpt)] at hkept
        cases hkept
      · rw [lane_of_lan hm.lan, lane_setLane_other _ _ (Ne.symm hk), hlane]
      · exact takeEnergy_base (f := s.f.rewritten l) (by rw [hlane]; exact hany) (by rw [hlane]; exact ho) hf hi hc hs hb hx hw
  case timeout =>
    refine s.endsField_of_exec (op := fun f => f.healthPollTimeout l pos) rfl ?_
    obtain ⟨honly, hpolls, hlost⟩ := healthPollTimeout_spec hq
    exact ⟨hpolls, hlost, honly.others, honly.frame⟩
  case resend =>
    have hr := commandResend_old ho hreads hsent hold
    have hnext : (s.f.rewritten l).served o.id = some w := (served_setLane ht o.id rfl).trans hserved
    refine ⟨fun hm => s.endsField_of_exec (op := fun f => f.commandResend l pos) rfl ?_,
      fun hm => s.endsField_of_exec (op := fun f => f.commandResend l pos) rfl ?_⟩
    · obtain ⟨hgone, hcount, hnev⟩ := resend_goes (f := s.f.rewritten l) hsent hwait hanew hnext hh (tabRises_tabSet _ _ _ ht) hstreams hnum
        ((mayLeaveEnd_rewritten s.f l w.1 w.2.2 k.cmd).trans hm)
      rw [hr]
      rw [rewritten_lane] at hcount
      exact ⟨hgone, hcount, hnev⟩
    · rw [hr, resend_waits (f := s.f.rewritten l) hsent hwait hanew hnext hh ((mayLeaveEnd_rewritten s.f l w.1 w.2.2 k.cmd).trans hm)]
      refine ⟨?_, fun m => rewritten_lane s.f l m, rfl⟩
      rw [link_setLink_same]
      exact congrArg (List.map _) hsent

end Sys2Proof.Machine
end

section
/-! PROOF. A telemetry frame brings arrivals (R82, R83, R257, R271): what the acknowledgement and the words before a channel's own leave of
what its word is judged by. -/
namespace Sys2Proof.Machine
set_option Elab.async false
namespace Field

/-! ### What leaves a lane -/

/-- From f to g only the lanes and the records change, and no lane's outstations. -/
structure Sends (f g : Field) : Prop where
  nev : g.nev = f.nev
  os : ∀ k, (g.lane k).os = (f.lane k).os
  mer : g.mer = f.mer
  saf : g.saf = f.saf
  pwr : g.pwr = f.pwr

namespace Sends
variable {f g h : Field}

theorem refl (f : Field) : Sends f f := ⟨rfl, fun _ => rfl, rfl, rfl, rfl⟩

theorem trans (a : Sends f g) (b : Sends g h) : Sends f h :=
  ⟨b.nev.trans a.nev, fun k => (b.os k).trans (a.os k), b.mer.trans a.mer, b.saf.trans a.saf, b.pwr.trans a.pwr⟩

theorem ofLanes (h : g = f.withLanes g) (hl : ∀ k, (g.lane k).os = (f.lane k).os) : Sends f g :=
  ⟨nev_of_lanes h, hl, mer_of_lanes h, saf_of_work (work_of_lanes h), pwr_of_work (work_of_lanes h)⟩

theorem setLane (f : Field) (l : BitVec 5) (v : Lane) (hv : v.os = (f.lane l).os) : Sends f (f.setLane l v) := by
  refine .ofLanes rfl fun k => ?_
  by_cases hk : k = l
  · subst hk; rw [lane_setLane_same, hv]
  · rw [lane_setLane_other _ _ (Ne.symm hk)]

theorem setLink (f : Field) (id : BitVec 64) (k : OsLink) : Sends f (f.setLink id k) := .ofLanes rfl fun _ => rfl

theorem done (f : Field) (r : CmdRef) : Sends f (f.done r) :=
  .ofLanes (lanes_of_records (done_frame f r)) fun k => by rw [lane_of_lan (lan_of_records (done_frame f r))]

theorem emit (f : Field) (l : BitVec 5) (e : Bool) (b : Bytes) : Sends f (f.emit (.lane l e b)) := by
  refine .ofLanes (emit_lanes f _) fun k => ?_
  unfold Field.emit
  dsimp only
  split
  · rfl
  · exact (setLane f l _ (setWire_os ..)).os k

theorem sendNext (f : Field) (id : BitVec 64) (l : BitVec 5) (pos : BitVec 6) (e again : Bool) : Sends f (f.sendNext id l pos e again) := by
  unfold Field.sendNext
  extract_lets k
  split
  · split
    · exact ((setLink f id _).trans (setLane _ l _ (by rfl))).trans (emit _ l e _)
    · exact refl f
  · split
    · extract_lets c s f1 f2
      have h2 : Sends f f2 := (setLink f id _).trans (emit f1 l e _)
      split
      · exact h2.trans (done f2 _)
      · exact h2
    · exact refl f

theorem pumpLink (id : BitVec 64) (n : Nat) (f : Field) : Sends f (pumpLink id n f) := by
  induction n generalizing f with
  | zero => exact refl f
  | succ n ih =>
    rw [Field.pumpLink]
    split
    · split
      · exact (sendNext f id _ _ _ _).trans (ih _)
      · exact refl f
    · exact refl f

theorem sendCmd (f : Field) (id : BitVec 64) (c : LCmd) (r : Option CmdRef) : Sends f (f.sendCmd id c r) :=
  (setLink f id _).trans (pumpLink id 16 _)

theorem energyRead (f : Field) (l : BitVec 5) (pos pt : BitVec 6) : Sends f (f.energyRead l pos pt) := by
  unfold Field.energyRead
  extract_lets v held
  have hheld : Sends f held := setLane f l _ rfl
  split
  · split
    · exact (setLane f l _ (by rfl)).trans (emit _ l _ _)
    · exact hheld
  · exact hheld

end Sends

/-! ### What a word of a channel is judged by -/

/-- From f to g arrivals are added, no lane's outstations change, and Meridian, the safety function and power stand. -/
structure Grows (f g : Field) : Prop where
  arrivals : ∃ t, g.nev.arrivals = f.nev.arrivals ++ t
  os : ∀ k, (g.lane k).os = (f.lane k).os
  mer : g.mer = f.mer
  saf : g.saf = f.saf
  pwr : g.pwr = f.pwr

theorem Grows.trans {f g h : Field} (a : Grows f g) (b : Grows g h) : Grows f h := by
  obtain ⟨t, ht⟩ := a.arrivals
  obtain ⟨u, hu⟩ := b.arrivals
  exact ⟨⟨t ++ u, by rw [hu, ht, List.append_assoc]⟩, fun k => (b.os k).trans (a.os k), b.mer.trans a.mer, b.saf.trans a.saf, b.pwr.trans a.pwr⟩

/-- What R83 reads of a channel. -/
def heeded (c : Chan) : ChState × BitVec 8 × Bool × Bool × Bool × Bool :=
  (c.nev.state, c.nev.sfnLow, c.aux.firstArrival, c.aux.recLost, c.aux.osMissing, c.aux.healthTaken)

/-- From f to g a word of channel x is judged as before, and the channel stays where it is bound. -/
structure Quiet (x : BitVec 17) (f g : Field) : Prop where
  grows : Grows f g
  own : g.nev.arrivals.filter (fun w => w.ch = x) = f.nev.arrivals.filter (fun w => w.ch = x)
  chan : heeded (g.chan x) = heeded (f.chan x)
  sfn : g.nev.sfn = f.nev.sfn
  noDup : g.nev.noDup = f.nev.noDup
  places : Places (· = x) f g

namespace Quiet
variable {x : BitVec 17} {f g h : Field}

theorem trans (a : Quiet x f g) (b : Quiet x g h) : Quiet x f h :=
  ⟨a.grows.trans b.grows, b.own.trans a.own, b.chan.trans a.chan, b.sfn.trans a.sfn, b.noDup.trans a.noDup, a.places.trans b.places⟩

theorem sends (hs : Sends f g) : Quiet x f g := by
  have hn := hs.nev
  exact ⟨⟨⟨[], by rw [hn, List.append_nil]⟩, hs.os, hs.mer, hs.saf, hs.pwr⟩, by rw [hn], by rw [chan_congr hn], by rw [hn], by rw [hn],
    .ofCh (by rw [hn])⟩

theorem refl (f : Field) : Quiet x f f := sends (.refl f)

/-- Counters of Névé. -/
theorem counters (f : Field) (n : Nevs) (hch : n.ch = f.nev.ch) (ha : n.arrivals = f.nev.arrivals) (hs : n.sfn = f.nev.sfn)
    (hd : n.noDup = f.nev.noDup) : Quiet x f { f with nev := n } := by
  refine ⟨⟨⟨[], by rw [List.append_nil]; exact ha⟩, fun _ => rfl, rfl, rfl, rfl⟩, congrArg _ ha, ?_, hs, hd, .ofCh hch⟩
  rw [Field.chan, Field.chan, hch]

theorem modChan (f : Field) (y : BitVec 17) (m : Chan → Chan) (hb : (m (f.chan y)).fr.bind = (f.chan y).fr.bind)
    (hj : heeded (m (f.chan y)) = heeded (f.chan y)) (hp : y = x → m (f.chan y) ≠ Chan.free) : Quiet x f (f.modChan y m) := by
  refine ⟨⟨⟨[], by rw [List.append_nil]; rfl⟩, fun _ => rfl, rfl, rfl, rfl⟩, rfl, ?_, rfl, rfl, .modChan f y m hb (congrArg Prod.fst hj) hp⟩
  by_cases hy : y = x
  · subst hy; rw [chan_modChan_same, hj]
  · rw [chan_modChan_other _ _ hy]

theorem metered {ys : List (BitVec 17)} (hm : Metered ys f g) (hx : x ∈ ys → blank (f.chan x) = false) : Quiet x f g := by
  have hn := hm.nev
  refine ⟨⟨⟨[], by rw [hn, List.append_nil]⟩, fun k => by rw [lane_of_lan hm.lan], congrArg (·.mer) hm.frame, congrArg (·.saf) hm.frame,
    congrArg (·.pwr) hm.frame⟩, by rw [hn], by rw [hm.chan x]; rfl, by rw [hn], by rw [hn], hm.places.mono fun y hy hmem => ?_⟩
  subst hy
  exact hx hmem

theorem classify (a : Quiet x f g) (sfn : Byte) (w : Word) : g.classify x sfn w = f.classify x sfn w := by
  obtain ⟨hstate, hlow, hfirst, hlost, hmissing, htaken⟩ : (g.chan x).nev.state = (f.chan x).nev.state ∧
      (g.chan x).nev.sfnLow = (f.chan x).nev.sfnLow ∧ (g.chan x).aux.firstArrival = (f.chan x).aux.firstArrival ∧
      (g.chan x).aux.recLost = (f.chan x).aux.recLost ∧ (g.chan x).aux.osMissing = (f.chan x).aux.osMissing ∧
      (g.chan x).aux.healthTaken = (f.chan x).aux.healthTaken := by simpa [heeded] using a.chan
  unfold Field.classify
  dsimp only
  rw [hstate, hlow, hfirst, hlost, hmissing, htaken, a.own, a.sfn, a.noDup]

/-! ### The acknowledgement of a frame -/

theorem each (l : List (BitVec 17)) {op : Field → BitVec 17 → Field} (hop : ∀ f y, Quiet x f (op f y)) : ∀ f : Field, Quiet x f (f.each l op) := by
  induction l with
  | nil => exact refl
  | cons y l ih => exact fun f => (hop f y).trans (ih _)

/-- A change of another channel. -/
theorem modAuxOther {y : BitVec 17} (h : y ≠ x) (f : Field) (m : Aux → Aux) : Quiet x f (f.modAux y m) :=
  ⟨⟨⟨[], by rw [List.append_nil]; rfl⟩, fun _ => rfl, rfl, rfl, rfl⟩, rfl, by rw [Field.modAux, chan_modChan_other _ _ h], rfl, rfl,
    .modChan f y _ rfl rfl fun he => absurd he h⟩

/-- A change of a channel that is bound. -/
theorem modBound (f : Field) (y : BitVec 17) (m : Chan → Chan) (hb : (m (f.chan y)).fr.bind = (f.chan y).fr.bind)
    (hj : heeded (m (f.chan y)) = heeded (f.chan y)) (hne : (f.chan y).fr.bind ≠ Chan.free.fr.bind) : Quiet x f (f.modChan y m) :=
  modChan f y m hb hj fun _ he => hne (hb.symm.trans (congrArg (fun c : Chan => c.fr.bind) he))

theorem fbAcked (f : Field) (id : BitVec 64) (y : BitVec 17) : Quiet x f (f.fbAcked id y) := by
  unfold Field.fbAcked
  extract_lets k later own
  split
  · exact refl f
  next h =>
    refine modBound f y _ rfl rfl fun he => h ?_
    have hown : own = false := by simp only [own, he]; rfl
    simp [hown]

theorem queueFb (f : Field) (y : BitVec 17) : Quiet x f (f.queueFb y) := by
  unfold Field.queueFb
  extract_lets c f1
  split
  next l p pt id _ hb =>
    extract_lets k
    have h1 : Quiet x f f1 := modBound f y _ rfl rfl fun he => by
      rw [show (f.chan y).fr.bind = _ from hb] at he
      cases he
    exact h1.trans (sends ((Sends.setLink f1 id _).trans (Sends.sendCmd _ id _ _)))
  · exact refl f

theorem takeAck (f : Field) (id : BitVec 64) (a : Byte) (defaults : Bool) : Quiet x f (f.takeAck id a defaults) := by
  unfold Field.takeAck
  extract_lets k lost k0 i f2 f1 f3
  have h1 : Quiet x f f1 := by
    simp only [f1]
    split
    · exact sends (.setLink f id _)
    · split
      · have hlist (l : List Sent) : ∀ g : Field, Quiet x g (l.foldl (fun (g : Field) s =>
            match s.cmd with | .fbConfig y _ => g.fbAcked id y | _ => g) g) := by
          induction l with
          | nil => exact refl
          | cons s l ih =>
            refine fun g => Quiet.trans ?_ (ih _)
            dsimp only
            split
            · exact fbAcked g id _
            · exact refl g
        exact (sends (.setLink f id _)).trans (hlist _ f2)
      · exact sends (.setLink f id _)
  have h3 : Quiet x f f3 := h1.trans (sends (.pumpLink id 16 f1))
  split
  · exact h3.trans (each _ (fun g y => queueFb g y) _)
  · exact h3

end Quiet

/-! ### The energy report of a word (R218) -/

theorem blank_of_metered {f : Field} {x y : BitVec 17} (h : y ∈ f.metered x) : blank (f.chan y) = false := by
  have he : f.elsbOf y ≠ 0 := by
    have := (List.mem_filter.mp h).2
    simpa using this
  by_contra hb
  rw [Bool.not_eq_false] at hb
  have hfree : { f.chan y with met := Meter.empty } = Chan.free := beq_iff_eq.mp hb
  have hk := congrArg (fun c : Chan => c.nev.kind) hfree
  have hf := congrArg Chan.fr hfree
  dsimp only at hk hf
  refine he ?_
  unfold elsbOf
  dsimp only
  rw [hk, hf]
  rfl

theorem applyReport_metered {ys : List (BitVec 17)} {y : BitVec 17} (hy : y ∈ ys) (f : Field) (ri re : BitVec 16) :
    Metered ys f (f.applyReport y ri re) := by
  unfold applyReport
  extract_lets m di de
  split
  · exact (Metered.modMet f hy _).trans (Metered.addCounts hy _ _ _)
  · exact Metered.modMet f hy _
  · exact Metered.modMet f hy _

theorem report16_quiet (x : BitVec 17) (f : Field) (y : BitVec 17) (ri re : BitVec 16) : Quiet x f (f.report16 y ri re) := by
  unfold report16
  extract_lets ts f1 waits vs res f2 _ f3
  have h1 : Metered ts f f1 := Metered.foldl _ (fun g y hy => Metered.readMeter hy g) f
  have hx : x ∈ ts → blank (f.chan x) = false := blank_of_metered
  split
  · exact Quiet.metered h1 hx
  · have h2 : Metered ts f1 f2 := Metered.foldl _ (fun g y hy => applyReport_metered hy g ri re) f1
    have h3 : Metered ts f f3 := (h1.trans h2).trans (.store rfl)
    have hq := Quiet.metered h3 hx
    split
    · split
      · exact hq.trans (.sends (.energyRead f3 _ _ _))
      · exact hq
    · exact hq

/-! ### A word of a frame (R82) -/

theorem queueArrival_grows (f : Field) (y : BitVec 17) (a : Arrival) : Grows f (f.queueArrival y a) := by
  have hcount : (countClass f.nev a.cls).arrivals = f.nev.arrivals := by unfold countClass; split <;> rfl
  unfold queueArrival
  extract_lets f1 q
  split
  · exact ⟨⟨[], by rw [List.append_nil]; exact hcount⟩, fun _ => rfl, rfl, rfl, rfl⟩
  · exact ⟨⟨[{ ch := y, arr := a }], congrArg (· ++ [_]) hcount⟩, fun _ => rfl, rfl, rfl, rfl⟩

/-- A word of another channel leaves what a channel's own word is judged by. -/
theorem queueArrival_quiet {x y : BitVec 17} (h : y ≠ x) (f : Field) (a : Arrival) : Quiet x f (f.queueArrival y a) := by
  have hcount : (countClass f.nev a.cls).arrivals = f.nev.arrivals ∧ (countClass f.nev a.cls).ch = f.nev.ch ∧
      (countClass f.nev a.cls).sfn = f.nev.sfn ∧ (countClass f.nev a.cls).noDup = f.nev.noDup := by
    unfold countClass; split <;> exact ⟨rfl, rfl, rfl, rfl⟩
  obtain ⟨harr, hch, hsfn, hdup⟩ := hcount
  unfold queueArrival
  extract_lets f1 q
  have h1 : Quiet x f f1 := .counters f _ hch harr hsfn hdup
  split
  · exact h1
  · have h2 : Quiet x f { f1 with nev := { f1.nev with arrivals := q, backlogPeak := satMax f1.nev.backlogPeak q.length } } := by
      refine ⟨⟨⟨[{ ch := y, arr := a }], congrArg (· ++ [_]) harr⟩, fun _ => rfl, rfl, rfl, rfl⟩, ?_, h1.chan, h1.sfn, h1.noDup, .ofCh hch⟩
      show (f1.nev.arrivals ++ [_]).filter _ = _
      rw [List.filter_append, show f1.nev.arrivals = _ from harr, List.filter_cons_of_neg (by simpa using h), List.filter_nil, List.append_nil]
    exact h2.trans (.modAuxOther h _ _)

end Field
end Sys2Proof.Machine
end

section
/-! PROOF. The words of a telemetry frame (R82, R83, R271): each point's word waits as the arrival of the channel bound to it. -/
namespace Sys2Proof.Machine
set_option Elab.async false
namespace Field

/-! ### The channel bound to a point -/

/-- Channel x, and no other, is bound to a point of an identity. -/
structure BoundAt (x : BitVec 17) (id : BitVec 64) (pt : BitVec 6) (f : Field) : Prop where
  only : ∀ c ∈ f.existing, c.1 = x ↔ c.2.boundTo id pt = true
  found : ∃ c ∈ f.existing, c.1 = x

theorem boundTo_congr {c d : Chan} (h : d.fr.bind = c.fr.bind) (id : BitVec 64) (pt : BitVec 6) : d.boundTo id pt = c.boundTo id pt := by
  rw [Chan.boundTo, Chan.boundTo, h]

theorem chanAt_eq (f : Field) (id : BitVec 64) (pt : BitVec 6) : f.chanAt id pt = (f.existing.find? (fun e => e.2.boundTo id pt)).map (·.1) := by
  unfold chanAt
  refine congrArg (fun p => (List.find? p f.existing).map (·.1)) (funext fun e => ?_)
  unfold Chan.boundTo
  cases e.2.fr.bind <;> rfl

namespace BoundAt
variable {x : BitVec 17} {id : BitVec 64} {pt : BitVec 6} {f g : Field}

theorem quiet (h : BoundAt x id pt f) (q : Quiet x f g) : BoundAt x id pt g := by
  refine ⟨fun c hc => ?_, ?_⟩
  · obtain ⟨d, hd, hx, hb⟩ := q.places.back c hc
    rw [← hx, h.only d hd, boundTo_congr hb]
  · obtain ⟨d, hd, hx⟩ := h.found
    obtain ⟨c, hc, hy⟩ := q.places.forth d hd hx
    exact ⟨c, hc, hy.trans hx⟩

theorem chanAt (h : BoundAt x id pt f) : f.chanAt id pt = some x := by
  rw [chanAt_eq]
  obtain ⟨c, hc, hx⟩ := h.found
  have hsome : (f.existing.find? (fun e => e.2.boundTo id pt)).isSome = true := List.find?_isSome.mpr ⟨c, hc, (h.only c hc).mp hx⟩
  obtain ⟨d, hd⟩ := Option.isSome_iff_exists.mp hsome
  rw [hd, Option.map_some, (h.only d (List.mem_of_find?_eq_some hd)).mpr (List.find?_some (p := fun e : BitVec 17 × Chan => e.2.boundTo id pt) hd)]

/-- Another point has another channel. -/
theorem chanAt_other (h : BoundAt x id pt f) {q : BitVec 6} (hq : q ≠ pt) : f.chanAt id q ≠ some x := by
  rw [chanAt_eq]
  intro hs
  obtain ⟨c, hc, hx⟩ := Option.map_eq_some_iff.mp hs
  obtain ⟨l, p, hb⟩ := point_of_boundTo ((h.only c (List.mem_of_find?_eq_some hc)).mp hx)
  obtain ⟨m, r, hb'⟩ := point_of_boundTo (List.find?_some (p := fun e : BitVec 17 × Chan => e.2.boundTo id q) hc)
  rw [hb] at hb'
  injection hb' with _ _ hpt
  exact hq hpt.symm

theorem of_chanAt (hs : f.chanAt id pt = some x) (h : ∀ c ∈ f.existing, c.1 = x ↔ c.2.boundTo id pt = true) : BoundAt x id pt f := by
  rw [chanAt_eq] at hs
  obtain ⟨c, hc, hx⟩ := Option.map_eq_some_iff.mp hs
  exact ⟨h, c, List.mem_of_find?_eq_some hc, hx⟩

end BoundAt

/-! ### One word -/

/-- A fresh word of channel x waits for a pipe. -/
def Arrives (x : BitVec 17) (w : Word) (sfn : Byte) (f : Field) : Prop :=
  ∃ a ∈ f.nev.arrivals, a.ch = x ∧ a.arr.cls = .fresh ∧ a.arr.word = w ∧ a.arr.sfn = sfn

theorem Arrives.grows {x : BitVec 17} {w : Word} {sfn : Byte} {f g : Field} (h : Arrives x w sfn f) (hg : Grows f g) : Arrives x w sfn g := by
  obtain ⟨a, ha, hrest⟩ := h
  obtain ⟨t, ht⟩ := hg.arrivals
  exact ⟨a, ht ▸ List.mem_append_left t ha, hrest⟩

section
variable (f : Field) (id : BitVec 64) (n : Nat) (sfn : Byte) (w : Word) (rep : Option (BitVec 16 × BitVec 16))

/-- The place of a word, as read. -/
def placed : Field := { f with nev := { f.nev with lastWord := tabPut f.nev.lastWord (id.toNat * 64 + n) (bits w 28 4, f.nev.sfCount) } }

theorem placed_quiet (x : BitVec 17) : Quiet x f (f.placed id n w) := .counters f _ rfl rfl rfl rfl

theorem takeWord_eq : f.takeWord id n sfn w rep = match (f.placed id n w).chanAt id (BitVec.ofNat 6 n) with
    | none => { f.placed id n w with nev := { (f.placed id n w).nev with unbound := satAdd (f.placed id n w).nev.unbound 1 } }
    | some x => match (if (f.placed id n w).classify x sfn w = .duplicate then none else rep) with
      | some r => ((f.placed id n w).queueArrival x { cls := (f.placed id n w).classify x sfn w, word := w, sfn := sfn }).report16 x r.1 r.2
      | none => (f.placed id n w).queueArrival x { cls := (f.placed id n w).classify x sfn w, word := w, sfn := sfn } := rfl

theorem reported_quiet (x y : BitVec 17) (g : Field) (r : Option (BitVec 16 × BitVec 16)) :
    Quiet x g (match r with | some r => g.report16 y r.1 r.2 | none => g) := by
  cases r with
  | some r => exact report16_quiet x g y r.1 r.2
  | none => exact .refl g

theorem takeWord_grows : Grows f (f.takeWord id n sfn w rep) := by
  rw [takeWord_eq]
  have h0 := (placed_quiet f id n w 0).grows
  generalize f.placed id n w = g at h0
  split
  · exact h0.trans (Quiet.counters (x := 0) g _ (by rfl) (by rfl) (by rfl) (by rfl)).grows
  next x _ =>
    have h1 := h0.trans (queueArrival_grows g x { cls := g.classify x sfn w, word := w, sfn := sfn })
    exact h1.trans (reported_quiet 0 x _ _).grows

/-- A word of another point leaves what a channel's own word is judged by. -/
theorem takeWord_quiet {x : BitVec 17} {pt : BitVec 6} (hb : BoundAt x id pt f) (hn : BitVec.ofNat 6 n ≠ pt) :
    Quiet x f (f.takeWord id n sfn w rep) := by
  rw [takeWord_eq]
  have h0 := placed_quiet f id n w x
  have hb0 := hb.quiet h0
  generalize f.placed id n w = g at h0 hb0
  split
  · exact h0.trans (.counters g _ rfl rfl rfl rfl)
  next y hy =>
    have hyx : y ≠ x := fun he => hb0.chanAt_other hn (he ▸ hy)
    exact (h0.trans (queueArrival_quiet hyx g _)).trans (reported_quiet x y _ _)

/-- A fresh word of a channel waits for a pipe. -/
theorem takeWord_arrives {x : BitVec 17} (hb : BoundAt x id (BitVec.ofNat 6 n) f) (hf : f.classify x sfn w = .fresh) :
    Arrives x w sfn (f.takeWord id n sfn w rep) := by
  rw [takeWord_eq]
  have h0 := placed_quiet f id n w x
  have hb0 := hb.quiet h0
  have hf0 := (h0.classify sfn w).trans hf
  generalize f.placed id n w = g at h0 hb0 hf0
  rw [hb0.chanAt]
  dsimp only
  rw [hf0]
  have harr : Arrives x w sfn (g.queueArrival x { cls := .fresh, word := w, sfn := sfn }) :=
    ⟨_, List.mem_append_right _ (List.mem_singleton_self _), rfl, rfl, rfl, rfl⟩
  exact harr.grows (reported_quiet x x _ _).grows

end

/-! ### The words of a frame -/

theorem takeWords_grows (f : Field) (id : BitVec 64) (b : Bytes) (n : Nat) (energy : Bool) : Grows f (f.takeWords id b n energy) := by
  unfold takeWords
  extract_lets sfn g
  induction n with
  | zero => exact (Quiet.refl (x := 0) f).grows
  | succ n ih =>
    rw [List.range_succ, List.foldl_append, List.foldl_cons, List.foldl_nil]
    exact ih.trans (takeWord_grows ..)

/-- The fresh word of a point arrives, whatever the other words of the frame (R82). -/
theorem takeWords_arrives {f : Field} {id : BitVec 64} {x : BitVec 17} {pt : Nat} (hpt : pt < 64) (hb : BoundAt x id (BitVec.ofNat 6 pt) f)
    (b : Bytes) (energy : Bool) (hf : f.classify x (u8 b 4) (u32 b (8 + 4 * pt)) = .fresh) (n : Nat) :
    if pt < n then Arrives x (u32 b (8 + 4 * pt)) (u8 b 4) (f.takeWords id b n energy) else Quiet x f (f.takeWords id b n energy) := by
  unfold takeWords
  extract_lets sfn g
  induction n with
  | zero => exact .refl f
  | succ n ih =>
    rw [List.range_succ, List.foldl_append, List.foldl_cons, List.foldl_nil]
    generalize (List.range n).foldl _ f = h at ih
    dsimp only
    rcases Nat.lt_trichotomy pt n with hlt | heq | hgt
    · rw [if_pos hlt] at ih
      rw [if_pos (by omega)]
      exact ih.grows (takeWord_grows ..)
    · subst heq
      rw [if_neg (by omega)] at ih
      rw [if_pos (by omega)]
      exact takeWord_arrives _ id pt sfn _ _ (hb.quiet ih) ((ih.classify _ _).trans hf)
    · rw [if_neg (by omega)] at ih
      rw [if_neg (by omega)]
      refine ih.trans (takeWord_quiet _ id n sfn _ _ (hb.quiet ih) fun he => ?_)
      have := congrArg BitVec.toNat he
      simp at this
      omega

/-! ### A good frame -/

/-- The place of an outstation is marked by a good frame at an end (R82, R271). -/
def marked (e : End) (o : Outst) : Outst := { o with missCnt := 0, seenA := o.seenA || e = .a, seenB := o.seenB || e = .b }

theorem takeFrame_good {f : Field} {l : BitVec 5} {e : End} {b : Bytes} {o : Outst} (hc : crc32c (slice b 2 278) = u32 b 280)
    (ht : u8 b 2 = 1) (ha : bit (u8 b 5) 3 = false) (hu : bit (u8 b 3) 7 = false)
    (ho : tabLook (f.lane l).os (bits (u8 b 3) 0 6 : BitVec 6).toNat = some o) (hm : o.missing = false) (hsa : e = .a → o.seenA = false)
    (hsb : e = .b → o.seenB = false) : f.takeFrame l e b =
      ((f.modLane l (fun v => { v with os := tabPut v.os (bits (u8 b 3) 0 6 : BitVec 6).toNat (marked e o) })).takeAck o.id (u8 b 6)
        (bit (u8 b 5) 4)).takeWords o.id b (min (bits (u8 b 7) 0 7 : BitVec 7).toNat 64) true := by
  have hseen : (if e = .a then o.seenA else o.seenB) = false := by
    cases e with
    | a => exact hsa rfl
    | b => exact hsb rfl
  have hos := modOs_of_look (fun o => { o with missCnt := 0, seenA := o.seenA || e = .a, seenB := o.seenB || e = .b }) ho
  unfold takeFrame
  rw [if_neg (by simp [hc, ht]), ha, hu]
  dsimp only
  rw [if_neg (by decide), if_neg (by decide), ho]
  dsimp only
  rw [hseen, hm, hos]
  rfl

/-! ### A missing frame -/

/-- An arrival of class missing for each of some channels (R82). -/
def missingTo (f : Field) (xs : List (BitVec 17)) : Field :=
  f.each xs (fun g x => g.queueArrival x { cls := .missing, word := 0, sfn := (g.nev.sfn - 1).setWidth 8 })

theorem queueArrival_entry (f : Field) (x y : BitVec 17) (a : Arrival) : ((f.queueArrival x a).chan y).nev = (f.chan y).nev := by
  have hch : (countClass f.nev a.cls).ch = f.nev.ch := by unfold countClass; split <;> rfl
  unfold queueArrival
  extract_lets f1 q
  have h1 : f1.chan y = f.chan y := by rw [chan, chan, show f1.nev.ch = f.nev.ch from hch]
  split
  · rw [h1]
  · exact ((SameEntries.modAux _ x _) y).1.trans (congrArg Chan.nev h1)

theorem missingTo_spec (f : Field) (xs : List (BitVec 17)) : (f.missingTo xs).lan = f.lan ∧
    (∀ y, ((f.missingTo xs).chan y).nev = (f.chan y).nev) ∧
    ∀ x ∈ xs, ∃ a ∈ (f.missingTo xs).nev.arrivals, a.ch = x ∧ a.arr.cls = .missing := by
  have hgrows (xs : List (BitVec 17)) : ∀ f : Field, ∃ t, (f.missingTo xs).nev.arrivals = f.nev.arrivals ++ t := by
    induction xs with
    | nil => exact fun f => ⟨[], (List.append_nil _).symm⟩
    | cons x xs ih =>
      intro f
      obtain ⟨t, ht⟩ := (queueArrival_grows f x { cls := .missing, word := 0, sfn := (f.nev.sfn - 1).setWidth 8 }).arrivals
      obtain ⟨u, hu⟩ := ih (f.queueArrival x { cls := .missing, word := 0, sfn := (f.nev.sfn - 1).setWidth 8 })
      exact ⟨t ++ u, hu.trans (by rw [ht, List.append_assoc])⟩
  induction xs generalizing f with
  | nil => exact ⟨rfl, fun _ => rfl, fun x hx => absurd hx List.not_mem_nil⟩
  | cons x xs ih =>
    obtain ⟨hlan, hentry, harr⟩ := ih (f.queueArrival x { cls := .missing, word := 0, sfn := (f.nev.sfn - 1).setWidth 8 })
    refine ⟨hlan.trans rfl, fun y => (hentry y).trans (queueArrival_entry f x y _), fun y hy => ?_⟩
    rcases List.mem_cons.mp hy with rfl | hmem
    · obtain ⟨t, ht⟩ := hgrows xs (f.queueArrival y { cls := .missing, word := 0, sfn := (f.nev.sfn - 1).setWidth 8 })
      exact ⟨_, ht ▸ List.mem_append_left t (List.mem_append_right _ (List.mem_singleton_self _)), rfl, rfl⟩
    · exact harr y hmem

end Field

open Sys2Proof.Machine.Field in
/-- Settles O33: a good frame marks its place and brings a word to each channel; a missing one brings an arrival to each. -/
theorem telemetryArrives : Obligations.TelemetryArrives := by
  unfold Obligations.TelemetryArrives
  intro s l hh
  refine ⟨fun b hlen h0 h1 => receive_teleChars hlen h0 h1, fun e cs b o hr hc ht ha hu ho hm hsa hsb => ?good, fun e cs b hr hbad => ?bad,
    fun e cs hr => ?broken, fun pos o ho hsa hsb hj => ?missing⟩
  case good =>
    refine s.endsField_of_exec (op := fun f => f.telemetryFrame l e cs) rfl ?_
    rw [telemetryFrame, laneChars_one _ hh hr, takeFrame_good hc ht ha hu (by rw [rewritten_lane]; exact ho) hm hsa hsb]
    set f2 := (s.f.rewritten l).modLane l (fun v => { v with os := tabPut v.os (bits (u8 b 3) 0 6 : BitVec 6).toNat (marked e o) }) with hf2
    have hlook : tabLook (f2.lane l).os (bits (u8 b 3) 0 6 : BitVec 6).toNat = some (marked e o) := by
      rw [hf2, lane_modLane_same]
      exact tabLook_tabPut_same ..
    have hexisting : f2.existing = s.f.existing := rfl
    have hclass (x : BitVec 17) : f2.classify x = s.f.classify x := rfl
    have hmer : f2.mer = s.f.mer ∧ f2.saf = s.f.saf ∧ f2.pwr = s.f.pwr := ⟨rfl, rfl, rfl⟩
    clear_value f2
    set g := f2.takeAck o.id (u8 b 6) (bit (u8 b 5) 4) with hg
    have hack (x : BitVec 17) : Quiet x f2 g := .takeAck f2 _ _ _
    have hwords := takeWords_grows g o.id b (min (bits (u8 b 7) 0 7 : BitVec 7).toNat 64) true
    have hall := (hack 0).grows.trans hwords
    refine ⟨⟨_, (congrArg (tabLook · _) (hall.os l)).trans hlook, rfl, rfl, fun he => ?_, fun he => ?_⟩, fun x pt hpt hx honly hf => ?_,
      hall.mer.trans hmer.1, hall.saf.trans hmer.2.1, hall.pwr.trans hmer.2.2⟩
    · simp [marked, he]
    · simp [marked, he]
    · have hb : BoundAt x o.id (BitVec.ofNat 6 pt) f2 := .of_chanAt (by rw [chanAt, hexisting]; exact hx) (by rw [hexisting]; exact honly)
      have harr := takeWords_arrives (by omega) (hb.quiet (hack x)) b true (((hack x).classify _ _).trans (by rw [hclass]; exact hf))
        (min (bits (u8 b 7) 0 7 : BitVec 7).toNat 64)
      rw [if_pos hpt] at harr
      exact harr
  case bad =>
    refine s.endsField_of_exec (op := fun f => f.telemetryFrame l e cs) rfl ?_
    obtain ⟨honly, hlane⟩ := crcOrdinary_rewritten s.f l
    have heq : s.f.telemetryFrame l e cs = (s.f.rewritten l).crcOrdinary l := by
      rw [telemetryFrame, laneChars_one _ hh hr]
      exact if_pos (by simpa using hbad)
    rw [heq]
    exact ⟨hlane, honly.others, honly.frame⟩
  case broken =>
    refine s.endsField_of_exec (op := fun f => f.telemetryFrame l e cs) rfl ?_
    rw [telemetryFrame, laneChars_none _ hh hr, lane_modLane_same]
    exact ⟨rfl, fun k hk => lane_modLane_other _ _ hk, rfl⟩
  case missing =>
    refine s.endsField_of_exec (op := fun f => f.telemetryMissing l pos) rfl ?_
    have hup : laneUp (s.f.lane l) = true := (Bool.and_eq_true_iff.mp hh).1
    have heq : s.f.telemetryMissing l pos = missingTo (s.f.modLane l (fun v =>
        { v with os := tabPut v.os pos.toNat { o with missCnt := o.missCnt + 1, judged := true } })) (s.f.chansOf o.id) := by
      unfold telemetryMissing
      extract_lets v f1
      rw [show tabLook v.os pos.toNat = some o from ho]
      dsimp -zeta only
      have hf1 := modOs_of_look (fun o => { o with missCnt := o.missCnt + 1, judged := true }) ho
      have hids : f1.chansOf o.id = s.f.chansOf o.id := chansOf_congr (modOs_nev ..) _
      rw [if_neg (by simp [v, hup, hsa, hsb, hj]), hids, show f1 = _ from hf1]
      rfl
    rw [heq]
    obtain ⟨hlan, hentry, harr⟩ := missingTo_spec (s.f.modLane l (fun v =>
        { v with os := tabPut v.os pos.toNat { o with missCnt := o.missCnt + 1, judged := true } })) (s.f.chansOf o.id)
    refine ⟨?_, harr, hentry⟩
    rw [lane_of_lan hlan, lane_modLane_same]
    exact tabLook_tabPut_same ..

end Sys2Proof.Machine
end

section
/-! PROOF. What the host die's records, tunnelled accesses and messages leave as it was (14 to 16). -/
namespace Sys2Proof.Machine
set_option Elab.async false

namespace HDie
variable {h g k : HDie} {p q : Part}

/-! ### One partition -/

/-- v becomes w while records are written for it and its accesses are sent: no command enters flight, and no ring is set up or served. -/
structure Port (v w : HPart) : Prop where
  same : w = { v with
    inflight := w.inflight, cq := w.cq, pba := w.pba, dbAgain := w.dbAgain, waiting := w.waiting, lostDisabled := w.lostDisabled,
    lostQueue := w.lostQueue, lost := w.lost, evtSeq := w.evtSeq, block := w.block, coldPend := w.coldPend, tun := w.tun }
  flight : List.Sublist w.inflight v.inflight
  tun : w.tun.length = v.tun.length

theorem Port.refl (v : HPart) : Port v v := ⟨rfl, .refl _, rfl⟩

theorem Port.trans {v w x : HPart} (h1 : Port v w) (h2 : Port w x) : Port v x :=
  ⟨by rw [h2.same, h1.same], h2.flight.trans h1.flight, h2.tun.trans h1.tun⟩

/-! ### The die -/

/-- g is h once it has told the field die or written records: beside the partitions, only what is sent or kept and the held log records
are other, and nothing of what had been sent goes. -/
structure Handled (h g : HDie) : Prop where
  frame : g = { h with
    part := g.part, out := g.out, sec := { h.sec with log := g.sec.log, logDrop := g.sec.logDrop },
    trn := { h.trn with
      ctl := g.trn.ctl, dat := g.trn.dat, devOwed := g.trn.devOwed, pollItv := g.trn.pollItv, resends := g.trn.resends } }
  kept : h.trn.ctl.kept <+: g.trn.ctl.kept
  out : h.out <+: g.out
  port : ∀ p, Port (h.hp p) (g.hp p)

namespace Handled

theorem refl (h : HDie) : Handled h h := ⟨rfl, List.prefix_rfl, List.prefix_rfl, fun _ => .refl _⟩

theorem trans (h1 : Handled h g) (h2 : Handled g k) : Handled h k where
  frame := by rw [h2.frame, h1.frame]
  kept := h1.kept.trans h2.kept
  out := h1.out.trans h2.out
  port p := (h1.port p).trans (h2.port p)

theorem ite {c : Prop} [Decidable c] (h1 : c → Handled h g) (h2 : ¬ c → Handled h k) : Handled h (if c then g else k) := by
  split
  · exact h1 ‹_›
  · exact h2 ‹_›

theorem foldl {α : Type} {op : HDie → α → HDie} (hop : ∀ g a, Handled g (op g a)) (l : List α) (h : HDie) : Handled h (l.foldl op h) := by
  induction l generalizing h with
  | nil => exact .refl h
  | cons a l ih => exact (hop h a).trans (ih _)

theorem forParts {op : HDie → Part → HDie} (hop : ∀ g a, Handled g (op g a)) (h : HDie) : Handled h (h.forParts op) := foldl hop parts h

theorem of_tells (ht : Tells h g) : Handled h g :=
  ⟨by rw [ht.frame], ht.kept, ht.out, fun p => ht.hp p ▸ .refl _⟩

theorem setHp {v : HPart} (hv : Port (h.hp p) v) : Handled h (h.setHp p v) where
  frame := rfl
  kept := List.prefix_rfl
  out := List.prefix_rfl
  port q := by
    by_cases hq : p = q
    · subst hq; rw [hp_setHp_same]; exact hv
    · rw [hp_setHp_other h v hq]; exact .refl _

/-- A partition is changed in what records change, its commands in flight and its accesses apart. -/
theorem modHp {m : HPart → HPart} (hs : ∀ v, m v = { v with
      inflight := v.inflight, cq := (m v).cq, pba := (m v).pba, dbAgain := (m v).dbAgain, waiting := (m v).waiting,
      lostDisabled := (m v).lostDisabled, lostQueue := (m v).lostQueue, lost := (m v).lost, evtSeq := (m v).evtSeq, block := (m v).block,
      coldPend := (m v).coldPend, tun := v.tun } := by intro; rfl) : Handled h (h.modHp p m) := by
  have hi : (m (h.hp p)).inflight = (h.hp p).inflight := by rw [hs]
  have ht : (m (h.hp p)).tun = (h.hp p).tun := by rw [hs]
  refine setHp ⟨?_, hi ▸ .refl _, congrArg List.length ht⟩
  rw [hi, ht]
  exact hs _

theorem emit (h : HDie) (o : Out) : Handled h (h.emit o) := .of_tells (.emit h o)

theorem trn (ht : Handled h g) : g.trn = { h.trn with
    ctl := g.trn.ctl, dat := g.trn.dat, devOwed := g.trn.devOwed, pollItv := g.trn.pollItv, resends := g.trn.resends } := by rw [ht.frame]
theorem trnSt (ht : Handled h g) : g.trn.st = h.trn.st := by rw [ht.frame]
theorem fieldUp (ht : Handled h g) : g.trn.fieldUp = h.trn.fieldUp := by rw [ht.frame]
theorem fstWait (ht : Handled h g) : g.trn.fstWait = h.trn.fstWait := by rw [ht.frame]
theorem held (ht : Handled h g) : g.trn.held = h.trn.held := by rw [ht.frame]
theorem dbgF (ht : Handled h g) : g.sec.dbgF = h.sec.dbgF := by rw [ht.frame]
theorem sqs (ht : Handled h g) (p : Part) : (g.hp p).sq = (h.hp p).sq := by rw [(ht.port p).same]
theorem tun_nil (ht : Handled h g) (hp : (h.hp p).tun = []) : (g.hp p).tun = [] :=
  List.eq_nil_of_length_eq_zero ((ht.port p).tun.trans (congrArg List.length hp))
theorem mem_out (ht : Handled h g) {o : Out} (ho : o ∈ h.out) : o ∈ g.out := ht.out.subset ho
theorem mem_kept (ht : Handled h g) {x : BitVec 16 × Msg} (hx : x ∈ h.trn.ctl.kept) : x ∈ g.trn.ctl.kept := ht.kept.subset hx

/-! ### Messages and the status page -/

theorem sendCtl (h : HDie) (m : Msg) : Handled h (h.sendCtl m) := .of_tells (sendCtl_tells h m)

theorem sendDat (h : HDie) (m : Msg) : Handled h (h.sendDat m) := by
  unfold HDie.sendDat
  dsimp only
  have hk : Handled h { h with trn := { h.trn with dat := (Field.sendHalf h.trn.dat m h.t).1 } } :=
    ⟨rfl, List.prefix_rfl, List.prefix_rfl, fun _ => .refl _⟩
  exact .ite (fun _ => hk.trans (emit _ _)) (fun _ => hk)

theorem devKeep (h : HDie) (ws : List (Word × Word)) : Handled h (h.devKeep ws) :=
  .ite (fun _ => .of_tells (devWrs_tells h ws)) fun _ => ⟨rfl, List.prefix_rfl, List.prefix_rfl, fun _ => .refl _⟩

theorem statWr (h : HDie) (p : Part) (off : Nat) (b : Bytes) : Handled h (h.statWr p off b) := .ite (fun _ => .refl h) fun _ => emit h _
theorem statRing (h : HDie) (p : Part) (n : BitVec 4) : Handled h (h.statRing p n) := statWr h p _ _
theorem statPstate (h : HDie) (p : Part) : Handled h (h.statPstate p) := statWr h p _ _
theorem statEvt (h : HDie) (p : Part) : Handled h (h.statEvt p) := statWr h p _ _
theorem tellPstate (h : HDie) : Handled h h.tellPstate := forParts (fun g p => statPstate g p) h
theorem tellTlm (h : HDie) (p : Part) (n : Nat) : Handled h (h.tellTlm p n) := .ite (fun _ => sendCtl h _) fun _ => .refl h
theorem tellTlms (h : HDie) (p : Part) : Handled h (h.tellTlms p) :=
  (((tellTlm h p 0).trans (tellTlm _ p 1)).trans (tellTlm _ p 2)).trans (tellTlm _ p 3)

/-! ### Records -/

theorem setCq (h : HDie) (p : Part) (n : BitVec 4) (v : HCq) : Handled h (h.setCq p n v) := modHp
theorem lostDisabled (h : HDie) (p : Part) : Handled h (h.lostDisabled p) := modHp
theorem wait (h : HDie) (p : Part) (e : BitVec 4 × Bytes) : Handled h (h.modHp p (fun w => { w with waiting := w.waiting ++ [e] })) := modHp

theorem setPba (h : HDie) (p : Part) (x : BitVec 64) : Handled h (h.setHp p { h.hp p with pba := x }) := setHp ⟨rfl, .refl _, rfl⟩

theorem sendMsix (h : HDie) (p : Part) (vec : BitVec 6) : Handled h (h.sendMsix p vec) := by
  unfold HDie.sendMsix
  exact .ite (fun _ => .refl h) fun _ => .ite (fun _ => setPba h p _) fun _ => (setPba h p _).trans (emit _ _)

theorem moderate (h : HDie) (p : Part) (n : BitVec 4) : Handled h (h.moderate p n) := by
  unfold HDie.moderate
  exact .ite (fun _ => (setCq h p n _).trans (sendMsix _ p _)) fun _ => setCq h p n _

theorem putRecord (h : HDie) (p : Part) (n : BitVec 4) (b : Bytes) : Handled h (h.putRecord p n b) := by
  unfold HDie.putRecord
  exact ((((emit h _).trans (setCq _ p n _)).trans modHp).trans (statRing _ p n)).trans (moderate _ p n)

theorem syncBlock (h : HDie) (p : Part) : Handled h (h.syncBlock p) := by
  unfold HDie.syncBlock
  exact .ite (fun _ => .refl h) fun _ => .trans modHp (sendCtl _ _)

theorem putEvent (h : HDie) (p : Part) (n : BitVec 4) (b : Bytes) : Handled h (h.putEvent p n b) :=
  (Handled.trans modHp (statEvt _ p)).trans (putRecord _ p n b)

theorem toRing (h : HDie) (p : Part) (n : BitVec 4) (b : Bytes) : Handled h (h.toRing p n b) :=
  .ite (fun _ => lostDisabled h p) fun _ => .ite (fun _ => wait h p (n, b)) fun _ => putRecord h p n b

/-- A command leaves its place in flight. -/
theorem leave (h : HDie) (p : Part) (c : InFlight → Bool) : Handled h (h.modHp p (fun w => { w with inflight := w.inflight.filter c })) :=
  setHp ⟨rfl, List.filter_sublist, rfl⟩

theorem finish (h : HDie) (r : CmdRef) (b : Bytes) : Handled h (h.finish r b) :=
  .ite (fun _ => leave h r.part _) fun _ => (leave h r.part _).trans (toRing _ _ _ _)

theorem complete (h : HDie) (r : CmdRef) (s : Status) (d : Nat) : Handled h (h.complete r s d) := finish h r _

theorem drain (h : HDie) (p : Part) : Handled h (h.drain p) :=
  Handled.trans modHp (foldl (fun g e => .ite (fun _ => lostDisabled g p) fun _ => .ite (fun _ => wait g p e) fun _ =>
    .ite (fun _ => putEvent g p _ _) fun _ => putRecord g p _ _) _ _)

theorem deliverEvt (h : HDie) (p : Part) (b : Bytes) : Handled h (h.deliverEvt p b) := by
  unfold HDie.deliverEvt
  extract_lets n k g h1
  have counted : Handled h h1 := .ite (fun _ => .trans modHp (statWr _ p _ _)) fun _ => .refl h
  clear_value h1
  exact counted.trans (.ite (fun _ => lostDisabled h1 p) fun _ => .ite (fun _ => wait h1 p _) fun _ => putEvent h1 p n b)

theorem takeData (h : HDie) (m : HeldMsg) : Handled h (h.takeData m) := by
  unfold HDie.takeData
  cases m with
  | cpl p ring b =>
    refine .ite (fun _ => .refl h) fun _ => ?_
    cases (h.hp p).inflight.find? _ with
    | none => exact .refl h
    | some c => exact (finish h c.ref b).trans (syncBlock _ p)
  | evt p recs => exact .ite (fun _ => .refl h) fun _ => (foldl (fun g b => deliverEvt g p b) recs h).trans (syncBlock _ p)
  | hwrite p a d => exact .ite (fun _ => .refl h) fun _ => emit h _

/-! ### The tunnelled window -/

theorem mapTun (h : HDie) (p : Part) (m : HTun → HTun) : Handled h (h.modHp p (fun w => { w with tun := w.tun.map m })) :=
  setHp ⟨rfl, .refl _, List.length_map m⟩

theorem pumpTun (h : HDie) (p : Part) : Handled h (h.pumpTun p) :=
  .ite (fun _ => .refl h) fun _ => foldl (fun g _ => .ite (fun _ => .refl g) fun _ => (mapTun g p _).trans (sendCtl _ _)) _ h

theorem tunWritten (h : HDie) (p : Part) (off v a : Word) : Handled h (h.tunWritten p off v a) :=
  .ite (fun _ => ⟨rfl, List.prefix_rfl, List.prefix_rfl, fun _ => .refl _⟩) fun _ =>
    .ite (fun _ => .trans modHp (statPstate _ p)) fun _ => .refl h

end Handled

/-- Where no access is held, none is sent. -/
theorem pumpTun_nil (ht : (h.hp p).tun = []) : h.pumpTun p = h := by
  unfold pumpTun
  rw [ht]
  exact ite_self _

/-! ### A message is taken (R359, R360) -/

/-- A message that has arrived whole and in its place is acknowledged, and its ACK taken. -/
def took (h : HDie) (cls : Bool) (x : LinkHdr) : HDie := ((h.countCorrected x).heard cls x).takeLinkAck cls x.ack

theorem took_eq (h : HDie) (cls : Bool) (x : LinkHdr) : ∃ c d, h.took cls x = { h with
    trn := { h.trn with ctl := c, dat := d, corrected := satAdd h.trn.corrected x.corrected, tLast := h.t },
    out := h.out ++ [linkAckOut cls x.seq] } := by
  cases cls <;> exact ⟨_, _, rfl⟩

theorem hears_spec {cls : Bool} {x : LinkHdr} (hh : h.hears cls x = true) :
    h.linkUp = true ∧ x.good = true ∧ x.seq = (h.half cls).expect := by
  simp only [hears, Bool.and_eq_true, decide_eq_true_eq] at hh
  exact ⟨hh.1.1, hh.1.2, hh.2⟩

theorem recv_good {cls : Bool} {x : LinkHdr} {ty : Byte} (go : HDie → HDie) (hh : h.hears cls x = true) (hf : formOk x ty cls = true) :
    h.recv cls ty x go = go (h.took cls x) := by
  obtain ⟨hl, hg, hs⟩ := hears_spec hh
  have hs' : x.seq = ((h.countCorrected x).half cls).expect := hs.trans (by cases cls <;> rfl)
  unfold recv
  extract_lets h0 y
  rw [if_neg (by simp [hl]), if_neg (by simp [hg, y, h0, hs']), if_pos hf]
  rfl

/-! ### Every partition -/

theorem mem_parts : ∀ q : Part, q ∈ parts := by decide

/-- An operation that acts on each partition alone acts once on each. -/
theorem hp_forParts {op : HDie → Part → HDie} {m : HPart → HPart} (hsame : ∀ g p, (op g p).hp p = m (g.hp p))
    (hother : ∀ g p q, p ≠ q → (op g p).hp q = g.hp q) (h : HDie) (q : Part) : (h.forParts op).hp q = m (h.hp q) := by
  have past (l : List Part) (hl : q ∉ l) (g : HDie) : (l.foldl op g).hp q = g.hp q := by
    induction l generalizing g with
    | nil => rfl
    | cons a l ih =>
      obtain ⟨ha, hl⟩ := not_or.mp (mt List.mem_cons.mpr hl)
      exact (ih hl _).trans (hother g a q (Ne.symm ha))
  obtain ⟨a, b, hab⟩ := List.append_of_mem (mem_parts q)
  have hn : (a ++ q :: b).Nodup := hab ▸ by decide
  obtain ⟨-, hb, ha⟩ := List.nodup_append.mp hn
  rw [forParts, hab, List.foldl_append, List.foldl_cons, past b (List.nodup_cons.mp hb).1, hsame,
    past a (fun hq => ha q hq q List.mem_cons_self rfl)]

end HDie
end Sys2Proof.Machine
end

section
/-! PROOF. The host window, BAR2, the tunnelled accesses and FSTATE (14, 15, 22). -/
namespace Sys2Proof.Machine
set_option Elab.async false

namespace HDie
variable {h g : HDie} {p q : Part} {off : Word}

/-! ### The host window (R15, R368, R373) -/

theorem readReg_ident (p : Part) (hon : h.linkOn = true) :
    h.readReg p 0 .dword = { h with out := h.out ++ [Out.read p (0x8140 ||| fld h.sec.bl 24 ||| flag h.trn.fieldUp 28)] } := by
  simp [readReg, hon, regRead, readLow, identWord, emit]

section
variable {acc : Access} (hb : acc ≠ .dword ∨ off.toNat % 4 ≠ 0)
include hb

theorem form_bad : (decide (acc ≠ .dword) || decide (off.toNat % 4 ≠ 0)) = true := by simpa using hb

theorem readReg_form (p : Part) (hon : h.linkOn = true) : h.readReg p off.toNat acc = { h with out := h.out ++ [Out.unsupported p] } := by
  simp only [readReg, hon, Bool.not_true, Bool.false_eq_true, if_false, form_bad hb, if_true, emit]

theorem writeReg_form (p : Part) (v : Word) (c sf : Bool) (b : Bytes) (hon : h.linkOn = true) :
    h.writeReg p off.toNat v acc c sf b = h.modHp p (fun w => { w with aerUr := true }) := by
  simp only [writeReg, hon, Bool.not_true, Bool.false_eq_true, if_false, form_bad hb, if_true, badWrite]

end

theorem writeReg_tlmFirst (p : Part) (v : Word) (c sf : Bool) (b : Bytes) (hon : h.linkOn = true) :
    h.writeReg p 0x408 v .dword c sf b = (h.modHp p (fun w => { w with tlmFirst := bits v 0 17 })).tellTlm p 2 := by
  simp [writeReg, hon, regWrite, writeRings, modHp]

theorem tellTlm_spec (h : HDie) (p : Part) (n : Nat) :
    (h.tellTlm p n).part = h.part ∧
    h.tellTlm p n = { h with trn := { h.trn with ctl := (h.tellTlm p n).trn.ctl }, out := (h.tellTlm p n).out } ∧
    (h.trn.st ≠ .up → h.tellTlm p n = h) ∧
    (h.trn.st = .up → ∃ q, (q, Msg.mk 0x03 0x80 0 (le 4 (BitVec.ofNat 32 (0x30240 + 16 * p.toNat + 4 * n)) ++ le 4 (tlmWord (h.hp p) n))) ∈
      (h.tellTlm p n).trn.ctl.kept) := by
  unfold tellTlm
  by_cases hu : h.trn.st = .up
  · rw [if_pos hu]
    refine ⟨(devWr_tells h _ _).part, ?_, fun hn => absurd hu hn, fun _ => sendCtl_mem h _⟩
    unfold devWr sendCtl
    dsimp only
    split <;> rfl
  · rw [if_neg hu]
    exact ⟨rfl, rfl, fun _ => rfl, fun hn => absurd hn hu⟩

/-- The telemetry register takes the value, and the field die is told of it where the link is up. -/
theorem writeReg_tlmFirst_spec (p : Part) (v : Word) (c sf : Bool) (b : Bytes) (hon : h.linkOn = true) :
    let g := h.writeReg p 0x408 v .dword c sf b
    g.hp p = { h.hp p with tlmFirst := bits v 0 17 } ∧ (∀ q, q ≠ p → g.hp q = h.hp q) ∧
    g = { h with part := g.part, trn := { h.trn with ctl := g.trn.ctl }, out := g.out } ∧
    (h.trn.st ≠ .up → g.trn = h.trn ∧ g.out = h.out) ∧
    (h.trn.st = .up → ∃ q, (q, Msg.mk 0x03 0x80 0
      (le 4 (BitVec.ofNat 32 (0x30240 + 16 * p.toNat + 8)) ++ le 4 ((bits v 0 17 : BitVec 17).setWidth 32))) ∈ g.trn.ctl.kept) := by
  intro g
  have hg : g = _ := writeReg_tlmFirst p v c sf b hon
  obtain ⟨hpart, hframe, hdown, hup⟩ := tellTlm_spec (h.modHp p (fun w => { w with tlmFirst := bits v 0 17 })) p 2
  rw [← hg] at hpart hframe hdown hup
  have hhp (q : Part) : g.hp q = (h.modHp p (fun w => { w with tlmFirst := bits v 0 17 })).hp q :=
    congrArg (fun t => tabGet HPart.reset t q.toNat) hpart
  refine ⟨(hhp p).trans (hp_modHp_same ..), fun q hq => (hhp q).trans (hp_modHp_other _ _ hq.symm), ?_, fun hn => ?_, fun hu => ?_⟩
  · rw [hframe]; rfl
  · rw [hdown hn]; exact ⟨rfl, rfl⟩
  · obtain ⟨q, hq⟩ := hup hu
    rw [hp_modHp_same] at hq
    exact ⟨q, hq⟩

/-! ### BAR2 (R372, R374) -/

/-- A word of BAR2 is written: the table holds the entry, and the pending bits alone may change beside it. -/
theorem bar2Write_entry {n k : Nat} {v : Word} (e' : Msix) (hn : n < 64) (hk : k < 16)
    (he : (let e := tabGet Msix.reset (h.hp p).msix n
      if k < 4 then { e with addr := (e.addr >>> 32).setWidth 32 ++ v }
      else if k < 8 then { e with addr := v ++ (e.addr.setWidth 32 : Word) }
      else if k < 12 then { e with data := v }
      else { e with mask := bit v 0 } : Msix) = e') :
    PbaOnly p (h.setHp p { h.hp p with msix := tabSet Msix.reset (h.hp p).msix n e' }) (h.bar2Write p (16 * n + k) v) := by
  have hd : (16 * n + k) / 16 = n := by omega
  have hm : (16 * n + k) % 16 = k := by omega
  unfold bar2Write
  extract_lets w e e1
  have hee : e1 = e' := by
    rw [← he]
    simp only [e1, e, w, hd, hm]
  rw [if_neg (by omega), hd, hee]
  exact msixUnmasked_pba _ p

/-- A state in which the table has an entry in its place, with the pending bits open. -/
theorem tabGet_bar2Write {n : Nat} {e' : Msix}
    (hp : PbaOnly p (h.setHp p { h.hp p with msix := tabSet Msix.reset (h.hp p).msix n e' }) g) :
    tabGet Msix.reset (g.hp p).msix n = e' ∧ (∀ m, m ≠ n → tabGet Msix.reset (g.hp p).msix m = tabGet Msix.reset (h.hp p).msix m) ∧
    (∀ q, q ≠ p → g.hp q = h.hp q) := by
  have hs : (g.hp p).msix = tabSet Msix.reset (h.hp p).msix n e' := by rw [hp.same, hp_setHp_same]
  exact ⟨by rw [hs, tabGet_tabSet_same], fun m hm => by rw [hs, tabGet_tabSet_other _ _ _ hm.symm],
    fun q hq => (hp.other q hq).trans (hp_setHp_other _ _ hq.symm)⟩

/-- The two words of an address. -/
theorem hi_append_lo (a : BitVec 64) : ((a >>> 32).setWidth 32 : Word) ++ (a.setWidth 32 : Word) = a := by
  refine BitVec.eq_of_getLsbD_eq fun i hi => (BitVec.getLsbD_append ..).trans ?_
  by_cases h : i < 32
  · simp [h]
  · simp [h, show i - 32 < 32 by omega, show 32 + (i - 32) = i by omega]

theorem lo_of_append (x y : Word) : ((x ++ y : BitVec 64).setWidth 32 : Word) = y := by
  refine BitVec.eq_of_getLsbD_eq fun i hi => ?_
  rw [BitVec.getLsbD_setWidth, decide_eq_true hi, Bool.true_and]
  exact (BitVec.getLsbD_append ..).trans (if_pos hi)

theorem hi_of_append (x y : Word) : (bits (x ++ y : BitVec 64) 32 32 : Word) = x := by
  refine BitVec.eq_of_getLsbD_eq fun i hi => ?_
  rw [bits, BitVec.getLsbD_extractLsb', decide_eq_true hi, Bool.true_and]
  refine (BitVec.getLsbD_append ..).trans ((if_neg (by omega)).trans ?_)
  rw [show 32 + i - 32 = i by omega]

section
variable {n : Nat} (hn : n < 64)
include hn

theorem toNat_entry {k : Nat} (hk : k < 16) : (BitVec.ofNat 32 (16 * n + k)).toNat = 16 * n + k := Nat.mod_eq_of_lt (by omega)

theorem bar2Read_entry (v : HPart) {k : Nat} (hk : k < 16) : bar2Read v (16 * n + k) =
    (let e := tabGet Msix.reset v.msix n
     if k < 4 then e.addr.setWidth 32 else if k < 8 then (e.addr >>> 32).setWidth 32 else if k < 12 then e.data else flag e.mask 0) := by
  have hd : (16 * n + k) / 16 = n := by omega
  have hm : (16 * n + k) % 16 = k := by omega
  unfold bar2Read
  rw [if_pos (by omega), hd, hm]

theorem readBar2_data (p : Part) (hon : h.linkOn = true) : h.readBar2 p (BitVec.ofNat 32 (16 * n + 8)).toNat .dword =
    { h with out := h.out ++ [Out.read p (tabGet Msix.reset (h.hp p).msix n).data] } := by
  rw [toNat_entry hn (by decide)]
  simp [readBar2, hon, bar2Read_entry hn, show (16 * n + 8) % 4 = 0 by omega, emit]

theorem readBar2_addr (p : Part) (hon : h.linkOn = true) : h.readBar2 p (BitVec.ofNat 32 (16 * n + 0)).toNat .qword =
    { h with out := h.out ++ [Out.readWide p (tabGet Msix.reset (h.hp p).msix n).addr] } := by
  rw [toNat_entry hn (by decide), readBar2, bar2Read_entry hn _ (k := 0) (by decide), show 16 * n + 0 + 4 = 16 * n + 4 from rfl,
    bar2Read_entry hn _ (k := 4) (by decide)]
  simp only [hon, show (16 * n + 0) % 8 = 0 by omega]
  exact congrArg (fun a => h.emit (.readWide p a)) (hi_append_lo _)

theorem readBar2_high (p : Part) (hon : h.linkOn = true) : h.readBar2 p (BitVec.ofNat 32 (16 * n + 4)).toNat .qword =
    { h with out := h.out ++ [Out.unsupported p] } := by
  rw [toNat_entry hn (by decide)]
  simp [readBar2, hon, show (16 * n + 4) % 8 ≠ 0 by omega, emit]

theorem writeBar2_data (p : Part) (lo hi : Word) (hon : h.linkOn = true) :
    let g := h.writeBar2 p (BitVec.ofNat 32 (16 * n + 8)).toNat lo hi .dword
    tabGet Msix.reset (g.hp p).msix n = { tabGet Msix.reset (h.hp p).msix n with data := lo } ∧
    (∀ m, m ≠ n → tabGet Msix.reset (g.hp p).msix m = tabGet Msix.reset (h.hp p).msix m) ∧ (∀ q, q ≠ p → g.hp q = h.hp q) := by
  have hg : h.writeBar2 p (BitVec.ofNat 32 (16 * n + 8)).toNat lo hi .dword = h.bar2Write p (16 * n + 8) lo := by
    rw [toNat_entry hn (by decide)]
    simp [writeBar2, hon, show (16 * n + 8) % 4 = 0 by omega]
  rw [hg]
  exact tabGet_bar2Write (bar2Write_entry _ hn (by decide) (by rfl))

theorem writeBar2_addr (p : Part) (lo hi : Word) (hon : h.linkOn = true) :
    let g := h.writeBar2 p (BitVec.ofNat 32 (16 * n + 0)).toNat lo hi .qword
    tabGet Msix.reset (g.hp p).msix n = { tabGet Msix.reset (h.hp p).msix n with addr := hi ++ lo } ∧
    (∀ q, q ≠ p → g.hp q = h.hp q) := by
  have hg : h.writeBar2 p (BitVec.ofNat 32 (16 * n + 0)).toNat lo hi .qword = (h.bar2Write p (16 * n + 0) lo).bar2Write p (16 * n + 4) hi := by
    rw [toNat_entry hn (by decide)]
    simp [writeBar2, hon, show (16 * n) % 8 = 0 by omega]
  obtain ⟨hlow, -, hother⟩ := tabGet_bar2Write (bar2Write_entry (h := h) (p := p) (v := lo) _ hn (k := 0) (by decide) (by rfl))
  obtain ⟨hhigh, -, hother'⟩ := tabGet_bar2Write (bar2Write_entry (h := h.bar2Write p (16 * n + 0) lo) (p := p) (v := hi) _ hn (k := 4)
    (by decide) (by rfl))
  rw [hg]
  refine ⟨hhigh.trans ?_, fun q hq => (hother' q hq).trans (hother q hq)⟩
  have hlow' : tabGet Msix.reset ((h.bar2Write p (16 * n + 0) lo).hp p).msix n =
    { tabGet Msix.reset (h.hp p).msix n with addr := ((tabGet Msix.reset (h.hp p).msix n).addr >>> 32).setWidth 32 ++ lo } := hlow
  rw [hlow']
  exact congrArg (fun w : Word => ({ tabGet Msix.reset (h.hp p).msix n with addr := hi ++ w } : Msix)) (lo_of_append _ lo)

end

theorem readBar2_pba (p : Part) (hon : h.linkOn = true) : h.readBar2 p 0x800 .qword =
    { h with out := h.out ++ [Out.readWide p (h.hp p).pba] } := by
  simp only [readBar2, hon]
  exact congrArg (fun a => h.emit (.readWide p a)) (hi_append_lo _)

theorem writeBar2_beyond (p : Part) (lo hi : Word) (hon : h.linkOn = true) (ho : 0x400 ≤ off.toNat) (ha : off.toNat % 4 = 0) :
    h.writeBar2 p off.toNat lo hi .dword = h := by
  simp [writeBar2, hon, ha, bar2Write, ho]

/-! ### The commissioning state's closing tick (R481) -/

theorem commExpiry_none (hc : h.sec.comm = none) : h.commExpiry = h := by simp [commExpiry, hc]

/-- Beside the commissioning state only what the die tells is other. -/
theorem commExpiry_tells (h : HDie) : h.commExpiry = h ∨ Tells { h with sec := { h.sec with comm := none } } h.commExpiry := by
  unfold commExpiry
  split
  · split
    · exact .inr (closeComm_tells h 1)
    · exact .inl rfl
  · exact .inl rfl

/-! ### PART_SETUP_WRITE (R376, R480) -/

theorem partSetupWrite_closed (p n : Part) (v : Word) (hon : h.linkOn = true) (hc : h.commExpiry.sec.comm = none) :
    h.partSetupWrite p n v = h.commExpiry.log 0x02 (le 4 (BitVec.ofNat 32 (0x100 + 4 * n.toNat)) ++ [p.setWidth 8]) := by
  simp only [partSetupWrite, hon, Bool.not_true, Bool.false_eq_true, if_false, hc, Option.isNone_none, if_true]

section
variable {due : Count} (p n : Part) (v : Word) (hon : h.linkOn = true) (hc : h.sec.comm = some (due, q)) (hd : ¬ due ≤ h.t)
include hon hc hd

theorem partSetupWrite_open (hv : (bits v 8 18 : BitVec 18).toNat ≤ 131072) : h.partSetupWrite p n v =
    { h with nvm := { h.nvm with upd := h.nvm.upd ++ [ImgUpd.mk 2 (setupBytes (listSet h.setupLast n.toNat (v &&& 0x03FFFF07)))] } } := by
  simp only [partSetupWrite, hon, Bool.not_true, Bool.false_eq_true, if_false, commExpiry_later hc hd, hc, Option.isNone_some,
    if_neg (not_lt.mpr hv), imgStart]

theorem partSetupWrite_over (hv : 131072 < (bits v 8 18 : BitVec 18).toNat) : h.partSetupWrite p n v = h := by
  simp only [partSetupWrite, hon, Bool.not_true, Bool.false_eq_true, if_false, commExpiry_later hc hd, hc, Option.isNone_some, if_pos hv]

end

/-! ### The tunnelled window (R368 to R370) -/

section
variable (hlo : 0x8000 ≤ off.toNat) (hhi : off.toNat < 0x10000) (ha : off.toNat % 4 = 0)
include hlo hhi ha

theorem readReg_tunnel (p : Part) (hon : h.linkOn = true) :
    h.readReg p off.toNat .dword = h.tunAccess p (BitVec.ofNat 32 (off.toNat - 0x8000)) none := by
  simp [readReg, hon, ha, hlo, hhi]

theorem writeReg_tunnel (p : Part) (v : Word) (c sf : Bool) (b : Bytes) (hon : h.linkOn = true) :
    h.writeReg p off.toNat v .dword c sf b = h.commExpiry.tunAccess p (BitVec.ofNat 32 (off.toNat - 0x8000)) (some v) := by
  simp [writeReg, hon, ha, hlo, hhi]

end

section
variable (hf : h.trn.fieldUp = false ∨ 8 ≤ (h.hp p).tun.length)
include hf

theorem tunFull : (!h.trn.fieldUp || decide (8 ≤ (h.hp p).tun.length)) = true := by simpa using hf

theorem tunAccess_read_full (w : Word) : h.tunAccess p w none = h.tunNoValue p := if_pos (tunFull hf)
theorem tunAccess_write_full (w v : Word) :
    h.tunAccess p w (some v) = h.modHp p (fun w => { w with tunDropped := satAdd w.tunDropped 1 }) := if_pos (tunFull hf)

end

theorem tunAccess_held (w : Word) (v : Option Word) (hf : ¬ (h.trn.fieldUp = false ∨ 8 ≤ (h.hp p).tun.length)) :
    ((h.tunAccess p w v).hp p).tun.length = (h.hp p).tun.length + 1 ∧ ((h.tunAccess p w v).hp p).tunNum = (h.hp p).tunNum + 1 := by
  have hno : (!h.trn.fieldUp || decide (8 ≤ (h.hp p).tun.length)) = false := by
    refine Bool.eq_false_iff.mpr fun ht => hf ?_
    simpa using ht
  unfold tunAccess
  extract_lets u a
  rw [if_neg (by rw [hno]; decide)]
  have hport := (Handled.pumpTun (h.modHp p (fun w => { w with tun := w.tun ++ [a], tunNum := w.tunNum + 1 })) p).port p
  generalize pumpTun _ p = g at hport ⊢
  rw [hp_modHp_same] at hport
  exact ⟨hport.tun.trans List.length_append, by rw [hport.same]⟩

theorem commExpiry_part (h : HDie) : h.commExpiry.part = h.part ∧ h.commExpiry.trn.fieldUp = h.trn.fieldUp := by
  rcases commExpiry_tells h with he | ht
  · rw [he]; exact ⟨rfl, rfl⟩
  · exact ⟨ht.part, by rw [ht.frame]⟩

theorem commExpiry_hp (h : HDie) (p : Part) : h.commExpiry.hp p = h.hp p :=
  congrArg (fun t => tabGet HPart.reset t p.toNat) (commExpiry_part h).1

/-- A held access is over: it leaves, and what waited behind it goes out. -/
def dropTun (h : HDie) (p : Part) (a : HTun) : HDie := h.modHp p (fun w => { w with tun := w.tun.filter (fun b => b.tag ≠ a.tag) })

theorem dropTun_one {a : HTun} (ht : (h.hp p).tun = [a]) : ((h.dropTun p a).hp p).tun = [] := by
  rw [dropTun, hp_modHp_same, ht]
  simp

theorem tunnelTimeout_one {a : HTun} (ht : (h.hp p).tun = [a]) (hd : a.t.toNat + 5000 ≤ h.t.toNat) :
    h.tunnelTimeout p = (if a.value.isNone then (h.dropTun p a).tunNoValue p else h.dropTun p a).pumpTun p := by
  unfold tunnelTimeout
  rw [ht, List.find?_cons_of_pos (by simpa using hd)]
  rfl

theorem tunnelTimeout_spec {a : HTun} (ht : (h.hp p).tun = [a]) (hd : a.t.toNat + 5000 ≤ h.t.toNat) :
    ((h.tunnelTimeout p).hp p).tun = [] ∧ (a.value = none → ((h.tunnelTimeout p).hp p).tunTimeout = satAdd (h.hp p).tunTimeout 1 ∧
      (h.tunnelTimeout p).out = h.out ++ [Out.read p 0xFFFFFFFF]) := by
  rw [tunnelTimeout_one ht hd]
  have hnil := dropTun_one ht
  cases hv : a.value with
  | none =>
    have hno : (((h.dropTun p a).tunNoValue p).hp p).tun = [] := by rw [tunNoValue, hp_emit, hp_modHp_same]; exact hnil
    simp only [Option.isNone_none, if_true]
    rw [pumpTun_nil hno]
    refine ⟨hno, fun _ => ⟨?_, rfl⟩⟩
    rw [tunNoValue, hp_emit, hp_modHp_same, dropTun, hp_modHp_same]
  | some v =>
    simp only [Option.isNone_some, Bool.false_eq_true, if_false]
    rw [pumpTun_nil hnil]
    exact ⟨hnil, fun h => nomatch h⟩

/-! ### TUN_CPL (R369, R370) -/

section
variable {x : LinkHdr} (hh : h.hears true x = true) (hf : formOk x 0x41 true = true)
include hh hf

theorem tunCplRow_skip (v : Word) (hb : bit x.part 7 = true) (ht : x.tag = tagSkip) : h.tunCplRow x v =
    (h.took true x).modHp (bits v 0 2) (fun w => { w with tlmSkipped := satAdd w.tlmSkipped 1 }) := by
  rw [tunCplRow, recv_good _ hh hf]
  dsimp only
  rw [if_pos hb, devAnswer, ht, if_neg (by decide), if_pos rfl]

variable (hb : bit x.part 7 = false) {a : HTun} (ht : (h.hp (Field.partOf x)).tun = [a])
include hb ht

theorem tunCplRow_late (v : Word) (hl : a.t.toNat + 5000 ≤ h.t.toNat) : h.tunCplRow x v = h.took true x := by
  obtain ⟨c, d, hk⟩ := took_eq h true x
  have ht' : ((h.took true x).hp (Field.partOf x)).tun = [a] := by rw [hk]; exact ht
  have hl' : ¬ (h.took true x).t.toNat < a.t.toNat + 5000 := by rw [hk]; exact not_lt.mpr hl
  rw [tunCplRow, recv_good _ hh hf]
  dsimp only
  rw [if_neg (by rw [hb]; decide), ht', List.find?_cons_of_neg (by simp [hl']), List.find?_nil]

theorem tunCplRow_held (v : Word) (htag : a.tag = x.tag) (hs : a.sent = true) (hl : h.t.toNat < a.t.toNat + 5000) :
    h.tunCplRow x v = (match a.value with
      | none => ((h.took true x).dropTun (Field.partOf x) a).emit (.read (Field.partOf x) v)
      | some w => ((h.took true x).dropTun (Field.partOf x) a).tunWritten (Field.partOf x) a.off w v).pumpTun (Field.partOf x) := by
  obtain ⟨c, d, hk⟩ := took_eq h true x
  have ht' : ((h.took true x).hp (Field.partOf x)).tun = [a] := by rw [hk]; exact ht
  have hl' : (h.took true x).t.toNat < a.t.toNat + 5000 := by rw [hk]; exact hl
  rw [tunCplRow, recv_good _ hh hf]
  dsimp only
  rw [if_neg (by rw [hb]; decide), ht', List.find?_cons_of_pos (by simp [htag, hs, hl'])]
  dsimp only
  cases a.value <;> rfl

theorem tunCplRow_held_spec (v : Word) (htag : a.tag = x.tag) (hs : a.sent = true) (hl : h.t.toNat < a.t.toNat + 5000) :
    ((h.tunCplRow x v).hp (Field.partOf x)).tun = [] ∧
    (a.value = none → (h.tunCplRow x v).out = h.out ++ [linkAckOut true x.seq, Out.read (Field.partOf x) v]) := by
  obtain ⟨c, d, hk⟩ := took_eq h true x
  have ht' : ((h.took true x).hp (Field.partOf x)).tun = [a] := by rw [hk]; exact ht
  have hnil := dropTun_one ht'
  rw [tunCplRow_held hh hf hb ht v htag hs hl]
  cases hv : a.value with
  | none =>
    dsimp only
    rw [pumpTun_nil (by rw [hp_emit]; exact hnil)]
    refine ⟨by rw [hp_emit]; exact hnil, fun _ => ?_⟩
    have hout : (h.took true x).out = h.out ++ [linkAckOut true x.seq] := by rw [hk]
    exact (congrArg (· ++ [Out.read (Field.partOf x) v]) hout).trans (List.append_assoc ..)
  | some w =>
    dsimp only
    exact ⟨(Handled.pumpTun _ _).tun_nil ((Handled.tunWritten _ _ _ _ _).tun_nil hnil), fun h => nomatch h⟩

end

/-! ### FSTATE (R364, R366, R386, R520) -/

theorem endDbgF_tells (h : HDie) (c : Byte) : Tells { h with sec := { h.sec with dbgF := 0 } } (h.endDbgF c) := by
  unfold endDbgF
  split
  next hz =>
    have he : ({ h with sec := { h.sec with dbgF := 0 } } : HDie) = h := by simp only [← hz]
    rw [he]
    exact .refl h
  next _ => exact (log_tells _ _ _).trans (tellDbg_tells _)

/-- What FSTATE's power state does before its code is acted on. -/
def powered (h : HDie) (power : Byte) : HDie :=
  if power = 3 then ({ h with fieldStby := true } : HDie).endDbgF 4 else if power = 4 then h.endDbgF 4 else h

theorem powered_spec (h : HDie) (power : Byte) : ∃ b d, Tells { h with fieldStby := b, sec := { h.sec with dbgF := d } } (h.powered power) ∧
    (power = 3 → b = true ∧ d = 0) := by
  unfold powered
  split
  next hp => exact ⟨true, 0, endDbgF_tells { h with fieldStby := true } 4, fun _ => ⟨rfl, rfl⟩⟩
  next hp =>
    split
    · exact ⟨h.fieldStby, 0, endDbgF_tells h 4, fun h3 => absurd h3 hp⟩
    · exact ⟨h.fieldStby, h.sec.dbgF, .refl h, fun h3 => absurd h3 hp⟩

theorem retrain_spec (h : HDie) : h.retrain.trn.st = .train ∧ h.retrain.trn.fieldUp = false ∧ h.retrain.sec.dbgF = h.sec.dbgF := by
  have ht := Handled.tellPstate ({ h with trn := { h.trn with st := .train, fieldUp := false, trainSent := false } } : HDie)
  unfold retrain
  generalize tellPstate _ = g at ht ⊢
  exact ⟨ht.trnSt, ht.fieldUp, ht.dbgF⟩

theorem statWr_part (h : HDie) (p : Part) (n : Nat) (b : Bytes) : (h.statWr p n b).part = h.part := by
  unfold statWr
  dsimp only
  split <;> rfl

/-- A cold start of the field die stands in every status page before anything else. -/
theorem coldMark_hp (h : HDie) (q : Part) : h.coldMark.hp q = { h.hp q with coldPend := true, evtSeq := 0 } := by
  have same (g : HDie) (p q : Part) : (((g.modHp p (fun w => { w with coldPend := true, evtSeq := 0 })).statPstate p).statEvt p).hp q =
      (g.modHp p (fun w => { w with coldPend := true, evtSeq := 0 })).hp q :=
    congrArg (fun t => tabGet HPart.reset t q.toNat) ((statWr_part _ _ _ _).trans (statWr_part _ _ _ _))
  exact hp_forParts (m := fun w => { w with coldPend := true, evtSeq := 0 }) (fun g p => (same g p p).trans (hp_modHp_same ..))
    (fun g p q hpq => (same g p q).trans (hp_modHp_other _ _ hpq)) h q

theorem Handled.coldMark (h : HDie) : Handled h h.coldMark :=
  .forParts (fun g p => (Handled.trans .modHp (.statPstate _ p)).trans (.statEvt _ p)) h

/-- The end of a FRESH training's wait: what was held is acted on. -/
def fstTaken (h : HDie) (kind : Byte) : HDie :=
  let g2 : HDie := { h with trn := { h.trn with fstWait := false, held := [] } }
  h.trn.held.foldl (fun (k : HDie) m => k.takeData m)
    (if (h.trn.fstWait && (kind = 0 || kind = 1 || kind = 5)) = true then g2.coldMark else g2)

theorem fstTaken_spec (h : HDie) (kind : Byte) : (h.fstTaken kind).trn.fstWait = false ∧ (h.fstTaken kind).trn.held = [] ∧
    (h.trn.fstWait = true → h.trn.held = [] → kind = 0 → ∀ q, ((h.fstTaken kind).hp q).coldPend = true ∧ ((h.fstTaken kind).hp q).evtSeq = 0) ∧
    (h.trn.fstWait = false → h.trn.held = [] → (h.fstTaken kind).part = h.part) := by
  have ht : Handled { h with trn := { h.trn with fstWait := false, held := [] } } (h.fstTaken kind) :=
    .trans (.ite (fun _ => .coldMark _) fun _ => .refl _) (.foldl Handled.takeData _ _)
  refine ⟨ht.fstWait, ht.held, fun hw hn hk q => ?_, fun hw hn => ?_⟩
  · unfold fstTaken
    rw [hn, hw, hk, List.foldl_nil, if_pos (by decide), coldMark_hp]
    exact ⟨rfl, rfl⟩
  · unfold fstTaken
    rw [hn, hw, List.foldl_nil, Bool.false_and, if_neg (by decide)]

section
variable {x : LinkHdr} (hh : h.hears true x = true) (hf : formOk x 0x43 true = true)
include hh hf

theorem fstateRow_eq (code : FCode) (kind power : Byte) : h.fstateRow x code kind power = (match code with
    | .resetEntry => (((h.took true x).powered power).endDbgF 3).retrain
    | .partDone => (((h.took true x).powered power).modHp (Field.partOf x) (fun w => { w with rstBusy := false })).tellHold
    | .trained => ((h.took true x).powered power).fstTaken kind
    | .power => (h.took true x).powered power
    | .safe => (h.took true x).powered power) := by
  rw [fstateRow, recv_good _ hh hf]
  cases code <;> rfl

end

end HDie

open HDie in
/-- Settles O53: each access by the register or table entry it names, the tunnelled ones and FSTATE by what the message that ends them
brings. -/
theorem hostWindowAnswers : Obligations.HostWindowAnswers := by
  unfold Obligations.HostWindowAnswers
  intro s p hon
  have at_part (g : HDie) (hg : g.part = s.h.part) (q : Part) : g.hp q = s.h.hp q := congrArg (fun t => tabGet HPart.reset t q.toNat) hg
  refine ⟨⟨_, rfl, readReg_ident p hon⟩, fun off v hi acc hb => ⟨⟨_, rfl, readReg_form hb p hon⟩, ⟨_, rfl, ?_⟩⟩,
    fun v hi => ⟨_, rfl, ?_⟩, fun n hn => ?_, ⟨⟨_, rfl, readBar2_pba p hon⟩, fun off v hi ho ha => ⟨_, rfl, writeBar2_beyond p _ _ hon ho ha⟩⟩,
    fun off v hi hlo hhi ha => ?_, fun n v => ?_, fun hop hs hu => ⟨_, rfl, ?_⟩, fun hop hs => ⟨_, rfl, ?_⟩, fun hop => ⟨_, rfl, ?_⟩,
    fun x v a hh hf hx hb ht htag hsent => ?_, fun x v hh hf hb htag hp => ⟨_, rfl, ?_⟩,
    fun a ht hd => ⟨_, rfl, tunnelTimeout_spec ht hd⟩, fun x kind power safe hh hf => ?_⟩
  · beta_reduce
    rw [writeReg_form hb p _ _ _ _ hon]
    exact ⟨hp_modHp_same .., fun q hq => hp_modHp_other _ _ hq.symm, rfl⟩
  · have hspec := writeReg_tlmFirst_spec (h := s.h) p ((hi ++ v : BitVec 64).setWidth 32) s.f.saf.confirmed s.f.saf.safe s.f.saf.active hon
    rw [lo_of_append] at hspec
    beta_reduce
    rw [lo_of_append]
    exact hspec
  · intro e at_
    refine ⟨⟨_, rfl, readBar2_data hn p hon⟩, ⟨_, rfl, readBar2_addr hn p hon⟩, ⟨_, rfl, readBar2_high hn p hon⟩, fun v hi => ⟨_, rfl, ?_⟩,
      fun v hi => ⟨_, rfl, ?_⟩⟩
    · have hspec := writeBar2_data (h := s.h) hn p ((hi ++ v : BitVec 64).setWidth 32) (bits (hi ++ v : BitVec 64) 32 32) hon
      rw [lo_of_append] at hspec
      beta_reduce
      rw [lo_of_append]
      exact hspec
    · have hspec := writeBar2_addr (h := s.h) hn p ((hi ++ v : BitVec 64).setWidth 32) (bits (hi ++ v : BitVec 64) 32 32) hon
      rw [lo_of_append, hi_of_append] at hspec
      beta_reduce
      rw [lo_of_append, hi_of_append]
      exact hspec
  · intro full
    refine ⟨fun hfull => ⟨⟨_, rfl, ?_⟩, ⟨_, rfl, ?_⟩⟩, fun hfull a => ?_⟩
    · beta_reduce
      rw [readReg_tunnel hlo hhi ha p hon, tunAccess_read_full hfull]
      exact ⟨by rw [tunNoValue, hp_emit, hp_modHp_same], rfl⟩
    · beta_reduce
      rw [writeReg_tunnel hlo hhi ha p _ _ _ _ hon, tunAccess_write_full (by rw [(commExpiry_part s.h).2, commExpiry_hp]; exact hfull)]
      exact ⟨by rw [hp_modHp_same, commExpiry_hp], fun hc => by rw [commExpiry_none hc]; rfl⟩
    · cases a with
      | true =>
        refine ⟨_, rfl, ?_⟩
        beta_reduce
        rw [readReg_tunnel hlo hhi ha p hon]
        exact tunAccess_held _ _ hfull
      | false =>
        refine ⟨_, rfl, ?_⟩
        beta_reduce
        rw [writeReg_tunnel hlo hhi ha p _ _ _ _ hon]
        have hheld := tunAccess_held (h := s.h.commExpiry) (p := p) (BitVec.ofNat 32 (off.toNat - 0x8000)) (some ((hi ++ v : BitVec 64).setWidth 32))
          (by rw [(commExpiry_part s.h).2, commExpiry_hp]; exact hfull)
        rw [commExpiry_hp] at hheld
        exact hheld
  · refine ⟨fun hc => ⟨_, rfl, ?_⟩, fun due q hc hd => ⟨_, rfl, ?_⟩, fun due q hc hd hv => ⟨_, rfl, ?_⟩, fun due q hc hd hv => ⟨_, rfl, ?_⟩⟩
    · beta_reduce
      rw [partSetupWrite_closed p n v hon (by rw [commExpiry_none hc]; exact hc), commExpiry_none hc, log_told]
      exact ⟨rfl, rfl, rfl⟩
    · obtain ⟨hnone, -⟩ := commExpiry_due hon hc hd
      beta_reduce
      rw [partSetupWrite_closed p n v hon hnone, log_told]
      rcases commExpiry_tells s.h with he | ht
      · rw [he] at hnone ⊢
        exact ⟨rfl, rfl, rfl, hnone⟩
      · exact ⟨by rw [ht.frame]; rfl, by rw [ht.frame]; rfl, ht.part, hnone⟩
    · exact partSetupWrite_open p n v hon hc hd hv
    · exact partSetupWrite_over p n v hon hc hd hv
  · beta_reduce
    simp [wakeField, hon, hop, startWake, hs, hu, emit]
  · beta_reduce
    rcases hs with hs | hs <;> simp [wakeField, startWake, hs]
  · simp [wakeField, hop]
  · subst hx
    refine ⟨fun hl => ⟨_, rfl, tunCplRow_held_spec hh hf hb ht v htag hsent hl⟩, fun hl => ⟨_, rfl, ?_⟩⟩
    beta_reduce
    rw [tunCplRow_late hh hf hb ht v hl]
    obtain ⟨c, d, hk⟩ := took_eq s.h true x
    rw [hk]
    exact ⟨rfl, rfl⟩
  · beta_reduce
    obtain ⟨c, d, hk⟩ := took_eq s.h true x
    have hq := at_part (s.h.took true x) (by rw [hk])
    rw [tunCplRow_skip hh hf v hb htag, hp]
    exact ⟨by rw [hp_modHp_same, hq], fun q hne => by rw [hp_modHp_other _ _ hne.symm, hq]⟩
  · obtain ⟨c, d, hk⟩ := took_eq s.h true x
    obtain ⟨b, e, ht, h3⟩ := powered_spec (s.h.took true x) power
    have hpart : ((s.h.took true x).powered power).part = s.h.part := ht.part.trans (by rw [hk])
    have hwait : ((s.h.took true x).powered power).trn.fstWait = s.h.trn.fstWait := by rw [ht.frame, hk]
    have hheld : ((s.h.took true x).powered power).trn.held = s.h.trn.held := by rw [ht.frame, hk]
    refine ⟨⟨_, rfl, ?_⟩, ⟨_, rfl, ?_⟩, ⟨_, rfl, ?_⟩, ⟨_, rfl, ?_⟩, ⟨_, rfl, ?_⟩⟩ <;> beta_reduce <;> rw [fstateRow_eq hh hf] <;> dsimp only
    · obtain ⟨h1, h2, h3⟩ := retrain_spec (((s.h.took true x).powered power).endDbgF 3)
      exact ⟨h1, h2, h3.trans (by rw [(endDbgF_tells _ 3).frame])⟩
    · have hq := at_part _ hpart
      refine ⟨?_, fun q hne => ?_⟩
      · rw [(tellHold_tells _).hp, hp_modHp_same]
      · rw [(tellHold_tells _).hp, hp_modHp_other _ _ hne.symm, hq]
    · obtain ⟨h1, h2, h3, h4⟩ := fstTaken_spec ((s.h.took true x).powered power) kind
      rw [hwait, hheld] at h3 h4
      exact ⟨h1, h2, h3, fun hw hn => (h4 hw hn).trans hpart⟩
    · refine ⟨hpart, fun h => ?_⟩
      obtain ⟨rfl, rfl⟩ := h3 h
      rw [ht.frame]
      exact ⟨rfl, rfl⟩
    · exact hpart

end Sys2Proof.Machine
end

section
/-! PROOF. What a training, a completion and the steps that wait on the link post to the host die (R361, R365, R386). -/
namespace Sys2Proof.Machine
set_option Elab.async false

namespace Field
variable {f g h : Field} {p : Part}

/-- From f to g messages are numbered, kept and sent, and commands in flight may end; nothing sent or kept before goes. -/
structure Posts (f g : Field) : Prop where
  nev : g.nev = f.nev
  trn : g.trn = { f.trn with ctl := g.trn.ctl, dat := g.trn.dat }
  expect : ∀ cls, (g.half cls).expect = (f.half cls).expect
  kept : ∀ cls, (f.half cls).kept <+: (g.half cls).kept
  out : f.out <+: g.out
  busy : List.Sublist g.prt.busy f.prt.busy

namespace Posts

/-- What leaves Transit, the output and the commands alone. -/
theorem of (hn : g.nev = f.nev) (ht : g.trn = f.trn) (ho : g.out = f.out) (hb : List.Sublist g.prt.busy f.prt.busy) : Posts f g := by
  have hh (cls : Bool) : g.half cls = f.half cls := by rw [half, half, ht]
  exact ⟨hn, by rw [ht], fun cls => by rw [hh], fun cls => by rw [hh], by rw [ho], hb⟩

theorem refl (f : Field) : Posts f f := .of rfl rfl rfl (.refl _)

theorem trans (a : Posts f g) (b : Posts g h) : Posts f h :=
  ⟨b.nev.trans a.nev, by rw [b.trn, a.trn], fun cls => (b.expect cls).trans (a.expect cls), fun cls => (a.kept cls).trans (b.kept cls),
    a.out.trans b.out, b.busy.trans a.busy⟩

theorem ite {c : Prop} [Decidable c] (a : c → Posts f g) (b : ¬ c → Posts f h) : Posts f (if c then g else h) := by
  split
  · exact a ‹_›
  · exact b ‹_›

theorem foldl {α : Type} {op : Field → α → Field} (hop : ∀ g a, Posts g (op g a)) (l : List α) (f : Field) : Posts f (l.foldl op f) := by
  induction l generalizing f with
  | nil => exact .refl f
  | cons a l ih => exact (hop f a).trans (ih _)

theorem dat_kept (a : Posts f g) : f.trn.dat.kept <+: g.trn.dat.kept := a.kept false
theorem mem_ctl (a : Posts f g) {x : BitVec 16 × Msg} (hx : x ∈ f.trn.ctl.kept) : x ∈ g.trn.ctl.kept := (a.kept true).subset hx
theorem st (a : Posts f g) : g.trn.st = f.trn.st := by rw [a.trn]
theorem busy_nil (a : Posts f g) (hf : f.prt.busy = []) : g.prt.busy = [] := List.sublist_nil.mp (hf ▸ a.busy)

/-! ### Messages -/

theorem emit_msg (f : Field) (cls : Bool) (a : BitVec 16) (k : BitVec 16 × Msg) : Posts f (f.emit (msgOut cls a k)) := by
  rw [emit_msgOut]
  exact .ite (fun _ => refl f) fun _ => ⟨rfl, rfl, fun _ => rfl, fun _ => List.prefix_rfl, List.prefix_append _ _, .refl _⟩

/-- A half gets a message more. -/
theorem keep (f : Field) (cls : Bool) (m : Msg) : Posts f (f.setHalf cls (sendHalf (f.half cls) m f.now).1) := by
  cases cls with
  | true => exact ⟨rfl, rfl, fun cls => by cases cls <;> rfl, fun cls => by
      cases cls
      · exact List.prefix_rfl
      · exact List.prefix_append _ _, List.prefix_rfl, .refl _⟩
  | false => exact ⟨rfl, rfl, fun cls => by cases cls <;> rfl, fun cls => by
      cases cls
      · exact List.prefix_append _ _
      · exact List.prefix_rfl, List.prefix_rfl, .refl _⟩

theorem sendCtl (f : Field) (m : Msg) : Posts f (f.sendCtl m) := by
  unfold Field.sendCtl
  exact .ite (fun _ => (keep f true m).trans (emit_msg _ true _ _)) fun _ => keep f true m

theorem sendData (f : Field) (m : Msg) : Posts f (f.sendData m).1 := by
  unfold Field.sendData
  exact .ite (fun _ => (keep f false m).trans (emit_msg _ false _ _)) fun _ => keep f false m

/-- A message that is sent in the control class is kept. -/
theorem sendCtl_mem (f : Field) (m : Msg) : ∃ q, (q, m) ∈ (f.sendCtl m).trn.ctl.kept := by
  have hk : (f.trn.ctl.sendSeq, m) ∈ (f.setHalf true (sendHalf (f.half true) m f.now).1).trn.ctl.kept :=
    List.mem_append_right _ (List.mem_singleton.mpr rfl)
  unfold Field.sendCtl
  dsimp only
  split
  · exact ⟨_, (emit_msg _ true _ _).mem_ctl hk⟩
  · exact ⟨_, hk⟩

theorem setEvq (f : Field) (p : Part) (q : EvQ) : Posts f (f.setEvq p q) := .of rfl rfl rfl (.refl _)

/-! ### Records -/

theorem sendRecs (p : Part) (l : List QRec) (f : Field) : Posts f (f.sendRecs p l).1 := by
  induction l generalizing f with
  | nil => exact refl f
  | cons r rs ih =>
    simp only [Field.sendRecs]
    split
    · exact ih f
    · split
      · exact ih f
      · exact (sendData f _).trans (ih _)

theorem pump (f : Field) (p : Part) : Posts f (f.pump p) := by
  simp only [Field.pump]
  exact .ite (fun _ => (sendRecs p _ f).trans (setEvq _ p _)) fun _ => refl f

theorem enqueue (f : Field) (p : Part) (r : Rec) : Posts f (f.enqueue p r) := (setEvq f p _).trans (pump _ p)

theorem raiseCore (f : Field) (p : Part) (ty : Byte) (h : Word) (t : Count) (b : Bytes) : Posts f (f.raiseCore p ty h t b) := by
  unfold Field.raiseCore
  extract_lets q e free f1
  have h1 : Posts f f1 := setEvq f p _
  clear_value f1
  exact h1.trans (.ite (fun _ => .ite (fun _ => enqueue f1 p _) fun _ => setEvq f1 p _) fun _ =>
    .ite (fun _ => enqueue f1 p _) fun _ => setEvq f1 p _)

theorem overflow (f : Field) (p : Part) : Posts f (f.overflow p) := by
  unfold Field.overflow
  extract_lets q n f1 q1
  have h1 : Posts f f1 := .ite (fun _ => refl f) fun _ => (setEvq f p _).trans (foldl (fun g e => enqueue g p _) _ _)
  clear_value f1
  exact h1.trans (.ite (fun _ => (setEvq f1 p _).trans (raiseCore _ p _ _ _ _)) fun _ => refl f1)

theorem raiseAt (f : Field) (p : Part) (ty : Byte) (h : Word) (t : Count) (b : Bytes) : Posts f (f.raiseAt p ty h t b) :=
  (overflow f p).trans (raiseCore _ p ty h t b)

theorem raiseAll (f : Field) (ty : Byte) (b : Bytes) : Posts f (f.raiseAll ty b) := foldl (fun g p => raiseAt g p ty 0 g.now b) _ f

theorem complete (f : Field) (r : CmdRef) (s : Status) (d : Nat) : Posts f (f.complete r s d) :=
  .trans (g := { f with prt := { f.prt with busy := f.prt.busy.filter (fun b => b.ref ≠ r) } }) (.of rfl rfl rfl List.filter_sublist)
    (enqueue _ r.part _)

theorem ackRecs (f : Field) (l : List (BitVec 16)) : Posts f (f.ackRecs l) := by
  unfold Field.ackRecs
  exact foldl (fun g p => .ite (fun _ => refl g) fun _ => ((setEvq g p _).trans (overflow _ p)).trans (pump _ p)) _ f

/-! ### FSTATE and what follows a training -/

theorem fstate (f : Field) (c : FCode) (k b : Byte) : Posts f (f.fstate c k b) := .ite (fun _ => sendCtl f _) fun _ => refl f

theorem safRecord (f : Field) (ty : Byte) (b : Bytes) : Posts f (f.safRecord ty b false) := by
  unfold Field.safRecord
  exact .ite (fun _ => raiseAll f ty b) fun _ => .of rfl rfl rfl (.refl _)

theorem thmRecords (f : Field) (rs : List (Byte × Bytes)) : Posts f (f.thmRecords rs) := by
  have hop (g : Field) (r : Byte × Bytes) : Posts g (g.safRecord r.1 r.2 false) := safRecord g r.1 r.2
  exact foldl hop rs f

theorem tellHoldover (f : Field) : Posts f f.tellHoldover := by
  have hop (g : Field) (t : Count) : Posts g (([0, 1, 2, 3] : List Part).foldl (fun (g : Field) p => g.raiseAt p 0x38 0 t (le 8 t)) g) :=
    foldl (fun g p => raiseAt g p 0x38 0 t (le 8 t)) _ g
  have h0 : Posts f { f with mer := { f.mer with holdOwed := [] } } := .of rfl rfl rfl (.refl _)
  exact h0.trans (foldl hop f.mer.holdOwed _)

theorem pumpAll (f : Field) : Posts f f.pumpAll := foldl pump _ f

theorem resendMsgs (f : Field) (cls : Bool) (ks : List (BitVec 16 × Msg)) : Posts f (f.resendMsgs cls ks) :=
  foldl (fun g k => emit_msg g cls _ k) ks f

/-! ### PART resets -/

theorem partClear (f : Field) (n : Part) : Posts f (f.partClear n) := .of rfl rfl rfl List.filter_sublist

theorem partStep (f : Field) (n : Part) : Posts f (f.partStep n) := by
  unfold Field.partStep
  extract_lets g _ f1
  have h1 : Posts f f1 := .ite (fun _ => .trans (partClear f n) (.of rfl rfl rfl (.refl _))) fun _ => refl f
  clear_value f1
  exact h1.trans (.ite (fun _ =>
    .trans (g := { f1 with prt := { f1.prt with rstB := f1.prt.rstB &&& ~~~((1 : BitVec 4) <<< n.toNat) } }) (.of rfl rfl rfl (.refl _))
      (fstate _ _ _ _)) fun _ => refl f1)

theorem partSteps (f : Field) : Posts f f.partSteps := foldl partStep _ f

/-- With nothing halted and no command in flight only the PART resets go on. -/
theorem linkSteps (ht : f.trn.tunWait = []) (hb : f.prt.busy = []) : Posts f f.linkSteps := by
  unfold Field.linkSteps
  refine .ite (fun _ => refl f) fun _ => ?_
  rw [tunReady_idle ht, startReady_free hb]
  exact partSteps f

end Posts

end Field
end Sys2Proof.Machine
end

section
/-! PROOF. What is kept is acknowledged or sent again (R360, R361). -/
namespace Sys2Proof.Machine
set_option Elab.async false

/-! ### A half of Transit -/

section
variable {h : Half} {k n : BitVec 16} {m : Msg} {a b : List (BitVec 16 × Msg)}

theorem ackHalf_covers (t : Count) (hk : h.kept = a ++ (k, m) :: b) (ha : ∀ e ∈ a, e.1 ≠ k) :
    (ackHalf h k t).1 = { h with kept := b, tSent := t, resends := 0 } := by
  have hi : h.kept.findIdx? (fun e => decide (e.1 = k)) = some a.length := by
    rw [hk, List.findIdx?_append, List.findIdx?_eq_none_iff.mpr (fun e he => by simpa using ha e he)]
    simp [List.findIdx?_cons]
  unfold ackHalf
  rw [hi]
  simp [hk]

theorem ackHalf_none (t : Count) (hk : ∀ e ∈ h.kept, e.1 ≠ k) : ackHalf h k t = (h, []) := by
  unfold ackHalf
  rw [List.findIdx?_eq_none_iff.mpr (fun e he => by simpa using hk e he)]

theorem keptFrom_append (hk : h.kept = a ++ (n, m) :: b) (ha : ∀ e ∈ a, e.1 ≠ n) : keptFrom h n = (n, m) :: b := by
  rw [keptFrom, hk, List.dropWhile_append_of_pos (fun e he => by simpa using ha e he), List.dropWhile_cons_of_neg (by simp)]

/-- No message is its own predecessor. -/
theorem ne_pred (n : BitVec 16) : n ≠ n - 1 := by bv_omega

/-- What a LINK_NAK's own ACK leaves of the half: the messages from the expected one on. -/
theorem nakHalf (t : Count) (hk : h.kept = a ++ (n, m) :: b) (hb : ∀ e ∈ b, e.1 ≠ n - 1)
    (ha : a = [] ∨ ∃ c j, a = c ++ [(n - 1, j)] ∧ ∀ e ∈ c, e.1 ≠ n - 1) :
    (ackHalf h (n - 1) t).1.kept = (n, m) :: b ∧ (ackHalf h (n - 1) t).1.expect = h.expect ∧
    (ackHalf h (n - 1) t).1.resends = (if a = [] then h.resends else 0) := by
  rcases ha with rfl | ⟨c, j, rfl, hc⟩
  · rw [ackHalf_none t (fun e he => ?_)]
    · exact ⟨hk, rfl, rfl⟩
    · rw [hk] at he
      rcases List.mem_cons.mp he with rfl | he
      · exact ne_pred n
      · exact hb e he
  · rw [ackHalf_covers t (hk.trans (List.append_assoc c [(n - 1, j)] ((n, m) :: b))) hc]
    exact ⟨rfl, rfl, (if_neg (by simp)).symm⟩
end

namespace Field
variable {f : Field} {cls : Bool} {x : LinkHdr} {n : BitVec 16} {m : Msg} {a b : List (BitVec 16 × Msg)}

theorem linkUp_spec (hl : f.linkUp = true) : f.trn.st = .up ∧ f.mer.holdover = false ∧ f.coreOn = true := by
  simpa [linkUp, and_assoc] using hl

theorem half_setHalf (f : Field) (cls : Bool) (h : Half) : (f.setHalf cls h).half cls = h := by cases cls <;> rfl
theorem setHalf_half (f : Field) (cls : Bool) : f.setHalf cls (f.half cls) = f := by cases cls <;> rfl

/-! ### Sending again (R361) -/

theorem resendMsgs_eq (ho : f.mer.holdover = false) (cls : Bool) (ks : List (BitVec 16 × Msg)) :
    f.resendMsgs cls ks = { f with out := f.out ++ ks.map (msgOut cls ((f.half cls).expect - 1)) } := by
  have again (e : BitVec 16) (l : List (BitVec 16 × Msg)) : ∀ g : Field, g.mer.holdover = false →
      l.foldl (fun (g : Field) k => g.emit (msgOut cls e k)) g = { g with out := g.out ++ l.map (msgOut cls e) } := by
    induction l with
    | nil => exact fun g _ => by rw [List.map_nil, List.append_nil]; rfl
    | cons k l ih =>
      intro g hg
      rw [List.foldl_cons, emit_msgOut, hg, if_neg (by decide)]
      refine (ih { g with out := g.out ++ [msgOut cls e k] } hg).trans ?_
      exact congrArg (fun o => ({ g with out := o } : Field)) (List.append_assoc g.out [_] _)
  exact again _ ks f ho

theorem resendAll_spec (ho : f.mer.holdover = false) (cls : Bool) :
    let h := f.half cls
    let g := f.resendAll cls
    g.out = f.out ++ h.kept.map (msgOut cls (h.expect - 1)) ∧
    g.half cls = { h with tSent := f.now, resends := if h.resends = 7 then 0 else h.resends + 1 } ∧
    g.trn.st = (if h.resends = 7 then .train else f.trn.st) ∧ (h.resends = 7 → g.sec.comm = false) ∧
    g = { f with trn := g.trn, out := g.out, sec := g.sec } := by
  intro h g
  have hg : g = (let k := ({ f.setHalf cls { h with tSent := f.now, resends := if h.resends = 7 then 0 else h.resends + 1 } with
      out := f.out ++ h.kept.map (msgOut cls (h.expect - 1)) } : Field)
    if h.resends = 7 then k.retrain else k) := by
    have hs := resendMsgs_eq (f := f.setHalf cls { h with tSent := f.now, resends := if h.resends = 7 then 0 else h.resends + 1 }) ho cls
      h.kept
    rw [half_setHalf] at hs
    simp only [g, resendAll]
    rw [hs]
    rfl
  rw [hg]
  dsimp only
  by_cases h7 : h.resends = 7
  · rw [if_pos h7, if_pos h7, if_pos h7]
    cases cls <;> exact ⟨rfl, rfl, rfl, fun _ => rfl, rfl⟩
  · rw [if_neg h7, if_neg h7, if_neg h7]
    cases cls <;> exact ⟨rfl, rfl, rfl, fun h => absurd h h7, rfl⟩

theorem resendTimeout_due (hl : f.linkUp = true) (hd : resendDue (f.half cls) f.now = true) :
    f.resendTimeout cls = f.resendAll cls ∧ f.resendCount cls = (f.half cls).kept.length := by
  have h : (f.linkUp && resendDue (f.half cls) f.now) = true := by rw [hl, hd]; rfl
  exact ⟨if_pos h, if_pos h⟩

/-! ### LINK_ACK and LINK_NAK (R360, R363) -/

theorem hearLink_bad (ty : Byte) (go : Field → Field) (hl : f.linkUp = true) (hg : x.good = false) :
    f.hearLink cls ty x go = { f with out := f.out ++ [linkNakOut cls (f.half cls).expect] } := by
  unfold hearLink
  rw [if_neg (by simp [hl]), if_pos (by simp [hg]), linkNakOut, emit_msgOut, (linkUp_spec hl).2.1, if_neg (by decide)]

theorem hearLink_good {ty : Byte} (go : Field → Field) (hl : f.linkUp = true) (hg : x.good = true) (hf : formOk x ty cls = true) :
    f.hearLink cls ty x go = go f := by
  unfold hearLink
  rw [if_neg (by simp [hl]), if_neg (by simp [hg]), if_pos hf]

theorem takeLinkAck_dat (f : Field) (k : BitVec 16) : (ackHalf f.trn.dat k f.now).1.kept <+: (f.takeLinkAck false k).trn.dat.kept := by
  unfold takeLinkAck
  rw [if_neg (by decide)]
  dsimp only
  generalize ackHalf f.trn.dat k f.now = r
  exact (Posts.ackRecs ({ f with
    trn := { f.trn with dat := r.1 },
    prt := { f.prt with pubLast := f.prt.pubLast.filter (fun e => !r.2.contains e.2) } } : Field) r.2).dat_kept

section
variable (hl : f.linkUp = true) (hu : f.unburdened = true) (hg : x.good = true) (hf : formOk x 0x07 cls = true)
include hl hu hg hf

/-- Where nothing waits, an ACK acts alone. -/
theorem linkAckRow_eq : f.linkAckRow cls x = f.takeLinkAck cls x.ack := by
  obtain ⟨hb, ht, hra, hrb⟩ := unburdened_spec hu
  rw [linkAckRow, hearLink_good _ hl hg hf]
  have hk := takeLinkAck_link f cls x.ack
  refine linkSteps_idle ?_ ?_ ?_ ?_ <;> rw [hk]
  · exact ht
  · exact hra
  · exact hrb
  · exact hb

theorem linkAckRow_spec (hk : (f.half cls).kept = a ++ (x.ack, m) :: b) (ha : ∀ k ∈ a, k.1 ≠ x.ack) :
    (cls = true → (f.linkAckRow cls x).trn.ctl = { f.trn.ctl with kept := b, tSent := f.now, resends := 0 } ∧
      (f.linkAckRow cls x).prt = f.prt) ∧ (cls = false → ∃ c, (f.linkAckRow cls x).trn.dat.kept = b ++ c) := by
  rw [linkAckRow_eq hl hu hg hf]
  cases cls with
  | true => exact ⟨fun _ => ⟨ackHalf_covers _ hk ha, rfl⟩, fun h => nomatch h⟩
  | false =>
    refine ⟨fun h => (nomatch h), fun _ => ?_⟩
    obtain ⟨c, hc⟩ := takeLinkAck_dat f x.ack
    exact ⟨c, hc.symm.trans (congrArg (· ++ c) (congrArg Half.kept (ackHalf_covers (h := f.trn.dat) f.now hk ha)))⟩

end

/-- An ACK that covers nothing changes no record. -/
theorem ackRecs_nil (f : Field) : f.ackRecs [] = f := by
  have stays (op : Field → Part → Field) (hop : ∀ p, op f p = f) (l : List Part) : l.foldl op f = f := by
    induction l with
    | nil => rfl
    | cons p l ih => rw [List.foldl_cons, hop, ih]
  exact stays _ (fun p => if_pos (List.filter_eq_self.mpr fun r _ => by cases r.sent <;> rfl)) _

theorem takeLinkAck_none (hk : ∀ e ∈ (f.half cls).kept, e.1 ≠ n) : f.takeLinkAck cls n = f := by
  unfold takeLinkAck
  cases cls with
  | true => rw [if_pos rfl, ackHalf_none (h := f.trn.ctl) _ hk]
  | false =>
    rw [if_neg (by decide), ackHalf_none (h := f.trn.dat) _ hk]
    dsimp only
    rw [ackRecs_nil, List.filter_eq_self.mpr (fun e _ => by simp)]

section
variable (hk : (f.half cls).kept = a ++ (n, m) :: b) (ha : ∀ k ∈ a, k.1 ≠ n) (hb : ∀ k ∈ b, k.1 ≠ n - 1)
  (hc : a = [] ∨ (cls = true ∧ ∃ c j, a = c ++ [(n - 1, j)] ∧ ∀ k ∈ c, k.1 ≠ n - 1))
include hk hb hc

/-- What the ACK of a LINK_NAK leaves: the half alone, with the messages from the expected one on. -/
theorem takeLinkAck_nak : ∃ h, f.takeLinkAck cls (n - 1) = f.setHalf cls h ∧ h.kept = (n, m) :: b ∧ h.expect = (f.half cls).expect ∧
    h.resends = (if a = [] then (f.half cls).resends else 0) := by
  have hspec := nakHalf f.now hk hb (hc.imp_right And.right)
  rcases hc with rfl | ⟨rfl, -⟩
  · rw [List.nil_append] at hk
    refine ⟨f.half cls, ?_, hk, rfl, (if_pos rfl).symm⟩
    rw [setHalf_half, takeLinkAck_none (fun e he => ?_)]
    rw [hk] at he
    rcases List.mem_cons.mp he with rfl | he
    · exact ne_pred n
    · exact hb e he
  · exact ⟨_, rfl, hspec⟩

theorem linkNakRow_spec (hl : f.linkUp = true) (hg : x.good = true) (hf : formOk x 0x08 cls = true) :
    let r := if a = [] then (f.half cls).resends else 0
    let g := f.linkNakRow cls x n
    g.out = f.out ++ ((n, m) :: b).map (msgOut cls ((f.half cls).expect - 1)) ∧ (g.half cls).kept = (n, m) :: b ∧
    (g.half cls).tSent = f.now ∧ (g.half cls).resends = (if r = 7 then 0 else r + 1) ∧ g.trn.st = (if r = 7 then .train else .up) ∧
    g = { f with trn := g.trn, out := g.out, sec := g.sec } := by
  obtain ⟨h, heq, hkept, hexp, hres⟩ := takeLinkAck_nak hk hb hc
  intro r g
  have hg' : g = (f.setHalf cls h).resendAll cls := by
    have hfrom : keptFrom ((f.setHalf cls h).half cls) n ≠ [] := by
      rw [half_setHalf, keptFrom_append (a := []) hkept (by simp)]
      exact List.cons_ne_nil _ _
    simp only [g, linkNakRow]
    rw [hearLink_good _ hl hg hf, heq]
    exact if_pos hfrom
  obtain ⟨hup, hho, -⟩ := linkUp_spec hl
  have hspec := resendAll_spec (f := f.setHalf cls h) hho cls
  rw [half_setHalf, ← hg'] at hspec
  obtain ⟨hout, hhalf, hst, -, hframe⟩ := hspec
  refine ⟨?_, ?_, ?_, ?_, ?_, hframe⟩
  · rw [hout, hkept, hexp]; rfl
  · rw [hhalf]; exact hkept
  · rw [hhalf]; rfl
  · rw [hhalf]; simp only [hres]; rfl
  · rw [hst, hres]
    exact congrArg (fun t => if r = 7 then LinkState.train else t) ((by cases cls <;> rfl : (f.setHalf cls h).trn.st = f.trn.st).trans hup)

include ha in
omit hb hc in
theorem nakCount_eq (hl : f.linkUp = true) (hg : x.good = true) (hf : formOk x 0x08 cls = true) : f.nakCount cls x n = b.length + 1 := by
  unfold nakCount
  rw [if_pos (by rw [hl, hg, hf]; rfl), keptFrom_append hk ha, List.length_cons]

end

end Field
end Sys2Proof.Machine
end

section
/-! PROOF. Training and the payload's time at the field die, and its test access port (R362, R365, R484). -/
namespace Sys2Proof.Machine
set_option Elab.async false

namespace Field
variable {f g : Field} {x : LinkHdr}

/-! ### TRAIN (R365) -/

theorem takeLevel_frame (f : Field) (level : Byte) : ∃ s n, f.takeLevel level = { f with sec := s, nvm := n } := by
  unfold takeLevel
  dsimp only
  split
  · exact ⟨_, _, rfl⟩
  · exact ⟨f.sec, f.nvm, rfl⟩

theorem freshLink_spec (c : Prop) [Decidable c] (ht : f.trn.tunWait = []) (hb : f.prt.busy = []) :
    let g := if c then f.freshLink else f
    g.nev = f.nev ∧ g.mer = f.mer ∧ g.out = f.out ∧ g.trn.tunWait = [] ∧ g.prt.busy = [] ∧
    (c → g.trn.ctl.expect = 0 ∧ g.trn.dat.expect = 0) := by
  by_cases hc : c
  · rw [if_pos hc]; exact ⟨rfl, rfl, rfl, rfl, hb, fun _ => ⟨rfl, rfl⟩⟩
  · rw [if_neg hc]; exact ⟨rfl, rfl, rfl, ht, hb, fun h => absurd h hc⟩

/-- The field die's own TRAIN goes first where none has gone out. -/
theorem ownTrain_spec (ho : f.mer.holdover = false) :
    let g := if f.trn.trainSent then f else f.emit f.trainOut
    g.nev = f.nev ∧ g.mer = f.mer ∧ g.trn = f.trn ∧ g.prt = f.prt ∧ (f.trn.trainSent = false → f.trainOut ∈ g.out) := by
  cases hs : f.trn.trainSent with
  | true => exact ⟨rfl, rfl, rfl, rfl, fun h => nomatch h⟩
  | false =>
    dsimp only
    rw [if_neg (by decide), trainOut, emit_msgOut, ho, if_neg (by decide)]
    exact ⟨rfl, rfl, rfl, rfl, fun _ => List.mem_append_right _ (List.mem_singleton.mpr rfl)⟩

/-- The FSTATE of a training tells its code. -/
theorem fstate_trained (hu : f.trn.st = .up) (k b : Byte) : ∃ q m, (q, m) ∈ (f.fstate .trained k b).trn.ctl.kept ∧ m.type = 0x43 ∧
    u8 m.payload 0 = 4 := by
  rw [show f.fstate .trained k b = _ from if_pos hu]
  obtain ⟨q, hq⟩ := Posts.sendCtl_mem f
    (Msg.mk 0x43 b 0 [BitVec.ofNat 8 FCode.trained.ctorIdx, k, f.pwrCode, (if f.saf.safe then 1 else 0)])
  exact ⟨q, _, hq, rfl, rfl⟩

/-- What a TRAIN that is taken makes of f. -/
def Trained (f g : Field) (fresh : Bool) (masks : BitVec 12) : Prop :=
  g.trn.st = .up ∧ g.trn.fresh = false ∧ g.trn.dataLanes = bits masks 0 10 ∧ g.trn.ctrlLanes = bits masks 10 2 ∧
  g.trn.tLast = f.now ∧ (fresh = true → g.trn.ctl.expect = 0 ∧ g.trn.dat.expect = 0) ∧
  (f.trn.trainSent = false → f.trainOut ∈ g.out) ∧
  (∃ q m, (q, m) ∈ g.trn.ctl.kept ∧ m.type = 0x43 ∧ u8 m.payload 0 = 4) ∧ g.nev = f.nev

theorem trainRow_spec (fresh : Bool) (masks : BitVec 12) (level : Byte) (hg : x.good = true) (hf : formOk x 0x06 true = true)
    (hd : (bits masks 0 10 : BitVec 10) ≠ 0) (hc : (bits masks 10 2 : BitVec 2) ≠ 0) (hon : f.coreOn = true)
    (ho : f.mer.holdover = false) (hst : f.trn.st ≠ .down) (ht : f.trn.tunWait = []) (hb : f.prt.busy = []) :
    Trained f (f.trainRow x fresh masks level) fresh masks := by
  unfold trainRow
  extract_lets d c own f0 f1 f2 t2 c2 d2 f3 f4 f5 f6
  rw [if_neg (by simp [hon, ho, hst, hg]), if_neg (by rw [hf]; decide),
    if_neg (by simpa [d, c] using ⟨hd, hc⟩)]
  obtain ⟨hn0, hm0, ht0, hp0, ho0⟩ : f0.nev = f.nev ∧ _ := ownTrain_spec ho
  obtain ⟨hn1, hm1, ho1, ht1, hb1, he1⟩ : f1.nev = f0.nev ∧ _ := freshLink_spec (f := f0) ((fresh || own) = true) (by rw [ht0]; exact ht)
    (by rw [hp0]; exact hb)
  obtain ⟨s, n, h2⟩ : ∃ s n, f2 = _ := takeLevel_frame f1 level
  have hn3 : f3.nev = f.nev := by simp only [f3, h2]; exact hn1.trans hn0
  have ho3 : f3.out = f0.out := by simp only [f3, h2]; exact ho1
  have hw3 : f3.trn.tunWait = [] := by simp only [f3, t2, h2]; exact ht1
  have hb3 : f3.prt.busy = [] := by simp only [f3, h2]; exact hb1
  have hl3 : f3.trn.tLast = f.now := by simp only [f3, h2, now]; rw [hm1, hm0]
  have he3 : fresh = true → f3.trn.ctl.expect = 0 ∧ f3.trn.dat.expect = 0 := fun h => by
    simp only [f3, c2, d2, h2]; exact he1 (by rw [h]; rfl)
  have h3 : f3.trn.st = .up ∧ f3.trn.fresh = false ∧ f3.trn.dataLanes = d ∧ f3.trn.ctrlLanes = c := ⟨rfl, rfl, rfl, rfl⟩
  have h4 : Posts f3 f4 := (Posts.resendMsgs f3 true _).trans (Posts.resendMsgs _ false _)
  have h5 : Posts f4 f5 := Posts.fstate f4 _ _ _
  have h6 : Posts f5 f6 := .ite (fun _ => Posts.thmRecords f5 _) fun _ => .refl f5
  have hmsg : ∃ q m, (q, m) ∈ f5.trn.ctl.kept ∧ m.type = 0x43 ∧ u8 m.payload 0 = 4 := fstate_trained (h4.st.trans h3.1) _ _
  have hown : f.trn.trainSent = false → f.trainOut ∈ f0.out := ho0
  clear_value f0 f1 f2 f3 f4 f5 f6
  have h7 : Posts f6 f6.tellHoldover.pumpAll := (Posts.tellHoldover f6).trans (Posts.pumpAll _)
  have h36 : Posts f3 f6.tellHoldover.pumpAll := ((h4.trans h5).trans h6).trans h7
  generalize f6.tellHoldover.pumpAll = k at h7 h36 ⊢
  have h8 : Posts k k.linkSteps := Posts.linkSteps (by rw [h36.trn]; exact hw3) (h36.busy_nil hb3)
  have hall := h36.trans h8
  generalize k.linkSteps = g at h8 hall ⊢
  obtain ⟨q, m, hm, hty, hpl⟩ := hmsg
  refine ⟨?_, ?_, ?_, ?_, ?_, fun h => ?_, fun h => hall.out.subset (ho3 ▸ hown h), ⟨q, m, h8.mem_ctl (h7.mem_ctl (h6.mem_ctl hm)), hty, hpl⟩,
    hall.nev.trans hn3⟩
  · rw [hall.trn]; exact h3.1
  · rw [hall.trn]; exact h3.2.1
  · rw [hall.trn]; exact h3.2.2.1
  · rw [hall.trn]; exact h3.2.2.2
  · rw [hall.trn]; exact hl3
  · exact ⟨(hall.expect true).trans (he3 h).1, (hall.expect false).trans (he3 h).2⟩

/-! ### What no PART reset empties -/

/-- From f to g a control message is numbered, kept and sent, and a PART reset may be reported done. -/
def SaysDone (f g : Field) : Prop :=
  ∃ c r o, g = { f with trn := { f.trn with ctl := c }, prt := { f.prt with rstB := r }, out := o }

theorem sendCtl_saysDone (f : Field) (m : Msg) : SaysDone f (f.sendCtl m) := by
  unfold sendCtl
  dsimp only
  split
  · rw [emit_msgOut]
    split <;> exact ⟨_, _, _, rfl⟩
  · exact ⟨_, _, _, rfl⟩

theorem SaysDone.trans {h : Field} (a : SaysDone f g) (b : SaysDone g h) : SaysDone f h := by
  obtain ⟨c, r, o, rfl⟩ := a
  obtain ⟨c', r', o', rfl⟩ := b
  exact ⟨c', r', o', rfl⟩

theorem fstate_saysDone (f : Field) (c : FCode) (k b : Byte) : SaysDone f (f.fstate c k b) := by
  unfold fstate
  split
  · exact sendCtl_saysDone f _
  · exact ⟨_, _, _, rfl⟩

theorem partStep_saysDone (n : Part) (ha : f.prt.rstA = 0) : SaysDone f (f.partStep n) := by
  have hno : (bit f.prt.rstA n.toNat && !f.prt.busy.any (fun b => f.holdsReset n b)) = false := by rw [ha]; simp [bit_zero]
  unfold partStep
  dsimp only
  rw [if_neg (c := (bit f.prt.rstA n.toNat && !f.prt.busy.any (fun b => f.holdsReset n b)) = true) (by rw [hno]; decide)]
  split
  · exact SaysDone.trans (g := { f with prt := { f.prt with rstB := f.prt.rstB &&& ~~~((1 : BitVec 4) <<< n.toNat) } })
      ⟨f.trn.ctl, _, f.out, rfl⟩ (fstate_saysDone _ _ _ _)
  · exact ⟨_, _, _, rfl⟩

theorem partSteps_saysDone (ha : f.prt.rstA = 0) : SaysDone f f.partSteps := by
  unfold partSteps
  generalize ([0, 1, 2, 3] : List Part) = l
  induction l generalizing f with
  | nil => exact ⟨_, _, _, rfl⟩
  | cons n l ih =>
    obtain ⟨c, r, o, h⟩ := partStep_saysDone n ha
    obtain ⟨c', r', o', h'⟩ := ih (f := f.partStep n) (by rw [h]; exact ha)
    exact ⟨c', r', o', by rw [List.foldl_cons, h', h]⟩

theorem linkSteps_saysDone (ha : f.prt.rstA = 0) (ht : f.trn.tunWait = []) (hb : f.prt.busy = []) : SaysDone f f.linkSteps := by
  unfold linkSteps
  split
  · exact ⟨_, _, _, rfl⟩
  · rw [tunReady_idle ht, startReady_free hb]
    exact partSteps_saysDone ha

/-! ### BULK_TIMEOUT (R362) -/

theorem bulkOf_dropBulk (f : Field) (tag : BitVec 32) : (f.dropBulk tag).bulkOf tag = [] := by
  have h : (f.dropBulk tag).trn.bulk.filter (fun b => b.1 = tag) = [] := by
    simp [dropBulk, List.filter_filter]
  unfold bulkOf
  rw [h]
  rfl

section
variable {b : Busy} {tag : BitVec 32} (hb : f.prt.busy = [b]) (ht : b.linkTag = tag) (hs : b.started = false)
  (hl : (f.bulkOf tag).length < b.need) (hd : b.t.toNat + 10000 ≤ f.now.toNat)
include hb ht hs hl hd

theorem bulkTimeout_late : f.bulkTimeout tag = ((f.dropBulk tag).complete b.ref .linkErr 0).linkSteps := by
  unfold bulkTimeout
  rw [hb, List.find?_cons_of_pos (by simp [ht, hs])]
  exact if_pos (by simp [bulkLate, hs, ht, hl, hd])

theorem bulkTimeout_spec (hw : f.trn.tunWait = []) (ha : f.prt.rstA = 0) :
    let g := f.bulkTimeout tag
    g.answered b.ref .linkErr = true ∧ g.prt.busy = [] ∧ g.bulkOf tag = [] ∧ g.nev = f.nev := by
  have hfr := complete_frame (f.dropBulk tag) b.ref .linkErr 0
  have hans : ((f.dropBulk tag).complete b.ref .linkErr 0).answered b.ref .linkErr = true :=
    answered_of_answeredAs (completeH_answeredAs _ _ _ _ _ _)
  have hbusy : ((f.dropBulk tag).complete b.ref .linkErr 0).prt.busy = [] := by
    refine (enqueue_busy _ _ _).trans ?_
    rw [show (f.dropBulk tag).prt.busy = [b] from hb]
    simp
  rw [bulkTimeout_late hb ht hs hl hd]
  generalize (f.dropBulk tag).complete b.ref .linkErr 0 = k at hfr hans hbusy ⊢
  obtain ⟨c, r, o, hg⟩ := linkSteps_saysDone (f := k) (by rw [hfr]; exact ha) (by rw [hfr]; exact hw) hbusy
  rw [hg]
  refine ⟨hans, hbusy, ?_, ?_⟩
  · rw [bulkOf_of (f := f.dropBulk tag) (by rw [hfr]; rfl)]
    exact bulkOf_dropBulk f tag
  · show k.nev = f.nev
    rw [hfr]
    rfl

end

/-! ### The field TAP (R484) -/

section
variable (hp : f.pwr.st ≠ .thermalOff)
include hp

theorem tapField_idcode : f.tapField .idcode =
    { f with sec := { f.sec with extest := false }, out := f.out ++ [Out.tap (idcode 0x8140)] } := by
  rw [tapField, if_neg hp]
  rfl

theorem tapField_read_refused (off : Word) (ha : f.tapAllowed 0 = false) :
    f.tapField (.read off) = { f with sec := { f.sec with extest := false } } := by
  rw [tapField, if_neg hp]
  exact if_neg (by rw [show ({ f with sec := { f.sec with extest := false } } : Field).tapAllowed 0 = f.tapAllowed 0 from rfl, ha]; simp)

end

section
variable (hon : f.coreOn = true) (ha : f.tapAllowed 2 = true)
include hon ha

theorem tapField_on : f.pwr.st ≠ .thermalOff ∧
    (({ f with sec := { f.sec with extest := false } } : Field).coreOn && ({ f with sec := { f.sec with extest := false } } : Field).tapAllowed 2)
      = true := by
  refine ⟨fun h => ?_, Bool.and_eq_true_iff.mpr ⟨hon, ha⟩⟩
  simp [coreOn, h] at hon

theorem tapField_halt : f.tapField .halt = { f with sec := { f.sec with halted := true, extest := false } } := by
  obtain ⟨hp, hok⟩ := tapField_on hon ha
  rw [tapField, if_neg hp]
  exact if_pos hok

theorem tapField_resume (hu : f.unburdened = true) : f.tapField .resume = { f with sec := { f.sec with halted := false, extest := false } } := by
  obtain ⟨hp, hok⟩ := tapField_on hon ha
  obtain ⟨hb, ht, hra, hrb⟩ := unburdened_spec hu
  rw [tapField, if_neg hp]
  exact (if_pos hok).trans (linkSteps_idle ht hra hrb hb)

end

end Field
end Sys2Proof.Machine
end

section
/-! PROOF. The host die's half of Transit (R360, R361, R364, R365). -/
namespace Sys2Proof.Machine
set_option Elab.async false

namespace HDie
variable {h g k : HDie} {cls : Bool} {x : LinkHdr} {n : BitVec 16} {m : Msg} {a b : List (BitVec 16 × Msg)}

theorem half_setHalf (h : HDie) (cls : Bool) (v : Half) : (h.setHalf cls v).half cls = v := by cases cls <;> rfl

/-! ### Messages heard (R360) -/

theorem hearLink_good {ty : Byte} (go : HDie → HDie) (hl : h.linkUp = true) (hg : x.good = true) (hf : formOk x ty cls = true) :
    h.hearLink cls ty x go = go (h.countCorrected x) := by
  unfold hearLink
  extract_lets h0
  rw [if_neg (by simp [hl]), if_neg (by simp [hg]), if_pos hf]

theorem hearLink_bad (ty : Byte) (go : HDie → HDie) (hl : h.linkUp = true) (hg : x.good = false) :
    h.hearLink cls ty x go = { h with
      out := h.out ++ [linkNakOut cls (h.half cls).expect],
      trn := { h.trn with corrected := satAdd h.trn.corrected x.corrected } } := by
  unfold hearLink
  extract_lets h0
  rw [if_neg (by simp [hl]), if_pos (by simp [hg])]
  cases cls <;> rfl

theorem linkAckRow_spec (hl : h.linkUp = true) (hg : x.good = true) (hf : formOk x 0x07 cls = true)
    (hk : (h.half cls).kept = a ++ (x.ack, m) :: b) (ha : ∀ k ∈ a, k.1 ≠ x.ack) :
    let g := h.linkAckRow cls x
    g.half cls = { h.half cls with kept := b, tSent := h.t, resends := 0 } ∧ g.half (!cls) = h.half (!cls) ∧
    g.trn.corrected = satAdd h.trn.corrected x.corrected ∧ g = { h with trn := g.trn } := by
  have hack := ackHalf_covers h.t hk ha
  intro g
  have hgo : g = (h.countCorrected x).setHalf cls { h.half cls with kept := b, tSent := h.t, resends := 0 } := by
    simp only [g, linkAckRow]
    rw [hearLink_good _ hl hg hf, ← hack]
    cases cls <;> rfl
  rw [hgo]
  cases cls <;> exact ⟨rfl, rfl, rfl, rfl⟩

/-! ### Sending again (R361) -/

theorem resendMsgs_eq (h : HDie) (cls : Bool) (ks : List (BitVec 16 × Msg)) : h.resendMsgs cls ks = { h with
    out := h.out ++ ks.map (msgOut cls ((h.half cls).expect - 1)), trn := { h.trn with resends := satAdd h.trn.resends ks.length } } := by
  have again (e : BitVec 16) (l : List (BitVec 16 × Msg)) : ∀ g : HDie,
      l.foldl (fun (g : HDie) k => g.emit (msgOut cls e k)) g = { g with out := g.out ++ l.map (msgOut cls e) } := by
    induction l with
    | nil => exact fun g => by rw [List.map_nil, List.append_nil]; rfl
    | cons k l ih => exact fun g => (ih _).trans (congrArg (fun o => ({ g with out := o } : HDie)) (List.append_assoc g.out [_] _))
  unfold resendMsgs
  rw [again]
  rfl

/-- The status pages alone are told. -/
theorem tellPstate_out (h : HDie) : ∃ o, h.tellPstate = { h with out := o } := by
  have one (g : HDie) (p : Part) : ∃ o, g.statPstate p = { g with out := o } := by
    unfold statPstate statWr
    dsimp only
    split <;> exact ⟨_, rfl⟩
  unfold tellPstate forParts
  generalize parts = l
  induction l generalizing h with
  | nil => exact ⟨_, rfl⟩
  | cons p l ih =>
    obtain ⟨o, ho⟩ := one h p
    obtain ⟨o', ho'⟩ := ih (h.statPstate p)
    exact ⟨o', by rw [List.foldl_cons, ho', ho]⟩

theorem retrain_out (h : HDie) : ∃ o, h.retrain = { h with trn := { h.trn with st := .train, fieldUp := false, trainSent := false }, out := o } :=
  tellPstate_out _

theorem resendAll_spec (h : HDie) (cls : Bool) :
    let v := h.half cls
    let g := h.resendAll cls
    g.trn.resends = satAdd h.trn.resends v.kept.length ∧
    g.half cls = { v with tSent := h.t, resends := if v.resends = 7 then 0 else v.resends + 1 } ∧
    g.trn.st = (if v.resends = 7 then .train else h.trn.st) ∧ (v.resends = 7 → g.trn.fieldUp = false) ∧
    (v.resends ≠ 7 → g.out = h.out ++ v.kept.map (msgOut cls (v.expect - 1))) := by
  intro v g
  have hg : g = (let k := (h.setHalf cls { v with tSent := h.t, resends := if v.resends = 7 then 0 else v.resends + 1 }).resendMsgs cls v.kept
    if v.resends = 7 then k.retrain else k) := rfl
  rw [hg, resendMsgs_eq, half_setHalf]
  dsimp only
  by_cases h7 : v.resends = 7
  · rw [if_pos h7, if_pos h7, if_pos h7]
    generalize hk : ({ h.setHalf cls { v with tSent := h.t, resends := 0 } with
      out := _, trn := { (h.setHalf cls { v with tSent := h.t, resends := 0 }).trn with resends := _ } } : HDie) = k
    obtain ⟨o, ho⟩ := retrain_out k
    rw [ho, ← hk]
    cases cls <;> exact ⟨rfl, rfl, rfl, fun _ => rfl, fun h => absurd h7 h⟩
  · rw [if_neg h7, if_neg h7, if_neg h7]
    cases cls <;> exact ⟨rfl, rfl, rfl, fun h => absurd h h7, fun _ => rfl⟩

theorem resendTimeout_due (hl : h.linkUp = true) (hd : resendDue (h.half cls) h.t = true) : h.resendTimeout cls = h.resendAll cls :=
  if_pos (by rw [hl, hd]; rfl)

theorem linkUp_spec (hl : h.linkUp = true) : h.linkOn = true ∧ h.trn.st = .up := by simpa [linkUp] using hl

section
variable (hk : (h.half cls).kept = a ++ (n, m) :: b) (hb : ∀ k ∈ b, k.1 ≠ n - 1)
  (hc : a = [] ∨ (cls = true ∧ ∃ c j, a = c ++ [(n - 1, j)] ∧ ∀ k ∈ c, k.1 ≠ n - 1))
include hk hb hc

theorem linkNakRow_spec (hl : h.linkUp = true) (hg : x.good = true) (hf : formOk x 0x08 cls = true) :
    let r := if a = [] then (h.half cls).resends else 0
    let g := h.linkNakRow cls x n
    g.trn.resends = satAdd h.trn.resends (b.length + 1) ∧ (g.half cls).kept = (n, m) :: b ∧ (g.half cls).tSent = h.t ∧
    (g.half cls).resends = (if r = 7 then 0 else r + 1) ∧ g.trn.st = (if r = 7 then .train else .up) ∧
    (r ≠ 7 → g.out = h.out ++ ((n, m) :: b).map (msgOut cls ((h.half cls).expect - 1))) := by
  obtain ⟨hkept, hexp, hres⟩ := nakHalf h.t hk hb (hc.imp_right And.right)
  have htake : (h.countCorrected x).takeLinkAck cls (n - 1) = (h.countCorrected x).setHalf cls (ackHalf (h.half cls) (n - 1) h.t).1 := by
    cases cls <;> rfl
  generalize (ackHalf (h.half cls) (n - 1) h.t).1 = v at hkept hexp hres htake
  have hgo : h.linkNakRow cls x n = ((h.countCorrected x).setHalf cls v).resendAll cls := by
    have hfrom : keptFrom (((h.countCorrected x).setHalf cls v).half cls) n ≠ [] := by
      rw [half_setHalf, keptFrom_append (a := []) hkept (by simp)]
      exact List.cons_ne_nil _ _
    unfold linkNakRow
    rw [hearLink_good _ hl hg hf, htake]
    exact if_pos hfrom
  obtain ⟨hcount, hhalf, hst, -, hout⟩ := resendAll_spec ((h.countCorrected x).setHalf cls v) cls
  rw [half_setHalf, ← hgo] at hcount hhalf hst hout
  rw [hkept] at hcount hout
  rw [hexp] at hout
  rw [hres] at hhalf hst hout
  have hst' : ((h.countCorrected x).setHalf cls v).trn.st = .up := (by cases cls <;> rfl : _ = h.trn.st).trans (linkUp_spec hl).2
  refine ⟨?_, ?_, ?_, ?_, ?_, fun hr => ?_⟩
  · rw [hcount]; cases cls <;> rfl
  · rw [hhalf]; exact hkept
  · rw [hhalf]; cases cls <;> rfl
  · rw [hhalf]
  · rw [hst, hst']
  · rw [hout hr]; cases cls <;> rfl

end

/-! ### KEEPALIVE (R364) -/

theorem keepaliveLoss_spec (hl : h.linkUp = true) (ht : h.trn.tLast.toNat + 3000 ≤ h.t.toNat) :
    h.keepaliveLoss.trn = { h.trn with st := .train, fieldUp := false, trainSent := false } ∧
    h.keepaliveLoss = { h with trn := h.keepaliveLoss.trn, out := h.keepaliveLoss.out } := by
  obtain ⟨o, ho⟩ := retrain_out h
  rw [show h.keepaliveLoss = h.retrain from if_pos (by simp [hl, ht]), ho]
  exact ⟨rfl, rfl⟩

theorem keepaliveRow_spec (hh : h.hears true x = true) (hf : formOk x 0x05 true = true) (hk : ∀ k ∈ h.trn.ctl.kept, k.1 ≠ x.ack) :
    (h.keepaliveRow x).trn.tLast = h.t ∧ (h.keepaliveRow x).trn.ctl = { h.trn.ctl with expect := h.trn.ctl.expect + 1 } ∧
    (h.keepaliveRow x).out = h.out ++ [linkAckOut true x.seq] ∧
    h.keepaliveRow x = { h with trn := (h.keepaliveRow x).trn, out := (h.keepaliveRow x).out } := by
  have hack := ackHalf_none (h := { h.trn.ctl with expect := h.trn.ctl.expect + 1 }) h.t hk
  have hr : h.keepaliveRow x = h.took true x := recv_good _ hh hf
  have ht : h.took true x = { h with
      trn := { h.trn with
        ctl := { h.trn.ctl with expect := h.trn.ctl.expect + 1 }, corrected := satAdd h.trn.corrected x.corrected, tLast := h.t },
      out := h.out ++ [linkAckOut true x.seq] } := by
    have hset : h.took true x = ({ h with
      trn := { h.trn with corrected := satAdd h.trn.corrected x.corrected, tLast := h.t },
      out := h.out ++ [linkAckOut true x.seq] } : HDie).setHalf true (ackHalf { h.trn.ctl with expect := h.trn.ctl.expect + 1 } x.ack h.t).1 := rfl
    rw [hset, hack]
    rfl
  rw [hr, ht]
  exact ⟨rfl, rfl, rfl, rfl⟩

end HDie
end Sys2Proof.Machine
end

section
/-! PROOF. Training at the host die, and Transit's recovery on both (R360 to R365, R459, R484). -/
namespace Sys2Proof.Machine
set_option Elab.async false

namespace HDie
variable {h g k : HDie} {x : LinkHdr} {p : Part}

/-! ### What a training leaves of its own outcome -/

/-- From h to g the training's outcome stands, nothing that was sent goes, and no command enters flight. -/
structure Lasts (h g : HDie) : Prop where
  st : g.trn.st = h.trn.st
  fresh : g.trn.fresh = h.trn.fresh
  lastFresh : g.trn.lastFresh = h.trn.lastFresh
  fstWait : g.trn.fstWait = h.trn.fstWait
  dataLanes : g.trn.dataLanes = h.trn.dataLanes
  ctrlLanes : g.trn.ctrlLanes = h.trn.ctrlLanes
  owed : g.trn.owed = h.trn.owed
  stby : g.fieldStby = h.fieldStby
  out : h.out <+: g.out
  flight : ∀ p, List.Sublist (g.hp p).inflight (h.hp p).inflight

namespace Lasts

theorem trans (a : Lasts h g) (b : Lasts g k) : Lasts h k :=
  ⟨b.st.trans a.st, b.fresh.trans a.fresh, b.lastFresh.trans a.lastFresh, b.fstWait.trans a.fstWait, b.dataLanes.trans a.dataLanes,
    b.ctrlLanes.trans a.ctrlLanes, b.owed.trans a.owed, b.stby.trans a.stby, a.out.trans b.out, fun p => (b.flight p).trans (a.flight p)⟩

theorem of_handled (ht : Handled h g) : Lasts h g := by
  refine ⟨?_, ?_, ?_, ?_, ?_, ?_, ?_, ?_, ht.out, fun p => (ht.port p).flight⟩ <;> rw [ht.frame]

theorem of_tells (ht : Tells h g) : Lasts h g := of_handled (.of_tells ht)

/-- Steps that need the link up act on a link that stays up. -/
theorem foldl {α : Type} {op : HDie → α → HDie} (hop : ∀ g a, g.trn.st = .up → Lasts g (op g a)) (l : List α) (h : HDie)
    (hu : h.trn.st = .up) : Lasts h (l.foldl op h) := by
  induction l generalizing h with
  | nil => exact of_handled (.refl h)
  | cons a l ih => exact (hop h a hu).trans (ih _ ((hop h a hu).st.trans hu))

theorem resendMsgs (h : HDie) (cls : Bool) (ks : List (BitVec 16 × Msg)) : Lasts h (h.resendMsgs cls ks) := by
  rw [resendMsgs_eq]
  exact ⟨rfl, rfl, rfl, rfl, rfl, rfl, rfl, rfl, List.prefix_append _ _, fun _ => .refl _⟩

theorem takeLevel (h : HDie) (level : Byte) : Lasts h (h.takeLevel level) := by
  unfold HDie.takeLevel
  dsimp only
  split
  · have hn (u : HNvm) : Lasts h { h with nvm := u } := ⟨rfl, rfl, rfl, rfl, rfl, rfl, rfl, rfl, List.prefix_rfl, fun _ => .refl _⟩
    exact (hn _).trans (of_tells (log_tells _ _ _))
  · exact of_handled (.refl h)

/-- What waited for the link goes out, and nothing is owed any more. -/
theorem afterTrain (hu : h.trn.st = .up) : Lasts { h with trn := { h.trn with owed := 0 } } h.afterTrain := by
  unfold HDie.afterTrain
  extract_lets _ h1 h2 h3 _ h4 _ h5 h6
  have hlog (g : HDie) (r : Byte × Bytes) : Tells g (g.log r.1 r.2) := log_tells g r.1 r.2
  have l1 : Lasts { h with trn := { h.trn with owed := 0 } } h1 := foldl (fun g p hg => by
    split
    · exact of_tells ((sendRst_spec g p).1 hg).1
    · exact of_handled (.refl g)) parts _ hu
  have l2 : Lasts h1 h2 := of_tells (.foldl tellSetup_tells _ _)
  have l3 : Lasts h2 h3 := of_tells ((((tellSec_tells h2 0).trans (tellDbg_tells _)).trans (tellHold_tells _)).trans (tellThm_tells _))
  clear_value h1 h2 h3
  have l3' : Lasts h3 { h3 with trn := { h3.trn with devOwed := [] } } :=
    ⟨rfl, rfl, rfl, rfl, rfl, rfl, rfl, rfl, List.prefix_rfl, fun _ => .refl _⟩
  have l4 : Lasts { h3 with trn := { h3.trn with devOwed := [] } } h4 := of_tells (devWrs_tells _ _)
  clear_value h4
  have l4' : Lasts h4 { h4 with sec := { h4.sec with log := [] } } :=
    ⟨rfl, rfl, rfl, rfl, rfl, rfl, rfl, rfl, List.prefix_rfl, fun _ => .refl _⟩
  have l5 : Lasts { h4 with sec := { h4.sec with log := [] } } h5 := of_tells (.foldl hlog _ _)
  clear_value h5
  have l6 : Lasts h5 h6 := of_tells ((devRd_tells h5 _ _).trans (devRd_tells _ _ _))
  clear_value h6
  have l7 : Lasts h6 (h6.forParts (fun g p => ((g.syncBlock p).tellTlms p).pumpTun p)) :=
    of_handled (.forParts (fun g p => ((Handled.syncBlock g p).trans (.tellTlms _ p)).trans (.pumpTun _ p)) h6)
  exact ((((((l1.trans l2).trans l3).trans l3').trans l4).trans l4').trans l5).trans (l6.trans l7)

end Lasts

/-! ### Commands lost with a FRESH field die -/

theorem finish_gone (h : HDie) (r : CmdRef) (b : Bytes) : ∀ e ∈ ((h.finish r b).hp r.part).inflight, e.ref ≠ r := by
  have hleft : ((h.modHp r.part (fun w => { w with inflight := w.inflight.filter (fun c => c.ref ≠ r) })).hp r.part).inflight =
      (h.hp r.part).inflight.filter (fun c => c.ref ≠ r) := by rw [hp_modHp_same]
  have hgone (g : HDie) (hg : Handled (h.modHp r.part (fun w => { w with inflight := w.inflight.filter (fun c => c.ref ≠ r) })) g) :
      ∀ e ∈ (g.hp r.part).inflight, e.ref ≠ r := fun e he => by
    have hm := (hg.port r.part).flight.subset he
    rw [hleft] at hm
    simpa using (List.mem_filter.mp hm).2
  unfold finish
  exact hgone _ (.ite (fun _ => .refl _) fun _ => .toRing _ _ _ _)

theorem Handled.fieldResets (h : HDie) (p : Part) : Handled h (h.fieldResets p) :=
  .foldl (fun (k : HDie) (e : InFlight) => .complete k e.ref .fieldReset 0) _ h

theorem fieldResets_gone (g : HDie) (p : Part) {c : InFlight} (hp : c.ref.part = p) (hs : c.stage = .sent) :
    c ∉ ((g.fieldResets p).hp p).inflight := by
  subst hp
  intro hm
  have hin := ((Handled.fieldResets g c.ref.part).port _).flight.subset hm
  obtain ⟨a, b, hab⟩ := List.append_of_mem (a := c)
    (l := (g.hp c.ref.part).inflight.filter (fun c => c.stage = .sent || c.stage = .ready)) (List.mem_filter.mpr ⟨hin, by simp [hs]⟩)
  unfold fieldResets at hm
  rw [hab, List.foldl_append, List.foldl_cons] at hm
  have hrest : Handled _ _ := Handled.foldl (fun (k : HDie) (e : InFlight) => .complete k e.ref .fieldReset 0) b
    ((a.foldl (fun (g : HDie) c => g.complete c.ref .fieldReset 0) g).complete c.ref .fieldReset 0)
  exact finish_gone _ _ _ c ((hrest.port _).flight.subset hm) rfl

theorem allReset_gone (g : HDie) (p : Part) {c : InFlight} (hp : c.ref.part = p) (hs : c.stage = .sent) :
    c ∉ ((g.forParts (fun g p => g.fieldResets p)).hp p).inflight := by
  obtain ⟨a, b, hab⟩ := List.append_of_mem (mem_parts p)
  intro hm
  rw [forParts, hab, List.foldl_append, List.foldl_cons] at hm
  have hrest : Handled _ _ := Handled.foldl (fun (k : HDie) q => .fieldResets k q) b
    ((a.foldl (fun (g : HDie) p => g.fieldResets p) g).fieldResets p)
  exact fieldResets_gone _ p hp hs ((hrest.port _).flight.subset hm)

/-! ### TRAIN (R365) -/

/-- What happens before the training's outcome is set leaves what was sent and the wait for FSTATE. -/
structure Readies (h g : HDie) : Prop where
  fstWait : g.trn.fstWait = h.trn.fstWait
  out : h.out <+: g.out

theorem Readies.trans (a : Readies h g) (b : Readies g k) : Readies h k := ⟨b.fstWait.trans a.fstWait, a.out.trans b.out⟩
theorem Readies.of_handled (ht : Handled h g) : Readies h g := ⟨ht.fstWait, ht.out⟩
theorem Readies.refl (h : HDie) : Readies h h := ⟨rfl, List.prefix_rfl⟩

theorem wakeStops_spec (h : HDie) (b : Bool) : ∃ w, h.wakeStops b = { h with trn := { h.trn with wake := w } } := by
  unfold wakeStops
  split
  · exact ⟨_, rfl⟩
  · exact ⟨h.trn.wake, rfl⟩

theorem freshLink_readies (h : HDie) : Readies h h.freshLink := by
  unfold freshLink
  have hf (k : HDie) : Handled k (k.forParts (fun g p => g.modHp p (fun w => { w with block := 0 }))) := .forParts (fun g p => .modHp) k
  refine Readies.trans ?_ (.of_handled (hf _))
  exact ⟨rfl, List.prefix_rfl⟩

/-- FIELD_UP reads 1 again, and every status page says so. -/
theorem Lasts.fieldUp (h : HDie) : Lasts h ({ h with trn := { h.trn with fieldUp := true } } : HDie).tellPstate ∧
    ({ h with trn := { h.trn with fieldUp := true } } : HDie).tellPstate.trn.fieldUp = true := by
  have hup : Lasts h { h with trn := { h.trn with fieldUp := true } } :=
    ⟨rfl, rfl, rfl, rfl, rfl, rfl, rfl, rfl, List.prefix_rfl, fun _ => .refl _⟩
  have ht := Handled.tellPstate ({ h with trn := { h.trn with fieldUp := true } } : HDie)
  generalize tellPstate _ = g at ht ⊢
  exact ⟨hup.trans (.of_handled ht), ht.fieldUp⟩

/-- What a TRAIN that is taken makes of h. -/
def Trained (h g : HDie) (fresh : Bool) (masks : BitVec 12) : Prop :=
  g.trn.st = .up ∧ g.trn.fieldUp = true ∧ g.trn.fresh = false ∧ g.trn.lastFresh = fresh ∧ g.trn.fstWait = (fresh || h.trn.fstWait) ∧
  g.trn.dataLanes = bits masks 0 10 ∧ g.trn.ctrlLanes = bits masks 10 2 ∧ g.trn.owed = 0 ∧ g.fieldStby = false ∧
  (h.trn.trainSent = false → h.trainOut ∈ g.out) ∧
  (fresh = true → ∀ (p : Part) (c : InFlight), c ∈ (h.hp p).inflight → c.ref.part = p → c.stage = .sent → c ∉ (g.hp p).inflight)

theorem trainRow_spec (fresh : Bool) (masks : BitVec 12) (level : Byte) (hg : x.good = true) (hf : formOk x 0x06 true = true)
    (hd : (bits masks 0 10 : BitVec 10) ≠ 0) (hc : (bits masks 10 2 : BitVec 2) ≠ 0) (hon : h.linkOn = true) :
    Trained h (h.trainRow x fresh masks level) fresh masks := by
  unfold trainRow
  extract_lets d c h00 h01 h0 h1 h2 t2 c2 d2 h3 h4 h5
  rw [if_neg (by simp [hon, hg]), if_neg (by rw [hf]; decide), if_neg (by simpa [d, c] using ⟨hd, hc⟩)]
  obtain ⟨w, h00e⟩ : ∃ w, h00 = _ := wakeStops_spec (h.countCorrected x) true
  have hsent : h00.trn.trainSent = h.trn.trainSent := by rw [h00e]; rfl
  have hown : h00.trainOut = h.trainOut := by rw [h00e]; rfl
  have r0 : Readies h h00 := by rw [h00e]; exact ⟨rfl, List.prefix_rfl⟩
  have r1 : Readies h00 h01 := .of_handled (.ite (fun _ => .refl _) fun _ => .emit _ _)
  have r2 : Readies h01 h0 := by
    simp only [h0]
    split
    · refine Readies.trans ?_ (.of_handled (.of_tells (endDbgF_tells h01 3)))
      exact ⟨rfl, List.prefix_rfl⟩
    · exact .refl _
  have r3 : Readies h0 h1 := by
    simp only [h1]
    split
    · exact freshLink_readies h0
    · exact .refl _
  have r4 : Readies h1 h2 := .of_handled (.ite (fun _ => .forParts Handled.fieldResets _) fun _ => .refl _)
  have hout : h.trn.trainSent = false → h.trainOut ∈ h01.out := fun hs => by
    simp only [h01, hsent, hs, Bool.false_eq_true, if_false, hown]
    exact List.mem_append_right _ (List.mem_singleton.mpr rfl)
  have hgone : fresh = true → ∀ (p : Part) (c : InFlight), c.ref.part = p → c.stage = .sent → c ∉ (h2.hp p).inflight := fun hfr p c hp hs => by
    simp only [h2, hfr, if_true]
    exact allReset_gone h1 p hp hs
  have h3e : h3.trn.st = .up ∧ h3.trn.fresh = false ∧ h3.trn.lastFresh = fresh ∧ h3.trn.fstWait = (fresh || h2.trn.fstWait) ∧
    h3.trn.dataLanes = d ∧ h3.trn.ctrlLanes = c ∧ h3.fieldStby = false ∧ h3.out = h2.out ∧ h3.part = h2.part :=
    ⟨rfl, rfl, rfl, rfl, rfl, rfl, rfl, rfl, rfl⟩
  have l4 : Lasts h3 h4 := (Lasts.resendMsgs h3 true _).trans (Lasts.resendMsgs _ false _)
  clear_value h00 h01 h0 h1 h2 t2 c2 d2 h3 h4
  obtain ⟨e1, e2, e3, e4, e5, e6, e7, e8, e9⟩ := h3e
  have l5 : Lasts { h4 with trn := { h4.trn with owed := 0 } } h5 :=
    (Lasts.afterTrain (l4.st.trans e1)).trans (Lasts.takeLevel _ _)
  clear_value h5
  obtain ⟨l6, hfu⟩ := Lasts.fieldUp h5
  generalize tellPstate _ = g at l6 hfu ⊢
  have l7 := l5.trans l6
  have hflight (q : Part) : List.Sublist (g.hp q).inflight (h2.hp q).inflight := by
    have h3q : h3.hp q = h2.hp q := congrArg (fun t => tabGet HPart.reset t q.toNat) e9
    exact h3q ▸ (l7.flight q).trans (l4.flight q)
  refine ⟨l7.st.trans (l4.st.trans e1), hfu, l7.fresh.trans (l4.fresh.trans e2), l7.lastFresh.trans (l4.lastFresh.trans e3), ?_,
    l7.dataLanes.trans (l4.dataLanes.trans e5), l7.ctrlLanes.trans (l4.ctrlLanes.trans e6), l7.owed, l7.stby.trans (l4.stby.trans e7),
    fun hs => ?_, fun hfr q c _ hp hst => fun hm => hgone hfr q c hp hst ((hflight q).subset hm)⟩
  · refine (l7.fstWait.trans (l4.fstWait.trans e4)).trans ?_
    rw [r4.fstWait, r3.fstWait, r2.fstWait, r1.fstWait, r0.fstWait]
  · exact l7.out.subset (l4.out.subset (e8 ▸ ((r2.trans r3).trans r4).out.subset (hout hs)))

end HDie
theorem Field.linkNakRow_bad {f : Field} {cls : Bool} {x : LinkHdr} (n : BitVec 16) (hl : f.linkUp = true) (hg : x.good = false) :
    f.linkNakRow cls x n = { f with out := f.out ++ [linkNakOut cls (f.half cls).expect] } := hearLink_bad 0x08 _ hl hg

open HDie in
/-- Settles O51: what is kept is freed or sent again from the half alone, and a training is followed step by step on either die. -/
theorem theLinkRecovers : Obligations.TheLinkRecovers := by
  unfold Obligations.TheLinkRecovers
  intro s
  refine ⟨fun cls x m a b hg hf ha => ⟨fun hl hu hk => ⟨_, rfl, Field.linkAckRow_spec hl hu hg hf hk ha⟩,
      fun hl hk => ⟨_, rfl, HDie.linkAckRow_spec hl hg hf hk ha⟩⟩,
    fun cls x n m a b hg hf ha hb hc => ⟨fun hl hk => ?_, fun hl hk => ⟨_, rfl, HDie.linkNakRow_spec hk hb hc hl hg hf⟩⟩,
    fun cls x n hg => ⟨fun hl => ⟨⟨_, rfl, Field.hearLink_bad 0x07 _ hl hg⟩, ⟨_, rfl, Field.linkNakRow_bad n hl hg, rfl⟩⟩,
      fun hl c hc => ?_⟩,
    fun cls => ⟨fun hl hd => ?_, fun hl hd => ?_⟩, fun hon hst ht => ⟨_, rfl, if_pos (by rcases hst with h | h <;> simp [hon, h, ht])⟩,
    fun hl ht => ⟨_, rfl, HDie.keepaliveLoss_spec hl ht⟩, fun x hh hf hk => ⟨_, rfl, HDie.keepaliveRow_spec hh hf hk⟩,
    fun x fresh masks level hg hf hd hc =>
      ⟨fun hon ho hst ht hb => ⟨_, rfl, Field.trainRow_spec fresh masks level hg hf hd hc hon ho hst ht hb⟩,
        fun hon => ⟨_, rfl, HDie.trainRow_spec fresh masks level hg hf hd hc hon⟩⟩,
    fun x fresh masks level hg => ⟨⟨_, rfl, if_pos (by simp [hg])⟩, ⟨_, rfl, if_pos (by simp [hg])⟩⟩,
    fun tag b hb ht hs hl hd hw ha => ⟨_, rfl, Field.bulkTimeout_spec hb ht hs hl hd hw ha⟩, fun hon ho hst => ⟨_, rfl, ?_⟩,
    fun hon hst => ⟨_, rfl, if_pos (by simp [hon, hst])⟩, fun hp => ⟨_, rfl, Field.tapField_idcode hp⟩,
    fun hon ha => ⟨⟨_, rfl, Field.tapField_halt hon ha⟩, fun hu => ⟨_, rfl, Field.tapField_resume hon ha hu⟩⟩,
    fun off hp ha => ⟨_, rfl, Field.tapField_read_refused hp off ha⟩, fun hon => ⟨_, rfl, ?_⟩⟩
  · obtain ⟨h1, h2, h3, h4, h5, h6⟩ := Field.linkNakRow_spec hk hb hc hl hg hf
    refine ⟨_, rfl, h1, h2, h3, h4, h5, h6, ?_, rfl⟩
    rw [← Field.nakCount_eq hk ha hl hg hf]
    rfl
  · rcases hc with rfl | rfl
    · exact ⟨_, rfl, HDie.hearLink_bad 0x07 _ hl hg⟩
    · exact ⟨_, rfl, HDie.hearLink_bad 0x08 _ hl hg⟩
  · obtain ⟨heq, hcount⟩ := Field.resendTimeout_due (cls := cls) hl hd
    obtain ⟨hout, hhalf, hst, hcomm, -⟩ := Field.resendAll_spec (Field.linkUp_spec hl).2.1 cls
    rw [← heq] at hout hhalf hst hcomm
    refine ⟨_, rfl, hout, congrArg Half.tSent hhalf, ?_, fun h7 => ⟨?_, hcomm h7, ?_⟩, fun h7 => ⟨?_, ?_⟩⟩
    · rw [← hcount]; rfl
    · exact hst.trans (if_pos h7)
    · exact (congrArg Half.resends hhalf).trans (if_pos h7)
    · exact hst.trans (if_neg h7)
    · exact (congrArg Half.resends hhalf).trans (if_neg h7)
  · obtain ⟨hcount, hhalf, hst, hup, hout⟩ := HDie.resendAll_spec s.h cls
    rw [← HDie.resendTimeout_due hl hd] at hcount hhalf hst hup hout
    exact ⟨_, rfl, hcount, congrArg Half.tSent hhalf, fun h7 => ⟨hst.trans (if_pos h7), hup h7⟩,
      fun h7 => ⟨hout h7, (hst.trans (if_neg h7)).trans (HDie.linkUp_spec hl).2, (congrArg Half.resends hhalf).trans (if_neg h7)⟩⟩
  · refine (if_pos (by simp [hon, ho, hst])).trans ?_
    rw [Field.trainOut, Field.emit_msgOut]
    exact if_neg (by rw [ho]; decide)
  · beta_reduce
    simp [tapHost, hon, HDie.emit]

end Sys2Proof.Machine
end

section
/-! PROOF. Doorbells and fetching (R392 to R395): what a fetch leaves of a partition. -/
namespace Sys2Proof.Machine
set_option Elab.async false

namespace HDie
variable {h g k : HDie} {p : Part} {n m : BitVec 4}

/-! ### Submission rings -/

theorem hp_setSq (h : HDie) (p : Part) (n : BitVec 4) (v : HSq) : (h.setSq p n v).hp p = { h.hp p with sq := tabSet HSq.reset (h.hp p).sq n.toNat v } :=
  hp_modHp_same ..
theorem hp_setSq_other (h : HDie) {p q : Part} (n : BitVec 4) (v : HSq) (hq : q ≠ p) : (h.setSq p n v).hp q = h.hp q := hp_modHp_other _ _ hq.symm
theorem sq_setSq_same (h : HDie) (p : Part) (n : BitVec 4) (v : HSq) : (h.setSq p n v).sq p n = v := by
  rw [sq, hp_setSq]; exact tabGet_tabSet_same ..
theorem sq_setSq_other (h : HDie) (p : Part) (v : HSq) (hn : m ≠ n) : (h.setSq p n v).sq p m = h.sq p m := by
  rw [sq, hp_setSq]; exact tabGet_tabSet_other _ _ _ (fun e => hn (BitVec.eq_of_toNat_eq e.symm))
theorem sq_of_handled (ht : Handled h g) (p : Part) (n : BitVec 4) : g.sq p n = h.sq p n := by rw [sq, sq, ht.sqs]
theorem cq_setSq (h : HDie) (p : Part) (n m : BitVec 4) (v : HSq) : (h.setSq p n v).cq p m = h.cq p m := by rw [cq, cq, hp_setSq]

/-! ### What a fetch leaves of partition p -/

/-- From h to g descriptors are taken for p: the doorbell read and its count stand, no more than 64 commands are in flight where no more
were, and a halted ring stays halted. -/
structure Fetches (p : Part) (h g : HDie) : Prop where
  dbOut : (g.hp p).dbOut = (h.hp p).dbOut
  polls : (g.hp p).polls = (h.hp p).polls
  room : (h.hp p).inflight.length ≤ 64 → (g.hp p).inflight.length ≤ 64
  halted : ∀ n, (h.sq p n).halted = true → (g.sq p n).halted = true

namespace Fetches

theorem refl (h : HDie) : Fetches p h h := ⟨rfl, rfl, id, fun _ => id⟩

theorem trans (a : Fetches p h g) (b : Fetches p g k) : Fetches p h k :=
  ⟨b.dbOut.trans a.dbOut, b.polls.trans a.polls, fun hl => b.room (a.room hl), fun n hn => b.halted n (a.halted n hn)⟩

theorem of_handled (ht : Handled h g) : Fetches p h g := by
  have hp := ht.port p
  exact ⟨by rw [hp.same], by rw [hp.same], fun hl => hp.flight.length_le.trans hl, fun n hn => by rw [sq_of_handled ht]; exact hn⟩

theorem ite {c : Prop} [Decidable c] (a : c → Fetches p h g) (b : ¬ c → Fetches p h k) : Fetches p h (if c then g else k) := by
  split
  · exact a ‹_›
  · exact b ‹_›

theorem foldl {α : Type} {op : HDie → α → HDie} (hop : ∀ g a, Fetches p g (op g a)) (l : List α) (h : HDie) : Fetches p h (l.foldl op h) := by
  induction l generalizing h with
  | nil => exact .refl h
  | cons a l ih => exact (hop h a).trans (ih _)

theorem setSq (h : HDie) (n : BitVec 4) (v : HSq) (hv : (h.sq p n).halted = true → v.halted = true) : Fetches p h (h.setSq p n v) := by
  refine ⟨by rw [hp_setSq], by rw [hp_setSq], fun hl => by rw [hp_setSq]; exact hl, fun m hm => ?_⟩
  by_cases hn : m = n
  · subst hn; rw [sq_setSq_same]; exact hv hm
  · rw [sq_setSq_other h p v hn]; exact hm

theorem tellHalt (h : HDie) (n : BitVec 4) (w : Byte) : Fetches p h (h.tellHalt p n w) := of_handled (.devKeep h _)

theorem takeDb (h : HDie) (n : BitVec 4) (w : Word) : Fetches p h (h.takeDb p n w) := by
  unfold HDie.takeDb
  extract_lets q c t r h1
  have l1 : Fetches p h h1 := .ite (fun _ => refl h) fun hq => .ite
    (fun _ => (setSq h n _ (fun _ => rfl)).trans (tellHalt _ n 0)) fun _ => setSq h n _ id
  clear_value h1
  exact l1.trans (.ite (fun _ => refl h1) fun _ => .ite (fun _ => (of_handled (.setCq h1 p n _)).trans (tellHalt _ n 1))
    fun _ => of_handled (.setCq h1 p n _))

/-- The commands in flight change in their stage alone. -/
theorem mapFlight (h : HDie) (m : InFlight → InFlight) : Fetches p h (h.modHp p (fun w => { w with inflight := w.inflight.map m })) := by
  have hs : (h.modHp p (fun w => { w with inflight := w.inflight.map m })).hp p = { h.hp p with inflight := (h.hp p).inflight.map m } :=
    hp_modHp_same ..
  refine ⟨by rw [hs], by rw [hs], fun hl => by rw [hs]; exact (List.length_map m).le.trans hl, fun n hn => ?_⟩
  rw [sq, hs]
  exact hn

theorem startReads (h : HDie) : Fetches p h (h.startReads p) :=
  foldl (fun g _ => .ite (fun _ => refl g) fun _ => (mapFlight g _).trans (of_handled (.emit _ _))) _ h

theorem flushReady (h : HDie) : Fetches p h (h.flushReady p) :=
  foldl (fun g _ => .ite (fun _ => refl g) fun _ => (mapFlight g _).trans (of_handled (.sendCtl _ _))) _ h

theorem addFlight (h : HDie) (r : CmdRef) (d : Bytes) (num : Nat) (st : Stage2) (hr : r.part = p) (hroom : (h.hp p).inflight.length < 64) :
    Fetches p h (h.addFlight r d num st) := by
  subst hr
  have hs : (h.addFlight r d num st).hp r.part =
      { h.hp r.part with inflight := (h.hp r.part).inflight ++ [{ ref := r, desc := d, num := num, stage := st }] } := hp_modHp_same ..
  refine ⟨by rw [hs], by rw [hs], fun _ => by rw [hs]; simpa using hroom, fun n hn => ?_⟩
  rw [sq, hs]
  exact hn

theorem fenceAt (h : HDie) (r : CmdRef) (num : Nat) (mask : BitVec 16) (t : Word) (hr : r.part = p) : Fetches p h (h.fenceAt r num mask t) := by
  subst hr
  exact setSq h r.ring _ id

theorem takeDesc (h : HDie) (r : CmdRef) (d : Bytes) (num : Nat) (hr : r.part = p) (hroom : (h.hp p).inflight.length < 64) :
    Fetches p h (h.takeDesc r d num) := by
  have hadd (st : Stage2) := addFlight h r d num st hr hroom
  have hend (s : Status) (x : Nat) : Fetches p h ((h.addFlight r d num .fence).complete r s x) := (hadd _).trans (of_handled (.complete _ r s x))
  unfold HDie.takeDesc
  extract_lets h1
  split
  · exact hend _ _
  · split
    · exact hend _ _
    · refine .ite (fun _ => hend _ _) fun _ => .ite (fun _ => (hadd _).trans (fenceAt _ r _ _ _ hr)) fun _ => ?_
      subst hr
      exact .ite (fun _ => (hadd _).trans (startReads _)) fun _ => (hadd _).trans (flushReady _)

theorem lastRing (h : HDie) (n : BitVec 4) : Fetches p h (h.modHp p (fun w => { w with lastRing := n })) := by
  have hs : (h.modHp p (fun w => { w with lastRing := n })).hp p = { h.hp p with lastRing := n } := hp_modHp_same ..
  refine ⟨by rw [hs], by rw [hs], fun hl => by rw [hs]; exact hl, fun m hm => ?_⟩
  rw [sq, hs]
  exact hm

theorem takeTurn (p : Part) (n : BitVec 4) (j : Nat) (ds : List Bytes) (h : HDie) : Fetches p h (HDie.takeTurn p n j ds h).1 := by
  induction j generalizing ds h with
  | zero => exact refl h
  | succ j ih =>
    unfold HDie.takeTurn
    split
    · exact refl h
    next hm =>
      split
      · exact (setSq h n _ (fun _ => rfl)).trans (tellHalt _ n 0)
      next d r =>
        extract_lets q next h1 h2
        have hroom : (h.hp p).inflight.length < 64 := by
          simp only [mayFetch, Bool.not_eq_true', Bool.not_eq_false, Bool.and_eq_true, decide_eq_true_eq] at hm
          exact hm.1.2
        have l0 : Fetches p h h1 := setSq h n _ id
        have l1 : Fetches p h (h1.modHp p (fun w => { w with lastRing := n })) := l0.trans (lastRing h1 n)
        have l2 : Fetches p (h1.modHp p (fun w => { w with lastRing := n })) h2 :=
          takeDesc _ _ d q.taken rfl (by rw [hp_modHp_same, hp_setSq]; exact hroom)
        exact (l1.trans l2).trans (ih _ _)

theorem takeRound (p : Part) (first : BitVec 4) (s : HDie × List RingRead) : Fetches p s.1 (HDie.takeRound p first s).1 := by
  have hstep (s : HDie × List RingRead) (l : List Nat) (op : HDie × List RingRead → Nat → HDie × List RingRead)
      (hop : ∀ s i, Fetches p s.1 (op s i).1) : Fetches p s.1 (l.foldl op s).1 := by
    induction l generalizing s with
    | nil => exact refl s.1
    | cons i l ih => exact (hop s i).trans (ih _)
  unfold HDie.takeRound
  refine hstep s _ _ fun s i => ?_
  extract_lets n ds t
  split
  · exact refl s.1
  · exact (takeTurn p n 8 ds s.1).trans (of_handled (.statRing _ p n))

theorem takeRounds (p : Part) (j : Nat) (s : HDie × List RingRead) : Fetches p s.1 (HDie.takeRounds p j s) := by
  induction j generalizing s with
  | zero => exact refl s.1
  | succ j ih => exact .ite (fun _ => (takeRound p _ s).trans (ih _)) fun _ => refl s.1

end Fetches

/-! ### A halted ring (R395) -/

theorem sq_tellHalt (h : HDie) (p q : Part) (n m : BitVec 4) (w : Byte) : (h.tellHalt p n w).sq q m = h.sq q m :=
  sq_of_handled (.devKeep h _) q m

theorem takeDb_other (h : HDie) (p : Part) (w : Word) (hn : m ≠ n) : (h.takeDb p n w).sq p m = h.sq p m := by
  have hcq (k : HDie) (v : HCq) : (k.setCq p n v).sq p m = k.sq p m := sq_of_handled (.setCq k p n v) p m
  unfold takeDb
  extract_lets q c t r h1
  have h1e : h1.sq p m = h.sq p m := by
    simp only [h1]
    split
    · rfl
    · split
      · rw [sq_tellHalt, sq_setSq_other h p _ hn]
      · rw [sq_setSq_other h p _ hn]
  clear_value h1
  split
  · exact h1e
  · split
    · rw [sq_tellHalt, hcq, h1e]
    · rw [hcq, h1e]

theorem takeDb_halts (h : HDie) (p : Part) (n : BitVec 4) (w : Word) (hs : (h.sq p n).size ≠ 0) (hh : (h.sq p n).halted = false)
    (hb : ringN (h.sq p n).size ≤ (bits w 0 16 : BitVec 16).toNat) : ((h.takeDb p n w).sq p n).halted = true := by
  have hcq (k : HDie) (v : HCq) : (k.setCq p n v).sq p n = k.sq p n := sq_of_handled (.setCq k p n v) p n
  unfold takeDb
  extract_lets q c t r h1
  have h1e : (h1.sq p n).halted = true := by
    simp only [h1]
    rw [if_neg (by simpa [q, hh] using hs), if_pos hb, sq_tellHalt, sq_setSq_same]
  clear_value h1
  split
  · exact h1e
  · split
    · rw [sq_tellHalt, hcq]; exact h1e
    · rw [hcq]; exact h1e

/-- The words of a doorbell page are taken ring by ring. -/
def takeDbs (h : HDie) (p : Part) (db : List Word) (l : List Nat) : HDie :=
  l.foldl (fun (g : HDie) i => g.takeDb p (BitVec.ofNat 4 i) (db.getD i 0)) h

theorem Fetches.takeDbs (h : HDie) (p : Part) (db : List Word) (l : List Nat) : Fetches p h (h.takeDbs p db l) :=
  .foldl (fun g _ => .takeDb g _ _) l h

theorem takeDbs_past (h : HDie) (p : Part) (db : List Word) {l : List Nat} (hl : ∀ i ∈ l, BitVec.ofNat 4 i ≠ n) :
    (h.takeDbs p db l).sq p n = h.sq p n := by
  induction l generalizing h with
  | nil => rfl
  | cons i l ih =>
    obtain ⟨hi, hl⟩ := List.forall_mem_cons.mp hl
    exact (ih _ hl).trans (takeDb_other h p _ hi.symm)

theorem takeDbs_halts (h : HDie) (p : Part) (n : BitVec 4) (db : List Word) (hs : (h.sq p n).size ≠ 0) (hh : (h.sq p n).halted = false)
    (hb : ringN (h.sq p n).size ≤ (bits (db.getD n.toNat 0) 0 16 : BitVec 16).toNat) :
    ((h.takeDbs p db (List.range 16)).sq p n).halted = true := by
  obtain ⟨a, b, hab⟩ := List.append_of_mem (List.mem_range.mpr (show n.toNat < 16 from n.isLt))
  have ha : ∀ i ∈ a, BitVec.ofNat 4 i ≠ n := fun i hi he => by
    have hlt : i < 16 := List.mem_range.mp (hab ▸ List.mem_append_left _ hi)
    have hnd : (a ++ n.toNat :: b).Nodup := hab ▸ List.nodup_range
    have hin : i = n.toNat := by rw [← he, BitVec.toNat_ofNat, Nat.mod_eq_of_lt hlt]
    exact (List.nodup_append.mp hnd).2.2 i hi n.toNat List.mem_cons_self hin
  have hpast := takeDbs_past h p db ha
  have hself : BitVec.ofNat 4 n.toNat = n := BitVec.ofNat_toNat .. |>.trans (BitVec.setWidth_eq n)
  have hhalt := takeDb_halts (h.takeDbs p db a) p n (db.getD n.toNat 0) (by rw [hpast]; exact hs) (by rw [hpast]; exact hh)
    (by rw [hpast]; exact hb)
  rw [takeDbs, hab, List.foldl_append, List.foldl_cons, hself]
  exact (Fetches.takeDbs _ p db b).halted n hhalt

/-! ### DESCRIPTOR_FETCH -/

/-- The start of a payload read leaves the rings. -/
theorem sq_startReads (h : HDie) (p : Part) (n : BitVec 4) : (h.startReads p).sq p n = h.sq p n := by
  unfold startReads
  generalize (h.hp p).inflight.filter (fun c => decide (c.stage = Stage2.queued)) = l
  induction l generalizing h with
  | nil => rfl
  | cons c l ih =>
    refine (ih _).trans ?_
    dsimp only
    split
    · rfl
    · rw [sq, hp_emit, hp_modHp_same]
      rfl

theorem descriptorFetch_spec (db : List Word) (reads : List RingRead) (hon : h.st = .run) (hd : (h.hp p).dbOut = true) :
    ((h.descriptorFetch p db reads).hp p).dbOut = false ∧ ((h.descriptorFetch p db reads).hp p).polls = (h.hp p).polls + 1 ∧
    ((h.hp p).inflight.length ≤ 64 → ((h.descriptorFetch p db reads).hp p).inflight.length ≤ 64) ∧
    (∀ n : BitVec 4, (h.sq p n).size ≠ 0 → (h.sq p n).halted = false →
      ringN (h.sq p n).size ≤ (bits (db.getD n.toNat 0) 0 16 : BitVec 16).toNat → ((h.descriptorFetch p db reads).sq p n).halted = true) := by
  unfold descriptorFetch
  extract_lets h1 h2 h3 h4 h5
  rw [if_neg (by simp [on, hon, hd])]
  have e0 : (h1.hp p).dbOut = false ∧ (h1.hp p).polls = (h.hp p).polls + 1 ∧
      ((h.hp p).inflight.length ≤ 64 → (h1.hp p).inflight.length ≤ 64) ∧ ∀ n, h1.sq p n = h.sq p n := by
    have hf : Fetches p _ h1 := .startReads _
    refine ⟨hf.dbOut.trans ?_, hf.polls.trans ?_, fun hl => hf.room ?_, fun n => (sq_startReads _ p n).trans ?_⟩
    · rw [hp_modHp_same]
    · rw [hp_modHp_same]
    · rw [hp_modHp_same]; exact hl
    · rw [sq, hp_modHp_same]; rfl
  have l2 : Handled h1 h2 := .statWr h1 p 64 (le 4 (h1.hp p).polls)
  have e3 : h3 = h2.takeDbs p db (List.range 16) := rfl
  have l3 : Fetches p h2 h3 := .takeDbs h2 p db _
  have l4 : Fetches p h3 h4 := .of_handled (.drain h3 p)
  clear_value h1 h2 h3 h4
  have l5 : Fetches p h4 h5 := by
    simp only [h5]
    split
    · exact .takeRounds p 64 (h4, reads)
    · exact .refl h4
  clear_value h5
  have l6 : Fetches p h3 (h5.syncBlock p) := (l4.trans l5).trans (.of_handled (.syncBlock h5 p))
  have l1 : Fetches p h1 (h5.syncBlock p) := (Fetches.of_handled l2).trans (l3.trans l6)
  obtain ⟨hdb, hpolls, hroom, hsq⟩ := e0
  refine ⟨l1.dbOut.trans hdb, l1.polls.trans hpolls, fun hl => l1.room (hroom hl), fun n hs hh hb => l6.halted n ?_⟩
  have he : h2.sq p n = h.sq p n := (sq_of_handled l2 p n).trans (hsq n)
  rw [e3]
  exact takeDbs_halts h2 p n db (by rw [he]; exact hs) (by rw [he]; exact hh) (by rw [he]; exact hb)

end HDie
end Sys2Proof.Machine
end

section
/-! PROOF. Records of the host die, FENCE, payloads, moderation and ring set-up (R396 to R403). -/
namespace Sys2Proof.Machine
set_option Elab.async false

/-! ### The bytes of a completion record -/

/-- Two bytes read back as the field they were written from. -/
theorem u16_of_bytes {b : Bytes} {o : Nat} {x : BitVec 16} (h0 : u8 b o = BitVec.ofNat 8 x.toNat)
    (h1 : u8 b (o + 1) = BitVec.ofNat 8 (x.toNat / 256)) : u16 b o = x := by
  refine BitVec.eq_of_toNat_eq ?_
  have hx := x.isLt
  simp only [u16, leNat, Nat.add_zero, h0, h1, BitVec.toNat_ofNat, Nat.pow_zero, Nat.pow_one]
  omega

theorem u8_listSet_other (b : Bytes) (v : Byte) {i j : Nat} (h : i ≠ j) : u8 (listSet b i v) j = u8 b j := by
  induction b generalizing i j with
  | nil => rfl
  | cons a b ih =>
    cases i with
    | zero => cases j with
      | zero => exact absurd rfl h
      | succ j => rfl
    | succ i => cases j with
      | zero => rfl
      | succ j => exact ih (fun e => h (congrArg _ e))

namespace HDie
variable {h g k : HDie} {p : Part} {n m : BitVec 4}

/-- A completion record names its command and its status, with either PHASE. -/
theorem hostCpl_fields (r : CmdRef) (s : Status) (d : Nat) (ph : Bool) :
    u8 (withPhase (hostCpl r s d) ph) 0 = 1 ∧ u16 (withPhase (hostCpl r s d) ph) 2 = r.sqPos ∧
    u16 (withPhase (hostCpl r s d) ph) 6 = s.code := by
  have other {j : Nat} (hj : 1 ≠ j) : u8 (withPhase (hostCpl r s d) ph) j = u8 (hostCpl r s d) j := u8_listSet_other _ _ hj
  refine ⟨(other (by decide)).trans rfl, u16_of_bytes ((other (by decide)).trans rfl) ((other (by decide)).trans rfl),
    u16_of_bytes ((other (by decide)).trans rfl) ((other (by decide)).trans rfl)⟩

/-! ### Records reach host memory (R398) -/

theorem putRecord_out (h : HDie) (p : Part) (n : BitVec 4) (b : Bytes) :
    Out.hostWrite p ((h.cq p n).base + BitVec.ofNat 64 (32 * (h.cq p n).tail.toNat)) (withPhase b (h.cq p n).phase) ∈ (h.putRecord p n b).out := by
  unfold putRecord
  extract_lets c N t h1 h2
  have h1m : Out.hostWrite p (c.base + BitVec.ofNat 64 (32 * c.tail.toNat)) (withPhase b c.phase) ∈ h1.out :=
    List.mem_append_right _ (List.mem_singleton.mpr rfl)
  have l2 : Handled h1 h2 := (Handled.setCq h1 p n _).trans .modHp
  clear_value h1 h2
  exact ((Handled.statRing h2 p n).trans (.moderate _ p n)).mem_out (l2.mem_out h1m)

section
variable {r : CmdRef} {b : Bytes} (hs : (h.cq r.part r.ring).size ≠ 0) (hh : (h.cq r.part r.ring).halted = false)
include hs hh

theorem finish_out (hq : r.quiet = false ∨ u16 b 6 ≠ 0) :
    Out.hostWrite r.part ((h.cq r.part r.ring).base + BitVec.ofNat 64 (32 * (h.cq r.part r.ring).tail.toNat))
      (withPhase b (h.cq r.part r.ring).phase) ∈ (h.finish r b).out := by
  have hcq : (h.modHp r.part (fun w => { w with inflight := w.inflight.filter (fun c => c.ref ≠ r) })).cq r.part r.ring =
      h.cq r.part r.ring := by rw [cq, hp_modHp_same]; rfl
  have hno : ¬ (r.quiet && decide (u16 b 6 = 0)) = true := fun hc => by
    obtain ⟨h1, h2⟩ := Bool.and_eq_true_iff.mp hc
    rcases hq with h | h
    · rw [h] at h1; cases h1
    · exact h (of_decide_eq_true h2)
  unfold finish
  dsimp only
  rw [if_neg hno]
  unfold toRing
  dsimp only
  rw [hcq, if_neg hs, if_neg (by rw [hh]; decide)]
  have hput := putRecord_out (h.modHp r.part (fun w => { w with inflight := w.inflight.filter (fun c => c.ref ≠ r) })) r.part r.ring b
  rw [hcq] at hput
  exact hput

theorem complete_completed (hq : r.quiet = false) (s : Status) (d : Nat) : (h.complete r s d).completed r s = true := by
  obtain ⟨h1, h2, h3⟩ := hostCpl_fields r s d (h.cq r.part r.ring).phase
  exact List.any_eq_true.mpr ⟨_, finish_out hs hh (.inl hq), by simp [h1, h2, h3]⟩

end

/-! ### FENCE (R403) -/

theorem hp_addFlight (h : HDie) (r : CmdRef) (d : Bytes) (num : Nat) (st : Stage2) : (h.addFlight r d num st).hp r.part =
    { h.hp r.part with inflight := (h.hp r.part).inflight ++ [{ ref := r, desc := d, num := num, stage := st }] } := hp_modHp_same ..
theorem hp_addFlight_other (h : HDie) (r : CmdRef) (d : Bytes) (num : Nat) (st : Stage2) {q : Part} (hq : q ≠ r.part) :
    (h.addFlight r d num st).hp q = h.hp q := hp_modHp_other _ _ hq.symm
theorem sq_addFlight (h : HDie) (r : CmdRef) (d : Bytes) (num : Nat) (st : Stage2) (n : BitVec 4) :
    (h.addFlight r d num st).sq r.part n = h.sq r.part n := by rw [sq, hp_addFlight]; rfl

theorem inflight_setSq (h : HDie) (p : Part) (n : BitVec 4) (v : HSq) : ((h.setSq p n v).hp p).inflight = (h.hp p).inflight := by rw [hp_setSq]

/-- What a FENCE waits for. -/
def fenceFor (h : HDie) (r : CmdRef) (num : Nat) (mask : BitVec 16) (timeout : Word) : Fence :=
  { ref := r,
    upTo := (r.ring, num) :: (List.range 16).filterMap (fun i =>
      if BitVec.ofNat 4 i = r.ring then none else if bit mask i then some (BitVec.ofNat 4 i, h.tailNum r.part (BitVec.ofNat 4 i)) else none),
    due := if timeout = 0 then none else some (h.t + timeout.setWidth 64 * 100) }

theorem fenceAt_eq (h : HDie) (r : CmdRef) (num : Nat) (mask : BitVec 16) (timeout : Word) : h.fenceAt r num mask timeout =
    h.setSq r.part r.ring { h.sq r.part r.ring with fence := some (h.fenceFor r num mask timeout) } := rfl

/-- A ring of the mask is waited for up to its tail. -/
theorem fenceFor_mask (h : HDie) (r : CmdRef) (num : Nat) {mask : BitVec 16} (timeout : Word) (hn : n ≠ r.ring) (hb : bit mask n.toNat = true) :
    (n, h.tailNum r.part n) ∈ (h.fenceFor r num mask timeout).upTo := by
  have hself : BitVec.ofNat 4 n.toNat = n := BitVec.ofNat_toNat .. |>.trans (BitVec.setWidth_eq n)
  exact List.mem_cons_of_mem _ (List.mem_filterMap.mpr ⟨n.toNat, List.mem_range.mpr n.isLt, by rw [hself, if_neg hn, if_pos hb]⟩)

section
variable {c : CmdHdr} (mask : BitVec 16) (timeout : Word) (hon : h.st = .run) (hu : h.trn.fieldUp = true)
  (hr : h.roles c.part ≠ 0) (hf : (h.sq c.part c.ring).fence = none) (hi : (h.hp c.part).inflight.length < 64)
  (hp : 0 < h.places c.part c.ring) (hl : h.sec.life ≠ 0)
include hon hu hr hf hi hp hl

theorem fenceCmd_eq : h.fenceCmd c mask timeout =
    (((h.setSq c.part c.ring { h.sq c.part c.ring with taken := (h.sq c.part c.ring).taken + 1 }).addFlight (c.as 0x01) []
      (h.sq c.part c.ring).taken .fence).fenceAt (c.as 0x01) (h.sq c.part c.ring).taken mask timeout) := by
  have hall : (h.on && h.trn.fieldUp && decide (h.roles c.part ≠ 0) && (h.sq c.part c.ring).fence.isNone &&
      decide ((h.hp c.part).inflight.length < 64) && decide (0 < h.places c.part c.ring)) = true := by
    rw [on, hon, hu, hf, decide_eq_true hr, decide_eq_true hi, decide_eq_true hp]
    rfl
  exact (if_pos hall).trans (if_neg hl)

/-- The FENCE holds its ring, with the tails of the rings of its mask. -/
theorem fenceCmd_spec :
    (∃ F : Fence, ((h.fenceCmd c mask timeout).sq c.part c.ring).fence = some F ∧ F.ref = c.as 0x01 ∧
      (c.ring, (h.sq c.part c.ring).taken) ∈ F.upTo ∧
      F.due = (if timeout = 0 then none else some (h.t + timeout.setWidth 64 * 100)) ∧
      (∀ n, n ≠ c.ring → bit mask n.toNat = true → (n, h.tailNum c.part n) ∈ F.upTo)) ∧
    ((h.fenceCmd c mask timeout).sq c.part c.ring).taken = (h.sq c.part c.ring).taken + 1 ∧
    ((h.fenceCmd c mask timeout).hp c.part).inflight =
      (h.hp c.part).inflight ++ [⟨c.as 0x01, [], (h.sq c.part c.ring).taken, .fence⟩] ∧
    (∀ q, q ≠ c.part → (h.fenceCmd c mask timeout).hp q = h.hp q) := by
  rw [fenceCmd_eq mask timeout hon hu hr hf hi hp hl]
  generalize hv : ({ h.sq c.part c.ring with taken := (h.sq c.part c.ring).taken + 1 } : HSq) = v
  generalize hk : (h.setSq c.part c.ring v).addFlight (c.as 0x01) [] (h.sq c.part c.ring).taken .fence = k
  have hkp : (k.hp c.part).inflight = (h.hp c.part).inflight ++ [⟨c.as 0x01, [], (h.sq c.part c.ring).taken, .fence⟩] := by
    rw [← hk]
    exact (congrArg HPart.inflight (hp_addFlight (h.setSq c.part c.ring v) (c.as 0x01) [] _ _)).trans
      (congrArg (· ++ [_]) (inflight_setSq h c.part c.ring v))
  have hksq (n : BitVec 4) : k.sq c.part n = (h.setSq c.part c.ring v).sq c.part n := by
    rw [← hk]; exact sq_addFlight _ (c.as 0x01) _ _ _ n
  have hkq (q : Part) (hq : q ≠ c.part) : k.hp q = h.hp q := by
    rw [← hk]
    exact (hp_addFlight_other _ (c.as 0x01) _ _ _ hq).trans (hp_setSq_other h c.ring v hq)
  have hkt : k.t = h.t := by rw [← hk]; rfl
  have hg : k.fenceAt (c.as 0x01) (h.sq c.part c.ring).taken mask timeout = k.setSq c.part c.ring { k.sq c.part c.ring with
    fence := some (k.fenceFor (c.as 0x01) (h.sq c.part c.ring).taken mask timeout) } := fenceAt_eq ..
  rw [hg, sq_setSq_same, hp_setSq]
  refine ⟨⟨_, rfl, rfl, List.mem_cons_self, ?_, fun n hn hb => ?_⟩, ?_, hkp, fun q hq => (hp_setSq_other k c.ring _ hq).trans (hkq q hq)⟩
  · rw [← hkt]; rfl
  · have htail : k.tailNum c.part n = h.tailNum c.part n := by
      rw [tailNum, tailNum, hksq, sq_setSq_other h c.part v hn]
    exact htail ▸ fenceFor_mask k (c.as 0x01) _ timeout hn hb
  · rw [hksq, sq_setSq_same, ← hv]

end

/-- A FENCE ends: its ring proceeds, and its completion is written. -/
theorem fenceEnd_spec {F : Fence} (s : Status) (d : Nat) :
    ((h.fenceEnd F s d).sq F.ref.part F.ref.ring).fence = none ∧ (∀ c ∈ ((h.fenceEnd F s d).hp F.ref.part).inflight, c.ref ≠ F.ref) ∧
    (F.ref.quiet = false → (h.cq F.ref.part F.ref.ring).size ≠ 0 → (h.cq F.ref.part F.ref.ring).halted = false →
      (h.fenceEnd F s d).completed F.ref s = true) := by
  unfold fenceEnd
  refine ⟨?_, finish_gone _ F.ref _, fun hq hs hh => ?_⟩
  · rw [sq_of_handled (.complete _ F.ref s d), sq_setSq_same]
  · exact complete_completed (by rw [cq_setSq]; exact hs) (by rw [cq_setSq]; exact hh) hq s d

theorem fenceComplete_done {F : Fence} (hf : (h.sq p n).fence = some F) (hon : h.st = .run) (hm : h.fenceMask p F = 0) :
    h.fenceComplete p n = h.fenceEnd F .ok 0 := by
  unfold fenceComplete
  rw [hf]
  exact if_pos (by simp [on, hon, hm])

theorem fenceComplete_waits {F : Fence} (hf : (h.sq p n).fence = some F) (hm : h.fenceMask p F ≠ 0) : h.fenceComplete p n = h := by
  unfold fenceComplete
  rw [hf]
  exact if_neg (by simp [hm])

theorem fenceTimeout_due {F : Fence} {t : Count} (hf : (h.sq p n).fence = some F) (hon : h.st = .run) (hm : h.fenceMask p F ≠ 0)
    (hd : F.due = some t) (ht : t ≤ h.t) : h.fenceTimeout p n = h.fenceEnd F .fenceTimeout (h.fenceMask p F) := by
  unfold fenceTimeout
  rw [hf]
  dsimp only
  rw [hd]
  exact if_pos (by simp [on, hon, hm, ht])

/-! ### PAYLOAD_READ_DONE (R362, R396) -/

theorem flushReady_nil (hi : (h.hp p).inflight = []) : h.flushReady p = h := by unfold flushReady; rw [hi]; rfl
theorem startReads_idle (hi : ∀ c ∈ (h.hp p).inflight, c.stage ≠ .queued) : h.startReads p = h := by
  unfold startReads
  rw [List.filter_eq_nil_iff.mpr (fun c hc => by simpa using hi c hc)]
  rfl

theorem sendBulk_part (r : CmdRef) (j : Nat) : ∀ (off : Nat) (b : Bytes) (h : HDie), (sendBulk r off j b h).part = h.part := by
  induction j with
  | zero => exact fun _ _ _ => rfl
  | succ j ih =>
    intro off b h
    rw [sendBulk]
    split
    · rfl
    · exact (ih _ _ _).trans (sendDat_part h _).1

theorem flushReady_one {c : InFlight} (hi : (h.hp p).inflight = [c]) (hs : c.stage = .ready) :
    ((h.flushReady p).hp p).inflight = [{ c with stage := .sent }] ∧ ∃ q, (q, cmdMsg c.ref c.desc) ∈ (h.flushReady p).trn.ctl.kept := by
  have hno : unsentBefore (h.hp p) c = false := by rw [unsentBefore, hi]; simp
  have hg : h.flushReady p = (h.modHp p (fun w => { w with inflight := w.inflight.map (fun (e : InFlight) =>
      if e.ref = c.ref then { e with stage := Stage2.sent } else e) })).sendCtl (cmdMsg c.ref c.desc) := by
    unfold flushReady
    rw [hi, List.filter_cons_of_pos (by simp [hs]), List.filter_nil, List.foldl_cons, List.foldl_nil]
    exact if_neg (by rw [hno]; decide)
  rw [hg, sendCtl_hp, hp_modHp_same, hi]
  refine ⟨by simp only [List.map_cons, List.map_nil, if_true], sendCtl_mem _ _⟩

section
variable {c : InFlight} {pos : BitVec 16} {ok : Bool} {data : Bytes} (hon : h.st = .run) (hi : (h.hp p).inflight = [c])
  (hr : c.ref.ring = n) (hpos : c.ref.sqPos = pos) (hst : c.stage = .payload)
include hon hi hr hpos hst

theorem payloadReadDone_eq : h.payloadReadDone p n pos ok data =
    if (!ok || decide (data.length < leNat c.desc 24 4)) = true then ((h.complete c.ref .bufErr 0).flushReady p).startReads p
    else ((sendBulk c.ref 0 (leNat c.desc 24 4 / 480 + 1) (data.take (leNat c.desc 24 4)) (h.modHp p (fun w => { w with
      inflight := w.inflight.map (fun (e : InFlight) => if e.ref = c.ref then { e with stage := Stage2.ready } else e) }))).flushReady p).startReads p := by
  unfold payloadReadDone
  rw [hi, List.find?_cons_of_pos (by simp [hr, hpos, hst])]
  exact if_neg (by simp [on, hon])

theorem payloadReadDone_bad (hp : c.ref.part = p) (hb : ok = false ∨ data.length < leNat c.desc 24 4) :
    ((h.payloadReadDone p n pos ok data).hp p).inflight = [] ∧
    (c.ref.quiet = false → (h.cq p n).size ≠ 0 → (h.cq p n).halted = false → (h.payloadReadDone p n pos ok data).completed c.ref .bufErr = true) := by
  rw [payloadReadDone_eq hon hi hr hpos hst, if_pos (by rcases hb with h | h <;> simp [h])]
  subst hp hr
  have hnil : ((h.complete c.ref .bufErr 0).hp c.ref.part).inflight = [] := by
    refine List.eq_nil_iff_forall_not_mem.mpr fun e he => ?_
    have hin := ((Handled.complete h c.ref .bufErr 0).port _).flight.subset he
    rw [hi, List.mem_singleton] at hin
    exact finish_gone _ c.ref _ e he (hin ▸ rfl)
  rw [flushReady_nil hnil, startReads_idle (by rw [hnil]; exact fun c hc => (nomatch hc))]
  exact ⟨hnil, fun hq hs hh => complete_completed hs hh hq _ _⟩

theorem payloadReadDone_good (hok : ok = true) (hl : leNat c.desc 24 4 ≤ data.length) :
    ((h.payloadReadDone p n pos ok data).hp p).inflight = [{ c with stage := .sent }] ∧
    ∃ q, (q, cmdMsg c.ref c.desc) ∈ (h.payloadReadDone p n pos ok data).trn.ctl.kept := by
  rw [payloadReadDone_eq hon hi hr hpos hst, if_neg (by simp [hok, hl])]
  have hready : ((h.modHp p (fun w => { w with
      inflight := w.inflight.map (fun (e : InFlight) => if e.ref = c.ref then { e with stage := Stage2.ready } else e) })).hp p).inflight =
      [{ c with stage := .ready }] := by
    rw [hp_modHp_same, hi]
    simp only [List.map_cons, List.map_nil, if_true]
  generalize h.modHp p _ = k at hready ⊢
  have hpart := sendBulk_part c.ref (leNat c.desc 24 4 / 480 + 1) 0 (data.take (leNat c.desc 24 4)) k
  generalize sendBulk _ _ _ _ k = g at hpart ⊢
  have hg : (g.hp p).inflight = [{ c with stage := .ready }] := by rw [hp, hpart]; exact hready
  obtain ⟨hsent, hmsg⟩ := flushReady_one hg rfl
  rw [startReads_idle (by rw [hsent]; exact fun e he => by rw [List.mem_singleton.mp he]; exact nofun)]
  exact ⟨hsent, hmsg⟩

end

/-! ### MSIX_TIMER_EXPIRY (R401) -/

theorem hp_setCq (h : HDie) (p : Part) (n : BitVec 4) (v : HCq) : (h.setCq p n v).hp p = { h.hp p with cq := tabSet HCq.reset (h.hp p).cq n.toNat v } :=
  hp_modHp_same ..
theorem cq_setCq_same (h : HDie) (p : Part) (n : BitVec 4) (v : HCq) : (h.setCq p n v).cq p n = v := by
  rw [cq, hp_setCq]; exact tabGet_tabSet_same ..

theorem sendMsix_spec (h : HDie) (p : Part) (vec : BitVec 6) :
    let e := tabGet Msix.reset (h.hp p).msix vec.toNat
    ((h.hp p).msixOn = true → (h.hp p).msixMask = false → e.mask = false →
      (h.sendMsix p vec).out = h.out ++ [Out.msix p vec e.addr e.data] ∧ bit ((h.sendMsix p vec).hp p).pba vec.toNat = false) ∧
    ((h.hp p).msixOn = true → (h.hp p).msixMask = true ∨ e.mask = true →
      (h.sendMsix p vec).out = h.out ∧ bit ((h.sendMsix p vec).hp p).pba vec.toNat = true) ∧
    ((h.hp p).msixOn = false → (h.sendMsix p vec).out = h.out ∧ ((h.sendMsix p vec).hp p).pba = (h.hp p).pba) := by
  intro e
  refine ⟨fun hon hf hm => ?_, fun hon hm => ?_, fun hon => ?_⟩
  · have hg : h.sendMsix p vec = (h.setHp p { h.hp p with pba := (h.hp p).pba &&& ~~~((1 : BitVec 64) <<< vec.toNat) }).emit
        (.msix p vec e.addr e.data) := (if_neg (by rw [hon]; decide)).trans (if_neg (by rw [hf]; simpa [e] using hm))
    rw [hg, hp_emit, hp_setHp_same]
    exact ⟨rfl, (bit_clear _ _ _).trans (by simp)⟩
  · have hg : h.sendMsix p vec = h.setHp p { h.hp p with pba := (h.hp p).pba ||| (1 : BitVec 64) <<< vec.toNat } :=
      (if_neg (by rw [hon]; decide)).trans (if_pos (Bool.or_eq_true_iff.mpr hm))
    rw [hg, hp_setHp_same]
    exact ⟨rfl, (bit_set _ _ _).trans (by simp [show vec.toNat < 64 from vec.isLt])⟩
  · have hg : h.sendMsix p vec = h := if_pos (by rw [hon]; rfl)
    rw [hg]
    exact ⟨rfl, rfl⟩

theorem msixTimer_spec (hon : h.st = .run) (hs : (h.cq p n).size ≠ 0) (hc : (h.cq p n).count ≠ 0) (ht : (h.cq p n).timer ≠ 0)
    (hp : (h.cq p n).p ≠ 0) (hd : (h.cq p n).tP.toNat + 100 * (h.cq p n).timer.toNat ≤ h.t.toNat) :
    let c := h.cq p n
    let e := tabGet Msix.reset (h.hp p).msix c.vec.toNat
    (h.msixTimer p n).cq p n = { c with p := 0 } ∧ (∀ q, q ≠ p → (h.msixTimer p n).hp q = h.hp q) ∧
    ((h.hp p).msixOn = true → (h.hp p).msixMask = false → e.mask = false →
      (h.msixTimer p n).out = h.out ++ [Out.msix p c.vec e.addr e.data] ∧ bit ((h.msixTimer p n).hp p).pba c.vec.toNat = false) ∧
    ((h.hp p).msixOn = true → (h.hp p).msixMask = true ∨ e.mask = true →
      (h.msixTimer p n).out = h.out ∧ bit ((h.msixTimer p n).hp p).pba c.vec.toNat = true) ∧
    ((h.hp p).msixOn = false → (h.msixTimer p n).out = h.out ∧ ((h.msixTimer p n).hp p).pba = (h.hp p).pba) := by
  intro c e
  have hg : h.msixTimer p n = (h.setCq p n { c with p := 0 }).sendMsix p c.vec := by
    have hall : (h.on && decide (c.size ≠ 0) && decide (c.count ≠ 0) && decide (c.timer ≠ 0) && decide (c.p ≠ 0) &&
        decide (c.tP.toNat + 100 * c.timer.toNat ≤ h.t.toNat)) = true := by
      rw [on, hon, decide_eq_true hs, decide_eq_true hc, decide_eq_true ht, decide_eq_true hp, decide_eq_true hd]
      rfl
    exact if_pos hall
  have hpba := sendMsix_pba (h.setCq p n { c with p := 0 }) p c.vec
  have hspec := sendMsix_spec (h.setCq p n { c with p := 0 }) p c.vec
  have hk := hp_setCq h p n { c with p := 0 }
  have hcq := cq_setCq_same h p n { c with p := 0 }
  have hother (q : Part) (hq : q ≠ p) : (h.setCq p n { c with p := 0 }).hp q = h.hp q := hp_modHp_other _ _ hq.symm
  have hout : (h.setCq p n { c with p := 0 }).out = h.out := rfl
  rw [hg]
  generalize h.setCq p n { c with p := 0 } = k at hpba hspec hk hcq hother hout ⊢
  rw [hk, hout] at hspec
  refine ⟨?_, fun q hq => (hpba.other q hq).trans (hother q hq), hspec⟩
  rw [cq, hpba.same]
  exact hcq

/-! ### RING_CFG_WRITE (R397) -/

theorem statWr_hp (h : HDie) (p : Part) (o : Nat) (b : Bytes) (q : Part) : (h.statWr p o b).hp q = h.hp q :=
  congrArg (fun t => tabGet HPart.reset t q.toNat) (statWr_part h p o b)

theorem hp_syncBlock (h : HDie) (p : Part) : ∃ b, (h.syncBlock p).hp p = { h.hp p with block := b } := by
  obtain ⟨b, ht | he⟩ := syncBlock_spec h p
  · exact ⟨b, by rw [ht.hp, hp_modHp_same]⟩
  · exact ⟨(h.hp p).block, by rw [he]⟩

/-- A size that a ring which is off takes. -/
theorem sizeOk_on {z : BitVec 5} (h6 : 6 ≤ z.toNat) (h16 : z.toNat ≤ 16) : (decide ((0 : BitVec 5) = z) || !sizeOk 0 z) = false := by
  have hz : (0 : BitVec 5) ≠ z := fun e => by rw [← e] at h6; exact absurd h6 (by decide)
  simp only [sizeOk, decide_eq_false hz, decide_eq_true h6, decide_eq_true h16, decide_true, Bool.true_and, Bool.or_true, Bool.true_or,
    Bool.not_true, Bool.false_or]

theorem ne_zero_of_six {z : BitVec 5} (h6 : 6 ≤ z.toNat) : z ≠ 0 := fun e => by rw [e] at h6; exact absurd h6 (by decide)

section
variable {v : Word} (hon : h.linkOn = true)
include hon

theorem ringCfg_sq_on (h6 : 6 ≤ (bits v 0 5 : BitVec 5).toNat) (h16 : (bits v 0 5 : BitVec 5).toNat ≤ 16) (hs : (h.sq p n).size = 0) :
    (h.ringCfg p false n v).sq p n = { h.sq p n with size := bits v 0 5, head := 0, tail := 0, halted := false } ∧
    ((h.ringCfg p false n v).hp p).polls = 0 := by
  unfold ringCfg
  extract_lets s c _ h1 q h2
  rw [if_neg (by rw [hon]; decide), if_neg (by decide), if_neg (by rw [hs, sizeOk_on h6 h16]; decide), if_neg (ne_zero_of_six h6)]
  have hk : ((h2.modHp p (fun w => { w with polls := 0 })).hp p).sq = (h2.hp p).sq := by rw [hp_modHp_same]
  rw [sq, statRing, statWr_hp, hk]
  refine ⟨sq_setSq_same h p n _, ?_⟩
  rw [hp_modHp_same]

theorem ringCfg_cq_on (h6 : 6 ≤ (bits v 0 5 : BitVec 5).toNat) (h16 : (bits v 0 5 : BitVec 5).toNat ≤ 16) (hs : (h.cq p n).size = 0) :
    (h.ringCfg p true n v).cq p n =
      { h.cq p n with size := bits v 0 5, tail := 0, head := 0, phase := true, halted := false, p := 0 } ∧
    ((h.ringCfg p true n v).hp p).polls = 0 := by
  unfold ringCfg
  extract_lets s c _ h1 q h2
  rw [if_neg (by rw [hon]; decide), if_pos rfl, if_neg (by rw [hs, sizeOk_on h6 h16]; decide), if_neg (ne_zero_of_six h6)]
  have hk : ((h1.modHp p (fun w => { w with polls := 0 })).statRing p n).hp p = { h1.hp p with polls := 0 } := by
    rw [statRing, statWr_hp, hp_modHp_same]
  obtain ⟨b, hb⟩ := hp_syncBlock ((h1.modHp p (fun w => { w with polls := 0 })).statRing p n) p
  rw [cq, hb, hk]
  exact ⟨cq_setCq_same h p n _, rfl⟩

theorem ringCfg_sq_other (h6 : 6 ≤ (bits v 0 5 : BitVec 5).toNat) (hs : (h.sq p n).size ≠ 0) (hne : (h.sq p n).size ≠ bits v 0 5) :
    h.ringCfg p false n v = h := by
  have hno : sizeOk (h.sq p n).size (bits v 0 5) = false := by
    simp only [sizeOk, decide_eq_false (ne_zero_of_six h6), decide_eq_false hs, decide_eq_false hne, Bool.false_and, Bool.or_false]
  unfold ringCfg
  extract_lets s c _ h1 q h2
  rw [if_neg (by rw [hon]; decide), if_neg (by decide), if_pos (by rw [hno]; simp)]

theorem ringCfg_sq_off (hz : (bits v 0 5 : BitVec 5) = 0) (hs : (h.sq p n).size ≠ 0) : h.ringCfg p false n v = h.setSq p n (sqOff (h.sq p n)) := by
  have hno : (decide ((h.sq p n).size = bits v 0 5) || !sizeOk (h.sq p n).size (bits v 0 5)) = false := by
    rw [hz, decide_eq_false hs]
    rfl
  unfold ringCfg
  extract_lets s c _ h1 q h2
  rw [if_neg (by rw [hon]; decide), if_neg (by decide), if_neg (by rw [hno]; decide), if_pos hz]

end

end HDie
end Sys2Proof.Machine
end

section
/-! PROOF. CPL, EVT and HWRITE (R398, R399), and the rings as a whole. -/
namespace Sys2Proof.Machine
set_option Elab.async false

namespace HDie
variable {h g : HDie} {p : Part} {n : BitVec 4} {b : Bytes}

/-! ### Event records (R399) -/

theorem putRecord_evtSeq (h : HDie) (p : Part) (n : BitVec 4) (b : Bytes) : ((h.putRecord p n b).hp p).evtSeq = (h.hp p).evtSeq := by
  have hmod (k : HDie) : ((k.moderate p n).hp p).evtSeq = (k.hp p).evtSeq := by
    have hset (v : HCq) : ((k.setCq p n v).hp p).evtSeq = (k.hp p).evtSeq := by rw [hp_setCq]
    unfold moderate
    extract_lets c c1
    split
    · rw [(sendMsix_pba _ p _).same]
      exact hset _
    · exact hset _
  unfold putRecord
  extract_lets c N t h1 h2
  rw [hmod, statRing, statWr_hp]
  simp only [h2, h1]
  rw [hp_modHp_same, hp_setCq, hp_emit]

theorem putEvent_spec (h : HDie) (p : Part) (n : BitVec 4) (b : Bytes) : ((h.putEvent p n b).hp p).evtSeq = u16 b 2 + 1 ∧
    Out.hostWrite p ((h.cq p n).base + BitVec.ofNat 64 (32 * (h.cq p n).tail.toNat)) (withPhase b (h.cq p n).phase) ∈ (h.putEvent p n b).out := by
  unfold putEvent
  have hcq : ((h.modHp p (fun w => { w with evtSeq := u16 b 2 + 1 })).statEvt p).cq p n = h.cq p n := by
    rw [cq, statEvt, statWr_hp, hp_modHp_same]; rfl
  have hseq : (((h.modHp p (fun w => { w with evtSeq := u16 b 2 + 1 })).statEvt p).hp p).evtSeq = u16 b 2 + 1 := by
    rw [statEvt, statWr_hp, hp_modHp_same]
  generalize (h.modHp p (fun w => { w with evtSeq := u16 b 2 + 1 })).statEvt p = k at hcq hseq ⊢
  exact ⟨(putRecord_evtSeq k p n b).trans hseq, hcq ▸ putRecord_out k p n b⟩

section
variable (ht : u8 b 0 ≠ 0x3D)
include ht

/-- The ring of an event record's class. -/
theorem deliverEvt_eq : h.deliverEvt p b =
    (let n : BitVec 4 := bits (h.hp p).route (4 * Field.evtClass (u8 b 0)) 4
     if (h.cq p n).size = 0 then h.lostDisabled p
     else if ((h.cq p n).halted || decide (h.places p n = 0) || (h.hp p).waiting.any (fun e => e.1 = n)) = true then
       h.modHp p (fun w => { w with waiting := w.waiting ++ [(n, b)] })
     else h.putEvent p n b) := by
  unfold deliverEvt
  dsimp only
  rw [if_neg ht]

end

/-! ### Messages of the data class -/

/-- What the acknowledgement leaves of the partitions. -/
theorem took_ports (h : HDie) (x : LinkHdr) (p : Part) (n : BitVec 4) : (h.took false x).hp p = h.hp p ∧ (h.took false x).cq p n = h.cq p n ∧
    (h.took false x).places p n = h.places p n := by
  obtain ⟨c, d, hk⟩ := took_eq h false x
  rw [hk]
  exact ⟨rfl, rfl, rfl⟩

section
variable {x : LinkHdr} (hh : h.hears false x = true)
include hh

theorem cplRow_waits (ring : BitVec 4) (hf : formOk x 0x81 false = true) (hw : h.trn.fstWait = true) :
    (h.cplRow x ring b).trn.held = h.trn.held ++ [HeldMsg.cpl (Field.partOf x) ring b] ∧ (h.cplRow x ring b).part = h.part ∧
    (h.cplRow x ring b).out = h.out ++ [linkAckOut false x.seq] := by
  obtain ⟨c, d, hk⟩ := took_eq h false x
  have hg : h.cplRow x ring b = { h.took false x with
      trn := { (h.took false x).trn with held := (h.took false x).trn.held ++ [HeldMsg.cpl (Field.partOf x) ring b] } } :=
    (recv_good _ hh hf).trans (if_pos (by rw [hk]; exact hw))
  rw [hg, hk]
  exact ⟨rfl, rfl, rfl⟩

variable (hb : (h.hp (Field.partOf x)).rstBusy = false) (hw : h.trn.fstWait = false)
include hb hw

omit hh in
/-- A message that does not wait is acted on. -/
theorem data_now (m : HeldMsg) : (h.took false x).data m = (h.took false x).takeData m ∧
    ((h.took false x).hp (Field.partOf x)).rstBusy = false := by
  obtain ⟨c, d, hk⟩ := took_eq h false x
  exact ⟨if_neg (by rw [hk]; exact fun e => Bool.false_ne_true (hw.symm.trans e)), by rw [hk]; exact hb⟩

theorem hwriteRow_now (addr : BitVec 64) (data : Bytes) (hf : formOk x 0x83 false = true) :
    (h.hwriteRow x addr data).out = h.out ++ [linkAckOut false x.seq, Out.hostWrite (Field.partOf x) addr data] ∧
    (h.hwriteRow x addr data).part = h.part := by
  obtain ⟨hnow, hbusy⟩ := data_now hb hw (.hwrite (Field.partOf x) addr data)
  obtain ⟨c, d, hk⟩ := took_eq h false x
  have hg : h.hwriteRow x addr data = (h.took false x).emit (.hostWrite (Field.partOf x) addr data) :=
    ((recv_good _ hh hf).trans hnow).trans (if_neg (by rw [hbusy]; decide))
  rw [hg, hk]
  exact ⟨List.append_assoc .., rfl⟩

theorem evtRow_now (hf : formOk x 0x82 false = true) :
    h.evtRow x [b] = ((h.took false x).deliverEvt (Field.partOf x) b).syncBlock (Field.partOf x) := by
  obtain ⟨hnow, hbusy⟩ := data_now hb hw (.evt (Field.partOf x) [b])
  exact ((recv_good _ hh hf).trans hnow).trans (if_neg (by rw [hbusy]; decide))

theorem cplRow_now {c : InFlight} (ring : BitVec 4) (hf : formOk x 0x81 false = true)
    (hc : (h.hp (Field.partOf x)).inflight.find? (fun c => decide (c.ref.ring = ring) && decide (c.ref.sqPos = u16 b 2)) = some c) :
    h.cplRow x ring b = ((h.took false x).finish c.ref b).syncBlock (Field.partOf x) := by
  obtain ⟨hnow, hbusy⟩ := data_now hb hw (.cpl (Field.partOf x) ring b)
  obtain ⟨e, d, hk⟩ := took_eq h false x
  have hc' : ((h.took false x).hp (Field.partOf x)).inflight.find? (fun c => decide (c.ref.ring = ring) && decide (c.ref.sqPos = u16 b 2)) =
      some c := by rw [hk]; exact hc
  refine ((recv_good _ hh hf).trans hnow).trans ((if_neg (by rw [hbusy]; decide)).trans ?_)
  rw [hc']

theorem cplRow_spec {c : InFlight} (ring : BitVec 4) (hf : formOk x 0x81 false = true)
    (hc : (h.hp (Field.partOf x)).inflight.find? (fun c => decide (c.ref.ring = ring) && decide (c.ref.sqPos = u16 b 2)) = some c)
    (hp : c.ref.part = Field.partOf x) :
    (∀ e ∈ ((h.cplRow x ring b).hp (Field.partOf x)).inflight, e.ref ≠ c.ref) ∧
    ((c.ref.quiet = false ∨ u16 b 6 ≠ 0) → (h.cq (Field.partOf x) ring).size ≠ 0 → (h.cq (Field.partOf x) ring).halted = false →
      Out.hostWrite (Field.partOf x) ((h.cq (Field.partOf x) ring).base + BitVec.ofNat 64 (32 * (h.cq (Field.partOf x) ring).tail.toNat))
        (withPhase b (h.cq (Field.partOf x) ring).phase) ∈ (h.cplRow x ring b).out) := by
  have hring : c.ref.ring = ring := by
    have hm := List.find?_some hc
    simp only [Bool.and_eq_true, decide_eq_true_eq] at hm
    exact hm.1
  rw [cplRow_now hh hb hw ring hf hc]
  have hcq := (took_ports h x (Field.partOf x) ring).2.1
  have hsync := Handled.syncBlock ((h.took false x).finish c.ref b) (Field.partOf x)
  subst hring
  rw [← hp] at hcq hsync ⊢
  refine ⟨fun e he => finish_gone _ c.ref b e ((hsync.port _).flight.subset he), fun hq hs hh => hsync.mem_out ?_⟩
  rw [← hcq] at hs hh ⊢
  exact finish_out hs hh hq

theorem evtRow_spec (hf : formOk x 0x82 false = true) (ht : u8 b 0 ≠ 0x3D) :
    let p := Field.partOf x
    let n : BitVec 4 := bits (h.hp p).route (4 * Field.evtClass (u8 b 0)) 4
    let g := h.evtRow x [b]
    ((h.cq p n).size = 0 → (g.hp p).lostDisabled = satAdd (h.hp p).lostDisabled 1) ∧
    ((h.cq p n).size ≠ 0 → (h.cq p n).halted = false → h.places p n ≠ 0 → (∀ e ∈ (h.hp p).waiting, e.1 ≠ n) →
      (g.hp p).evtSeq = u16 b 2 + 1 ∧
      Out.hostWrite p ((h.cq p n).base + BitVec.ofNat 64 (32 * (h.cq p n).tail.toNat)) (withPhase b (h.cq p n).phase) ∈ g.out) ∧
    ((h.cq p n).size ≠ 0 → (h.cq p n).halted = true → (g.hp p).waiting = (h.hp p).waiting ++ [(n, b)]) := by
  intro p n g
  have hg : g = _ := evtRow_now hh hb hw hf
  obtain ⟨hhp, hcq, hplaces⟩ := took_ports h x p n
  have hev := deliverEvt_eq (h := h.took false x) (p := p) ht
  rw [hhp] at hev
  obtain ⟨w, hsync⟩ := hp_syncBlock ((h.took false x).deliverEvt p b) p
  have hout := (Handled.syncBlock ((h.took false x).deliverEvt p b) p).out
  rw [← hg] at hsync hout
  generalize h.took false x = k at hhp hcq hplaces hev hsync hout
  have hev' : k.deliverEvt p b = if (k.cq p n).size = 0 then k.lostDisabled p
     else if ((k.cq p n).halted || decide (k.places p n = 0) || (h.hp p).waiting.any (fun e => e.1 = n)) = true then
       k.modHp p (fun w => { w with waiting := w.waiting ++ [(n, b)] })
     else k.putEvent p n b := hev
  rw [hcq, hplaces] at hev'
  clear_value n g p
  refine ⟨fun hs => ?_, fun hs hh hpl hwt => ?_, fun hs hh => ?_⟩
  · rw [hsync, hev', if_pos hs, lostDisabled, hp_modHp_same, hhp]
  · have hno : ((h.cq p n).halted || decide (h.places p n = 0) || (h.hp p).waiting.any (fun e => e.1 = n)) = false := by
      rw [hh, decide_eq_false hpl, List.any_eq_false.mpr (fun e he => by simpa using hwt e he)]
      rfl
    rw [if_neg hs, if_neg (by rw [hno]; decide)] at hev'
    rw [hev'] at hsync hout
    obtain ⟨h1, h2⟩ := putEvent_spec k p n b
    rw [hcq] at h2
    refine ⟨?_, hout.subset h2⟩
    have h3 := congrArg HPart.evtSeq hsync
    dsimp only at h3
    exact h3.trans h1
  · rw [hsync, hev', if_neg hs, if_pos (by rw [hh]; rfl), hp_modHp_same, hhp]

end

/-! ### DOORBELL_POLL (R392) -/

theorem doorbellPoll_spec (hon : h.st = .run) (hen : (h.hp p).en = true) (hs : serves (h.hp p) = true) (hd : (h.hp p).dbOut = false)
    (hr : requestsOut (h.hp p) < 32) (hdue : (h.hp p).dbAgain = true ∨ (h.hp p).tPoll.toNat + h.trn.pollItv.toNat ≤ h.t.toNat) :
    (h.doorbellPoll p).hp p = { h.hp p with
      dbOut := true, tPoll := if (h.hp p).tPoll.toNat + h.trn.pollItv.toNat ≤ h.t.toNat then h.t else (h.hp p).tPoll, dbAgain := false } ∧
    (h.doorbellPoll p).out = h.out ++ [Out.hostRead p (h.hp p).dbBase 64] ∧ (∀ q, q ≠ p → (h.doorbellPoll p).hp q = h.hp q) := by
  unfold doorbellPoll
  extract_lets v due
  rw [if_pos (by simpa [on, hon, v, due, hen, hs, hd, hr] using hdue), hp_emit, hp_modHp_same]
  refine ⟨?_, rfl, fun q hq => ?_⟩
  · simp only [due, v, decide_eq_true_eq]
  · rw [hp_emit, hp_modHp_other _ _ hq.symm]

end HDie

open HDie in
/-- Settles O52: each step of a ring by what it writes to host memory and to the partition. -/
theorem ringsAreServed : Obligations.RingsAreServed := by
  unfold Obligations.RingsAreServed
  intro s p
  refine ⟨fun c mask timeout hp hon hu hr hf hi hpl hl => ?_, fun n F hF hp hn hon => ?_, fun hon hen hs hd hr hdue => ⟨_, rfl, doorbellPoll_spec hon hen hs hd hr hdue⟩,
    fun db reads hon hd => ⟨_, rfl, descriptorFetch_spec db reads hon hd⟩, fun ring pos ok data c hon hi hp hr hpos hst =>
      ⟨fun hb => ⟨_, rfl, payloadReadDone_bad hon hi hr hpos hst hp hb⟩, fun hok hl => ⟨_, rfl, payloadReadDone_good hon hi hr hpos hst hok hl⟩⟩,
    fun n => ?_, fun n v => ?_,
    fun x ring b hh hf hw => ⟨_, rfl, cplRow_waits hh ring hf hw⟩, fun x hh hx hb hw => ?_⟩
  · subst hp
    exact ⟨_, rfl, fenceCmd_spec mask timeout hon hu hr hf hi hpl hl⟩
  · subst hp hn
    intro ends
    obtain ⟨h1, h2, h3⟩ := fenceEnd_spec (h := s.h) (F := F) .ok 0
    obtain ⟨k1, k2, k3⟩ := fenceEnd_spec (h := s.h) (F := F) .fenceTimeout (s.h.fenceMask F.ref.part F)
    refine ⟨fun hm => ⟨_, rfl, ?_⟩, fun hm => ⟨_, rfl, fenceComplete_waits hF hm⟩, fun t hm hd ht => ⟨_, rfl, ?_⟩⟩
    · beta_reduce
      rw [fenceComplete_done hF hon hm]
      exact ⟨h1, h2, h3⟩
    · beta_reduce
      rw [fenceTimeout_due hF hon hm hd ht]
      exact ⟨k1, k2, k3⟩
  · intro c e hon hs hc ht hp hd
    exact ⟨_, rfl, msixTimer_spec hon hs hc ht hp hd⟩
  · intro z hon
    refine ⟨fun h6 h16 => ⟨fun hs => ⟨_, rfl, ringCfg_sq_on hon h6 h16 hs⟩, fun hs => ⟨_, rfl, ringCfg_cq_on hon h6 h16 hs⟩,
      fun hs hne => ⟨_, rfl, ringCfg_sq_other hon h6 hs hne⟩⟩, fun hz hs => ⟨_, rfl, ?_⟩⟩
    beta_reduce
    rw [ringCfg_sq_off hon hz hs, sq_setSq_same]
    exact ⟨rfl, rfl, rfl⟩
  · subst hx
    refine ⟨fun ring b c hf hc hp => ⟨_, rfl, cplRow_spec hh hb hw ring hf hc hp⟩, fun b hf hne => ?_,
      fun addr data hf => ⟨_, rfl, hwriteRow_now hh hb hw addr data hf⟩⟩
    intro n
    obtain ⟨h1, h2, h3⟩ := evtRow_spec (b := b) hh hb hw hf hne
    exact ⟨fun hs => ⟨_, rfl, h1 hs⟩, fun hs hh hp hwt => ⟨_, rfl, h2 hs hh hp hwt⟩, fun hs hh => ⟨_, rfl, h3 hs hh⟩⟩

end Sys2Proof.Machine
end
